-- ==== Sys2Proof/Word.lean ====
section
/-! DEFINITION. The words of the fabric (R17, R18, R75): bytes, 64-bit registers, 64 B units, the header unit as its
fields, packets, and the sparse table that holds everything the slices repeat by number. -/

namespace Sys2Proof

/-- One byte (R17). -/
abbrev Byte := BitVec 8

/-- The contents of one 64-bit register (R23). -/
abbrev Word := BitVec 64

/-- One 64 B data unit; byte b lies in bits [8b+7:8b] (R18). -/
abbrev DataUnit := BitVec 512

/-- The header unit of a packet, one member per field of R75, lowest bits first. -/
structure Hdr where
  cmd : BitVec 8 := 0
  vc : BitVec 3 := 0
  len : BitVec 6 := 0
  flags : BitVec 7 := 0
  epoch : BitVec 8 := 0
  dest : BitVec 64 := 0
  src : BitVec 32 := 0
  routeLocal : BitVec 48 := 0
  routePkg : BitVec 24 := 0
  routeDest : BitVec 48 := 0
  tag : BitVec 16 := 0
  group : BitVec 16 := 0
  chunk : BitVec 24 := 0
  ft40 : BitVec 40 := 0
  fmt : BitVec 4 := 0
  gen : BitVec 4 := 0
  inl : BitVec 128 := 0
  hcrc : BitVec 32 := 0
  deriving DecidableEq, Repr

/-- A packet: one header unit and the data units behind it (R72). -/
structure Packet where
  hdr : Hdr
  data : List DataUnit := []
  deriving DecidableEq, Repr

/-- What the SEC-DED codes of a link find in one unit and its sideband (R143). -/
inductive LinkErr where
  | clean | corrected | unitBad | sidebandBad
  deriving DecidableEq, Repr

/-- A unit on a mesh link with its sideband (R135): TYPE, VC, LA_OUT, PHASE, SEG, HOPS, TRANSIT, the VC of a returned credit,
the 64 B unit, what the codes find (R143), and whether the reduction unit's residue check fails when this unit, or with TYPE 0 the
next unit of the input, is combined (R358). -/
structure LinkUnit where
  type : Nat
  vc : Nat := 0
  laOut : Nat := 7
  phase : Nat := 0
  seg : Nat := 0
  hops : Nat := 0
  transit : BitVec 48 := 0
  credit : Option Nat := none
  unit : DataUnit := 0
  err : LinkErr := .clean
  residue : Bool := false
  deriving DecidableEq, Repr

/-- A seam frame as received (R166): its link unit (TYPE 0 when idle), CRED, SEQ, ACK, NAK and the FCRC it carries. -/
structure SeamRx where
  body : LinkUnit
  credVc : Nat := 0
  credN : Nat := 0
  seq : Nat := 0
  ack : Nat := 0
  nak : Bool := false
  fcrc : BitVec 16 := 0
  deriving DecidableEq, Repr

/-- One unit slot of a stitch frame with its sideband (R520): TYPE (1 header, 2 data, 3 last data), VC, DL, SEG, HOPS, the unit. -/
structure StUnit where
  type : Nat
  vc : Nat := 0
  dl : Nat := 0
  seg : Nat := 0
  hops : Nat := 0
  unit : DataUnit := 0
  deriving DecidableEq, Repr

/-- A stitch frame (R518 to R522): FTYPE, the credit returned (VC, DL, N), NAK, ACK_VALID, ACK, SEQ, the unit slots of a DATA
frame, and SLOT0 of a control frame. -/
structure StFrame where
  ftype : Nat
  credVc : Nat := 0
  credDl : Nat := 0
  credN : Nat := 0
  nak : Bool := false
  ackValid : Bool := false
  ack : Nat := 0
  seq : Nat := 0
  slots : List StUnit := []
  slot0 : DataUnit := 0
  deriving DecidableEq, Repr

/-- A received stitch frame with what the receiver finds of it (R517, R518, R545): whether LCRC passes, whether it overlaps an
uncorrectable codeword, corrected codewords, corrected symbols by physical lane, its group count, and its stamp in 1/16 ns. -/
structure StRx where
  frame : StFrame
  lcrcOk : Bool := true
  uncorr : Bool := false
  corrected : Nat := 0
  syms : List (Nat × Nat) := []
  group : Nat := 0
  stamp : Nat := 0
  deriving DecidableEq, Repr

/-- What a scrubber finds in a word (R619): nothing, a single-bit error, an uncorrectable error. -/
inductive WordErr where
  | clean | single | double
  deriving DecidableEq, Repr

/-- A word that the scrubber visits (R619): an entry of table `t` of R572 with its sub-table and index, a sync object, an entry of the
group table of CE `k`, a transfer in the staging of CE `k`, or a word of a commit window. -/
inductive ScrubAt where
  | table (t sub ix : Nat)
  | object (o : Nat)
  | group (k e : Nat)
  | staging (k e tag n : Nat)
  | window (n : Nat)
  deriving DecidableEq, Repr

/-- A failure that a test names (R62, R681): a tile, a seam adapter, an engine (0 to 7 a CE, 8 the sync store, 9 the commit unit), or a
whole die. -/
inductive TestFail where
  | tile (d p : Nat)
  | seam (d i : Nat)
  | unit (d n : Nat)
  | die (d : Nat)
  deriving DecidableEq, Repr

/-- What a clock region does in one cycle of the reference (R825): no cycle begins, a cycle begins, or a stretched one does. -/
inductive Clk where
  | none | cycle | stretched
  deriving DecidableEq, Repr

/-- A queue that has a sampler (R298): the buffer a router's sampler is pointed at, or the egress queue of VC `v` at shaping
point `g`. -/
inductive SamplePoint where
  | router (p : Nat)
  | shape (g v : Nat)
  deriving DecidableEq, Repr

/-- One STREAM section of a patch (R567, R586): the target slice and the words of its stage stream (R478). -/
structure PStream where
  pkg : Nat
  die : Nat
  words : List Word
  deriving DecidableEq, Repr

/-- The STREAM sections of one patch. -/
abbrev PStreams := List PStream

/-- The failures that a test names. -/
abbrev TestFails := List TestFail

/-- Bytes in address order. -/
abbrev Bytes := List Byte

/-- The SRC field of a header (R75, R78). -/
abbrev Src := BitVec 32

/-- A table of records by number in one canonical form: keys strictly rising, and no listed record equal to the one an
unlisted number reads as. The operations are in Machine/Bits.lean. -/
structure Tbl (α : Type) where
  rows : List (Nat × α) := []
  deriving DecidableEq, Repr

end Sys2Proof
end

