-- ==== Sys2Proof/Syntax.lean ====
section
/-! DEFINITION. The commands of the block: one constructor per row of the opcode table, each with the unit it acts on and the
inputs that come with it from outside. `d` is a die, `p` a router or tile position, `i` an input or adapter, `o` an output,
`k` a collective engine or coordinator, `v` a written value. -/

namespace Sys2Proof

/-- Who writes a register, and how: the host through BAR0, else the tailor core; an access narrower than 64 bits (R24). -/
structure RegAccess where
  host : Bool := false
  narrow : Bool := false
  deriving DecidableEq, Repr

/-- One command (the rows of the opcode table, in its order). -/
inductive Instr where
  /-- Assertion of por_n or cold_rst_n puts the slice into COLD and resets all slices; secrets are kept (R829). -/
  | coldReset (d : Nat)
  /-- Each cycle of the unstretched reference, the time keeper adds 0.625 ns plus the slew term to FT (R210). -/
  | timeKeeperTick (d : Nat) (w : Clk) (e : Clk)
  /-- When FT reaches a multiple of 2,560 ns, each clock region resets its round counter and starts a new round (R231). -/
  | roundBoundary (d : Nat)
  /-- In the first cycle of a reserved slot, the router serves the SLOT unit at the head of IN_PORT's VC0, or releases the slot and counts a miss (R235). -/
  | reservedSlotStart (d : Nat) (p : Nat) (o : Nat)
  /-- Each cycle a free output grants at most one eligible request by rank, class, rotation and deficit round robin, subject to the slot guard (R272). -/
  | outputArbitration (d : Nat) (p : Nat) (o : Nat)
  /-- A header arriving at a router takes the look-ahead path or is buffered, and the router computes LA_OUT for the next router (R136). -/
  | routerHeaderArrival (d : Nat) (p : Nat) (j : Nat)
  /-- A unit and its sideband arrive on a link; SEC-DED is checked, errors are corrected, discarded or forwarded, and returned credits are taken (R143). -/
  | linkUnitArrival (d : Nat) (p : Nat) (i : Nat) (u : LinkUnit)
  /-- When a context's hold time reaches CEILING × 64 fc, it is cut off and its packets pass unreduced (R350). -/
  | contextCeiling (d : Nat) (p : Nat) (c : Nat)
  /-- A tile presents one unit of a packet on the tile port under an injection permit (R807). -/
  | tpInjectUnit (d : Nat) (p : Nat) (v : Nat) (last : Bool) (u : DataUnit)
  /-- Once a whole packet is in its injection queue and may be granted, the NI forms the route fields and injects the header (R142). -/
  | niInject (d : Nat) (att : Nat) (v : Nat)
  /-- After a route patch, ORDERED packets held for NI_ORDER_DRAIN cycles are injected on the new route (R185). -/
  | orderedDrainEnd (d : Nat) (att : Nat)
  /-- The NI delivers a unit to its tile under the tile's permit, applying the generation hold of R118 (R808). -/
  | tpDeliver (d : Nat) (p : Nat) (v : Nat)
  /-- The tile reports a new loaded generation on tp_gen, and packets held under R118 are released (R118). -/
  | tpGenLoaded (d : Nat) (p : Nat) (gen : Nat)
  /-- Read data for a tagged tile-port read arrives and is always accepted by the NI (R809). -/
  | tpReadData (d : Nat) (p : Nat) (tag : Nat)
  /-- A tile marks a local write as twin; the NI sends a twin copy when the address lies in the twin window (R810). -/
  | twinNotice (d : Nat) (p : Nat) (addr : Nat) (be : Nat) (u : DataUnit)
  /-- A posted write places its data units at DEST under the byte mask (R69). -/
  | write (d : Nat) (att : Nat) (p : Packet)
  /-- A write places its data units at DEST and is answered by ACK (R837). -/
  | writeAck (d : Nat) (att : Nat) (p : Packet)
  /-- An inline 8 B write places INLINE[415:352] at the 8 B-aligned DEST under its byte enables (R87). -/
  | write8 (d : Nat) (att : Nat) (p : Packet)
  /-- A read of 1 to 32 data units at DEST is answered by READ_DATA in address order (R815). -/
  | read (d : Nat) (att : Nat) (p : Packet)
  /-- A response to READ delivers data to the requesting engine (R87). -/
  | readData (d : Nat) (att : Nat) (p : Packet)
  /-- A completion with status reaches the requesting engine, including sync-store results and watch notifications (R89). -/
  | ack (d : Nat) (att : Nat) (p : Packet)
  /-- Sync READ returns the object's VALUE without change (R451). -/
  | syncRead (d : Nat) (h : Hdr)
  /-- Sync INIT sets VALUE, frees a lock, clears the watch with a CANCELLED notification and sets a paired half's EPOCH (R451). -/
  | syncInit (d : Nat) (h : Hdr)
  /-- Sync ADD increments a counter or semaphore, with the counter release check (R459). -/
  | syncAdd (d : Nat) (h : Hdr)
  /-- Sync ARRIVE adds a possibly combined count to a counter, with the release check, and sends no response (R461). -/
  | syncArrive (d : Nat) (h : Hdr)
  /-- Sync TAKE decrements a semaphore when enough units are available, else answers BUSY (R451). -/
  | syncTake (d : Nat) (h : Hdr)
  /-- Sync ACQUIRE takes a free lock, reporting DONE_BROKEN after a loss, or answers BUSY with the hold time (R463). -/
  | syncAcquire (d : Nat) (h : Hdr)
  /-- Sync UNLOCK frees a lock held by the sender, or answers NOT_OWNER (R463). -/
  | syncUnlock (d : Nat) (h : Hdr)
  /-- Sync SET writes FVAL of a flag (R451). -/
  | syncSet (d : Nat) (h : Hdr)
  /-- Sync SET_MAX raises FVAL to the unsigned maximum of itself and ARG0 (R451). -/
  | syncSetMax (d : Nat) (h : Hdr)
  /-- Sync WAIT arms the object's watch, replaces the sender's own watch, or is refused BUSY (R454). -/
  | syncWait (d : Nat) (h : Hdr)
  /-- Sync CANCEL clears the watch when the sender holds it, without notification (R451). -/
  | syncCancel (d : Nat) (h : Hdr)
  /-- A barrier RELEASE reaching a CE is forwarded to its abort-list neighbours and ends the BARRIER (R462). -/
  | syncRelease (d : Nat) (k : Nat) (h : Hdr)
  /-- A stage packet claims or fills a staging window, and the completed stream is checked and acknowledged (R491). -/
  | commitStage (d : Nat) (p : Packet)
  /-- A target's staging acknowledgement reaches the coordinator, which confirms, resends or abandons (R486). -/
  | commitAck (d : Nat) (k : Nat) (h : Hdr)
  /-- A CONFIRM naming T confirms a staged window if it arrives before T − GUARD, else marks it late or mismatched (R490). -/
  | confirm (d : Nat) (h : Hdr)
  /-- A target's apply or discard report reaches the recorder or coordinator (R489). -/
  | targetReport (d : Nat) (att : Nat) (h : Hdr)
  /-- The recorder's outcome reaches the coordinator, which writes its completion record and aborts the step group on SPLIT (R497). -/
  | commitOutcome (d : Nat) (k : Nat) (h : Hdr)
  /-- Non-operand collective data reaches a CE or tile member and is placed and checked (R404). -/
  | collData (d : Nat) (att : Nat) (p : Packet)
  /-- All-to-all payload reaches its destination slot and is written and checked (R421). -/
  | a2aData (d : Nat) (att : Nat) (p : Packet)
  /-- An all-to-all count packet is written to the receive counts and added to the destination's DROPPED (R420). -/
  | a2aCount (d : Nat) (att : Nat) (p : Packet)
  /-- A conditional multicast is delivered at a leaf whose leaf-mask bit is set (R367). -/
  | pour (d : Nat) (att : Nat) (p : Packet)
  /-- A resend request reaches a sender, which re-injects the transfer at or after its resend instant (R405). -/
  | chunkNack (d : Nat) (k : Nat) (h : Hdr)
  /-- A received collective abort is forwarded along the abort list, cancels send engines, frees staging, writes the record and halts the group (R424). -/
  | abort (d : Nat) (k : Nat) (h : Hdr)
  /-- A sum operand reaches a CE, which checks its span and combines it with its sibling (R329). -/
  | redSum (d : Nat) (att : Nat) (p : Packet) (residue : Bool)
  /-- A maximum operand reaches a CE and is combined with its sibling (R329). -/
  | redMax (d : Nat) (att : Nat) (p : Packet) (residue : Bool)
  /-- A minimum operand reaches a CE and is combined with its sibling (R329). -/
  | redMin (d : Nat) (att : Nat) (p : Packet) (residue : Bool)
  /-- A product operand reaches a CE and is combined with its sibling (R329). -/
  | redProd (d : Nat) (att : Nat) (p : Packet) (residue : Bool)
  /-- A bitwise AND operand reaches a CE and is combined with its sibling (R329). -/
  | redAnd (d : Nat) (att : Nat) (p : Packet) (residue : Bool)
  /-- A bitwise OR operand reaches a CE and is combined with its sibling (R329). -/
  | redOr (d : Nat) (att : Nat) (p : Packet) (residue : Bool)
  /-- A bitwise XOR operand reaches a CE and is combined with its sibling (R329). -/
  | redXor (d : Nat) (att : Nat) (p : Packet) (residue : Bool)
  /-- A die heartbeat reaches a service die's health logic and is recorded for judgement (R623). -/
  | dieHeartbeat (d : Nat) (att : Nat) (h : Hdr)
  /-- A package heartbeat reaches the far port die, and one from a package under verdict is forwarded to clear it (R626). -/
  | packageHeartbeat (d : Nat) (att : Nat) (h : Hdr)
  /-- A verdict is applied, forwarded once across the pod, sent to every CE, and fences and aborts follow (R629). -/
  | verdict (d : Nat) (att : Nat) (h : Hdr)
  /-- A suspect notice reaches the health root, which declares a package dead on two notices or a REASON 1 fence (R628). -/
  | suspect (d : Nat) (att : Nat) (h : Hdr)
  /-- A child's time request reaches its parent, which answers in the first reserved slot of the reverse flow (R221). -/
  | timeXferRequest (d : Nat) (att : Nat) (p : Packet)
  /-- A time response reaches the child, which computes theta and delay, steps or slews FT, and updates LOCK (R223). -/
  | timeXferResponse (d : Nat) (att : Nat) (p : Packet)
  /-- A self-test probe is returned by the neighbour with RETURN set, or checked by its sender on return (R614). -/
  | probe (d : Nat) (p : Nat) (i : Nat) (pk : Packet)
  /-- A generation token is passed to the tile in arrival order on its VC (R119). -/
  | genToken (d : Nat) (p : Nat) (h : Hdr)
  /-- A CSR read is performed at the addressed slice and answered by CSR_DATA (R87). -/
  | csrRead (d : Nat) (att : Nat) (p : Packet)
  /-- A CSR write is performed at the addressed slice (R87). -/
  | csrWrite (d : Nat) (att : Nat) (p : Packet)
  /-- A CSR read response with value and status reaches the requester (R89). -/
  | csrData (d : Nat) (att : Nat) (p : Packet)
  /-- A TRACE packet is written at its sink like a WRITE, or taken as a ledger submission (R732). -/
  | trace (d : Nat) (att : Nat) (p : Packet)
  /-- When the queue tail exceeds HEAD, the CE reads up to 8 descriptors and assigns operation numbers (R388). -/
  | descriptorFetch (d : Nat) (k : Nat) (e : Nat)
  /-- A fetch answered FENCED or TIMEOUT is repeated every 10 µs until data returns (R388). -/
  | descriptorFetchRetry (d : Nat) (k : Nat) (e : Nat)
  /-- A NOP descriptor completes when it starts (R393). -/
  | nop (d : Nat) (k : Nat) (e : Nat)
  /-- An all-reduce starts when its start conditions hold and delivers value(0, N − 1) to every member (R393). -/
  | allReduce (d : Nat) (k : Nat) (e : Nat)
  /-- A reduce starts and delivers the result to ROOT only (R393). -/
  | reduce (d : Nat) (k : Nat) (e : Nat)
  /-- A reduce-scatter starts and delivers segment r of the result to rank r (R393). -/
  | reduceScatter (d : Nat) (k : Nat) (e : Nat)
  /-- An all-gather starts and delivers every input in rank order to every member (R393). -/
  | allGather (d : Nat) (k : Nat) (e : Nat)
  /-- A broadcast starts and delivers ROOT's input to every member (R393). -/
  | broadcast (d : Nat) (k : Nat) (e : Nat)
  /-- An all-to-all starts and sends each fixed CAP-sized segment to its destination slot with counts (R419). -/
  | allToAll (d : Nat) (k : Nat) (e : Nat)
  /-- A variable all-to-all starts and sends the kept units of each segment from the send counts, with counts (R419). -/
  | allToAllV (d : Nat) (k : Nat) (e : Nat)
  /-- A barrier starts and applies one arrival to BAR_OBJ through a guaranteed VC0 flow (R422). -/
  | barrier (d : Nat) (k : Nat) (e : Nat)
  /-- A CE starts a chunk once its staging reservation succeeds, within WINDOW chunks (R413). -/
  | chunkStart (d : Nat) (k : Nat) (e : Nat) (tag : Nat)
  /-- A packet waiting for staging at a CE input is accepted once staging can be reserved for its chunk (R414). -/
  | stagingWaitEnd (d : Nat) (k : Nat)
  /-- A send order makes the send engine read its tile's scratchpad and inject one transfer (R381). -/
  | orderSend (d : Nat) (p : Nat)
  /-- A clear order makes the send engine write zeros to a scratchpad range (R381). -/
  | orderClear (d : Nat) (p : Nat)
  /-- A cancel order discards every queued order and uninjected packet of an operation (R381). -/
  | orderCancel (d : Nat) (p : Nat)
  /-- A send engine's completion or check report reaches its CE over the order bus (R381). -/
  | orderReport (d : Nat) (p : Nat)
  /-- A transfer incomplete CHUNK_TMO after its first packet is bad; the receiver sends CHUNK_NACK or aborts on a second failure (R405). -/
  | chunkTimeout (d : Nat) (att : Nat) (n : Nat)
  /-- At the resend instant the sender re-injects the transfer under retry (R406). -/
  | chunkResend (d : Nat) (k : Nat) (e : Nat) (tag : Nat)
  /-- When an operation makes no progress for HANG µs, the CE originates ABORT with REASON HANG (R423). -/
  | ceHang (d : Nat) (k : Nat) (e : Nat) (tag : Nat)
  /-- An operation ends at a CE and the CE writes its completion record in TAG order (R398). -/
  | operationEnd (d : Nat) (k : Nat) (e : Nat) (tag : Nat)
  /-- SKIP discards the entry's fetched descriptors with STATUS HALTED and sets HEAD to the tail (R441). -/
  | ceGroupCtlSkip (d : Nat) (k : Nat) (e : Nat)
  /-- RESUME clears the entry's halt (R441). -/
  | ceGroupCtlResume (d : Nat) (k : Nat) (e : Nat)
  /-- A write to a group-table word, which on becoming valid arms a CHANGE watch on TAIL_OBJ (R386). -/
  | ceGtDataWrite (d : Nat) (k : Nat) (v : Word)
  /-- The sync store examines held locks and cuts off those past the ceiling with BROKEN set (R464). -/
  | lockCeilingExamine (d : Nat)
  /-- A write to SYN_BREAK breaks every lock owned by the named package and die (R465). -/
  | synBreak (d : Nat) (v : Word)
  /-- A CSR write of an object's VALUE stores it, acts as INIT in SERVICE, or is ignored in MEND and STOP (R469). -/
  | synObjLoWrite (d : Nat) (o : Nat) (v : Word)
  /-- A coordinator fetches a commit request and records TOO_LATE or claims a slot and sends the streams (R493). -/
  | commitRequestFetch (d : Nat) (k : Nat)
  /-- At D = T − GUARD − CONFIRM_BOUND the coordinator abandons staging or stops sending CONFIRMs (R493). -/
  | confirmDeadline (d : Nat) (k : Nat) (n : Nat)
  /-- When no outcome arrives by T + REPORT_WAIT + OUTCOME_WAIT, the coordinator records NO_RECORD (R493). -/
  | outcomeWaitExpiry (d : Nat) (k : Nat) (n : Nat)
  /-- At T a confirmed window applies its CSR and SYNC records and sends its FABRIC writes; unconfirmed windows discard and report (R492). -/
  | commitApply (d : Nat)
  /-- At T + REPORT_WAIT the recorder decides the outcome, writes the ledger record and sends the outcome (R495). -/
  | recorderDecision (d : Nat)
  /-- The stitch egress sends the next frame: DATA with queued units under credit, or IDLE (R523). -/
  | frameTransmit (d : Nat)
  /-- A received IDLE frame delivers its CTRL credits, ACK and NAK (R519). -/
  | idleFrame (d : Nat) (f : StRx)
  /-- A received DATA frame is accepted in sequence or discarded with a NAK; its units enter the ingress buffer (R526). -/
  | dataFrame (d : Nat) (f : StRx)
  /-- A whole packet in the ingress buffer is marked by the meters and forwarded to router 12 or a CE path (R514). -/
  | ingressForward (d : Nat)
  /-- A TIME request frame is answered in the first frame after its arrival stamp is known (R548). -/
  | stitchTimeRequest (d : Nat) (f : StRx)
  /-- A TIME response frame lets the requesting port compute theta and delay (R548). -/
  | stitchTimeResponse (d : Nat) (f : StRx)
  /-- A received FENCE frame puts an UP port into FENCED (R530). -/
  | fenceFrame (d : Nat) (f : StRx)
  /-- A LANE frame asks the transmitter to move a logical lane onto a spare from SWITCH_GROUP, and is acknowledged (R531). -/
  | laneRequest (d : Nat) (f : StRx)
  /-- A LANE reply with ACK = 1 confirms the lane move (R531). -/
  | laneAck (d : Nat) (f : StRx)
  /-- A received INIT frame brings the port UP or STANDBY when the peer matches, else FAILED (R530). -/
  | initFrame (d : Nat) (f : StRx)
  /-- When FEC group lock is lost for 1 µs, the port enters RETRAIN (R527). -/
  | fecLockLoss (d : Nat)
  /-- 2 µs with no frame passing LCRC puts an UP port into FENCED (R530). -/
  | noFrameTimeout (d : Nat)
  /-- Signal present on at least 20 lanes moves the port from DETECT to EQUALISE (R530). -/
  | pmaSignalDetect (d : Nat) (lanes : Nat)
  /-- PMA lock on at least 20 lanes moves the port to ALIGN with lanes mapped; loss of lock on a lane triggers sparing (R530). -/
  | pmaLock (d : Nat) (lanes : Nat)
  /-- Alignment groups found on 20 lanes with the group count locked move the port to INIT (R530). -/
  | alignmentLock (d : Nat) (group : Nat)
  /-- 10 ms without signal in DETECT makes the port FAILED (R530). -/
  | detectTimeout (d : Nat)
  /-- Fewer than 20 lanes locked within 50 ms makes the port FAILED (R530). -/
  | equaliseTimeout (d : Nat)
  /-- 1 ms without alignment returns the port to EQUALISE, or to FAILED after the fourth attempt (R530). -/
  | alignTimeout (d : Nat)
  /-- 400 ms in RETRAIN makes the port FENCED, sending FENCE REASON 3 (R530). -/
  | retrainTimeout (d : Nat)
  /-- At the end of a window, a lane whose corrected symbols exceed SER_THRESH is spared (R531). -/
  | laneErrorWindow (d : Nat)
  /-- At SWITCH_GROUP both ends carry the lane on the spare, or the receiver retrains when no reply came (R532). -/
  | switchGroupReached (d : Nat) (group : Nat)
  /-- A write of STL_CTL.FENCE takes the port from UP or STANDBY to FENCED (R555). -/
  | stlCtlFence (d : Nat)
  /-- A write of STL_CTL.RETRAIN takes the port from FENCED or FAILED to DETECT (R555). -/
  | stlCtlRetrain (d : Nat)
  /-- Every 100 ms Kerex writes RETRAIN to each port fenced with REASON 1 until it is UP or STANDBY (R694). -/
  | portRetrainRetry (d : Nat)
  /-- A received seam frame is checked and deframed, or discarded with a NAK for go-back-N replay (R167). -/
  | seamFrame (d : Nat) (i : Nat) (f : SeamRx)
  /-- pl_state_sts reaching Active brings the seam adapter up; leaving it makes the adapter FAILED (R821). -/
  | ucieStateChange (d : Nat) (i : Nat) (active : Bool) (fullRate : Bool) (extra : Nat)
  /-- A write to SEAM_PANEL requests a panel clock change and restarts the delay of R174 (R208). -/
  | seamPanelWrite (d : Nat) (v : Word)
  /-- When a gate-list entry's duration ends, the next entry becomes current, repeating every PERIOD rounds (R245). -/
  | gateEntryEnd (d : Nat) (g : Nat)
  /-- At the armed takeover instant the pending gate bank becomes active at entry 0 (R246). -/
  | gateTakeover (d : Nat) (g : Nat)
  /-- At each refill instant a shaper latches its fields and adds RATE tokens up to DEPTH (R290). -/
  | shaperRefill (d : Nat) (g : Nat) (v : Nat)
  /-- At each refill instant a meter refills its committed and peak buckets (R294). -/
  | meterRefill (d : Nat) (g : Nat) (v : Nat)
  /-- At its slot of every (PERIOD_M1 + 1)-th round, a sampler records queue depth and head delay (R298). -/
  | queueSample (d : Nat) (pt : SamplePoint)
  /-- A write of 1 to CLEAR sets the maximum sample fields to zero (R299). -/
  | qsampleClear (d : Nat) (pt : SamplePoint) (v : Word)
  /-- At a PPS rising edge the root stamps it and steps or slews FT to a pending accepted ToD (R216). -/
  | ppsEdge (d : Nat)
  /-- After 1.1 s without a PPS edge the root enters holdover (R217). -/
  | ppsMissing (d : Nat)
  /-- A write of TIM_PTP_CMD.SUBMIT checks the buffered PTP message and accepts or rejects its ToD (R214). -/
  | ptpSubmit (d : Nat)
  /-- Every XFER_PERIOD rounds a child sends a time request to its parent in its first reserved slot (R221). -/
  | timeXferPeriod (d : Nat)
  /-- After three requests without response the slice enters holdover and may switch to ALT_PORT (R225). -/
  | parentLost (d : Nat)
  /-- A read of TIM_FT returns FT and captures its fraction into TIM_FT_FRAC (R252). -/
  | timFtRead (d : Nat)
  /-- A write to NI_GOV_CAP is clamped to its range and takes effect at the next round boundary (R319). -/
  | niGovCapWrite (d : Nat) (v : Word)
  /-- At the end of an error window, an input above its limit has its link fenced (R612). -/
  | linkSecWindowEnd (d : Nat) (p : Nat) (i : Nat)
  /-- A router's probe sequencer sends a PROBE on its next output in an idle cycle within its budget (R613). -/
  | probeSend (d : Nat) (p : Nat) (len : Nat) (seed : Word)
  /-- A probe not returned within TIMEOUT fc fails (R616). -/
  | probeTimeout (d : Nat) (p : Nat)
  /-- 1 µs after a failure the probe is repeated, and a second failure writes a record and fences (R616). -/
  | probeRepeat (d : Nat) (p : Nat)
  /-- The scrubber reads and rewrites an SRAM word, correcting or handling an uncorrectable error (R619). -/
  | scrubWord (d : Nat) (w : ScrubAt) (err : WordErr)
  /-- Every wear period Kerex inverts USE_ALT in the die's route entries that have an ALT_ROUTE (R620). -/
  | wearRotation (d : Nat)
  /-- Each TELEM_PERIOD a slice sends temperature, governor average and fault total to the head tailor (R661). -/
  | telemetrySend (d : Nat) (temp : Nat)
  /-- Every 10 µs a slice sends its die heartbeat to the active and mirror service dies (R623). -/
  | heartbeatSend (d : Nat)
  /-- At due + SLACK a missing heartbeat is judged missed, and the third miss declares the slice dead (R625). -/
  | heartbeatMiss (d : Nat) (x : Nat)
  /-- Every 100 µs the head tailor sends a package heartbeat across every UP or STANDBY port (R626). -/
  | packageHeartbeatSend
  /-- Three missed package heartbeats make the port die fence its port and send a suspect notice (R627). -/
  | packageHeartbeatMiss (d : Nat)
  /-- After a fence no darn repairs, Kerex inverts USE_ALT in affected entries by a Kerex patch (R638). -/
  | interimRoutePatch (d : Nat)
  /-- Kerex makes its own patch and runs it from PERMITTING onward (R592). -/
  | kerexPatch (t : Nat) (ss : PStreams)
  /-- When the twin window is read into staging, or the read fails, the darn posts its patches or ends LOST (R643). -/
  | twinReadComplete (d : Nat) (ok : Bool)
  /-- When the shift and the twin write complete, the darn moves to SHIFTED (R644). -/
  | shiftComplete (d : Nat)
  /-- clk_fault held 1 µs writes a CLOCK record and fences every tile and unit of the panel (R828). -/
  | clkFault (d : Nat) (panel : Nat)
  /-- The panel acknowledges the requested clock rate and resumes granting (R827). -/
  | pnlDownAck (d : Nat) (panel : Nat)
  /-- When ack has not followed req within 64 fc, the slice writes a CLOCK fault record (R827). -/
  | pnlAckTimeout (d : Nat) (panel : Nat)
  /-- A stall reaching STALL µs sets its flag and writes a WATCHDOG record (R674). -/
  | stallThreshold (d : Nat) (kind : Nat) (unit : Nat) (port : Nat)
  /-- A stall still held ESCALATE µs later writes an escalated record and may put the partition into MEND (R676). -/
  | stallEscalate (d : Nat) (kind : Nat) (unit : Nat) (port : Nat)
  /-- A window without a kick holds the tailor core in reset and stops die heartbeats (R675). -/
  | tailorWatchdog (d : Nat)
  /-- A write of KICK restarts the tailor watchdog window (R711). -/
  | mndTailorKick (d : Nat)
  /-- A write with MEND requests a mend of the named partition with CAUSE HOST (R720). -/
  | mndPartCtlMend (q : Nat)
  /-- A write with MEND and ALL starts a package mend (R693). -/
  | mndPartCtlAll
  /-- ISOLATE raises the mend hem, stops injection, frees commit windows and breaks the partition's locks (R681). -/
  | mendIsolate (q : Nat)
  /-- FLUSH empties every buffer, context, queue and CE of the partition and counts the units (R681). -/
  | mendFlush (q : Nat)
  /-- When the dump is complete, the mend proceeds to RESET (R688). -/
  | mendDump (q : Nat)
  /-- RESET resets the partition's slice logic, keeps PL state, re-initialises sync stores and restarts tailor cores (R681). -/
  | mendReset (q : Nat)
  /-- When every seam and owned HBM stack is trained, the mend proceeds to TEST (R681). -/
  | mendRetrain (q : Nat)
  /-- TEST covers failures by spares or fences, or fails a whole die (R681). -/
  | mendTest (q : Nat) (fails : TestFails)
  /-- When every slice shows LOCK, the restore patch is built (R681). -/
  | mendRelock (q : Nat)
  /-- When the restore patch is APPLIED with the log unchanged, verdicts are cleared; otherwise it is rebuilt (R681). -/
  | mendRestore (q : Nat)
  /-- At the next round boundary the mend hem is lifted and the partition returns to SERVICE (R681). -/
  | mendRejoin (q : Nat)
  /-- A dump engine reads one sample-list entry through the tile port and writes it to the dump region (R688). -/
  | dumpEntry (d : Nat)
  /-- A tile-port read unanswered for 10 µs marks the entry MISSING and later entries of the tile SKIPPED (R688). -/
  | dumpReadTimeout (d : Nat)
  /-- A dump write without ACK within 10 µs is sent once more, and a second failure marks NOWRITE (R688). -/
  | dumpWriteTimeout (d : Nat)
  /-- 200 ms after DUMP began, Kerex marks unreported entries MISSING and completes the dump (R688). -/
  | dumpEngineTimeout (q : Nat)
  /-- A write of ARM arms a global stop at MND_STOP_FT in every slice of the package (R696). -/
  | mndStopArm (d : Nat)
  /-- At its halt cycle every unit of a region holds its state and the tile port raises tp_stop (R701). -/
  | stopHalt (d : Nat) (panel : Nat)
  /-- 8 fc after the halt cycle, router inputs stop accepting units into their catch registers (R702). -/
  | catchWindowEnd (d : Nat) (panel : Nat)
  /-- A write of RELEASE ends the stop, and every partition then mends with CAUSE STOP (R706). -/
  | mndStopRelease
  /-- A write of CANCEL before T disarms the stop in every slice (R707). -/
  | mndStopCancel (d : Nat)
  /-- START with MODE 0 in COLD begins a cold pattern load (R578). -/
  | patLoadStartCold
  /-- START with MODE 1 in FIT or SERVICE begins a patch submission (R586). -/
  | patLoadStartPatch
  /-- START with MODE 2 begins copying the pattern image into the pattern areas (R583). -/
  | patLoadStartArea
  /-- ABORT stops the load or submission and returns PL state to its COLD values (R579). -/
  | patLoadAbort
  /-- An aligned write to the load port appends 8 B to the image, which is checked and hashed as it arrives (R606). -/
  | loadPortWrite (v : Word)
  /-- When verification ends and every slice has confirmed, the load is DONE and the package enters TEST, or the load fails (R578). -/
  | loadVerifyDone (ok : Bool)
  /-- Kerex checks the re-sent image's digest, writes both pattern areas and sets AREA_OK (R583). -/
  | areaCopyDone (ok0 : Bool) (ok1 : Bool)
  /-- A patch's verification ends in FAILED or in PERMITTING with PATCH_ID and an acceptance record (R588). -/
  | patchVerifyDone
  /-- When each target slice holds a permit, the coordinating package logs the patch and posts the commit request (R588). -/
  | permitsWritten (num : Nat)
  /-- A permit write is accepted only from the slice's own tailor or the package head tailor (R591). -/
  | permitWrite (d : Nat) (off : Nat) (src : Src) (v : Word)
  /-- The commit completion record is read and PAT_PATCH_RESULT.OUTCOME set (R588). -/
  | patchCompletionRead (num : Nat)
  /-- In a permit-only package, when FT passes T, the submission is DONE and the patch is logged (R588). -/
  | patchTPassed (num : Nat)
  /-- When built-in tests complete, the package moves to TRAIN or back to COLD when a failed unit has no spare (R62). -/
  | builtinTestComplete (fails : TestFails)
  /-- When seams and ports are trained and every slice shows LOCK, the package enters FIT (R227). -/
  | trainComplete
  /-- The head tailor takes the next backlog record, chains it and copies it to the mirror (R742). -/
  | ledgerChain
  /-- On the mirror's acknowledgement the record is written to the ledger ring and HEAD advances (R742). -/
  | mirrorAck
  /-- SEAL_US after the first unsealed record, or after SEAL_N records, signing of a SEAL begins (R740). -/
  | sealDue
  /-- A write of SEAL_NOW requests a SEAL record (R764). -/
  | sealNow
  /-- When signing completes, the SEAL record enters the ledger (R740). -/
  | sealSigned
  /-- The trace unit sends a TRACE packet when 8 units are full or FLUSH_US has passed (R731). -/
  | traceFlush (d : Nat)
  /-- At every COUNT_PERIOD-th round boundary a probe with COUNT_TRACE sends a COUNT record (R725). -/
  | countPeriod (d : Nat)
  /-- A write to a probe's configuration restarts its sample count (R725). -/
  | obsPrbCfgWrite (d : Nat) (n : Nat) (v : Word)
  /-- A write of CLEAR clears the statistics table (R729). -/
  | obsStatClear (d : Nat) (v : Word)
  /-- When reset is released and any zeroisation completes, the boot ROM clears its window and waits for link or image (R777). -/
  | bootResetRelease (d : Nat) (primary : Bool)
  /-- The PCIe endpoint's link coming up moves the primary boot ROM to WAIT (R777). -/
  | pcieLinkUp (d : Nat)
  /-- A write of GO in WAIT starts verification of the boot window (R777). -/
  | bootGo (d : Nat)
  /-- Verification ends; an accepted image starts both head pairs, and a rejected one returns to WAIT (R776). -/
  | bootVerifyDone (d : Nat)
  /-- SVN_ADVANCE burns fuses until SEC_SVN.MIN equals the running image's SVN (R779). -/
  | svnAdvance (d : Nat)
  /-- PROVISION checks the owner key and conditions and starts generating and writing the store contents (R783). -/
  | provision (d : Nat)
  /-- When every store is written and read back, STATE becomes PROVISIONED, or RESULT is UNREACHABLE (R783). -/
  | provisionDone (d : Nat) (ok : Bool)
  /-- ERASE zeroises the secret store without opening the debug path (R784). -/
  | erase (d : Nat)
  /-- A write of SEC_CTL.DEBUG_OPEN requests opening of the debug path (R785). -/
  | debugOpen (d : Nat)
  /-- The private TAP instruction requests opening of the debug path (R785). -/
  | dbgOpenReq (d : Nat)
  /-- Kerex reports DEBUG_OPEN and SEAL chained, and zeroisation begins (R785). -/
  | ledgerDone (d : Nat)
  /-- When the 50 ms timer expires in LEDGER, zeroisation begins (R785). -/
  | debugLedgerTimeout
  /-- When every store reads back as zeros, STATE becomes ERASED and the TAP opens (R785). -/
  | zeroiseDone
  /-- After read-back fails three times, zeroisation repeats every 1 ms (R785). -/
  | zeroiseRetry
  /-- Disagreement between the cores of a pair halts both pairs and stops die heartbeats (R770). -/
  | lockstepMismatch (d : Nat) (pairB : Bool)
  /-- A write starts a mirror fence that waits for every earlier mirrored store (R772). -/
  | tlrMirrorFence (d : Nat)
  /-- The fence completes once every earlier mirrored store is acknowledged, and MIRROR_PEND clears (R772). -/
  | mirrorFenceComplete
  /-- SEND injects the tailor's send-buffer packet with its SRC and HCRC set by hardware (R766). -/
  | tlrSend (d : Nat) (p : Packet)
  /-- A host write through an aperture becomes ORDERED WRITE and WRITE8 packets to fabric addresses (R789). -/
  | bar2Write (d : Nat) (off : Nat) (bs : Bytes)
  /-- A host read through an aperture becomes READ packets, and the host receives the data (R789). -/
  | bar2Read (d : Nat) (off : Nat) (n : Nat)
  /-- A host read unanswered within 50 µs returns all ones and records TLR_HOST_ERR (R789). -/
  | bar2ReadTimeout (d : Nat) (slot : Nat)
  /-- GO without WRITE reads a remote slice's CSR (R790). -/
  | rcsrRead (d : Nat)
  /-- GO with WRITE writes a remote slice's CSR (R790). -/
  | rcsrWrite (d : Nat)
  /-- A remote CSR access unanswered within 100 µs ends with TIMEOUT (R790). -/
  | rcsrTimeout (d : Nat)
  /-- A write of TLR_SVC_CTL.REQUEST asks for SERVICE at TLR_SVC_FT, or is refused (R780). -/
  | svcRequest
  /-- A memory controller response is accepted and reordered into READ_DATA or completes a write (R815). -/
  | mpResponse (d : Nat) (tag : Nat) (err : Bool)
  /-- A memory request without response within 10 µs fails, is answered TIMEOUT where due, and is recorded (R816). -/
  | mpTimeout (d : Nat) (tag : Nat)
  /-- The controller reports training complete for an owned HBM stack (R818). -/
  | mpTrainDone (d : Nat)
  /-- A write to any register without a row of its own stores RW fields, clears W1C bits and ignores RO fields (R26). -/
  | csrRegisterWrite (d : Nat) (off : Nat) (a : RegAccess) (v : Word)
  /-- During a break the sync store examines each lock object once in ascending order, breaks those owned by the named package and die, and returns BREAKING to 0 when the pass is done (R465). -/
  | synBreakExamine (d : Nat)
  /-- When a die's temperature input has moved by more than HLT_CAL_CFG.DELTA since a seam module's last calibration, the module's PHY is recalibrated in mission, one module at a time, with frames waiting until it ends (R661). -/
  | seamRecalibration (d : Nat) (i : Nat) (temp : Nat)
  deriving DecidableEq, Repr

end Sys2Proof
end

