-- ==== Sys2Proof/Decode.lean ====
section
/-! DEFINITION. The opcode table gives no row any bits: commands reach the block as packets, register accesses and events,
not as instruction words. -/

namespace Sys2Proof

/-- The command that a word spells by the table's bits: no row gives bits, so none. (DESIGN CHOICE, log 7) -/
def decodeTableWord (_nbits _w : Nat) : Option Instr := none

end Sys2Proof
end

