-- ==== Sys2Proof/Config.lean ====
section
/-! DEFINITION. What an implementation fixes and the values the spec leaves open. None of these constants has a body, so no
proof can see a value of them. -/

namespace Sys2Proof

/-- The n-th free value: what the spec calls unpredictable or undefined, or leaves unstated, takes any value (R3). (DESIGN CHOICE, log 5) -/
opaque Config.freeBits : Nat → BitVec 512

/-- Whether a gate point whose active bank was written lets a packet of a VC begin at an instant, until the next takeover (R269): gate
point, VC, instant. (DESIGN CHOICE, log 5) -/
opaque Config.gateFree : Nat → Nat → Nat → Bool

/-- The MAJOR and MINOR fuses of SLC_ID by die (R48). (DESIGN CHOICE, log 12) -/
opaque Config.designStep : Nat → BitVec 16

/-- DEVICE_ID of a service die's secret store, by die (R803). (DESIGN CHOICE, log 12) -/
opaque Config.deviceId : Nat → BitVec 64

/-- The firmware key hash fuses, by die and word (R803, R776). -/
opaque Config.fwKeyHash : Nat → Nat → BitVec 64

/-- One of the six 64-bit words of the SHA-384 of a byte string: the standard is outside the spec (R739, R570). -/
opaque Config.sha384Word : List Byte → Nat → BitVec 64

/-- SHA-384 of a byte string, as six 64-bit words, lowest bytes first. -/
def Config.sha384 (bs : List Byte) : List (BitVec 64) := (List.range 6).map (Config.sha384Word bs)

/-- Whether an ECDSA P-384 signature (third argument) over a digest verifies under a key: outside the spec (R570, R776). -/
opaque Config.ecdsaOk : List Byte → List (BitVec 64) → List Byte → Bool

/-- Bytes that the load port's buffer holds (R602). -/
opaque Config.loadBuffer : Nat

/-- One byte of an ECDSA P-384 signature with a private key over a digest; the first argument counts signatures, since each draws
its own nonce (R740). -/
opaque Config.ecdsaSignByte : Nat → List (BitVec 64) → List (BitVec 64) → Nat → Byte

/-- An ECDSA P-384 signature: 96 bytes r ‖ s. -/
def Config.ecdsaSign (n : Nat) (key digest : List (BitVec 64)) : List Byte :=
  (List.range 96).map (Config.ecdsaSignByte n key digest)

/-- Fresh key material from the random source of a die's secret store: attempt number, word (R783). -/
opaque Config.randomWord : Nat → Nat → Nat → BitVec 64

/-- One of the twelve words of the public key of an attestation private key (R783). -/
opaque Config.attestPubWord : List (BitVec 64) → Nat → BitVec 64

/-- The public key of an attestation private key: 96 bytes X ‖ Y. -/
def Config.attestPub (priv : List (BitVec 64)) : List (BitVec 64) := (List.range 12).map (Config.attestPubWord priv)

/-- The package that holds the health root, as Kerex of another package knows it (R627): no register names it. (DEDUCED, log 87) -/
opaque Config.healthRoot : Nat → Nat

end Sys2Proof
end

