-- ==== Sys2Proof/Machine/Bits.lean ====
section
/-! DEFINITION. Bit fields, sign extension, byte order, the cyclic redundancy checks and the table operations that every
other file of the machine uses. -/

namespace Sys2Proof

/-- Bits [hi:lo] of a word, as a number (R17). -/
def bitsOf {w : Nat} (x : BitVec w) (hi lo : Nat) : Nat := x.toNat / 2 ^ lo % 2 ^ (hi + 1 - lo)

/-- `x` with bits [hi:lo] replaced by the low bits of `v`. -/
def setBits {w : Nat} (x : BitVec w) (hi lo v : Nat) : BitVec w :=
  BitVec.ofNat w
    (x.toNat / 2 ^ (hi + 1) * 2 ^ (hi + 1) + v % 2 ^ (hi + 1 - lo) * 2 ^ lo + x.toNat % 2 ^ lo)

/-- Bit `i` of a number. -/
def natBit (n i : Nat) : Bool := n / 2 ^ i % 2 == 1

/-- 1 for true, 0 for false. -/
def boolNat (b : Bool) : Nat := if b then 1 else 0

/-- The value of the low `w` bits of `n` read as two's complement. -/
def signedOf (w n : Nat) : Int :=
  let m := n % 2 ^ w
  if m < 2 ^ (w - 1) then (m : Int) else (m : Int) - 2 ^ w

/-- The low `w` bits of an integer in two's complement. -/
def twosOf (w : Nat) (i : Int) : Nat := (i % (2 ^ w : Int)).toNat

/-- `n` saturated at the all-ones value of `w` bits (R32). -/
def satTo (w n : Nat) : Nat := min n (2 ^ w - 1)

/-- `n` wrapped modulo 2^w (R32). -/
def wrapTo (w n : Nat) : Nat := n % 2 ^ w

/-- Byte `b` of a unit or word: bits [8b+7:8b] (R18). -/
def byteOf {w : Nat} (x : BitVec w) (b : Nat) : Byte := BitVec.ofNat 8 (x.toNat / 2 ^ (8 * b))

/-- Bytes in little-endian order as one number (R17). -/
def natOfBytes : List Byte → Nat
  | [] => 0
  | b :: bs => b.toNat + 256 * natOfBytes bs

/-- The first `n` bytes of a number, little-endian (R17). -/
def bytesOfNat : Nat → Nat → List Byte
  | 0, _ => []
  | n + 1, x => BitVec.ofNat 8 x :: bytesOfNat n (x / 256)

/-- `n` words of `w` bits taken from the low end of `x`, lowest first. -/
def chop (w : Nat) : Nat → Nat → List Nat
  | 0, _ => []
  | n + 1, x => x % 2 ^ w :: chop w n (x / 2 ^ w)

/-- Words of `w` bits, lowest first, as one number. -/
def glue (w : Nat) : List Nat → Nat
  | [] => 0
  | x :: xs => x % 2 ^ w + 2 ^ w * glue w xs

/-- Replace element `i` of a list (no effect past its end). -/
def setAt {α : Type} : List α → Nat → α → List α
  | [], _, _ => []
  | _ :: xs, 0, v => v :: xs
  | x :: xs, n + 1, v => x :: setAt xs n v

/-- A list of `n` values computed from their index. -/
def tabulate {α : Type} (n : Nat) (f : Nat → α) : List α := (List.range n).map f

/-! ## Tables -/

/-- The record at number `k`; `d` is what an unlisted number reads as. -/
def Tbl.get {α : Type} (t : Tbl α) (d : α) (k : Nat) : α := ((t.rows.find? (fun r => r.1 == k)).map (·.2)).getD d

/-- Insert or replace the row of number `k` in a list of rising keys. -/
def rowPut {α : Type} : List (Nat × α) → Nat → α → List (Nat × α)
  | [], k, v => [(k, v)]
  | r :: rs, k, v => if k < r.1 then (k, v) :: r :: rs else if k = r.1 then (k, v) :: rs else r :: rowPut rs k v

/-- Remove the row of number `k`. -/
def rowDel {α : Type} (rs : List (Nat × α)) (k : Nat) : List (Nat × α) := rs.filter (fun r => r.1 != k)

/-- The table with `v` at number `k`, kept canonical: a record equal to `d` is not listed. -/
def Tbl.set {α : Type} [DecidableEq α] (t : Tbl α) (d : α) (k : Nat) (v : α) : Tbl α :=
  if v = d then { rows := rowDel t.rows k } else { rows := rowPut t.rows k v }

/-- The table with the record at number `k` changed by `f`. -/
def Tbl.upd {α : Type} [DecidableEq α] (t : Tbl α) (d : α) (k : Nat) (f : α → α) : Tbl α := t.set d k (f (t.get d k))

/-- The table without its rows whose number satisfies `p`. -/
def Tbl.drop {α : Type} (t : Tbl α) (p : Nat → Bool) : Tbl α := { rows := t.rows.filter (fun r => !p r.1) }

/-- The rows of the table whose number satisfies `p`. -/
def Tbl.rowsWhere {α : Type} (t : Tbl α) (p : Nat → Bool) : List (Nat × α) := t.rows.filter (fun r => p r.1)

/-- The canonical form, checked: keys strictly rising and no listed record equal to `d`. -/
def rowsSorted {α : Type} : List (Nat × α) → Bool
  | [] => true
  | [_] => true
  | a :: b :: rs => a.1 < b.1 && rowsSorted (b :: rs)

/-- The canonical form of a table. -/
def Tbl.wf {α : Type} [DecidableEq α] (t : Tbl α) (d : α) : Bool :=
  rowsSorted t.rows && t.rows.all (fun r => decide (r.2 ≠ d))

/-! ## Header fields (R65, R75, R77, R81) -/

/-- The 512 bits of a header unit, in the layout of R75. -/
def Hdr.pack (h : Hdr) : BitVec 512 :=
  h.hcrc ++ h.inl ++ h.gen ++ h.fmt ++ h.ft40 ++ h.chunk ++ h.group ++ h.tag ++ h.routeDest ++ h.routePkg ++
    h.routeLocal ++ h.src ++ h.dest ++ h.epoch ++ h.flags ++ h.len ++ h.vc ++ h.cmd

/-- The fields of a 512-bit header unit (R75). -/
def Hdr.unpack (u : BitVec 512) : Hdr where
  cmd := u.extractLsb' 0 8
  vc := u.extractLsb' 8 3
  len := u.extractLsb' 11 6
  flags := u.extractLsb' 17 7
  epoch := u.extractLsb' 24 8
  dest := u.extractLsb' 32 64
  src := u.extractLsb' 96 32
  routeLocal := u.extractLsb' 128 48
  routePkg := u.extractLsb' 176 24
  routeDest := u.extractLsb' 200 48
  tag := u.extractLsb' 248 16
  group := u.extractLsb' 264 16
  chunk := u.extractLsb' 280 24
  ft40 := u.extractLsb' 304 40
  fmt := u.extractLsb' 344 4
  gen := u.extractLsb' 348 4
  inl := u.extractLsb' 352 128
  hcrc := u.extractLsb' 480 32

/-- FLAGS bits (R77), numbered from bit 17 of the header unit. -/
def Hdr.sparse (h : Hdr) : Bool := h.flags.getLsbD 0
/-- MCAST (R77). -/
def Hdr.mcast (h : Hdr) : Bool := h.flags.getLsbD 1
/-- ORDERED (R77). -/
def Hdr.ordered (h : Hdr) : Bool := h.flags.getLsbD 2
/-- LAST (R77). -/
def Hdr.last (h : Hdr) : Bool := h.flags.getLsbD 3
/-- CHK (R77). -/
def Hdr.chk (h : Hdr) : Bool := h.flags.getLsbD 4
/-- SLOT (R77). -/
def Hdr.slot (h : Hdr) : Bool := h.flags.getLsbD 5
/-- STRETCH (R77). -/
def Hdr.stretch (h : Hdr) : Bool := h.flags.getLsbD 6

/-- DEST.PKG (R65). -/
def Hdr.destPkg (h : Hdr) : Nat := bitsOf h.dest 63 51
/-- DEST.DIE (R65). -/
def Hdr.destDie (h : Hdr) : Nat := bitsOf h.dest 50 44
/-- DEST.TILE (R65): [43:39] y, [38:34] x. -/
def Hdr.destY (h : Hdr) : Nat := bitsOf h.dest 43 39
/-- DEST.TILE x (R65). -/
def Hdr.destX (h : Hdr) : Nat := bitsOf h.dest 38 34
/-- DEST.OFFSET (R65). -/
def Hdr.destOff (h : Hdr) : Nat := bitsOf h.dest 33 0
/-- SRC package (R75). -/
def Hdr.srcPkg (h : Hdr) : Nat := bitsOf h.src 31 19
/-- SRC die (R75). -/
def Hdr.srcDie (h : Hdr) : Nat := bitsOf h.src 18 12
/-- SRC tile bits (R81). -/
def Hdr.srcTile (h : Hdr) : Nat := bitsOf h.src 11 2
/-- SRC engine select (R81). -/
def Hdr.srcEng (h : Hdr) : Nat := bitsOf h.src 1 0

/-- Bits [hi:lo] of the header unit that lie in INLINE, given by header bit number (R75: INLINE is [479:352]). -/
def Hdr.inlBits (h : Hdr) (hi lo : Nat) : Nat := bitsOf h.inl (hi - 352) (lo - 352)

/-- The header with INLINE bits [hi:lo], by header bit number, set to `v`. -/
def Hdr.setInl (h : Hdr) (hi lo v : Nat) : Hdr := { h with inl := setBits h.inl (hi - 352) (lo - 352) v }

/-- Build a fabric address (R65). -/
def fabricAddr (pkg die y x off : Nat) : BitVec 64 :=
  BitVec.ofNat 64 (off % 2 ^ 34 + x % 32 * 2 ^ 34 + y % 32 * 2 ^ 39 + die % 128 * 2 ^ 44 + pkg % 8192 * 2 ^ 51)

/-- Build a SRC field (R81): package, die, tile bits, engine select. -/
def srcField (pkg die tile eng : Nat) : BitVec 32 :=
  BitVec.ofNat 32 (eng % 4 + tile % 1024 * 4 + die % 128 * 2 ^ 12 + pkg % 8192 * 2 ^ 19)

/-- The response DEST that a responder forms from a request's SRC (R82). -/
def respDest (src : BitVec 32) : BitVec 64 :=
  BitVec.ofNat 64 (bitsOf src 1 0 + bitsOf src 11 2 * 2 ^ 34 + bitsOf src 18 12 * 2 ^ 44 + bitsOf src 31 19 * 2 ^ 51)

/-! ## Cyclic redundancy checks -/

/-- One bit of a reflected CRC. -/
def crcBitR {w : Nat} (poly c : BitVec w) (b : Bool) : BitVec w :=
  if (c.getLsbD 0) != b then (c >>> 1) ^^^ poly else c >>> 1

/-- `n` bits of `x`, lowest first, through a reflected CRC. -/
def crcBitsR {w : Nat} (poly : BitVec w) : Nat → Nat → BitVec w → BitVec w
  | 0, _, c => c
  | n + 1, x, c => crcBitsR poly n (x / 2) (crcBitR poly c (x % 2 == 1))

/-- HCRC: CRC-32C, reflected, initial and final all-ones (R122), over bits [479:0]. -/
def crc32c (nbits x : Nat) : BitVec 32 := ~~~ (crcBitsR 0x82F63B78#32 nbits x (BitVec.allOnes 32))

/-- The header check a header unit should carry (R122). -/
def Hdr.crc (h : Hdr) : BitVec 32 := crc32c 480 (h.pack.toNat % 2 ^ 480)

/-- The header with its HCRC computed by the engine that builds it (R123). -/
def Hdr.seal (h : Hdr) : Hdr := { h with hcrc := h.crc }

/-- Whether HCRC matches (R124). -/
def Hdr.crcOk (h : Hdr) : Bool := h.hcrc == h.crc

/-- CRC-64 with the ECMA-182 polynomial, reflected (R401): a running value taken over one data unit. -/
def crc64Unit (c : BitVec 64) (u : BitVec 512) : BitVec 64 := crcBitsR 0xC96C5795D7870F42#64 512 u.toNat c

/-- The running value before any unit (R401). -/
def crc64Init : BitVec 64 := BitVec.allOnes 64

/-- The check value of a transfer's data units in packet-index order (R401). -/
def crc64 (us : List (BitVec 512)) : BitVec 64 := ~~~ (us.foldl crc64Unit crc64Init)

/-- One bit of a CRC that takes the highest bit first. -/
def crcBitN {w : Nat} (poly c : BitVec w) (b : Bool) : BitVec w :=
  if c.getLsbD (w - 1) != b then (c <<< 1) ^^^ poly else c <<< 1

/-- The eight bits of a byte, highest first. -/
def crcByteN {w : Nat} (poly c : BitVec w) (x : Byte) : BitVec w :=
  [7, 6, 5, 4, 3, 2, 1, 0].foldl (fun c i => crcBitN poly c (x.getLsbD i)) c

/-- Whether a seam frame is the long one: a header unit in PHASE 3 carries TRANSIT (R166). -/
def SeamRx.long (f : SeamRx) : Bool := f.body.type == 1 && f.body.phase == 3

/-- The bytes of a seam frame before FCRC (R166), as a number: UNIT, SIDEBAND, CRED, SEQ, ACK, CTL_CRC and TRANSIT. -/
def SeamRx.bits (f : SeamRx) : Nat :=
  f.body.unit.toNat + (f.body.type % 4 + f.body.vc % 8 * 2 ^ 2 + f.body.laOut % 8 * 2 ^ 5 + f.body.phase % 4 * 2 ^ 8 +
    f.body.seg % 8 * 2 ^ 10 + f.body.hops % 64 * 2 ^ 13) * 2 ^ 512 + (f.credVc % 8 + f.credN % 8 * 2 ^ 3) * 2 ^ 536 +
    f.seq % 256 * 2 ^ 544 + f.ack % 256 * 2 ^ 552 + (boolNat f.nak + boolNat f.long * 2) * 2 ^ 560 +
    (if f.long then f.body.transit.toNat * 2 ^ 576 else 0)

/-- FCRC of a seam frame: CRC-16 with polynomial 0x1021 and initial value 0xFFFF over the bytes before it, each byte from its highest
bit (R166). (DEDUCED, log 172) -/
def SeamRx.crc (f : SeamRx) : BitVec 16 :=
  (bytesOfNat (if f.long then 80 else 72) f.bits).foldl (crcByteN 0x1021#16) (BitVec.allOnes 16)

/-- The frame with the FCRC that its sender computes (R166). -/
def SeamRx.seal (f : SeamRx) : SeamRx := { f with fcrc := f.crc }

/-- Whether FCRC passes (R167). -/
def SeamRx.fcrcOk (f : SeamRx) : Bool := f.fcrc == f.crc

end Sys2Proof
end

