-- ==== Sys2Proof/Machine/Arith.lean ====
section
/-! DEFINITION. Data formats and the arithmetic of every combining point (R100 to R111), and the block coding of sparse
packets (R93 to R99). Values are exact dyadic numbers, rounded once at the end. -/

namespace Sys2Proof

/-- The parameters of a floating-point format of R100: exponent bits, fraction bits, infinities, a NaN code. -/
structure FpFmt where
  eb : Nat
  mb : Nat
  hasInf : Bool
  hasNan : Bool
  canonNan : Nat
  deriving DecidableEq, Repr

/-- FP32 (R100, R104). -/
def fp32 : FpFmt := { eb := 8, mb := 23, hasInf := true, hasNan := true, canonNan := 0x7FC00000 }
/-- BF16 (R100, R104). -/
def bf16 : FpFmt := { eb := 8, mb := 7, hasInf := true, hasNan := true, canonNan := 0x7FC0 }
/-- FP16 (R100, R104). -/
def fp16 : FpFmt := { eb := 5, mb := 10, hasInf := true, hasNan := true, canonNan := 0x7E00 }
/-- FP8 E4M3: no infinities (R100, R104). -/
def e4m3 : FpFmt := { eb := 4, mb := 3, hasInf := false, hasNan := true, canonNan := 0x7F }
/-- FP8 E5M2 (R100, R104). -/
def e5m2 : FpFmt := { eb := 5, mb := 2, hasInf := true, hasNan := true, canonNan := 0x7E }
/-- The E2M1 element of MXFP4: neither infinities nor a NaN (R110). -/
def e2m1 : FpFmt := { eb := 2, mb := 1, hasInf := false, hasNan := false, canonNan := 0 }

/-- Exponent bias of a format. -/
def FpFmt.bias (f : FpFmt) : Nat := 2 ^ (f.eb - 1) - 1
/-- Width of a lane in bits. -/
def FpFmt.width (f : FpFmt) : Nat := 1 + f.eb + f.mb
/-- The code of the largest finite magnitude: 448 in E4M3 leaves out the one NaN code (R104). -/
def FpFmt.maxFinite (f : FpFmt) : Nat :=
  if f.hasInf then (2 ^ f.eb - 1) * 2 ^ f.mb - 1
  else if f.hasNan then 2 ^ (f.eb + f.mb) - 2
  else 2 ^ (f.eb + f.mb) - 1

/-- A decoded value: not a number, an infinity, or (-1)^neg × m × 2^e. -/
inductive FpVal where
  | nan
  | inf (neg : Bool)
  | fin (neg : Bool) (m : Nat) (e : Int)
  deriving DecidableEq, Repr

/-- The value of a lane (R100): subnormals keep their value (R104). -/
def fpDecode (f : FpFmt) (c : Nat) : FpVal :=
  let neg := natBit c (f.eb + f.mb)
  let ex := c / 2 ^ f.mb % 2 ^ f.eb
  let fr := c % 2 ^ f.mb
  if f.hasInf && ex == 2 ^ f.eb - 1 then (if fr == 0 then .inf neg else .nan)
  else if !f.hasInf && f.hasNan && c % 2 ^ (f.eb + f.mb) == 2 ^ (f.eb + f.mb) - 1 then .nan
  else if ex == 0 then .fin neg fr (1 - (f.bias : Int) - f.mb)
  else .fin neg (2 ^ f.mb + fr) ((ex : Int) - f.bias - f.mb)

/-- `m` × 2^`s` rounded to an integer, nearest, ties to even (R104). -/
def roundShift (m : Nat) (s : Int) : Nat :=
  if 0 ≤ s then m * 2 ^ s.toNat
  else
    let k := (-s).toNat
    let q := m / 2 ^ k
    let r := m % 2 ^ k
    if 2 * r > 2 ^ k || (2 * r == 2 ^ k && q % 2 == 1) then q + 1 else q

/-- The code nearest to (-1)^neg × m × 2^e: overflow gives infinity, or the largest finite value where the format has
none (R104). -/
def fpEncode (f : FpFmt) (neg : Bool) (m : Nat) (e : Int) : Nat :=
  let sgn := boolNat neg * 2 ^ (f.eb + f.mb)
  if m == 0 then sgn
  else
    let emin : Int := 1 - (f.bias : Int)
    let q : Int := max ((Nat.log2 m : Int) + e) emin - f.mb
    let n := roundShift m (e - q)
    let code := n + (q - (emin - f.mb)).toNat * 2 ^ f.mb
    if code > f.maxFinite then sgn + (if f.hasInf then (2 ^ f.eb - 1) * 2 ^ f.mb else f.maxFinite)
    else sgn + code

/-- The exact sum of two signed dyadic numbers, with its sign, magnitude and exponent. -/
def dyAdd (n1 : Bool) (m1 : Nat) (e1 : Int) (n2 : Bool) (m2 : Nat) (e2 : Int) : Bool × Nat × Int :=
  let e := min e1 e2
  let a : Int := (m1 * 2 ^ (e1 - e).toNat : Nat)
  let b : Int := (m2 * 2 ^ (e2 - e).toNat : Nat)
  let s := (if n1 then -a else a) + (if n2 then -b else b)
  (decide (s < 0), s.natAbs, e)

/-- The sum of two lanes, rounded once (R104). -/
def fpAdd (f : FpFmt) (a b : Nat) : Nat :=
  match fpDecode f a, fpDecode f b with
  | .nan, _ => f.canonNan
  | _, .nan => f.canonNan
  | .inf x, .inf y => if x == y then a % 2 ^ f.width else f.canonNan
  | .inf _, .fin _ _ _ => a % 2 ^ f.width
  | .fin _ _ _, .inf _ => b % 2 ^ f.width
  | .fin n1 m1 e1, .fin n2 m2 e2 =>
    if m1 == 0 && m2 == 0 then fpEncode f (n1 && n2) 0 0
    else
      let r := dyAdd n1 m1 e1 n2 m2 e2
      fpEncode f r.1 r.2.1 r.2.2

/-- The product of two lanes, rounded once (R104). -/
def fpMul (f : FpFmt) (a b : Nat) : Nat :=
  let infCode := fun (neg : Bool) => boolNat neg * 2 ^ (f.eb + f.mb) + (2 ^ f.eb - 1) * 2 ^ f.mb
  match fpDecode f a, fpDecode f b with
  | .nan, _ => f.canonNan
  | _, .nan => f.canonNan
  | .inf x, .inf y => infCode (x != y)
  | .inf x, .fin n m _ => if m == 0 then f.canonNan else infCode (x != n)
  | .fin n m _, .inf y => if m == 0 then f.canonNan else infCode (n != y)
  | .fin n1 m1 e1, .fin n2 m2 e2 => fpEncode f (n1 != n2) (m1 * m2) (e1 + e2)

/-- A lane code as an integer that rises with the value, +0 above −0 (R104). -/
def fpOrder (f : FpFmt) (c : Nat) : Int :=
  let mag : Int := (c % 2 ^ (f.eb + f.mb) : Nat)
  if natBit c (f.eb + f.mb) then -mag - 1 else mag

/-- The larger (`mx`) or smaller of two lanes; a NaN input gives the canonical NaN (R104). -/
def fpPick (f : FpFmt) (mx : Bool) (a b : Nat) : Nat :=
  if fpDecode f a = .nan ∨ fpDecode f b = .nan then f.canonNan
  else if (fpOrder f a < fpOrder f b) = mx then b % 2 ^ f.width else a % 2 ^ f.width

/-- The floating-point format of an FMT value 1 to 5 (R100). -/
def fpFmtOf : Nat → Option FpFmt
  | 1 => some fp32
  | 2 => some bf16
  | 3 => some fp16
  | 4 => some e4m3
  | 5 => some e5m2
  | _ => none

/-- Lane width in bits of an FMT value that has lanes (R100, R101); RAW counts as bytes. -/
def laneBits : Nat → Nat
  | 1 => 32
  | 2 => 16
  | 3 => 16
  | 8 => 32
  | _ => 8

/-- Whether a reduction operator CMD accepts a format (R102). -/
def redAccepts (cmd fmt : Nat) : Bool :=
  match cmd with
  | 0x40 => 1 ≤ fmt && fmt ≤ 9
  | 0x41 | 0x42 => (1 ≤ fmt && fmt ≤ 5) || fmt == 8 || fmt == 9
  | 0x43 => fmt == 1 || fmt == 2 || fmt == 3 || fmt == 8 || fmt == 9
  | 0x44 | 0x45 | 0x46 => fmt == 0 || fmt == 8 || fmt == 9
  | _ => false

/-- One lane of a reduction (R104, R105). -/
def laneOp (cmd fmt a b : Nat) : Nat :=
  let w := laneBits fmt
  match cmd with
  | 0x44 => Nat.land a b
  | 0x45 => Nat.lor a b
  | 0x46 => Nat.xor a b
  | _ =>
    match fpFmtOf fmt with
    | some f =>
      match cmd with
      | 0x40 => fpAdd f a b
      | 0x41 => fpPick f true a b
      | 0x42 => fpPick f false a b
      | _ => fpMul f a b
    | none =>
      match cmd with
      | 0x40 => (a + b) % 2 ^ w
      | 0x41 => if signedOf w a < signedOf w b then b else a
      | 0x42 => if signedOf w b < signedOf w a then b else a
      | _ => a * b % 2 ^ w

/-- One data unit combined lane by lane; lane i occupies bytes w·i to w·i + w − 1 (R101). -/
def unitOp (cmd fmt : Nat) (a b : DataUnit) : DataUnit :=
  let w := laneBits fmt
  let n := 512 / w
  BitVec.ofNat 512 (glue w (List.zipWith (laneOp cmd fmt) (chop w n a.toNat) (chop w n b.toNat)))

/-! ## Microscaling blocks (R106 to R111) -/

/-- An element of an MX block scaled by its block scale: none is NaN. -/
def mxValue (f : FpFmt) (scale code : Nat) : Option (Bool × Nat × Int) :=
  match fpDecode f code with
  | .fin n m e => some (n, m, e + (scale : Int) - 127)
  | _ => none

/-- The exponent of the largest finite element, emax of R109. -/
def mxEmax (f : FpFmt) : Int := if f.eb == 4 then 8 else 2

/-- One MX block of 32 element codes combined with another (R109): the output scale and element codes. -/
def mxBlock (f : FpFmt) (sa sb : Nat) (a b : List Nat) : Nat × List Nat :=
  if sa == 0xFF || sb == 0xFF then (0xFF, a.map (fun _ => 0))
  else
    let v := List.zipWith (fun x y =>
      match mxValue f sa x, mxValue f sb y with
      | some (n1, m1, e1), some (n2, m2, e2) => some (dyAdd n1 m1 e1 n2 m2 e2)
      | _, _ => none) a b
    let lg : List Int := v.filterMap (fun o =>
      match o with
      | some (_, m, e) => if m == 0 then none else some ((Nat.log2 m : Int) + e)
      | none => none)
    let x0 : Int := match lg with
      | [] => -127
      | l :: ls => ls.foldl max l - mxEmax f
    let x : Int := min (max x0 (-127)) 127
    let out := v.map (fun o =>
      match o with
      | none => f.canonNan
      | some (n, m, e) =>
        let c := fpEncode f n m (e - x)
        if c % 2 ^ (f.eb + f.mb) == 0 then 0 else c)
    ((x + 127).toNat, out)

/-- Two MX payloads combined: data unit 0 is the scale unit, the element units follow (R106 to R109). Payloads that a router meets with a
LEN that R107 or R108 rules out are combined as they stand. (DESIGN CHOICE, log 181) -/
def mxOp (fmt : Nat) (a b : List DataUnit) : List DataUnit :=
  match a, b with
  | sa :: ea, sb :: eb =>
    let f := if fmt == 6 then e4m3 else e2m1
    let w := if fmt == 6 then 8 else 4
    let perUnit := 512 / (32 * w)
    let nb := perUnit * ea.length
    let blocksOf := fun (us : List DataUnit) => us.flatMap (fun u => (chop (32 * w) perUnit u.toNat).map (chop w 32))
    let scales := fun (u : DataUnit) => chop 8 nb u.toNat
    let r := List.zipWith (fun (p : Nat × Nat) (q : List Nat × List Nat) => mxBlock f p.1 p.2 q.1 q.2)
      (List.zip (scales sa) (scales sb)) (List.zip (blocksOf ea) (blocksOf eb))
    BitVec.ofNat 512 (glue 8 (r.map (·.1))) ::
      tabulate ea.length (fun j =>
        BitVec.ofNat 512 (glue (32 * w) ((r.drop (perUnit * j)).take perUnit |>.map (fun q => glue w q.2))))
  | _, _ => []

/-! ## Sparse coding (R93 to R99) -/

/-- The numbers of the blocks a bitmap marks present, ascending (R93). -/
def bitmapBlocks (u : DataUnit) : List Nat := (List.range 512).filter (fun i => u.getLsbD i)

/-- Negative zero elements replaced by +0, for FMT 1 to 5 (R96, R97). -/
def dropNegZero (fmt : Nat) (u : DataUnit) : DataUnit :=
  match fpFmtOf fmt with
  | none => u
  | some f =>
    BitVec.ofNat 512 (glue f.width ((chop f.width (512 / f.width) u.toNat).map
      (fun c => if c == 2 ^ (f.eb + f.mb) then 0 else c)))

/-- The present blocks of a sparse payload with their numbers, as a receiver reads them (R93, R97). -/
def sparseBlocks (fmt : Nat) : List DataUnit → List (Nat × DataUnit)
  | [] => []
  | m :: us => List.zip (bitmapBlocks m) (us.map (dropNegZero fmt))

/-- A sparse payload built from blocks in ascending order: negative zeros replaced, all-zero blocks absent (R96). -/
def sparseEncode (fmt : Nat) (bs : List (Nat × DataUnit)) : List DataUnit :=
  let keep := (bs.map (fun b => (b.1, dropNegZero fmt b.2))).filter (fun b => b.2 != 0)
  BitVec.ofNat 512 (keep.foldl (fun n b => n + 2 ^ b.1) 0) :: keep.map (·.2)

/-- Whether a sparse payload's bitmap agrees with its number of units (R94). -/
def sparseLenOk : List DataUnit → Bool
  | [] => false
  | m :: us => (bitmapBlocks m).length == us.length && us.length ≤ 31

/-- A block of a list of numbered blocks; an absent block reads as zeros (R99). -/
def blockAt (bs : List (Nat × DataUnit)) (i : Nat) : DataUnit :=
  ((bs.find? (fun b => b.1 == i)).map (·.2)).getD 0

/-- The blocks present in either of two lists of numbered blocks, ascending. -/
def blockUnion (a b : List (Nat × DataUnit)) : List Nat :=
  (List.range 512).filter (fun i => a.any (fun x => x.1 == i) || b.any (fun x => x.1 == i))

/-- The numbered blocks of the combination of two sparse extents (R99). -/
def sparseOpBlocks (cmd fmt : Nat) (a b : List (Nat × DataUnit)) : List (Nat × DataUnit) :=
  (blockUnion a b).map (fun i => (i, unitOp cmd fmt (blockAt a i) (blockAt b i)))

/-- Two dense or MX payloads combined; none where R102 or R103 gives no result. -/
def denseOp (cmd fmt : Nat) (a b : List DataUnit) : Option (List DataUnit) :=
  if !redAccepts cmd fmt || a.length != b.length then none
  else if fmt == 6 || fmt == 7 then some (mxOp fmt a b)
  else some (List.zipWith (unitOp cmd fmt) a b)

end Sys2Proof
end

