-- ==== Sys2Proof/Machine/Regs.lean ====
section
/-! DEFINITION. The register map: every register the spec's tables list, by block, with its read-write, pattern-loaded
and write-one-to-clear bits and its value on entry to COLD (R23 to R33, and the register rule named beside each row).
"pattern" reads as zero until the pattern loads it (R573). -/

namespace Sys2Proof

/-- One register's access masks (R26) and reset value: bits that are in no mask are RO, WO or reserved. -/
structure RegDesc where
  off : Nat
  rw : Nat
  pl : Nat
  w1c : Nat
  reset : Nat
  deriving DecidableEq, Repr

/-- CSR offset of instance 0 (R48). -/
abbrev SLC_ID : Nat := 0x0
/-- CSR offset of instance 0 (R49). -/
abbrev SLC_PLACE : Nat := 0x8
/-- CSR offset of instance 0 (R52). -/
abbrev SLC_CAP : Nat := 0x10
/-- CSR offset of instance 0 (R53). -/
abbrev SLC_STATE : Nat := 0x18
/-- CSR offset of instance 0 (R54). -/
abbrev SLC_MODE : Nat := 0x20
/-- CSR offset of instance 0 (R186). -/
abbrev TRT_CFG : Nat := 0x40000
/-- CSR offset of instance 0 (R187). -/
abbrev TRT_STATUS : Nat := 0x40008
/-- CSR offset of instance 0 (R188). -/
abbrev TRT_LA_MISS : Nat := 0x40010
/-- CSR offset of instance 0 (R189). -/
abbrev TRT_SLOT_MISS : Nat := 0x40018
/-- CSR offset of instance 0 (R190). -/
abbrev TRT_SLOT_MISS_AUX : Nat := 0x40060
/-- CSR offset of instance 0 (R191). -/
abbrev TRT_SLOT_ADDR : Nat := 0x40020
/-- CSR offset of instance 0 (R191). -/
abbrev TRT_SLOT_DATA : Nat := 0x40028
/-- CSR offset of instance 0 (R192). -/
abbrev TRT_TREE_ADDR : Nat := 0x40030
/-- CSR offset of instance 0 (R192). -/
abbrev TRT_TREE_DATA : Nat := 0x40038
/-- CSR offset of instance 0 (R193). -/
abbrev TRT_LINK_SEC : Nat := 0x40040
/-- CSR offset of instance 0 (R193). -/
abbrev TRT_LINK_DED : Nat := 0x40048
/-- CSR offset of instance 0 (R194). -/
abbrev TRT_HEM_DROP : Nat := 0x40050
/-- CSR offset of instance 0 (R195). -/
abbrev TRT_STALL : Nat := 0x40058
/-- CSR offset of instance 0 (R196). -/
abbrev TRT_DARN0 : Nat := 0x70000
/-- CSR offset of instance 0 (R196). -/
abbrev TRT_DARN1 : Nat := 0x70008
/-- CSR offset of instance 0 (R196). -/
abbrev TRT_DARN2 : Nat := 0x70010
/-- CSR offset of instance 0 (R198). -/
abbrev NI_CFG : Nat := 0x80000
/-- CSR offset of instance 0 (R199). -/
abbrev NI_STATUS : Nat := 0x80008
/-- CSR offset of instance 0 (R200). -/
abbrev NI_STALE_GEN : Nat := 0x80010
/-- CSR offset of instance 0 (R200). -/
abbrev NI_INJ_CNT : Nat := 0x80018
/-- CSR offset of instance 0 (R200). -/
abbrev NI_EJ_CNT : Nat := 0x80020
/-- CSR offset of instance 0 (R200). -/
abbrev NI_HCRC_ERR : Nat := 0x80028
/-- CSR offset of instance 0 (R200). -/
abbrev NI_NOROUTE : Nat := 0x80030
/-- CSR offset of instance 0 (R201). -/
abbrev NI_TABLE_ADDR : Nat := 0x90000
/-- CSR offset of instance 0 (R201). -/
abbrev NI_TABLE_DATA : Nat := 0x90008
/-- CSR offset of instance 0 (R202). -/
abbrev NI_ORDER_DRAIN : Nat := 0x90010
/-- CSR offset of instance 0 (R203). -/
abbrev SEAM_CFG : Nat := 0xA0000
/-- CSR offset of instance 0 (R204). -/
abbrev SEAM_STATUS : Nat := 0xA0008
/-- CSR offset of instance 0 (R205). -/
abbrev SEAM_CRC_ERR : Nat := 0xA0010
/-- CSR offset of instance 0 (R205). -/
abbrev SEAM_REPLAY : Nat := 0xA0018
/-- CSR offset of instance 0 (R206). -/
abbrev SEAM_CREDIT : Nat := 0xA0020
/-- CSR offset of instance 0 (R207). -/
abbrev SEAM_PANEL : Nat := 0xA8000
/-- CSR offset of instance 0 (R252). -/
abbrev TIM_FT : Nat := 0x10000
/-- CSR offset of instance 0 (R253). -/
abbrev TIM_FT_FRAC : Nat := 0x10008
/-- CSR offset of instance 0 (R254). -/
abbrev TIM_STATUS : Nat := 0x10010
/-- CSR offset of instance 0 (R255). -/
abbrev TIM_EVENT : Nat := 0x10018
/-- CSR offset of instance 0 (R256). -/
abbrev TIM_CFG : Nat := 0x10020
/-- CSR offset of instance 0 (R257). -/
abbrev TIM_OFFSET : Nat := 0x10028
/-- CSR offset of instance 0 (R258). -/
abbrev TIM_TRIM : Nat := 0x10030
/-- CSR offset of instance 0 (R259). -/
abbrev TIM_PPS_STAMP : Nat := 0x10038
/-- CSR offset of instance 0 (R260). -/
abbrev TIM_PTP_BUF0 : Nat := 0x10040
/-- CSR offset of instance 0 (R260). -/
abbrev TIM_PTP_BUF1 : Nat := 0x10048
/-- CSR offset of instance 0 (R260). -/
abbrev TIM_PTP_BUF2 : Nat := 0x10050
/-- CSR offset of instance 0 (R260). -/
abbrev TIM_PTP_BUF3 : Nat := 0x10058
/-- CSR offset of instance 0 (R260). -/
abbrev TIM_PTP_BUF4 : Nat := 0x10060
/-- CSR offset of instance 0 (R260). -/
abbrev TIM_PTP_BUF5 : Nat := 0x10068
/-- CSR offset of instance 0 (R261). -/
abbrev TIM_PTP_CMD : Nat := 0x10070
/-- CSR offset of instance 0 (R262). -/
abbrev TIM_PTP_STATUS : Nat := 0x10078
/-- CSR offset of instance 0 (R263). -/
abbrev TIM_ROUND : Nat := 0x10080
/-- CSR offset of instance 0 (R264). -/
abbrev TIM_MISS_ROUNDS : Nat := 0x10088
/-- CSR offset of instance 0 (R264). -/
abbrev TIM_STRETCH_ROUNDS : Nat := 0x10090
/-- CSR offset of instance 0 (R265). -/
abbrev TIM_GATE_ADDR : Nat := 0x10100
/-- CSR offset of instance 0 (R265). -/
abbrev TIM_GATE_DATA : Nat := 0x10108
/-- CSR offset of instance 0 (R266). -/
abbrev TIM_GATE_CTL : Nat := 0x10200
/-- CSR offset of instance 0 (R267). -/
abbrev TIM_GATE_TAKE : Nat := 0x10208
/-- CSR offset of instance 0 (R268). -/
abbrev TIM_GATE_STATUS : Nat := 0x10210
/-- CSR offset of instance 0 (R305). -/
abbrev TRT_VC_WEIGHT : Nat := 0x40080
/-- CSR offset of instance 0 (R306). -/
abbrev TRT_ARB_HIPRI : Nat := 0x40088
/-- CSR offset of instance 0 (R307). -/
abbrev TRT_ARB_QUOTA : Nat := 0x40090
/-- CSR offset of instance 0 (R308). -/
abbrev TRT_ARB_STATE : Nat := 0x40098
/-- CSR offset of instance 0 (R309). -/
abbrev TRT_GUARD_REFUSE : Nat := 0x400A0
/-- CSR offset of instance 0 (R310). -/
abbrev TRT_QSAMPLE_CFG : Nat := 0x400A8
/-- CSR offset of instance 0 (R311). -/
abbrev TRT_QSAMPLE : Nat := 0x400B0
/-- offset in a shaping sub-window (R312). -/
abbrev SHP_SHAPE_CFG : Nat := 0x0
/-- offset in a shaping sub-window (R313). -/
abbrev SHP_SHAPE_TOKENS : Nat := 0x8
/-- offset in a shaping sub-window (R314). -/
abbrev SHP_METER_RATE : Nat := 0x10
/-- offset in a shaping sub-window (R315). -/
abbrev SHP_METER_BURST : Nat := 0x18
/-- offset in a shaping sub-window (R316). -/
abbrev SHP_METER_TOKENS : Nat := 0x20
/-- offset in a shaping sub-window (R317). -/
abbrev SHP_GREEN : Nat := 0x28
/-- offset in a shaping sub-window (R317). -/
abbrev SHP_YELLOW : Nat := 0x30
/-- offset in a shaping sub-window (R317). -/
abbrev SHP_RED : Nat := 0x38
/-- CSR offset of instance 0 (R319). -/
abbrev NI_GOV_CAP : Nat := 0x90100
/-- CSR offset of instance 0 (R320). -/
abbrev NI_GOV_MODEL : Nat := 0x90108
/-- CSR offset of instance 0 (R321). -/
abbrev NI_GOV_CTL : Nat := 0x90110
/-- CSR offset of instance 0 (R322). -/
abbrev NI_GOV_STATUS : Nat := 0x90118
/-- CSR offset of instance 0 (R323). -/
abbrev NI_GOV_ROUNDS : Nat := 0x90120
/-- CSR offset of instance 0 (R368). -/
abbrev TRT_RED_CFG : Nat := 0x400C0
/-- CSR offset of instance 0 (R369). -/
abbrev TRT_JOIN_ADDR : Nat := 0x400C8
/-- CSR offset of instance 0 (R369). -/
abbrev TRT_JOIN_DATA : Nat := 0x400D0
/-- CSR offset of instance 0 (R370). -/
abbrev TRT_RED_CTX : Nat := 0x400D8
/-- CSR offset of instance 0 (R371). -/
abbrev TRT_RED_JOINED : Nat := 0x400E0
/-- CSR offset of instance 0 (R372). -/
abbrev TRT_RED_PASS : Nat := 0x400E8
/-- CSR offset of instance 0 (R373). -/
abbrev TRT_RED_CUTOFF : Nat := 0x400F0
/-- CSR offset of instance 0 (R374). -/
abbrev TRT_RED_ERR : Nat := 0x400F8
/-- CSR offset of instance 0 (R431). -/
abbrev CE_CFG : Nat := 0xC0000
/-- CSR offset of instance 0 (R432). -/
abbrev CE_STAGE_CFG : Nat := 0xC0008
/-- CSR offset of instance 0 (R433). -/
abbrev CE_STATUS : Nat := 0xC0010
/-- CSR offset of instance 0 (R434). -/
abbrev CE_GT_ADDR : Nat := 0xC0018
/-- CSR offset of instance 0 (R434). -/
abbrev CE_GT_DATA : Nat := 0xC0020
/-- CSR offset of instance 0 (R435). -/
abbrev CE_EVENT : Nat := 0xC0028
/-- CSR offset of instance 0 (R436). -/
abbrev CE_OPS_DONE : Nat := 0xC0030
/-- CSR offset of instance 0 (R436). -/
abbrev CE_EPOCH_DROP : Nat := 0xC0048
/-- CSR offset of instance 0 (R436). -/
abbrev CE_A2A_DROP : Nat := 0xC0068
/-- CSR offset of instance 0 (R436). -/
abbrev CE_LAUNCH : Nat := 0xC0070
/-- CSR offset of instance 0 (R437). -/
abbrev CE_ABORT_CNT : Nat := 0xC0038
/-- CSR offset of instance 0 (R438). -/
abbrev CE_RETRY_CNT : Nat := 0xC0040
/-- CSR offset of instance 0 (R439). -/
abbrev CE_ERR : Nat := 0xC0050
/-- CSR offset of instance 0 (R440). -/
abbrev CE_SLOW : Nat := 0xC0058
/-- CSR offset of instance 0 (R440). -/
abbrev CE_SLOW_MAX : Nat := 0xC0060
/-- CSR offset of instance 0 (R441). -/
abbrev CE_GROUP_CTL : Nat := 0xC0078
/-- CSR offset of instance 0 (R470). -/
abbrev SYN_CFG : Nat := 0xF0000
/-- CSR offset of instance 0 (R471). -/
abbrev SYN_STATUS : Nat := 0xF0008
/-- CSR offset of instance 0 (R472). -/
abbrev SYN_EVENT : Nat := 0xF0010
/-- CSR offset of instance 0 (R473). -/
abbrev SYN_BREAK : Nat := 0xF0018
/-- CSR offset of instance 0 (R474). -/
abbrev SYN_OPS : Nat := 0xF0020
/-- CSR offset of instance 0 (R474). -/
abbrev SYN_ARRIVE_PKTS : Nat := 0xF0028
/-- CSR offset of instance 0 (R474). -/
abbrev SYN_ARRIVE_SUM : Nat := 0xF0030
/-- CSR offset of instance 0 (R474). -/
abbrev SYN_EPOCH_DROP : Nat := 0xF0038
/-- CSR offset of instance 0 (R474). -/
abbrev SYN_CUTOFF : Nat := 0xF0040
/-- CSR offset of instance 0 (R500). -/
abbrev CMT_CFG : Nat := 0xD0000
/-- CSR offset of instance 0 (R501). -/
abbrev CMT_STATUS : Nat := 0xD0008
/-- CSR offset of instance 0 (R502). -/
abbrev CMT_EVENT : Nat := 0xD0010
/-- CSR offset of instance 0 (R503). -/
abbrev CMT_APPLIED : Nat := 0xD0018
/-- CSR offset of instance 0 (R503). -/
abbrev CMT_DISCARDED : Nat := 0xD0020
/-- CSR offset of instance 0 (R503). -/
abbrev CMT_LATE : Nat := 0xD0028
/-- CSR offset of instance 0 (R503). -/
abbrev CMT_REC_LATE : Nat := 0xD0030
/-- CSR offset of instance 0 (R504). -/
abbrev CMT_WIN_CFG_0 : Nat := 0xD0100
/-- CSR offset of instance 0 (R504). -/
abbrev CMT_WIN_CFG_1 : Nat := 0xD0110
/-- CSR offset of instance 0 (R504). -/
abbrev CMT_WIN_CFG_2 : Nat := 0xD0120
/-- CSR offset of instance 0 (R504). -/
abbrev CMT_WIN_CFG_3 : Nat := 0xD0130
/-- CSR offset of instance 0 (R504). -/
abbrev CMT_WIN_CFG_4 : Nat := 0xD0140
/-- CSR offset of instance 0 (R504). -/
abbrev CMT_WIN_CFG_5 : Nat := 0xD0150
/-- CSR offset of instance 0 (R504). -/
abbrev CMT_WIN_CFG_6 : Nat := 0xD0160
/-- CSR offset of instance 0 (R504). -/
abbrev CMT_WIN_CFG_7 : Nat := 0xD0170
/-- CSR offset of instance 0 (R504). -/
abbrev CMT_WIN_CFG_8 : Nat := 0xD0180
/-- CSR offset of instance 0 (R504). -/
abbrev CMT_WIN_CFG_9 : Nat := 0xD0190
/-- CSR offset of instance 0 (R504). -/
abbrev CMT_WIN_CFG_10 : Nat := 0xD01A0
/-- CSR offset of instance 0 (R504). -/
abbrev CMT_WIN_CFG_11 : Nat := 0xD01B0
/-- CSR offset of instance 0 (R504). -/
abbrev CMT_WIN_CFG_12 : Nat := 0xD01C0
/-- CSR offset of instance 0 (R504). -/
abbrev CMT_WIN_CFG_13 : Nat := 0xD01D0
/-- CSR offset of instance 0 (R504). -/
abbrev CMT_WIN_CFG_14 : Nat := 0xD01E0
/-- CSR offset of instance 0 (R504). -/
abbrev CMT_WIN_CFG_15 : Nat := 0xD01F0
/-- CSR offset of instance 0 (R504). -/
abbrev CMT_WIN_STATE_0 : Nat := 0xD0108
/-- CSR offset of instance 0 (R504). -/
abbrev CMT_WIN_STATE_1 : Nat := 0xD0118
/-- CSR offset of instance 0 (R504). -/
abbrev CMT_WIN_STATE_2 : Nat := 0xD0128
/-- CSR offset of instance 0 (R504). -/
abbrev CMT_WIN_STATE_3 : Nat := 0xD0138
/-- CSR offset of instance 0 (R504). -/
abbrev CMT_WIN_STATE_4 : Nat := 0xD0148
/-- CSR offset of instance 0 (R504). -/
abbrev CMT_WIN_STATE_5 : Nat := 0xD0158
/-- CSR offset of instance 0 (R504). -/
abbrev CMT_WIN_STATE_6 : Nat := 0xD0168
/-- CSR offset of instance 0 (R504). -/
abbrev CMT_WIN_STATE_7 : Nat := 0xD0178
/-- CSR offset of instance 0 (R504). -/
abbrev CMT_WIN_STATE_8 : Nat := 0xD0188
/-- CSR offset of instance 0 (R504). -/
abbrev CMT_WIN_STATE_9 : Nat := 0xD0198
/-- CSR offset of instance 0 (R504). -/
abbrev CMT_WIN_STATE_10 : Nat := 0xD01A8
/-- CSR offset of instance 0 (R504). -/
abbrev CMT_WIN_STATE_11 : Nat := 0xD01B8
/-- CSR offset of instance 0 (R504). -/
abbrev CMT_WIN_STATE_12 : Nat := 0xD01C8
/-- CSR offset of instance 0 (R504). -/
abbrev CMT_WIN_STATE_13 : Nat := 0xD01D8
/-- CSR offset of instance 0 (R504). -/
abbrev CMT_WIN_STATE_14 : Nat := 0xD01E8
/-- CSR offset of instance 0 (R504). -/
abbrev CMT_WIN_STATE_15 : Nat := 0xD01F8
/-- CSR offset of instance 0 (R505). -/
abbrev CMT_Q_BASE : Nat := 0xD1000
/-- CSR offset of instance 0 (R505). -/
abbrev CMT_C_BASE : Nat := 0xD1010
/-- CSR offset of instance 0 (R506). -/
abbrev CMT_Q_CFG : Nat := 0xD1008
/-- CSR offset of instance 0 (R507). -/
abbrev CMT_CE_CFG : Nat := 0xD1018
/-- CSR offset of instance 0 (R508). -/
abbrev CMT_CE_STATUS : Nat := 0xD1020
/-- CSR offset of instance 0 (R509). -/
abbrev CMT_CE_OUTCOMES : Nat := 0xD1028
/-- CSR offset of instance 0 (R549). -/
abbrev STL_CFG : Nat := 0x140000
/-- CSR offset of instance 0 (R550). -/
abbrev STL_DIR_MAP : Nat := 0x140008
/-- CSR offset of instance 0 (R551). -/
abbrev STL_COORD : Nat := 0x140010
/-- CSR offset of instance 0 (R552). -/
abbrev STL_PEER_EXP : Nat := 0x140018
/-- CSR offset of instance 0 (R552). -/
abbrev STL_PEER : Nat := 0x140020
/-- CSR offset of instance 0 (R553). -/
abbrev STL_STATUS : Nat := 0x140028
/-- CSR offset of instance 0 (R554). -/
abbrev STL_EVENT : Nat := 0x140030
/-- CSR offset of instance 0 (R555). -/
abbrev STL_CTL : Nat := 0x140038
/-- CSR offset of instance 0 (R556). -/
abbrev STL_LANE_CFG : Nat := 0x140040
/-- CSR offset of instance 0 (R557). -/
abbrev STL_LANE_STATE : Nat := 0x140048
/-- CSR offset of instance 0 (R558). -/
abbrev STL_FEC_CORR : Nat := 0x140050
/-- CSR offset of instance 0 (R558). -/
abbrev STL_FEC_UNCORR : Nat := 0x140058
/-- CSR offset of instance 0 (R558). -/
abbrev STL_LCRC_ERR : Nat := 0x140060
/-- CSR offset of instance 0 (R558). -/
abbrev STL_REPLAY : Nat := 0x140068
/-- CSR offset of instance 0 (R558). -/
abbrev STL_HEM_DROP : Nat := 0x140070
/-- CSR offset of instance 0 (R559). -/
abbrev STL_RETRY : Nat := 0x140078
/-- CSR offset of instance 0 (R560). -/
abbrev STL_RX_SPLIT : Nat := 0x140080
/-- CSR offset of instance 0 (R562). -/
abbrev STL_TS_ADJ : Nat := 0x140088
/-- CSR offset of instance 0 (R563). -/
abbrev STL_TIME : Nat := 0x140090
/-- CSR offset of instance 0 (R563). -/
abbrev STL_RTT : Nat := 0x140098
/-- CSR offset of instance 0 (R564). -/
abbrev STL_LANE_SYM_0 : Nat := 0x140200
/-- CSR offset of instance 0 (R564). -/
abbrev STL_LANE_SYM_1 : Nat := 0x140208
/-- CSR offset of instance 0 (R564). -/
abbrev STL_LANE_SYM_2 : Nat := 0x140210
/-- CSR offset of instance 0 (R564). -/
abbrev STL_LANE_SYM_3 : Nat := 0x140218
/-- CSR offset of instance 0 (R564). -/
abbrev STL_LANE_SYM_4 : Nat := 0x140220
/-- CSR offset of instance 0 (R564). -/
abbrev STL_LANE_SYM_5 : Nat := 0x140228
/-- CSR offset of instance 0 (R564). -/
abbrev STL_LANE_SYM_6 : Nat := 0x140230
/-- CSR offset of instance 0 (R564). -/
abbrev STL_LANE_SYM_7 : Nat := 0x140238
/-- CSR offset of instance 0 (R564). -/
abbrev STL_LANE_SYM_8 : Nat := 0x140240
/-- CSR offset of instance 0 (R564). -/
abbrev STL_LANE_SYM_9 : Nat := 0x140248
/-- CSR offset of instance 0 (R564). -/
abbrev STL_LANE_SYM_10 : Nat := 0x140250
/-- CSR offset of instance 0 (R564). -/
abbrev STL_LANE_SYM_11 : Nat := 0x140258
/-- CSR offset of instance 0 (R564). -/
abbrev STL_LANE_SYM_12 : Nat := 0x140260
/-- CSR offset of instance 0 (R564). -/
abbrev STL_LANE_SYM_13 : Nat := 0x140268
/-- CSR offset of instance 0 (R564). -/
abbrev STL_LANE_SYM_14 : Nat := 0x140270
/-- CSR offset of instance 0 (R564). -/
abbrev STL_LANE_SYM_15 : Nat := 0x140278
/-- CSR offset of instance 0 (R564). -/
abbrev STL_LANE_SYM_16 : Nat := 0x140280
/-- CSR offset of instance 0 (R564). -/
abbrev STL_LANE_SYM_17 : Nat := 0x140288
/-- CSR offset of instance 0 (R564). -/
abbrev STL_LANE_SYM_18 : Nat := 0x140290
/-- CSR offset of instance 0 (R564). -/
abbrev STL_LANE_SYM_19 : Nat := 0x140298
/-- CSR offset of instance 0 (R564). -/
abbrev STL_LANE_SYM_20 : Nat := 0x1402A0
/-- CSR offset of instance 0 (R564). -/
abbrev STL_LANE_SYM_21 : Nat := 0x1402A8
/-- CSR offset of instance 0 (R595). -/
abbrev PAT_ID : Nat := 0x20000
/-- CSR offset of instance 0 (R595). -/
abbrev PAT_POD_ID : Nat := 0x20008
/-- CSR offset of instance 0 (R596). -/
abbrev PAT_DIGEST0 : Nat := 0x20010
/-- CSR offset of instance 0 (R596). -/
abbrev PAT_DIGEST1 : Nat := 0x20018
/-- CSR offset of instance 0 (R596). -/
abbrev PAT_DIGEST2 : Nat := 0x20020
/-- CSR offset of instance 0 (R596). -/
abbrev PAT_DIGEST3 : Nat := 0x20028
/-- CSR offset of instance 0 (R596). -/
abbrev PAT_DIGEST4 : Nat := 0x20030
/-- CSR offset of instance 0 (R596). -/
abbrev PAT_DIGEST5 : Nat := 0x20038
/-- CSR offset of instance 0 (R597). -/
abbrev PAT_IGNORED : Nat := 0x20040
/-- CSR offset of instance 0 (R598). -/
abbrev PAT_CFG : Nat := 0x20048
/-- CSR offset of instance 0 (R599). -/
abbrev PAT_AREA0 : Nat := 0x20050
/-- CSR offset of instance 0 (R599). -/
abbrev PAT_AREA1 : Nat := 0x20058
/-- CSR offset of instance 0 (R599). -/
abbrev PAT_AREA_SIZE : Nat := 0x20060
/-- CSR offset of instance 0 (R600). -/
abbrev PAT_PERMIT_CTL_0 : Nat := 0x20100
/-- CSR offset of instance 0 (R600). -/
abbrev PAT_PERMIT_CTL_1 : Nat := 0x20140
/-- CSR offset of instance 0 (R600). -/
abbrev PAT_PERMIT_CTL_2 : Nat := 0x20180
/-- CSR offset of instance 0 (R600). -/
abbrev PAT_PERMIT_CTL_3 : Nat := 0x201C0
/-- CSR offset of instance 0 (R600). -/
abbrev PAT_PERMIT_D_0_0 : Nat := 0x20108
/-- CSR offset of instance 0 (R600). -/
abbrev PAT_PERMIT_D_0_1 : Nat := 0x20110
/-- CSR offset of instance 0 (R600). -/
abbrev PAT_PERMIT_D_0_2 : Nat := 0x20118
/-- CSR offset of instance 0 (R600). -/
abbrev PAT_PERMIT_D_0_3 : Nat := 0x20120
/-- CSR offset of instance 0 (R600). -/
abbrev PAT_PERMIT_D_0_4 : Nat := 0x20128
/-- CSR offset of instance 0 (R600). -/
abbrev PAT_PERMIT_D_0_5 : Nat := 0x20130
/-- CSR offset of instance 0 (R600). -/
abbrev PAT_PERMIT_D_1_0 : Nat := 0x20148
/-- CSR offset of instance 0 (R600). -/
abbrev PAT_PERMIT_D_1_1 : Nat := 0x20150
/-- CSR offset of instance 0 (R600). -/
abbrev PAT_PERMIT_D_1_2 : Nat := 0x20158
/-- CSR offset of instance 0 (R600). -/
abbrev PAT_PERMIT_D_1_3 : Nat := 0x20160
/-- CSR offset of instance 0 (R600). -/
abbrev PAT_PERMIT_D_1_4 : Nat := 0x20168
/-- CSR offset of instance 0 (R600). -/
abbrev PAT_PERMIT_D_1_5 : Nat := 0x20170
/-- CSR offset of instance 0 (R600). -/
abbrev PAT_PERMIT_D_2_0 : Nat := 0x20188
/-- CSR offset of instance 0 (R600). -/
abbrev PAT_PERMIT_D_2_1 : Nat := 0x20190
/-- CSR offset of instance 0 (R600). -/
abbrev PAT_PERMIT_D_2_2 : Nat := 0x20198
/-- CSR offset of instance 0 (R600). -/
abbrev PAT_PERMIT_D_2_3 : Nat := 0x201A0
/-- CSR offset of instance 0 (R600). -/
abbrev PAT_PERMIT_D_2_4 : Nat := 0x201A8
/-- CSR offset of instance 0 (R600). -/
abbrev PAT_PERMIT_D_2_5 : Nat := 0x201B0
/-- CSR offset of instance 0 (R600). -/
abbrev PAT_PERMIT_D_3_0 : Nat := 0x201C8
/-- CSR offset of instance 0 (R600). -/
abbrev PAT_PERMIT_D_3_1 : Nat := 0x201D0
/-- CSR offset of instance 0 (R600). -/
abbrev PAT_PERMIT_D_3_2 : Nat := 0x201D8
/-- CSR offset of instance 0 (R600). -/
abbrev PAT_PERMIT_D_3_3 : Nat := 0x201E0
/-- CSR offset of instance 0 (R600). -/
abbrev PAT_PERMIT_D_3_4 : Nat := 0x201E8
/-- CSR offset of instance 0 (R600). -/
abbrev PAT_PERMIT_D_3_5 : Nat := 0x201F0
/-- CSR offset of instance 0 (R601). -/
abbrev PAT_LOAD_CTL : Nat := 0x20080
/-- CSR offset of instance 0 (R602). -/
abbrev PAT_LOAD_STATUS : Nat := 0x20088
/-- CSR offset of instance 0 (R603). -/
abbrev PAT_PATCH_FT : Nat := 0x20090
/-- CSR offset of instance 0 (R603). -/
abbrev PAT_PATCH_STEP : Nat := 0x20098
/-- CSR offset of instance 0 (R604). -/
abbrev PAT_PATCH_ID : Nat := 0x200A0
/-- CSR offset of instance 0 (R604). -/
abbrev PAT_PATCH_OUTCOME : Nat := 0x200A8
/-- CSR offset of instance 0 (R604). -/
abbrev PAT_PATCH_RESULT : Nat := 0x200B0
/-- CSR offset of instance 0 (R605). -/
abbrev PAT_AREA_STATUS : Nat := 0x200B8
/-- CSR offset of instance 0 (R654). -/
abbrev HLT_CFG : Nat := 0x160000
/-- CSR offset of instance 0 (R655). -/
abbrev HLT_STATUS : Nat := 0x160008
/-- CSR offset of instance 0 (R656). -/
abbrev HLT_EVENT : Nat := 0x160010
/-- CSR offset of instance 0 (R657). -/
abbrev HLT_THRESH : Nat := 0x160018
/-- CSR offset of instance 0 (R658). -/
abbrev HLT_PROBE_CFG : Nat := 0x160020
/-- CSR offset of instance 0 (R658). -/
abbrev HLT_PROBE_STATUS : Nat := 0x160028
/-- CSR offset of instance 0 (R659). -/
abbrev HLT_SCRUB_CFG : Nat := 0x160030
/-- CSR offset of instance 0 (R660). -/
abbrev HLT_HB_CFG : Nat := 0x160040
/-- CSR offset of instance 0 (R661). -/
abbrev HLT_WEAR_CFG : Nat := 0x160048
/-- CSR offset of instance 0 (R661). -/
abbrev HLT_CAL_CFG : Nat := 0x160050
/-- CSR offset of instance 0 (R662). -/
abbrev HLT_HB_STATUS : Nat := 0x160058
/-- CSR offset of instance 0 (R663). -/
abbrev HLT_DEAD0 : Nat := 0x160060
/-- CSR offset of instance 0 (R663). -/
abbrev HLT_DEAD1 : Nat := 0x160068
/-- CSR offset of instance 0 (R664). -/
abbrev HLT_FLOG_CTL : Nat := 0x160080
/-- CSR offset of instance 0 (R665). -/
abbrev HLT_DARN_CFG : Nat := 0x162000
/-- CSR offset of instance 0 (R665). -/
abbrev HLT_DARN_CTL : Nat := 0x162008
/-- CSR offset of instance 0 (R666). -/
abbrev HLT_DARN_STATUS : Nat := 0x162010
/-- CSR offset of instance 0 (R667). -/
abbrev HLT_UNIT_HEM : Nat := 0x162018
/-- CSR offset of instance 0 (R668). -/
abbrev HLT_HEM_0 : Nat := 0x163000
/-- CSR offset of instance 0 (R669). -/
abbrev HLT_TWIN_0 : Nat := 0x165000
/-- CSR offset of instance 0 (R670). -/
abbrev HLT_TWIN_CNT_0 : Nat := 0x167000
/-- CSR offset of instance 0 (R671). -/
abbrev HLT_SEAM_HEM0 : Nat := 0x169000
/-- CSR offset of instance 0 (R671). -/
abbrev HLT_SEAM_HEM1 : Nat := 0x169008
/-- CSR offset of instance 0 (R709). -/
abbrev MND_HANG_CFG : Nat := 0x170000
/-- CSR offset of instance 0 (R710). -/
abbrev MND_STALL : Nat := 0x170008
/-- CSR offset of instance 0 (R711). -/
abbrev MND_TAILOR_KICK : Nat := 0x170010
/-- CSR offset of instance 0 (R712). -/
abbrev MND_SAMPLE_BASE : Nat := 0x170018
/-- CSR offset of instance 0 (R712). -/
abbrev MND_DUMP_BASE : Nat := 0x170028
/-- CSR offset of instance 0 (R712). -/
abbrev MND_SAMPLE_N : Nat := 0x170020
/-- CSR offset of instance 0 (R712). -/
abbrev MND_DUMP_SIZE : Nat := 0x170030
/-- CSR offset of instance 0 (R713). -/
abbrev MND_FLUSH_CNT : Nat := 0x170038
/-- CSR offset of instance 0 (R714). -/
abbrev MND_STOP_FT : Nat := 0x170040
/-- CSR offset of instance 0 (R715). -/
abbrev MND_STOP_CTL : Nat := 0x170048
/-- CSR offset of instance 0 (R716). -/
abbrev MND_STOP_STATUS : Nat := 0x170050
/-- CSR offset of instance 0 (R717). -/
abbrev MND_CAP_ADDR : Nat := 0x170058
/-- CSR offset of instance 0 (R717). -/
abbrev MND_CAP_DATA : Nat := 0x170060
/-- CSR offset of instance 0 (R719). -/
abbrev MND_CFG : Nat := 0x170100
/-- CSR offset of instance 0 (R720). -/
abbrev MND_PART_CTL : Nat := 0x170108
/-- CSR offset of instance 0 (R721). -/
abbrev MND_IN_MEND : Nat := 0x170110
/-- CSR offset of instance 0 (R722). -/
abbrev MND_PART_STATUS_0 : Nat := 0x170200
/-- CSR offset of instance 0 (R753). -/
abbrev OBS_CFG : Nat := 0x180000
/-- CSR offset of instance 0 (R754). -/
abbrev OBS_TRACE_SINK : Nat := 0x180008
/-- CSR offset of instance 0 (R755). -/
abbrev OBS_TRACE_CFG : Nat := 0x180010
/-- CSR offset of instance 0 (R756). -/
abbrev OBS_TRACE_STATUS : Nat := 0x180018
/-- CSR offset of instance 0 (R756). -/
abbrev OBS_TRACE_DROP : Nat := 0x180020
/-- CSR offset of instance 0 (R757). -/
abbrev OBS_STAT_CFG : Nat := 0x180028
/-- CSR offset of instance 0 (R757). -/
abbrev OBS_STAT_ADDR : Nat := 0x180030
/-- CSR offset of instance 0 (R757). -/
abbrev OBS_STAT_DATA : Nat := 0x180038
/-- CSR offset of instance 0 (R758). -/
abbrev OBS_PRB_CFG_0 : Nat := 0x180400
/-- CSR offset of instance 0 (R759). -/
abbrev OBS_PRB_MATCH0_0 : Nat := 0x180408
/-- CSR offset of instance 0 (R759). -/
abbrev OBS_PRB_MASK0_0 : Nat := 0x180410
/-- CSR offset of instance 0 (R759). -/
abbrev OBS_PRB_MATCH1_0 : Nat := 0x180418
/-- CSR offset of instance 0 (R759). -/
abbrev OBS_PRB_MASK1_0 : Nat := 0x180420
/-- CSR offset of instance 0 (R759). -/
abbrev OBS_PRB_PKTS_0 : Nat := 0x180428
/-- CSR offset of instance 0 (R759). -/
abbrev OBS_PRB_UNITS_0 : Nat := 0x180430
/-- CSR offset of instance 0 (R760). -/
abbrev OBS_LEDGER_CFG : Nat := 0x181000
/-- CSR offset of instance 0 (R760). -/
abbrev OBS_LEDGER_BASE : Nat := 0x181008
/-- CSR offset of instance 0 (R761). -/
abbrev OBS_LEDGER_HEAD : Nat := 0x181010
/-- CSR offset of instance 0 (R761). -/
abbrev OBS_LEDGER_TAIL : Nat := 0x181018
/-- CSR offset of instance 0 (R762). -/
abbrev OBS_LEDGER_STATUS : Nat := 0x181020
/-- CSR offset of instance 0 (R763). -/
abbrev OBS_LEDGER_LSEQ : Nat := 0x181028
/-- CSR offset of instance 0 (R763). -/
abbrev OBS_LEDGER_CHAIN0 : Nat := 0x181030
/-- CSR offset of instance 0 (R763). -/
abbrev OBS_LEDGER_CHAIN1 : Nat := 0x181038
/-- CSR offset of instance 0 (R763). -/
abbrev OBS_LEDGER_CHAIN2 : Nat := 0x181040
/-- CSR offset of instance 0 (R763). -/
abbrev OBS_LEDGER_CHAIN3 : Nat := 0x181048
/-- CSR offset of instance 0 (R763). -/
abbrev OBS_LEDGER_CHAIN4 : Nat := 0x181050
/-- CSR offset of instance 0 (R763). -/
abbrev OBS_LEDGER_CHAIN5 : Nat := 0x181058
/-- CSR offset of instance 0 (R763). -/
abbrev OBS_LEDGER_PREV0 : Nat := 0x181060
/-- CSR offset of instance 0 (R763). -/
abbrev OBS_LEDGER_PREV1 : Nat := 0x181068
/-- CSR offset of instance 0 (R763). -/
abbrev OBS_LEDGER_PREV2 : Nat := 0x181070
/-- CSR offset of instance 0 (R763). -/
abbrev OBS_LEDGER_PREV3 : Nat := 0x181078
/-- CSR offset of instance 0 (R763). -/
abbrev OBS_LEDGER_PREV4 : Nat := 0x181080
/-- CSR offset of instance 0 (R763). -/
abbrev OBS_LEDGER_PREV5 : Nat := 0x181088
/-- CSR offset of instance 0 (R764). -/
abbrev OBS_LEDGER_CTL : Nat := 0x181090
/-- CSR offset of instance 0 (R792). -/
abbrev TLR_STATUS : Nat := 0x1D0000
/-- CSR offset of instance 0 (R793). -/
abbrev TLR_TX_CTL : Nat := 0x1D0008
/-- CSR offset of instance 0 (R793). -/
abbrev TLR_RX_CFG : Nat := 0x1D0010
/-- CSR offset of instance 0 (R793). -/
abbrev TLR_RX_PTR : Nat := 0x1D0018
/-- CSR offset of instance 0 (R794). -/
abbrev TLR_BOOT_CTL : Nat := 0x1D0100
/-- CSR offset of instance 0 (R794). -/
abbrev TLR_BOOT_STATUS : Nat := 0x1D0108
/-- CSR offset of instance 0 (R795). -/
abbrev TLR_MIRROR_FENCE : Nat := 0x1D0110
/-- CSR offset of instance 0 (R796). -/
abbrev TLR_SVC_FT : Nat := 0x1D0118
/-- CSR offset of instance 0 (R796). -/
abbrev TLR_SVC_CTL : Nat := 0x1D0120
/-- CSR offset of instance 0 (R796). -/
abbrev TLR_SVC_STATUS : Nat := 0x1D0128
/-- CSR offset of instance 0 (R797). -/
abbrev TLR_RCSR_ADDR : Nat := 0x1D0130
/-- CSR offset of instance 0 (R797). -/
abbrev TLR_RCSR_DATA : Nat := 0x1D0138
/-- CSR offset of instance 0 (R797). -/
abbrev TLR_RCSR_CTL : Nat := 0x1D0140
/-- CSR offset of instance 0 (R798). -/
abbrev TLR_APER_BASE0 : Nat := 0x1D0148
/-- CSR offset of instance 0 (R798). -/
abbrev TLR_APER_BASE1 : Nat := 0x1D0150
/-- CSR offset of instance 0 (R798). -/
abbrev TLR_APER_BASE2 : Nat := 0x1D0158
/-- CSR offset of instance 0 (R798). -/
abbrev TLR_APER_BASE3 : Nat := 0x1D0160
/-- CSR offset of instance 0 (R798). -/
abbrev TLR_HOST_ERR : Nat := 0x1D0168
/-- CSR offset of instance 0 (R799). -/
abbrev TLR_IRQ_STATUS : Nat := 0x1D0170
/-- CSR offset of instance 0 (R799). -/
abbrev TLR_IRQ_MASK : Nat := 0x1D0178
/-- CSR offset of instance 0 (R800). -/
abbrev TLR_TELEM_ADDR : Nat := 0x1D0180
/-- CSR offset of instance 0 (R800). -/
abbrev TLR_TELEM_DATA : Nat := 0x1D0188
/-- CSR offset of instance 0 (R801). -/
abbrev SEC_STATUS : Nat := 0x1C0000
/-- CSR offset of instance 0 (R801). -/
abbrev SEC_CTL : Nat := 0x1C0008
/-- CSR offset of instance 0 (R802). -/
abbrev SEC_OWNER_KEY0 : Nat := 0x1C0010
/-- CSR offset of instance 0 (R802). -/
abbrev SEC_OWNER_KEY1 : Nat := 0x1C0018
/-- CSR offset of instance 0 (R802). -/
abbrev SEC_OWNER_KEY2 : Nat := 0x1C0020
/-- CSR offset of instance 0 (R802). -/
abbrev SEC_OWNER_KEY3 : Nat := 0x1C0028
/-- CSR offset of instance 0 (R802). -/
abbrev SEC_OWNER_KEY4 : Nat := 0x1C0030
/-- CSR offset of instance 0 (R802). -/
abbrev SEC_OWNER_KEY5 : Nat := 0x1C0038
/-- CSR offset of instance 0 (R802). -/
abbrev SEC_OWNER_KEY6 : Nat := 0x1C0040
/-- CSR offset of instance 0 (R802). -/
abbrev SEC_OWNER_KEY7 : Nat := 0x1C0048
/-- CSR offset of instance 0 (R802). -/
abbrev SEC_OWNER_KEY8 : Nat := 0x1C0050
/-- CSR offset of instance 0 (R802). -/
abbrev SEC_OWNER_KEY9 : Nat := 0x1C0058
/-- CSR offset of instance 0 (R802). -/
abbrev SEC_OWNER_KEY10 : Nat := 0x1C0060
/-- CSR offset of instance 0 (R802). -/
abbrev SEC_OWNER_KEY11 : Nat := 0x1C0068
/-- CSR offset of instance 0 (R802). -/
abbrev SEC_OWNER_KEY12 : Nat := 0x1C0070
/-- CSR offset of instance 0 (R802). -/
abbrev SEC_ATTEST_PUB0 : Nat := 0x1C0080
/-- CSR offset of instance 0 (R802). -/
abbrev SEC_ATTEST_PUB1 : Nat := 0x1C0088
/-- CSR offset of instance 0 (R802). -/
abbrev SEC_ATTEST_PUB2 : Nat := 0x1C0090
/-- CSR offset of instance 0 (R802). -/
abbrev SEC_ATTEST_PUB3 : Nat := 0x1C0098
/-- CSR offset of instance 0 (R802). -/
abbrev SEC_ATTEST_PUB4 : Nat := 0x1C00A0
/-- CSR offset of instance 0 (R802). -/
abbrev SEC_ATTEST_PUB5 : Nat := 0x1C00A8
/-- CSR offset of instance 0 (R802). -/
abbrev SEC_ATTEST_PUB6 : Nat := 0x1C00B0
/-- CSR offset of instance 0 (R802). -/
abbrev SEC_ATTEST_PUB7 : Nat := 0x1C00B8
/-- CSR offset of instance 0 (R802). -/
abbrev SEC_ATTEST_PUB8 : Nat := 0x1C00C0
/-- CSR offset of instance 0 (R802). -/
abbrev SEC_ATTEST_PUB9 : Nat := 0x1C00C8
/-- CSR offset of instance 0 (R802). -/
abbrev SEC_ATTEST_PUB10 : Nat := 0x1C00D0
/-- CSR offset of instance 0 (R802). -/
abbrev SEC_ATTEST_PUB11 : Nat := 0x1C00D8
/-- CSR offset of instance 0 (R803). -/
abbrev SEC_DEVICE_ID : Nat := 0x1C00E0
/-- CSR offset of instance 0 (R803). -/
abbrev SEC_FW_KEY_HASH0 : Nat := 0x1C00E8
/-- CSR offset of instance 0 (R803). -/
abbrev SEC_FW_KEY_HASH1 : Nat := 0x1C00F0
/-- CSR offset of instance 0 (R803). -/
abbrev SEC_FW_KEY_HASH2 : Nat := 0x1C00F8
/-- CSR offset of instance 0 (R803). -/
abbrev SEC_FW_KEY_HASH3 : Nat := 0x1C0100
/-- CSR offset of instance 0 (R803). -/
abbrev SEC_FW_KEY_HASH4 : Nat := 0x1C0108
/-- CSR offset of instance 0 (R803). -/
abbrev SEC_FW_KEY_HASH5 : Nat := 0x1C0110
/-- CSR offset of instance 0 (R803). -/
abbrev SEC_SVN : Nat := 0x1C0118
/-- CSR offset of instance 0 (R803). -/
abbrev SEC_DEBUG_STATUS : Nat := 0x1C0120

/-- Registers of the SLC block (any): offset, RW, PL, W1C, reset. -/
def regsSlcAny : List RegDesc := [
  ⟨0x0, 0x0, 0x0, 0x0, 0x0⟩,
  ⟨0x8, 0x0, 0xFFFFF000000000C0, 0x0, 0x0⟩,
  ⟨0x10, 0x0, 0x0, 0x0, 0x0⟩,
  ⟨0x18, 0x0, 0x3F0000, 0x0, 0x0⟩,
  ⟨0x20, 0x0, 0x1, 0x0, 0x0⟩]

/-- Registers of the TRT block (any): offset, RW, PL, W1C, reset. -/
def regsTrtAny : List RegDesc := [
  ⟨0x0, 0x0, 0x1F1F000003, 0x0, 0x0⟩,
  ⟨0x8, 0x0, 0x0, 0x0, 0x0⟩,
  ⟨0x10, 0xFFFFFFFFFFFF, 0x0, 0x0, 0x0⟩,
  ⟨0x18, 0xFFFFFFFFFFFFFFF, 0x0, 0x0, 0x0⟩,
  ⟨0x20, 0xFFF, 0x0, 0x0, 0x0⟩,
  ⟨0x28, 0x0, 0xFFFFFFFFFFFFFFFF, 0x0, 0x0⟩,
  ⟨0x30, 0x7FF, 0x0, 0x0, 0x0⟩,
  ⟨0x38, 0x0, 0xFFFFFFFFFFFFFFFF, 0x0, 0x0⟩,
  ⟨0x40, 0xFFFFFFFFFFFFFFF, 0x0, 0x0, 0x0⟩,
  ⟨0x48, 0xFFFFFFFFFFFFFFF, 0x0, 0x0, 0x0⟩,
  ⟨0x50, 0xFFFFFFFF, 0x0, 0x0, 0x0⟩,
  ⟨0x58, 0x0, 0x0, 0x3F, 0x0⟩,
  ⟨0x60, 0xFFF, 0x0, 0x0, 0x0⟩,
  ⟨0x80, 0x0, 0xFFFFFFFF, 0x0, 0x0⟩,
  ⟨0x88, 0x0, 0x3F3F3F3F3F3F, 0x0, 0x0⟩,
  ⟨0x90, 0x0, 0xFFFFFFFFFFFF, 0x0, 0x0⟩,
  ⟨0x98, 0x0, 0x0, 0x0, 0x0⟩,
  ⟨0xA0, 0xFFFFFFFFFFFF, 0x0, 0x0, 0x0⟩,
  ⟨0xA8, 0xFF1FF771, 0x0, 0x0, 0x0⟩,
  ⟨0xB0, 0x0, 0x0, 0x0, 0x0⟩]

/-- Registers of the DARN block (compute): offset, RW, PL, W1C, reset. -/
def regsDarnCompute : List RegDesc := [
  ⟨0x0, 0x0, 0xFFFFFFFFFFFFFFFF, 0x0, 0xFFFFFFFFFFFFFFFF⟩,
  ⟨0x8, 0x0, 0xFFFFFFFFFFFFFFFF, 0x0, 0xFFFFFFFFFFFFFFFF⟩,
  ⟨0x10, 0x0, 0xFFFFFFFFFFFFFFFF, 0x0, 0xFFFFFFFFFFFFFFFF⟩]

/-- Registers of the NI block (any): offset, RW, PL, W1C, reset. -/
def regsNiAny : List RegDesc := [
  ⟨0x0, 0x0, 0x1F1F01, 0x0, 0x0⟩,
  ⟨0x8, 0x0, 0x0, 0x0, 0x0⟩,
  ⟨0x10, 0xFFFFFFFFFFFF, 0x0, 0x0, 0x0⟩,
  ⟨0x18, 0xFFFFFFFFFFFF, 0x0, 0x0, 0x0⟩,
  ⟨0x20, 0xFFFFFFFFFFFF, 0x0, 0x0, 0x0⟩,
  ⟨0x28, 0xFFFFFFFFFFFF, 0x0, 0x0, 0x0⟩,
  ⟨0x30, 0xFFFFFFFFFFFF, 0x0, 0x0, 0x0⟩]

/-- Registers of the NID block (any): offset, RW, PL, W1C, reset. -/
def regsNidAny : List RegDesc := [
  ⟨0x0, 0xC00003FF00003FFF, 0x0, 0x0, 0x0⟩,
  ⟨0x8, 0x0, 0xFFFFFFFFFFFFFFFF, 0x0, 0x0⟩,
  ⟨0x10, 0x0, 0xFFFF, 0x0, 0x0⟩]

/-- Registers of the SEAM block (any): offset, RW, PL, W1C, reset. -/
def regsSeamAny : List RegDesc := [
  ⟨0x0, 0x0, 0x3, 0x0, 0x0⟩,
  ⟨0x8, 0x0, 0x0, 0x0, 0x0⟩,
  ⟨0x10, 0xFFFFFFFF, 0x0, 0x0, 0x0⟩,
  ⟨0x18, 0xFFFFFFFF, 0x0, 0x0, 0x0⟩,
  ⟨0x20, 0x0, 0x0, 0x0, 0x181818181818⟩]

/-- Registers of the PANEL block (compute): offset, RW, PL, W1C, reset. -/
def regsPanelCompute : List RegDesc := [
  ⟨0x0, 0x3, 0x0, 0x0, 0x0⟩]

/-- Registers of the TIM block (any): offset, RW, PL, W1C, reset. -/
def regsTimAny : List RegDesc := [
  ⟨0x0, 0x0, 0x0, 0x0, 0x0⟩,
  ⟨0x8, 0x0, 0x0, 0x0, 0x0⟩,
  ⟨0x10, 0x0, 0x0, 0x0, 0x0⟩,
  ⟨0x18, 0x0, 0x0, 0x1F, 0x0⟩,
  ⟨0x20, 0x0, 0xFFFF7F01FF, 0x0, 0x0⟩,
  ⟨0x28, 0x0, 0x0, 0x0, 0x0⟩,
  ⟨0x38, 0x0, 0x0, 0x0, 0x0⟩,
  ⟨0x40, 0xFFFFFFFFFFFFFFFF, 0x0, 0x0, 0x0⟩,
  ⟨0x48, 0xFFFFFFFFFFFFFFFF, 0x0, 0x0, 0x0⟩,
  ⟨0x50, 0xFFFFFFFFFFFFFFFF, 0x0, 0x0, 0x0⟩,
  ⟨0x58, 0xFFFFFFFFFFFFFFFF, 0x0, 0x0, 0x0⟩,
  ⟨0x60, 0xFFFFFFFFFFFFFFFF, 0x0, 0x0, 0x0⟩,
  ⟨0x68, 0xFFFFFFFFFFFFFFFF, 0x0, 0x0, 0x0⟩,
  ⟨0x70, 0x0, 0x0, 0x0, 0x0⟩,
  ⟨0x78, 0x0, 0x0, 0x0, 0x0⟩,
  ⟨0x80, 0x0, 0x0, 0x0, 0x0⟩,
  ⟨0x88, 0xFFFFFFFFFFFFFFFF, 0x0, 0x0, 0x0⟩,
  ⟨0x90, 0xFFFFFFFFFFFFFFFF, 0x0, 0x0, 0x0⟩,
  ⟨0x100, 0x1FFF, 0x0, 0x0, 0x0⟩,
  ⟨0x108, 0x0, 0xFFFFFFFFFFFFFFFF, 0x0, 0x0⟩]

/-- Registers of the TIM block (head): offset, RW, PL, W1C, reset. -/
def regsTimHead : List RegDesc := [
  ⟨0x30, 0xFFFFFFFF, 0x0, 0x0, 0x0⟩]

/-- Registers of the GATE block (any): offset, RW, PL, W1C, reset. -/
def regsGateAny : List RegDesc := [
  ⟨0x0, 0x0, 0x1FFFF, 0x0, 0x0⟩,
  ⟨0x8, 0x0, 0xFFFFFFFFFFFFFFFF, 0x0, 0x0⟩,
  ⟨0x10, 0x0, 0x0, 0x0, 0x8⟩]

/-- Registers of the SHP block (any): offset, RW, PL, W1C, reset. -/
def regsShpAny : List RegDesc := [
  ⟨0x0, 0x0, 0xFFFFFFFFFFCF0001, 0x0, 0x0⟩,
  ⟨0x8, 0x0, 0x0, 0x0, 0x0⟩,
  ⟨0x10, 0x0, 0xFFFFFFFF001F0001, 0x0, 0x0⟩,
  ⟨0x18, 0x0, 0xFFFFFF00FFFFFF, 0x0, 0x0⟩,
  ⟨0x20, 0x0, 0x0, 0x0, 0x0⟩,
  ⟨0x28, 0xFFFFFFFFFFFF, 0x0, 0x0, 0x0⟩,
  ⟨0x30, 0xFFFFFFFFFFFF, 0x0, 0x0, 0x0⟩,
  ⟨0x38, 0xFFFFFFFFFFFF, 0x0, 0x0, 0x0⟩,
  ⟨0x40, 0xFF1FF001, 0x0, 0x0, 0x0⟩,
  ⟨0x48, 0x0, 0x0, 0x0, 0x0⟩]

/-- Registers of the NID block (compute): offset, RW, PL, W1C, reset. -/
def regsNidCompute : List RegDesc := [
  ⟨0x100, 0x1FF, 0x0, 0x0, 0x0⟩,
  ⟨0x108, 0x0, 0xFFFFFFFFFFFF0000, 0x0, 0x0⟩,
  ⟨0x110, 0x0, 0x1FFF1FFFFF01, 0x0, 0x0⟩,
  ⟨0x118, 0x0, 0x0, 0x0, 0x10000000⟩,
  ⟨0x120, 0xFFFFFFFFFFFF, 0x0, 0x0, 0x0⟩]

/-- Registers of the TRT block (compute): offset, RW, PL, W1C, reset. -/
def regsTrtCompute : List RegDesc := [
  ⟨0xC0, 0x0, 0xFFFF00000001, 0x0, 0x0⟩,
  ⟨0xC8, 0x1F, 0x0, 0x0, 0x0⟩,
  ⟨0xD0, 0xFFFFFFFFFFFFFFFF, 0x0, 0x0, 0x0⟩,
  ⟨0xD8, 0x0, 0x0, 0x0, 0x0⟩,
  ⟨0xE0, 0xFFFFFFFFFFFF, 0x0, 0x0, 0x0⟩,
  ⟨0xE8, 0xFFFFFFFFFFFFFFFF, 0x0, 0x0, 0x0⟩,
  ⟨0xF0, 0xFFFFFFFFFFFF, 0x0, 0x0, 0x0⟩,
  ⟨0xF8, 0xFFFFFFFF, 0x0, 0x0, 0x0⟩]

/-- Registers of the CE block (any): offset, RW, PL, W1C, reset. -/
def regsCeAny : List RegDesc := [
  ⟨0x0, 0x0, 0xFFFF007F001F0F01, 0x0, 0x0⟩,
  ⟨0x8, 0x0, 0x7FFFFFF03FFFFFF, 0x0, 0x0⟩,
  ⟨0x10, 0x0, 0x0, 0x0, 0x0⟩,
  ⟨0x18, 0x1FF, 0x0, 0x0, 0x0⟩,
  ⟨0x20, 0xFFFFFFFFFFFFFFFF, 0x0, 0x0, 0x0⟩,
  ⟨0x28, 0x0, 0x0, 0xFF, 0x0⟩,
  ⟨0x30, 0xFFFFFFFFFFFF, 0x0, 0x0, 0x0⟩,
  ⟨0x38, 0xFFFFFFFFFFFFFFFF, 0x0, 0x0, 0x0⟩,
  ⟨0x40, 0xFFFFFFFFFFFFFFFF, 0x0, 0x0, 0x0⟩,
  ⟨0x48, 0xFFFFFFFFFFFF, 0x0, 0x0, 0x0⟩,
  ⟨0x50, 0xFFFFFFFF, 0x0, 0x0, 0x0⟩,
  ⟨0x58, 0xFFFFFFF, 0x0, 0x0, 0x0⟩,
  ⟨0x60, 0xFFFFFFF, 0x0, 0x0, 0x0⟩,
  ⟨0x68, 0xFFFFFFFFFFFF, 0x0, 0x0, 0x0⟩,
  ⟨0x70, 0xFFFFFFFFFFFF, 0x0, 0x0, 0x0⟩,
  ⟨0x78, 0x0, 0x0, 0x0, 0x0⟩]

/-- Registers of the SYN block (compute): offset, RW, PL, W1C, reset. -/
def regsSynCompute : List RegDesc := [
  ⟨0x0, 0x0, 0xFFFFFFFD, 0x0, 0x0⟩,
  ⟨0x8, 0x0, 0x0, 0x0, 0x0⟩,
  ⟨0x10, 0x0, 0x0, 0xF, 0x0⟩,
  ⟨0x18, 0x0, 0x0, 0x0, 0x0⟩,
  ⟨0x20, 0xFFFFFFFFFFFF, 0x0, 0x0, 0x0⟩,
  ⟨0x28, 0xFFFFFFFFFFFF, 0x0, 0x0, 0x0⟩,
  ⟨0x30, 0xFFFFFFFFFFFF, 0x0, 0x0, 0x0⟩,
  ⟨0x38, 0xFFFFFFFFFFFF, 0x0, 0x0, 0x0⟩,
  ⟨0x40, 0xFFFFFFFFFFFF, 0x0, 0x0, 0x0⟩]

/-- Registers of the CMT block (any): offset, RW, PL, W1C, reset. -/
def regsCmtAny : List RegDesc := [
  ⟨0x0, 0x0, 0xFFFFFFFF00000003, 0x0, 0x0⟩,
  ⟨0x8, 0x0, 0x0, 0x0, 0x0⟩,
  ⟨0x10, 0x0, 0x0, 0x3F, 0x0⟩,
  ⟨0x18, 0xFFFFFFFFFFFF, 0x0, 0x0, 0x0⟩,
  ⟨0x20, 0xFFFFFFFFFFFF, 0x0, 0x0, 0x0⟩,
  ⟨0x28, 0xFFFFFFFFFFFF, 0x0, 0x0, 0x0⟩,
  ⟨0x30, 0xFFFFFFFFFFFF, 0x0, 0x0, 0x0⟩,
  ⟨0x100, 0x0, 0x1FFF00000FFF, 0x0, 0x0⟩,
  ⟨0x108, 0x0, 0x0, 0x0, 0x0⟩,
  ⟨0x110, 0x0, 0x1FFF00000FFF, 0x0, 0x0⟩,
  ⟨0x118, 0x0, 0x0, 0x0, 0x0⟩,
  ⟨0x120, 0x0, 0x1FFF00000FFF, 0x0, 0x0⟩,
  ⟨0x128, 0x0, 0x0, 0x0, 0x0⟩,
  ⟨0x130, 0x0, 0x1FFF00000FFF, 0x0, 0x0⟩,
  ⟨0x138, 0x0, 0x0, 0x0, 0x0⟩,
  ⟨0x140, 0x0, 0x1FFF00000FFF, 0x0, 0x0⟩,
  ⟨0x148, 0x0, 0x0, 0x0, 0x0⟩,
  ⟨0x150, 0x0, 0x1FFF00000FFF, 0x0, 0x0⟩,
  ⟨0x158, 0x0, 0x0, 0x0, 0x0⟩,
  ⟨0x160, 0x0, 0x1FFF00000FFF, 0x0, 0x0⟩,
  ⟨0x168, 0x0, 0x0, 0x0, 0x0⟩,
  ⟨0x170, 0x0, 0x1FFF00000FFF, 0x0, 0x0⟩,
  ⟨0x178, 0x0, 0x0, 0x0, 0x0⟩,
  ⟨0x180, 0x0, 0x1FFF00000FFF, 0x0, 0x0⟩,
  ⟨0x188, 0x0, 0x0, 0x0, 0x0⟩,
  ⟨0x190, 0x0, 0x1FFF00000FFF, 0x0, 0x0⟩,
  ⟨0x198, 0x0, 0x0, 0x0, 0x0⟩,
  ⟨0x1A0, 0x0, 0x1FFF00000FFF, 0x0, 0x0⟩,
  ⟨0x1A8, 0x0, 0x0, 0x0, 0x0⟩,
  ⟨0x1B0, 0x0, 0x1FFF00000FFF, 0x0, 0x0⟩,
  ⟨0x1B8, 0x0, 0x0, 0x0, 0x0⟩,
  ⟨0x1C0, 0x0, 0x1FFF00000FFF, 0x0, 0x0⟩,
  ⟨0x1C8, 0x0, 0x0, 0x0, 0x0⟩,
  ⟨0x1D0, 0x0, 0x1FFF00000FFF, 0x0, 0x0⟩,
  ⟨0x1D8, 0x0, 0x0, 0x0, 0x0⟩,
  ⟨0x1E0, 0x0, 0x1FFF00000FFF, 0x0, 0x0⟩,
  ⟨0x1E8, 0x0, 0x0, 0x0, 0x0⟩,
  ⟨0x1F0, 0x0, 0x1FFF00000FFF, 0x0, 0x0⟩,
  ⟨0x1F8, 0x0, 0x0, 0x0, 0x0⟩]

/-- Registers of the CMTC block (any): offset, RW, PL, W1C, reset. -/
def regsCmtcAny : List RegDesc := [
  ⟨0x0, 0xFFFFFFFFFFFFFFFF, 0x0, 0x0, 0x0⟩,
  ⟨0x8, 0x3FFF0FF1, 0x0, 0x0, 0x0⟩,
  ⟨0x10, 0xFFFFFFFFFFFFFFFF, 0x0, 0x0, 0x0⟩,
  ⟨0x18, 0x0, 0xFFFFFFFFFFFF0000, 0x0, 0x0⟩,
  ⟨0x20, 0x0, 0x0, 0x0, 0x0⟩,
  ⟨0x28, 0xFFFFFFFFFFFFFFFF, 0x0, 0x0, 0x0⟩]

/-- Registers of the STL block (port): offset, RW, PL, W1C, reset. -/
def regsStlPort_0 : List RegDesc := [
  ⟨0x0, 0x0, 0x3E3, 0x0, 0x0⟩,
  ⟨0x8, 0x0, 0xFFFFFFFF, 0x0, 0x0⟩,
  ⟨0x10, 0x0, 0x1F1F1F1F1F1F, 0x0, 0x0⟩,
  ⟨0x18, 0x0, 0x7FFFF, 0x0, 0x0⟩,
  ⟨0x20, 0x0, 0x0, 0x0, 0x0⟩,
  ⟨0x28, 0x0, 0x0, 0x0, 0x0⟩,
  ⟨0x30, 0x0, 0x0, 0xFF, 0x0⟩,
  ⟨0x38, 0x0, 0x0, 0x0, 0x0⟩,
  ⟨0x40, 0x0, 0x1FFFFF, 0x0, 0x0⟩,
  ⟨0x48, 0x0, 0x0, 0x0, 0xFFC00000⟩,
  ⟨0x50, 0xFFFFFFFFFFFF, 0x0, 0x0, 0x0⟩,
  ⟨0x58, 0xFFFFFFFFFFFF, 0x0, 0x0, 0x0⟩,
  ⟨0x60, 0xFFFFFFFFFFFF, 0x0, 0x0, 0x0⟩,
  ⟨0x68, 0xFFFFFFFFFFFF, 0x0, 0x0, 0x0⟩,
  ⟨0x70, 0xFFFFFFFFFFFF, 0x0, 0x0, 0x0⟩,
  ⟨0x78, 0x0, 0x0, 0x0, 0x0⟩,
  ⟨0x80, 0x0, 0xFFFFFFFFFFFF, 0x0, 0x0⟩,
  ⟨0x88, 0x0, 0xFFFFFFFFFFFFFFFF, 0x0, 0x0⟩,
  ⟨0x90, 0x0, 0x0, 0x0, 0x0⟩,
  ⟨0x98, 0x0, 0x0, 0x0, 0x0⟩,
  ⟨0x200, 0xFFFFFFFF, 0x0, 0x0, 0x0⟩,
  ⟨0x208, 0xFFFFFFFF, 0x0, 0x0, 0x0⟩,
  ⟨0x210, 0xFFFFFFFF, 0x0, 0x0, 0x0⟩,
  ⟨0x218, 0xFFFFFFFF, 0x0, 0x0, 0x0⟩,
  ⟨0x220, 0xFFFFFFFF, 0x0, 0x0, 0x0⟩,
  ⟨0x228, 0xFFFFFFFF, 0x0, 0x0, 0x0⟩,
  ⟨0x230, 0xFFFFFFFF, 0x0, 0x0, 0x0⟩,
  ⟨0x238, 0xFFFFFFFF, 0x0, 0x0, 0x0⟩,
  ⟨0x240, 0xFFFFFFFF, 0x0, 0x0, 0x0⟩,
  ⟨0x248, 0xFFFFFFFF, 0x0, 0x0, 0x0⟩,
  ⟨0x250, 0xFFFFFFFF, 0x0, 0x0, 0x0⟩,
  ⟨0x258, 0xFFFFFFFF, 0x0, 0x0, 0x0⟩,
  ⟨0x260, 0xFFFFFFFF, 0x0, 0x0, 0x0⟩,
  ⟨0x268, 0xFFFFFFFF, 0x0, 0x0, 0x0⟩,
  ⟨0x270, 0xFFFFFFFF, 0x0, 0x0, 0x0⟩,
  ⟨0x278, 0xFFFFFFFF, 0x0, 0x0, 0x0⟩,
  ⟨0x280, 0xFFFFFFFF, 0x0, 0x0, 0x0⟩,
  ⟨0x288, 0xFFFFFFFF, 0x0, 0x0, 0x0⟩,
  ⟨0x290, 0xFFFFFFFF, 0x0, 0x0, 0x0⟩,
  ⟨0x298, 0xFFFFFFFF, 0x0, 0x0, 0x0⟩]

/-- Registers of the STL block (port): offset, RW, PL, W1C, reset. -/
def regsStlPort_1 : List RegDesc := [
  ⟨0x2A0, 0xFFFFFFFF, 0x0, 0x0, 0x0⟩,
  ⟨0x2A8, 0xFFFFFFFF, 0x0, 0x0, 0x0⟩]

/-- Registers of the STL block (port): offset, RW, PL, W1C, reset. -/
def regsStlPort : List RegDesc := regsStlPort_0 ++ regsStlPort_1

/-- Registers of the PAT block (any): offset, RW, PL, W1C, reset. -/
def regsPatAny : List RegDesc := [
  ⟨0x0, 0x0, 0x0, 0x0, 0x0⟩,
  ⟨0x8, 0x0, 0x0, 0x0, 0x0⟩,
  ⟨0x10, 0x0, 0x0, 0x0, 0x0⟩,
  ⟨0x18, 0x0, 0x0, 0x0, 0x0⟩,
  ⟨0x20, 0x0, 0x0, 0x0, 0x0⟩,
  ⟨0x28, 0x0, 0x0, 0x0, 0x0⟩,
  ⟨0x30, 0x0, 0x0, 0x0, 0x0⟩,
  ⟨0x38, 0x0, 0x0, 0x0, 0x0⟩,
  ⟨0x40, 0xFFFFFFFF, 0x0, 0x0, 0x0⟩,
  ⟨0x100, 0x1FFFFFFFFFF, 0x0, 0x0, 0x0⟩,
  ⟨0x108, 0xFFFFFFFFFFFFFFFF, 0x0, 0x0, 0x0⟩,
  ⟨0x110, 0xFFFFFFFFFFFFFFFF, 0x0, 0x0, 0x0⟩,
  ⟨0x118, 0xFFFFFFFFFFFFFFFF, 0x0, 0x0, 0x0⟩,
  ⟨0x120, 0xFFFFFFFFFFFFFFFF, 0x0, 0x0, 0x0⟩,
  ⟨0x128, 0xFFFFFFFFFFFFFFFF, 0x0, 0x0, 0x0⟩,
  ⟨0x130, 0xFFFFFFFFFFFFFFFF, 0x0, 0x0, 0x0⟩,
  ⟨0x140, 0x1FFFFFFFFFF, 0x0, 0x0, 0x0⟩,
  ⟨0x148, 0xFFFFFFFFFFFFFFFF, 0x0, 0x0, 0x0⟩,
  ⟨0x150, 0xFFFFFFFFFFFFFFFF, 0x0, 0x0, 0x0⟩,
  ⟨0x158, 0xFFFFFFFFFFFFFFFF, 0x0, 0x0, 0x0⟩,
  ⟨0x160, 0xFFFFFFFFFFFFFFFF, 0x0, 0x0, 0x0⟩,
  ⟨0x168, 0xFFFFFFFFFFFFFFFF, 0x0, 0x0, 0x0⟩,
  ⟨0x170, 0xFFFFFFFFFFFFFFFF, 0x0, 0x0, 0x0⟩,
  ⟨0x180, 0x1FFFFFFFFFF, 0x0, 0x0, 0x0⟩,
  ⟨0x188, 0xFFFFFFFFFFFFFFFF, 0x0, 0x0, 0x0⟩,
  ⟨0x190, 0xFFFFFFFFFFFFFFFF, 0x0, 0x0, 0x0⟩,
  ⟨0x198, 0xFFFFFFFFFFFFFFFF, 0x0, 0x0, 0x0⟩,
  ⟨0x1A0, 0xFFFFFFFFFFFFFFFF, 0x0, 0x0, 0x0⟩,
  ⟨0x1A8, 0xFFFFFFFFFFFFFFFF, 0x0, 0x0, 0x0⟩,
  ⟨0x1B0, 0xFFFFFFFFFFFFFFFF, 0x0, 0x0, 0x0⟩,
  ⟨0x1C0, 0x1FFFFFFFFFF, 0x0, 0x0, 0x0⟩,
  ⟨0x1C8, 0xFFFFFFFFFFFFFFFF, 0x0, 0x0, 0x0⟩,
  ⟨0x1D0, 0xFFFFFFFFFFFFFFFF, 0x0, 0x0, 0x0⟩,
  ⟨0x1D8, 0xFFFFFFFFFFFFFFFF, 0x0, 0x0, 0x0⟩,
  ⟨0x1E0, 0xFFFFFFFFFFFFFFFF, 0x0, 0x0, 0x0⟩,
  ⟨0x1E8, 0xFFFFFFFFFFFFFFFF, 0x0, 0x0, 0x0⟩,
  ⟨0x1F0, 0xFFFFFFFFFFFFFFFF, 0x0, 0x0, 0x0⟩]

/-- Registers of the PAT block (head): offset, RW, PL, W1C, reset. -/
def regsPatHead : List RegDesc := [
  ⟨0x48, 0x0, 0xFFFF0000001FF800, 0x0, 0x0⟩,
  ⟨0x50, 0x0, 0xFFFFFFFFFFFFFFFF, 0x0, 0x0⟩,
  ⟨0x58, 0x0, 0xFFFFFFFFFFFFFFFF, 0x0, 0x0⟩,
  ⟨0x60, 0x0, 0xFFFF, 0x0, 0x0⟩,
  ⟨0x80, 0x0, 0x0, 0x0, 0x0⟩,
  ⟨0x88, 0x0, 0x0, 0x10, 0x0⟩,
  ⟨0x90, 0xFFFFFFFFFFFFFFFF, 0x0, 0x0, 0x0⟩,
  ⟨0x98, 0x1FFFF, 0x0, 0x0, 0x0⟩,
  ⟨0xA0, 0x0, 0x0, 0x0, 0x0⟩,
  ⟨0xA8, 0x0, 0x0, 0x0, 0x0⟩,
  ⟨0xB0, 0x0, 0x0, 0x0, 0x0⟩,
  ⟨0xB8, 0x0, 0x0, 0x8, 0x0⟩]

/-- Registers of the HLT block (any): offset, RW, PL, W1C, reset. -/
def regsHltAny : List RegDesc := [
  ⟨0x0, 0x0, 0xF, 0x0, 0x0⟩,
  ⟨0x8, 0x0, 0x0, 0x0, 0x0⟩,
  ⟨0x10, 0x0, 0x0, 0x1F, 0x0⟩,
  ⟨0x18, 0x0, 0xFFFFFFFFFF, 0x0, 0x0⟩,
  ⟨0x20, 0x0, 0xFFF0000FFFF, 0x0, 0x0⟩,
  ⟨0x28, 0xFFFFFFFFFFFF0000, 0x0, 0x0, 0x0⟩,
  ⟨0x30, 0x0, 0xFFFF, 0x0, 0x0⟩,
  ⟨0x40, 0x0, 0xFFFFFFFF, 0x0, 0x0⟩,
  ⟨0x48, 0x0, 0xFFFFFFFF, 0x0, 0x0⟩,
  ⟨0x50, 0x0, 0xFF, 0x0, 0x0⟩,
  ⟨0x80, 0xFF, 0x0, 0x10000, 0x0⟩,
  ⟨0x9000, 0xFFFFFFFFFFFFFFFF, 0x0, 0x0, 0x0⟩,
  ⟨0x9008, 0xFFFFFFFFFFFFFFFF, 0x0, 0x0, 0x0⟩]

/-- Registers of the HLT block (head): offset, RW, PL, W1C, reset. -/
def regsHltHead : List RegDesc := [
  ⟨0x58, 0x0, 0x0, 0x0, 0x0⟩,
  ⟨0x60, 0x0, 0x0, 0x0, 0x0⟩,
  ⟨0x68, 0x0, 0x0, 0x0, 0x0⟩]

/-- Registers of the HLT block (compute): offset, RW, PL, W1C, reset. -/
def regsHltCompute : List RegDesc := [
  ⟨0x2000, 0x0, 0x7, 0x0, 0x0⟩,
  ⟨0x2008, 0x7F, 0x0, 0x0, 0x0⟩,
  ⟨0x2010, 0x0, 0x0, 0x0, 0x0⟩,
  ⟨0x2018, 0x3FF, 0x0, 0x0, 0x0⟩]

/-- Registers of the HLT block (hem): offset, RW, PL, W1C, reset. -/
def regsHltHem : List RegDesc := [
  ⟨0x3000, 0x7F, 0x0, 0x0, 0x0⟩,
  ⟨0x5000, 0x1F1FFFFFFF01, 0x0, 0x0, 0x0⟩,
  ⟨0x7000, 0xFFFFFFFFFFFFFFFF, 0x0, 0x0, 0x0⟩]

/-- Registers of the MND block (any): offset, RW, PL, W1C, reset. -/
def regsMndAny : List RegDesc := [
  ⟨0x0, 0x0, 0xFFFFFFFFFFFF, 0x0, 0x0⟩,
  ⟨0x8, 0x0, 0x0, 0x3F, 0x0⟩,
  ⟨0x10, 0x0, 0x0, 0x0, 0x0⟩,
  ⟨0x18, 0x0, 0xFFFFFFFFFFFFFFFF, 0x0, 0x0⟩,
  ⟨0x20, 0x0, 0xFFFF, 0x0, 0x0⟩,
  ⟨0x28, 0x0, 0xFFFFFFFFFFFFFFFF, 0x0, 0x0⟩,
  ⟨0x30, 0x0, 0xFFFF, 0x0, 0x0⟩,
  ⟨0x38, 0xFFFFFFFFFFFF, 0x0, 0x0, 0x0⟩,
  ⟨0x40, 0xFFFFFFFFFFFFFFFF, 0x0, 0x0, 0x0⟩,
  ⟨0x48, 0x0, 0x0, 0x0, 0x0⟩,
  ⟨0x50, 0x0, 0x0, 0x0, 0x0⟩,
  ⟨0x58, 0xF000FFFFFFFFFFFF, 0x0, 0x0, 0x0⟩,
  ⟨0x60, 0x0, 0x0, 0x0, 0x0⟩]

/-- Registers of the MND block (head): offset, RW, PL, W1C, reset. -/
def regsMndHead : List RegDesc := [
  ⟨0x100, 0x0, 0xFF01, 0x0, 0x0⟩,
  ⟨0x108, 0x0, 0x0, 0x0, 0x0⟩,
  ⟨0x110, 0x0, 0x0, 0x0, 0x0⟩,
  ⟨0x200, 0x0, 0x0, 0x0, 0x0⟩]

/-- Registers of the OBS block (any): offset, RW, PL, W1C, reset. -/
def regsObsAny : List RegDesc := [
  ⟨0x0, 0xF, 0x0, 0x0, 0x0⟩,
  ⟨0x8, 0x0, 0xFFFFFFFFFFFFFFFF, 0x0, 0x0⟩,
  ⟨0x10, 0xFFFFFF0000, 0xF, 0x0, 0x0⟩,
  ⟨0x18, 0x0, 0x0, 0x0, 0x0⟩,
  ⟨0x20, 0xFFFFFFFFFFFFFFFF, 0x0, 0x0, 0x0⟩,
  ⟨0x28, 0xFFFFFFFF00000001, 0x0, 0x0, 0x0⟩,
  ⟨0x30, 0x1FF, 0x0, 0x0, 0x0⟩,
  ⟨0x38, 0x0, 0x0, 0x0, 0x0⟩]

/-- Registers of the PRB block (any): offset, RW, PL, W1C, reset. -/
def regsPrbAny : List RegDesc := [
  ⟨0x0, 0xFFFF00000F0F, 0x0, 0x0, 0x0⟩,
  ⟨0x8, 0xFFFFFFFFFFFFFFFF, 0x0, 0x0, 0x0⟩,
  ⟨0x10, 0xFFFFFFFFFFFFFFFF, 0x0, 0x0, 0x0⟩,
  ⟨0x18, 0xFFFFFFFFFFFFFFFF, 0x0, 0x0, 0x0⟩,
  ⟨0x20, 0xFFFFFFFFFFFFFFFF, 0x0, 0x0, 0x0⟩,
  ⟨0x28, 0xFFFFFFFFFFFF, 0x0, 0x0, 0x0⟩,
  ⟨0x30, 0xFFFFFFFFFFFF, 0x0, 0x0, 0x0⟩]

/-- Registers of the OBS block (head): offset, RW, PL, W1C, reset. -/
def regsObsHead : List RegDesc := [
  ⟨0x1000, 0x0, 0xFFFFFF00FFFFFFFF, 0x0, 0x0⟩,
  ⟨0x1008, 0x0, 0xFFFFFFFFFFFFFFFF, 0x0, 0x0⟩,
  ⟨0x1010, 0x0, 0x0, 0x0, 0x0⟩,
  ⟨0x1018, 0xFFFFFFFFFFFFFFFF, 0x0, 0x0, 0x0⟩,
  ⟨0x1020, 0xFFFFFFFF00000000, 0x0, 0x0, 0x0⟩,
  ⟨0x1028, 0x0, 0x0, 0x0, 0x0⟩,
  ⟨0x1030, 0x0, 0x0, 0x0, 0x0⟩,
  ⟨0x1038, 0x0, 0x0, 0x0, 0x0⟩,
  ⟨0x1040, 0x0, 0x0, 0x0, 0x0⟩,
  ⟨0x1048, 0x0, 0x0, 0x0, 0x0⟩,
  ⟨0x1050, 0x0, 0x0, 0x0, 0x0⟩,
  ⟨0x1058, 0x0, 0x0, 0x0, 0x0⟩,
  ⟨0x1060, 0xFFFFFFFFFFFFFFFF, 0x0, 0x0, 0x0⟩,
  ⟨0x1068, 0xFFFFFFFFFFFFFFFF, 0x0, 0x0, 0x0⟩,
  ⟨0x1070, 0xFFFFFFFFFFFFFFFF, 0x0, 0x0, 0x0⟩,
  ⟨0x1078, 0xFFFFFFFFFFFFFFFF, 0x0, 0x0, 0x0⟩,
  ⟨0x1080, 0xFFFFFFFFFFFFFFFF, 0x0, 0x0, 0x0⟩,
  ⟨0x1088, 0xFFFFFFFFFFFFFFFF, 0x0, 0x0, 0x0⟩,
  ⟨0x1090, 0x0, 0x0, 0x0, 0x0⟩]

/-- Registers of the TLR block (any): offset, RW, PL, W1C, reset. -/
def regsTlrAny : List RegDesc := [
  ⟨0x0, 0x0, 0x0, 0x0, 0x0⟩,
  ⟨0x8, 0x0, 0x0, 0x0, 0x0⟩,
  ⟨0x10, 0xFFFF, 0x0, 0x0, 0x0⟩,
  ⟨0x18, 0xFFFF00000FFF0000, 0x0, 0x0, 0x0⟩]

/-- Registers of the TLR block (service): offset, RW, PL, W1C, reset. -/
def regsTlrService : List RegDesc := [
  ⟨0x100, 0x0, 0x0, 0x0, 0x0⟩,
  ⟨0x108, 0x0, 0x0, 0x0, 0x0⟩,
  ⟨0x110, 0x0, 0x0, 0x0, 0x0⟩,
  ⟨0x118, 0xFFFFFFFFFFFFFFFF, 0x0, 0x0, 0x0⟩,
  ⟨0x120, 0x0, 0x0, 0x0, 0x0⟩,
  ⟨0x128, 0x0, 0x0, 0x0, 0x0⟩,
  ⟨0x130, 0xFFFFF00000FFFFFF, 0x0, 0x0, 0x0⟩,
  ⟨0x138, 0xFFFFFFFFFFFFFFFF, 0x0, 0x0, 0x0⟩,
  ⟨0x140, 0x0, 0x0, 0x0, 0x0⟩,
  ⟨0x148, 0xFFFFFFFFFC000000, 0x0, 0x0, 0x0⟩,
  ⟨0x150, 0xFFFFFFFFFC000000, 0x0, 0x0, 0x0⟩,
  ⟨0x158, 0xFFFFFFFFFC000000, 0x0, 0x0, 0x0⟩,
  ⟨0x160, 0xFFFFFFFFFC000000, 0x0, 0x0, 0x0⟩,
  ⟨0x168, 0x0, 0x0, 0x0, 0x0⟩,
  ⟨0x170, 0x0, 0x0, 0x3FF, 0x0⟩,
  ⟨0x178, 0x3FF, 0x0, 0x0, 0x3FF⟩,
  ⟨0x180, 0xFF, 0x0, 0x0, 0x0⟩,
  ⟨0x188, 0x0, 0x0, 0x0, 0x0⟩]

/-- Registers of the SEC block (service): offset, RW, PL, W1C, reset. -/
def regsSecService : List RegDesc := [
  ⟨0x0, 0x0, 0x0, 0x0, 0x0⟩,
  ⟨0x8, 0x0, 0x0, 0x0, 0x0⟩,
  ⟨0x10, 0xFFFFFFFFFFFFFFFF, 0x0, 0x0, 0x0⟩,
  ⟨0x18, 0xFFFFFFFFFFFFFFFF, 0x0, 0x0, 0x0⟩,
  ⟨0x20, 0xFFFFFFFFFFFFFFFF, 0x0, 0x0, 0x0⟩,
  ⟨0x28, 0xFFFFFFFFFFFFFFFF, 0x0, 0x0, 0x0⟩,
  ⟨0x30, 0xFFFFFFFFFFFFFFFF, 0x0, 0x0, 0x0⟩,
  ⟨0x38, 0xFFFFFFFFFFFFFFFF, 0x0, 0x0, 0x0⟩,
  ⟨0x40, 0xFFFFFFFFFFFFFFFF, 0x0, 0x0, 0x0⟩,
  ⟨0x48, 0xFFFFFFFFFFFFFFFF, 0x0, 0x0, 0x0⟩,
  ⟨0x50, 0xFFFFFFFFFFFFFFFF, 0x0, 0x0, 0x0⟩,
  ⟨0x58, 0xFFFFFFFFFFFFFFFF, 0x0, 0x0, 0x0⟩,
  ⟨0x60, 0xFFFFFFFFFFFFFFFF, 0x0, 0x0, 0x0⟩,
  ⟨0x68, 0xFFFFFFFFFFFFFFFF, 0x0, 0x0, 0x0⟩,
  ⟨0x70, 0xFFFFFFFFFFFFFFFF, 0x0, 0x0, 0x0⟩,
  ⟨0x80, 0x0, 0x0, 0x0, 0x0⟩,
  ⟨0x88, 0x0, 0x0, 0x0, 0x0⟩,
  ⟨0x90, 0x0, 0x0, 0x0, 0x0⟩,
  ⟨0x98, 0x0, 0x0, 0x0, 0x0⟩,
  ⟨0xA0, 0x0, 0x0, 0x0, 0x0⟩,
  ⟨0xA8, 0x0, 0x0, 0x0, 0x0⟩,
  ⟨0xB0, 0x0, 0x0, 0x0, 0x0⟩,
  ⟨0xB8, 0x0, 0x0, 0x0, 0x0⟩,
  ⟨0xC0, 0x0, 0x0, 0x0, 0x0⟩,
  ⟨0xC8, 0x0, 0x0, 0x0, 0x0⟩,
  ⟨0xD0, 0x0, 0x0, 0x0, 0x0⟩,
  ⟨0xD8, 0x0, 0x0, 0x0, 0x0⟩,
  ⟨0xE0, 0x0, 0x0, 0x0, 0x0⟩,
  ⟨0xE8, 0x0, 0x0, 0x0, 0x0⟩,
  ⟨0xF0, 0x0, 0x0, 0x0, 0x0⟩,
  ⟨0xF8, 0x0, 0x0, 0x0, 0x0⟩,
  ⟨0x100, 0x0, 0x0, 0x0, 0x0⟩,
  ⟨0x108, 0x0, 0x0, 0x0, 0x0⟩,
  ⟨0x110, 0x0, 0x0, 0x0, 0x0⟩,
  ⟨0x118, 0x0, 0x0, 0x0, 0x0⟩,
  ⟨0x120, 0x0, 0x0, 0x0, 0x0⟩]

end Sys2Proof
end

