-- ==== Sys2Proof/Machine/State.lean ====
section
/-! DEFINITION. The state of one Staix package: every register, table, queue, buffer, timer and memory the spec gives its
slices, the queue of waiting commands, the reasons a command can stop, and the state at reset. -/

namespace Sys2Proof.Machine

/-- Slice kinds (R50). -/
inductive Kind where
  | compute | port | memif | service
  deriving DecidableEq, Repr

/-- One die that is not a compute die: its number, kind, where it stands (side 0 N, 1 E, 2 S, 3 W with an index, or side 4
with corner 0 NW, 1 NE, 2 SE, 3 SW) and its stitch port number where it has one (R34, R37, R39). -/
structure DieInfo where
  num : Nat
  kind : Kind
  side : Nat
  idx : Nat
  sport : Nat := 8
  deriving DecidableEq, Repr

/-- The floor of the package: the compute array, the other dies, and the compute die numbers that no slice carries (R34 to R39,
R576). (DESIGN CHOICE, log 4) -/
structure Floor where
  w : Nat
  h : Nat
  others : List DieInfo
  absent : List Nat := []
  deriving DecidableEq, Repr

/-- The states of the package and of a partition (R60). -/
inductive Mode where
  | cold | test | train | fit | service | mend | stop
  deriving DecidableEq, Repr

/-- The time keeper of a slice (R209 to R225). `slew` is the offset still to be removed, in 2^-16 ns, positive when this slice
is ahead; `good` and `bad` count consecutive exchanges, `noResp` unanswered requests; `alt` says that the alternative port
is in use; `round` is the last round whose boundary was taken; `tod` a pending time of day in 2^-16 ns; `root` that a backup
root acts, `takeover` that it will from the next boundary (R219). -/
structure Keeper where
  ft : Word := 0
  frac : BitVec 16 := 0
  slew : Int := 0
  lock : Bool := false
  holdover : Bool := false
  roundsOn : Bool := false
  root : Bool := false
  takeover : Bool := false
  good : Nat := 0
  bad : Nat := 0
  seq : Nat := 0
  waiting : Bool := false
  noResp : Nat := 0
  lastXfer : Nat := 0
  stepped : Bool := false
  alt : Bool := false
  round : Nat := 0
  tod : Option Int := none
  todAt : Nat := 0
  lastPps : Nat := 0
  deriving DecidableEq, Repr

/-- A clock region: a panel of a compute die, or the whole slice on the other kinds (R231, R232, R249). `cycles` counts
every cycle of the region, `c` is the round counter, `fresh` says that a cycle began in the latest reference cycle and
`restart` that the next cycle is the first of a round; `stretch` and `nextStretch` say that a cycle of the current round, or the first one of
the round whose boundary is not yet taken, was stretched. `ack` is the rate the panel has acknowledged, `reqFt` when the request
was driven, `ackLate` that its lateness is recorded (R827); `resume` that a stop was released (R250). -/
structure Region where
  c : Nat := 0
  cycles : Nat := 0
  fresh : Bool := false
  restart : Bool := false
  down : Bool := false
  stretch : Bool := false
  nextStretch : Bool := false
  lastStretch : Bool := false
  ack : Bool := false
  reqFt : Nat := 0
  ackLate : Bool := false
  resume : Bool := false
  deriving DecidableEq, Repr

/-- A panel clock request that waits for its boundary (R174, R208). -/
structure PanelReq where
  west : Bool := false
  east : Bool := false
  wait : Nat := 0
  deriving DecidableEq, Repr

/-- A unit in a link, buffer or catch register: a header or a data unit, whether it is the packet's last, its VC, the
route progress and look-ahead port of the sideband (R135), the region cycle in which it was written, whether the join
table has still to be looked up for it, whether it is a join's output (R341), whether its leaving the buffer returns a
credit (R140), the output (router × 8 + port) that gets this credit where a bypassed router handed the unit over (R641), whether the
residue check fails when it is combined (R358), and, on the last unit of a join's output, the context and whether that packet carries
LAST (R346). -/
structure Flit where
  vc : Nat := 0
  hdr : Option Hdr := none
  data : DataUnit := 0
  last : Bool := true
  phase : Nat := 0
  seg : Nat := 0
  hops : Nat := 0
  transit : BitVec 48 := 0
  laOut : Nat := 7
  stamp : Nat := 0
  scan : Bool := false
  join : Bool := false
  cred : Bool := true
  via : Option Nat := none
  res : Bool := false
  ends : Option (Nat × Bool) := none
  deriving DecidableEq, Repr

/-- A grant that holds an output: the input and VC it serves, the outputs that move together (one, or all of a
multicast's), the header, and whether its units are dropped at a hem (R138, R163, R634, R635). -/
structure Held where
  input : Nat
  vc : Nat
  outs : List Nat
  hdr : Hdr
  left : Nat := 0
  deriving DecidableEq, Repr

/-- The arbitration state of one output (R274, R276, R281, R735). `released` is the reserved slot whose first cycle the output has taken,
`lateEntry` the one it still has to serve (R239), `openSlot` the one it has released to other packets (R235); 512 is none. -/
structure OutArb where
  rot : List Nat := [0, 0, 0, 0, 0, 0]
  turn : Nat := 1
  deficit : List Nat := [0, 0, 0, 0]
  win : Nat := 0
  used5 : Nat := 0
  masked5 : Bool := false
  used : List Nat := [0, 0, 0, 0, 0, 0]
  masked : List Bool := [false, false, false, false, false, false]
  released : Nat := 512
  lateEntry : Nat := 512
  openSlot : Nat := 512
  budget : Nat := 33
  budgetAt : Nat := 0
  deriving DecidableEq, Repr

/-- The key of a join (R343): GROUP, TAG, chunk number, EPOCH and join entry. -/
structure JoinKey where
  group : Nat
  tag : Nat
  chunkNo : Nat
  epoch : Nat
  entry : Nat
  deriving DecidableEq, Repr

/-- One reduction context (R343 to R357): its key, the join entry it was claimed under, the input of the child it holds,
whether that is the right child, the packets held (`part` says that the last of them is still arriving), whether it has
begun output, the claim cycle, the three running check values, whether a residue check failed, whether the children have been found to
differ (R342), whether a packet pair is being combined or its output sent, whether the ceiling waits for the break point (R287), and
whether the context has been cut off while a pair was combined (R350). -/
structure Ctx where
  key : JoinKey
  word : Word
  side : Bool
  heldIn : Nat
  heldPk : List Packet := []
  heldFl : List Flit := []
  part : Bool := false
  begun : Bool := false
  claimAt : Nat := 0
  crcL : Word := BitVec.allOnes 64
  crcR : Word := BitVec.allOnes 64
  crcOut : Word := BitVec.allOnes 64
  bad : Bool := false
  odd : Bool := false
  pair : Bool := false
  due : Bool := false
  cut : Bool := false
  deriving DecidableEq, Repr

/-- What an input's VC4 is doing for the reduction unit: nothing, passing the packet it is receiving, discarding it (R125), filling a
context with it, completing a join unit by unit with `n` units done (R339), or completing one by store and forward, with that packet's
header, progress and units so far (R340). -/
inductive JoinMode where
  | idle
  | pass
  | drop
  | fill (ctx : Nat)
  | stream (ctx n : Nat)
  | out (ctx : Nat) (own : Hdr) (fl : Flit) (units : List DataUnit)
  deriving DecidableEq, Repr


/-- A packet that a router is receiving on one input (R143): its VC, whether a header stands in the input latch, the units
still to come, whether the rest is to be discarded (`known` says that `vc` is its VC, `owed` counts the credits of units whose VC is not
yet known), the vertical output it comes from through a bypassed router (R641), and whether the residue check of the input's next
combined unit fails (R358). -/
structure InLink where
  busy : Bool := false
  vc : Nat := 0
  left : Nat := 0
  drop : Bool := false
  known : Bool := false
  owed : Nat := 0
  tag : Nat := 0
  latch : Option Flit := none
  via : Option Nat := none
  res : Bool := false
  deriving DecidableEq, Repr

/-- One router (R140, R274, R337, R344, R702): input buffers by input × 6 + VC, credits by output × 6 + VC, the grants that
hold outputs, the arbitration state of each output, the input links, the contexts, the pass record, what each input's VC4 does for a
join, packets released from contexts by input, the catch registers, the region cycle of the last merge of ARRIVE packets (R461), and by
context the first region cycle in which it may be claimed again (R346). -/
structure Router where
  bufs : Tbl (List Flit) := {}
  credits : Tbl Nat := {}
  held : Tbl (Option Held) := {}
  arb : Tbl OutArb := {}
  links : Tbl InLink := {}
  ctxs : List (Option Ctx) := [none, none, none, none]
  pass : List JoinKey := []
  joinIn : Tbl JoinMode := {}
  freed : Tbl (List Flit) := {}
  catchReg : Tbl (List Flit) := {}
  mergeAt : Option Nat := none
  ctxFrom : Tbl Nat := {}
  deriving DecidableEq, Repr

/-- A seam frame as an adapter sends it (R166): SEQ, ACK, NAK, CRED, the unit (none in an idle frame), and how often it has been replayed
without an acknowledgement (R168). -/
structure SeamTx where
  seq : Nat := 0
  ack : Nat := 0
  nak : Bool := false
  credVc : Nat := 0
  credN : Nat := 0
  unit : Option Flit := none
  tries : Nat := 0
  deriving DecidableEq, Repr

/-- One seam adapter (R166 to R171): link state, the units of its router waiting for far credits, the replay buffer, the frames sent that
have not yet reached the far adapter, the next sequence to send and to receive, far credits, received units, credits to return,
whether frames are discarded until a replay, and whether a NAK or an ACK is to be sent. -/
structure Seam where
  link : Nat := 0
  txWait : List Flit := []
  replay : List SeamTx := []
  wire : List SeamTx := []
  txSeq : Nat := 0
  rxSeq : Nat := 0
  farCred : List Nat := [24, 24, 24, 24, 24, 24]
  rx : List Flit := []
  credOwed : List Nat := [0, 0, 0, 0, 0, 0]
  discarding : Bool := false
  nak : Bool := false
  ackDue : Bool := false
  latency : Nat := 0
  calTemp : Nat := 0
  deriving DecidableEq, Repr

/-- A packet that an NI is delivering unit by unit: its header, the units delivered so far, and whether the rest is discarded
(R808). -/
structure Dlv where
  hdr : Hdr
  got : List DataUnit := []
  drop : Bool := false
  deriving DecidableEq, Repr

/-- A READ that an NI serves through its tile's read channel: the header, the offset, the units asked for, the next unit to
request, the tags in use with their unit numbers, and the units received (R809). -/
structure RdReq where
  hdr : Hdr
  off : Nat
  n : Nat
  next : Nat := 0
  tags : List (Nat × Nat) := []
  got : List (Nat × DataUnit) := []
  deriving DecidableEq, Repr

/-- What names a transfer at its receiver (R403, R404): CMD, GROUP, TAG and chunk number, the span of a reduction operand or the
SEG or source rank of other data, the block that the receiving CE serves, and for these the sender. -/
structure XKey where
  cmd : Nat
  group : Nat
  tag : Nat
  chunk : Nat
  a : Nat := 0
  b : Nat := 0
  src : BitVec 32 := 0
  deriving DecidableEq, Repr

/-- A transfer being received (R401, R405, R428): its packets so far, one per packet index, when the first arrived, and when the one with
LAST did, and whether the residue check fails when the operand is combined (R358). -/
structure Xfer where
  key : XKey
  epoch : Nat
  pks : List Packet := []
  firstFt : Nat := 0
  lastFt : Nat := 0
  bad : Bool := false
  deriving DecidableEq, Repr

/-- An order to a send engine (R381): from CE `ce`, a send (with the header every packet starts from) or a clear, of `units` data
units at an offset, for an operation and chunk, a clear also for a SEG (R417); a re-send starts at an instant. `busy` says that the packets
of a send wait for injection. -/
structure Order where
  ce : Nat
  clear : Bool
  group : Nat
  tag : Nat
  chunk : Nat
  seg : Nat := 0
  off : Nat
  units : Nat
  hdr : Hdr := {}
  start : Nat := 0
  busy : Bool := false
  deriving DecidableEq, Repr

/-- A report of a send engine on its way to CE `ce` (R381): 0 a send done, 1 a clear done, 2 a transfer checked, 3 a count
received. -/
structure Report where
  ce : Nat
  kind : Nat
  ok : Bool := true
  key : XKey
  hdr : Hdr := {}
  p : Nat := 0
  deriving DecidableEq, Repr

/-- One tile network interface (R118, R142, R381, R807 to R809): the units its tile has presented of a packet per VC, the ejection
queue and the packet in delivery per VC, the generation the tile reports, the reads it serves, the last message packet
handed to the tile, and its send engine: the orders it holds, at most 4 (R380), those that wait on the order bus, cancels and reports on
it, transfers being received, and the transfers under retry with their resend instants (R406). -/
structure Ni where
  part : Tbl (List DataUnit) := {}
  ej : Tbl (List Flit) := {}
  cur : Tbl (Option Dlv) := {}
  gen : Nat := 0
  rd : List RdReq := []
  msg : Option Packet := none
  orders : List Order := []
  bus : List Order := []
  cancels : List (Nat × Nat) := []
  reports : List Report := []
  rx : List Xfer := []
  retry : List (XKey × Nat) := []
  deriving DecidableEq, Repr

/-- One command to a memory port in progress (R815): its header, the units asked for, the units received, and whether it has
failed. -/
structure MpJob where
  id : Nat
  hdr : Hdr
  n : Nat
  left : List (Nat × Nat)
  got : List (Nat × DataUnit) := []
  failed : Bool := false
  deriving DecidableEq, Repr

/-- One request of a memory port (R814 to R816): tag, job, unit number, offset, when it was issued, and whether it has failed and
waits for its late response. -/
structure MpReq where
  tag : Nat
  job : Nat
  idx : Nat
  off : Nat
  write : Bool
  issued : Nat
  dead : Bool := false
  deriving DecidableEq, Repr

/-- A memory port. -/
structure Memport where
  jobs : List MpJob := []
  reqs : List MpReq := []
  nextJob : Nat := 0
  /-- Responses that a global stop holds: tag and err (R701, R817). -/
  held : List (Nat × Bool) := []
  deriving DecidableEq, Repr

/-- A value held by a CE (R329, R411): chunk, span, the units [lo, hi) of the chunk it covers, its present units by index,
when its packet with LAST came, whether it came in a transfer, the transfers whose data it holds, and whether the residue check fails
when it is next combined (R358). -/
structure NodeVal where
  chunk : Nat
  f : Nat
  l : Nat
  lo : Nat
  hi : Nat
  units : List (Nat × DataUnit)
  ft : Nat := 0
  inc : Bool := false
  srcs : List XKey := []
  bad : Bool := false
  deriving DecidableEq, Repr

/-- An output being put together at a CE: chunk, SEG, the regions of the chunk received and their present units. -/
structure FinVal where
  chunk : Nat
  seg : Nat
  got : List (Nat × Nat) := []
  units : List (Nat × DataUnit) := []
  deriving DecidableEq, Repr

/-- A transfer kept for re-sending (R408): its key, where it goes, whether it is a final output to members, and the order it was
sent by (with the NI) or its packets. -/
structure Sent where
  key : XKey
  dest : BitVec 64 := 0
  result : Bool := false
  order : Option (Nat × Order) := none
  pks : List Packet := []
  deriving DecidableEq, Repr

/-- What a home CE expects a local member's DST to receive (R398, R416): rank, chunk and SEG. -/
structure Due where
  rank : Nat
  chunk : Nat
  seg : Nat
  deriving DecidableEq, Repr

/-- A sparse delivery that waits for clears (R417): its chunk and SEG, the ranks whose clear has not been reported, and its packets. -/
structure Clear where
  chunk : Nat
  seg : Nat
  wait : List Nat
  pks : List Packet
  deriving DecidableEq, Repr

/-- All-to-all state of one source at one local destination (R420): the counts and the chunks checked. -/
structure A2aIn where
  dst : Nat
  src : Nat
  count : Option (Nat × Nat) := none
  chunks : List Nat := []
  deriving DecidableEq, Repr

/-- An active operation at a CE (R390 to R430). `tag` counts descriptors from 0; `live` lists the chunks in progress, whose staging is
reserved; `seen` the transfers taken whole; `shares` the chunks and spans of values that have left this CE's hands; `fwd` the chunks
and segments whose final form it has passed on; `gath` the all-gather steps taken by chunk; `residue` the chunks that failed a residue check once; `resend` the transfers
to send again with their instants; `retry` the transfers under retry by receiver, 0 for the CE and p + 1 for the tile of NI p, with their
resend instants (R405); `out` orders not yet reported, by rank and chunk; `clears` the deliveries that wait for clears. -/
structure CeOp where
  tag : Nat
  desc : BitVec 512
  cfg : Word
  startFt : Nat
  progressFt : Nat
  lastSend : Nat := 0
  next : Nat := 0
  live : List Nat := []
  blocked : Bool := false
  staged : List (Nat × List DataUnit) := []
  stagedBytes : Nat := 0
  rx : List Xfer := []
  retry : List (Nat × XKey × Nat) := []
  seen : List XKey := []
  vals : List NodeVal := []
  fins : List FinVal := []
  shares : List (Nat × Nat × Nat) := []
  fwd : List (Nat × Nat) := []
  gath : List (Nat × Nat) := []
  residue : List Nat := []
  sent : List Sent := []
  resend : List (Sent × Nat) := []
  out : List (Nat × Nat) := []
  clears : List Clear := []
  due : List Due := []
  landed : List Due := []
  signalled : List Nat := []
  a2a : List A2aIn := []
  retries : Nat := 0
  dropped : Nat := 0
  truncated : Bool := false
  slowRank : Nat := 0
  slowLag : Nat := 0
  released : Bool := false
  deriving DecidableEq, Repr

/-- A completion record that waits to be written (R395); `old` marks one from before the entry last became valid (R386). -/
structure CeRec where
  tag : Nat
  word : BitVec 256
  done : Option Nat := none
  old : Bool := false
  deriving DecidableEq, Repr

/-- A group-table entry at work (R383, R386 to R390): the live pair's first epoch, HEAD and the known tail, fetched descriptors with
their TAGs, active operations, halt, aborts of operations not yet started (TAG, EPOCH, REASON), records written and waiting,
the READ outstanding (descriptors asked for), the instant of a repeat, barrier halves that fired before their operation, and whether the
front descriptor waits for a staging reservation that failed (R413). -/
structure CeEnt where
  live : Option Nat := none
  head : Nat := 0
  tail : Nat := 0
  queue : List (Nat × BitVec 512) := []
  ops : List CeOp := []
  halted : Bool := false
  future : List (Nat × Nat × Nat) := []
  written : Nat := 0
  recs : List CeRec := []
  recBusy : Option CeRec := none
  fetch : Option Nat := none
  retryAt : Option Nat := none
  fired : List Nat := []
  wait : Bool := false
  deriving DecidableEq, Repr

/-- A packet that has reached a CE and waits there: whether the residue check of its operand fails (R358), and when it arrived (R428). -/
structure CePkt where
  pk : Packet
  bad : Bool := false
  ft : Nat := 0
  deriving DecidableEq, Repr

/-- The staging reserved for a chunk of an operation that has not started (R112, R414): GROUP, TAG, chunk, half and bytes. -/
structure Early where
  group : Nat
  tag : Nat
  chunk : Nat
  parity : Nat
  bytes : Nat
  deriving DecidableEq, Repr

/-- A collective engine (R383, R413, R414): its group table by entry × 8 + word, the entries at work, staging bytes in use by
parity, packets held for operations not yet started with the staging reserved for them, and packets that wait at its input for staging. -/
structure Ce where
  gt : Tbl Word := {}
  ents : Tbl CeEnt := {}
  used : Tbl Nat := {}
  held : List CePkt := []
  early : List Early := []
  stall : List CePkt := []
  deriving DecidableEq, Repr

/-- A packet that waits for injection, with the region cycle in which it was queued, at a stitch ingress the phase and the transit route
it starts with, and, on the last packet of a send order, the report that its injection makes (R381). -/
structure Queued where
  pk : Packet
  stamp : Nat := 0
  phase : Nat := 0
  transit : BitVec 48 := 0
  ends : Option Report := none
  deriving DecidableEq, Repr

/-- The gate list state of one gate point (R243 to R248): physical active bank, the active list's last index and period,
the current entry and its start, the instant at which entry 0 last began, the armed takeover, and whether the active bank has been
written since the last takeover (R269). -/
structure Gate where
  bank : Nat := 0
  last : Nat := 0
  period : Nat := 1
  cur : Nat := 0
  curFt : Nat := 0
  startFt : Nat := 0
  openAll : Bool := true
  late : Bool := false
  armedAt : Option Nat := none
  lost : Bool := false
  deriving DecidableEq, Repr

/-- One shaper and one meter of a shaping point (R290, R294) with the fields each latched at its last refill and the slot
of FT, counted from FT 0, in which it refilled. -/
structure Shp where
  tokens : Int := 0
  cfg : Word := 0
  tc : Nat := 0
  tp : Nat := 0
  mcfg : Word := 0
  mburst : Word := 0
  slotAt : Nat := 0
  mslotAt : Nat := 0
  deriving DecidableEq, Repr

/-- The power governor of a compute slice (R300, R301): avg in 0.1 pJ, the permit, and the counts of the round. -/
structure Gov where
  avg : Int := 0
  permit : Nat := 4096
  hops : Nat := 0
  seams : Nat := 0
  withheld : Bool := false
  deriving DecidableEq, Repr

/-- The trace unit of a slice (R730 to R734): the quads held, the instant of the first, records lost since the last LOSS
record and the SEQ of the first of them, and whether the next record carries LOST. -/
structure TraceUnit where
  quads : List Nat := []
  firstFt : Nat := 0
  lost : Nat := 0
  lostSeq : Nat := 0
  mark : Bool := false
  deriving DecidableEq, Repr

/-- One entry of the statistics table (R728). -/
structure Stat where
  pkts : Nat := 0
  units : Nat := 0
  latSum : Nat := 0
  latMax : Nat := 0
  latMin : Nat := 0
  deriving DecidableEq, Repr

/-- A ledger record in the making (R736, R747): its header and body quads, and, for a SEAL, the CHAIN it signs (R740). -/
structure LRec where
  quads : List Nat
  signs : Option (List (BitVec 64)) := none
  deriving DecidableEq, Repr

/-- A chained ledger record (R739): its LSEQ, all its quads, and its CHAIN. -/
structure Chained where
  lseq : Nat
  quads : List Nat
  chain : List (BitVec 64)
  deriving DecidableEq, Repr

/-- The ledger of the package (R739 to R745): the backlog, records whose makers wait for it, the next LSEQ and the chain state,
records on their way to the mirror and records acknowledged but not yet in the ring, the ring writes outstanding, the number of
records acknowledged with their CHAIN, discarded DIGEST records, records not yet sealed, the seal being signed, and a DEBUG_OPEN that waits
for a seal and the LSEQ of the last one chained (R741, R751). -/
structure Ledger where
  back : List LRec := []
  late : List LRec := []
  next : Nat := 0
  chain : List (BitVec 64) := [0, 0, 0, 0, 0, 0]
  sent : List Chained := []
  acked : List Chained := []
  writing : Nat := 0
  failed : Bool := false
  ackSeq : Nat := 0
  ackChain : List (BitVec 64) := [0, 0, 0, 0, 0, 0]
  gapN : Nat := 0
  gapFt : Nat := 0
  unsealed : Nat := 0
  sealFt : Nat := 0
  signing : Option (Nat × List (BitVec 64)) := none
  unmirrored : Bool := false
  openFt : Option Nat := none
  openSeq : Option Nat := none
  deriving DecidableEq, Repr

/-- A service die's secret store, which survives every reset (R781, R801 to R803): STATE, the attestation key pair, the owner
key, the ledger chaining key, the fused minimum SVN, and keys drawn so far. -/
structure Store where
  state : Nat := 0
  priv : List (BitVec 64) := []
  pub : List (BitVec 64) := []
  owner : List (BitVec 64) := []
  chainKey : List (BitVec 64) := []
  svn : Nat := 0
  draws : Nat := 0
  deriving DecidableEq, Repr

/-- What the boot ROM of a service die has accepted (R775 to R777): the firmware digest, VERSION and SVN. -/
structure Boot where
  digest : List (BitVec 64) := []
  version : Nat := 0
  svn : Nat := 0
  deriving DecidableEq, Repr

/-- One commit staging window (R490, R491, R495): its state as CMT_WIN_STATE encodes it, the group's coordinator (SRC), GROUP,
the target's TAG, TOTAL, the stream units received, the check value once LAST has come, T, the recorder, whether it is the
recorder's own stream, what it reports at T if it is not confirmed, FABRIC writes unanswered and whether one has failed or a
record was skipped, and, in a recorder's window, the reports received as (target index, package, die, RESULT) and whether it was
confirmed. -/
structure Win where
  st : Nat := 0
  src : BitVec 32 := 0
  group : Nat := 0
  tag : Nat := 0
  total : Nat := 0
  got : List Nat := []
  check : Option Word := none
  t : Nat := 0
  recPkg : Nat := 0
  recDie : Nat := 0
  list : Bool := false
  verdict : Nat := 1
  left : Nat := 0
  failed : Bool := false
  reports : List (Nat × Nat × Nat × Nat) := []
  confirmed : Bool := false
  deriving DecidableEq, Repr

/-- A coordinator's slot (R477, R493): the group number, the request and its order, the state (1 STAGING, 2 CONFIRMING, 3 WAITING,
4 ABANDONED), T, the target table, the streams still to send by TAG, the read outstanding (0 none, 1 target table, 2 a stream)
with its offset in units, whether it is a repeat and the running check value, and the targets STAGED and those that answered CHECK. -/
structure CoSlot where
  group : Nat
  order : Nat
  req : BitVec 512
  st : Nat := 1
  t : Nat
  table : List (BitVec 128) := []
  todo : List Nat := []
  rd : Nat := 0
  off : Nat := 0
  again : Bool := false
  crc : Word := BitVec.allOnes 64
  staged : List Nat := []
  checks : List Nat := []
  deriving DecidableEq, Repr

/-- A commit completion record that waits to be written (R483): the request's order, the record, DONE_OBJ where it is signalled. -/
structure CoRec where
  order : Nat
  word : BitVec 256
  done : Option Nat := none
  deriving DecidableEq, Repr

/-- A commit coordinator (R475, R481 to R483, R493): requests fetched since ENABLE, the known tail, how many a READ under way asks for,
the instant of a repeated fetch, the requests fetched and not started, the open slots, the uses of each slot, requests started, records
waiting, written and being written. -/
structure Coord where
  head : Nat := 0
  tail : Nat := 0
  fetch : Option Nat := none
  retryAt : Option Nat := none
  queue : List (BitVec 512) := []
  slots : Tbl (Option CoSlot) := {}
  uses : Tbl Nat := {}
  orders : Nat := 0
  recs : List CoRec := []
  nextRec : Nat := 0
  written : Nat := 0
  recBusy : Option CoRec := none
  deriving DecidableEq, Repr

/-- The image load or submission that the load port feeds (R578, R586): MODE, bytes received, the directory entry being loaded and
the offset of its next record, FT40 at START, T and step group of a submission, whether its lead was short when the image was
complete, and whether its acceptance record has had to wait. -/
structure Loader where
  mode : Nat := 0
  len : Nat := 0
  sec : Nat := 0
  pos : Nat := 0
  startFt : Nat := 0
  t : Nat := 0
  step : Option Nat := none
  late : Bool := false
  waited : Bool := false
  deriving DecidableEq, Repr

/-- A patch from its acceptance on (R588, R592): its number, PATCH_ID, what it serves (0 host, 1 wear rotation, 2 interim routes, 3 darn
patch A, 4 darn patch B, 5 restore of partition `arg`, 6 any other of Kerex), the die or partition served, T, its state as
PAT_LOAD_STATUS encodes it, whether this package coordinates it, its streams, the permits written as (die, slot), the coordinating
die and CE, the step group, the index of its completion record, and LOGGED when it was built. -/
structure Patch where
  num : Nat
  id : Word
  kind : Nat := 0
  arg : Nat := 0
  t : Nat
  st : Nat := 3
  own : Bool := true
  streams : List PStream
  slots : List (Nat × Nat) := []
  coord : Nat × Nat := (0, 0)
  step : Option Nat := none
  recIx : Nat := 0
  logged : Nat := 0
  deriving DecidableEq, Repr

/-- The PL state that a loaded pattern gives the package (R573, R585): its registers, tables and sync-object allocation. -/
structure PlImage where
  csr : Tbl Word := {}
  slotTab : Tbl Word := {}
  treeTab : Tbl (BitVec 128) := {}
  joinTab : Tbl Word := {}
  routeTab : Tbl (BitVec 128) := {}
  routeStore : Tbl (BitVec 32) := {}
  arrivalTab : Tbl Word := {}
  gateTab : Tbl Word := {}
  syncInit : Tbl (BitVec 128) := {}
  deriving DecidableEq, Repr

/-- The heartbeats of one subject at one receiver (R623 to R627): one more than the highest number received, the next number to judge,
and consecutive misses. -/
structure Hb where
  last : Nat := 0
  next : Nat := 0
  miss : Nat := 0
  deriving DecidableEq, Repr

/-- A probe that a router waits for (R614, R616): its output, the packet sent, when it went, whether it is the repeat, and whether it
has failed once and waits to be repeated. -/
structure ProbeJob where
  out : Nat
  pk : Packet
  sentFt : Nat
  again : Bool := false
  failed : Bool := false
  deriving DecidableEq, Repr

/-- A router's probe sequencer (R613 to R618): the next output, the probe out, when each output was last tested or skipped, the probe
budget of each output with the cycle of its last gain, and the outputs that failed with the instants. -/
structure ProbeSeq where
  next : Nat := 0
  job : Option ProbeJob := none
  lastFt : Tbl Nat := {}
  budget : Tbl Nat := {}
  budgetAt : Tbl Nat := {}
  fails : List (Nat × Nat) := []
  deriving DecidableEq, Repr

/-- A darn in progress (R643 to R645): the failed router, its row, panel and panel column, the failed tile's twin (partner router,
HLT_TWIN word) where it has one enabled, the CE whose staging takes the image, and the numbers of patches A and B. -/
structure DarnJob where
  p : Nat
  row : Nat
  panel : Nat
  col : Nat
  twin : Option (Nat × Word) := none
  ce : Nat := 0
  patchA : Option Nat := none
  patchB : Option Nat := none
  deriving DecidableEq, Repr

/-- The darn engine of a die (R643): failed tiles that wait for it, and the darn in progress. -/
structure Darn where
  waiting : List Nat := []
  job : Option DarnJob := none
  deriving DecidableEq, Repr

/-- A stall that has reached the hang threshold (R674, R676): kind, unit, output, when, and whether it has escalated. -/
structure Stall where
  kind : Nat
  unit : Nat
  port : Nat
  ft : Nat
  escalated : Bool := false
  deriving DecidableEq, Repr

/-- One entry of the sample list at work in a dump engine (R688): the list entry, the units read so far, the read outstanding since,
the first unit of the write outstanding since, whether it is the second attempt, and the data not yet acknowledged. -/
structure DumpJob where
  entry : Nat
  data : List DataUnit := []
  readFt : Option Nat := none
  write : Option Nat := none
  writeFt : Nat := 0
  again : Bool := false
  deriving DecidableEq, Repr

/-- The dump of a partition (R686 to R689): whether it runs, when it began, the status byte of every list entry, the tiles that have
missed a read, and the engines at work by die. -/
structure Dump where
  on : Bool := false
  startFt : Nat := 0
  status : List Nat := []
  missed : List (Nat × Nat) := []
  jobs : Tbl (Option DumpJob) := {}
  deriving DecidableEq, Repr

/-- A package route's progress at a stitch port (R520, R537): segment and hops left. -/
structure PkgStep where
  seg : Nat := 0
  hops : Nat := 0
  deriving DecidableEq, Repr

/-- A packet in an egress queue or ingress buffer of a stitch port (R511): its class's DL, its package-route progress, the cycle it
came, and at the ingress its colour. -/
structure StPk where
  pk : Packet
  dl : Nat := 0
  pos : PkgStep := {}
  stamp : Nat := 0
  colour : Nat := 0
  deriving DecidableEq, Repr

/-- A lane move under way (R531): logical lane, spare physical lane, SWITCH_GROUP, and whether the other end has agreed. -/
structure LaneMove where
  logical : Nat
  physical : Nat
  group : Nat
  agreed : Bool := false
  deriving DecidableEq, Repr

/-- A codeword group on the logical lanes (R516): its count, whether it is an alignment group, and the 136 symbols of each lane. What symbols
an alignment group's markers, lane numbers and count make, the spec does not say: it has none here. (DESIGN CHOICE, log 182) -/
structure StGroup where
  count : Nat
  align : Bool := false
  lanes : List (List Nat) := []
  deriving DecidableEq, Repr

/-- A stitch port (R511 to R548): when it entered its state and, for a retrain, when that began; failed alignments; egress queues by
VC × 2 + DL; the packet being sent with its units still to send; the retry buffer; sequence numbers; credits held and owed by
class; NAK to send, frames discarded until a replay; frames to resend; replays in a row; the packet being received; the ingress
buffer; when the last good frame came; the current group; the lanes of each direction and the moves under way; corrected symbols in
the window by lane; control frames to send (FTYPE, SLOT0); the fence to announce until an instant; the REASON received;
the SEQ of the time request
that waits for its response, the arbitration state of the egress with the class whose burst holds the grant (R286), the last frame sent,
the message bits of the codeword group being filled with their number and the count of the next group (R516), and the groups that the
last frame sent completed. -/
structure Stl where
  sinceFt : Nat := 0
  retrainFt : Nat := 0
  resume : Bool := false
  tries : Nat := 0
  eg : Tbl (List StPk) := {}
  cur : Option StPk := none
  left : List DataUnit := []
  retry : List (Nat × StFrame) := []
  txSeq : Nat := 0
  rxSeq : Nat := 4095
  acked : Nat := 4095
  credit : Tbl Nat := {}
  owed : Tbl Nat := {}
  nak : Bool := false
  discarding : Bool := false
  resend : List StFrame := []
  replays : Nat := 0
  rx : Option StPk := none
  rxLeft : Nat := 0
  inBuf : List StPk := []
  goodFt : Nat := 0
  group : Nat := 0
  rxLanes : List Nat := List.range 20
  txLanes : List Nat := List.range 20
  rxMoves : List LaneMove := []
  txMoves : List LaneMove := []
  laneSyms : Tbl Nat := {}
  ctl : List (Nat × DataUnit) := []
  fenceOut : Option (Nat × Nat) := none
  fenceIn : Option Nat := none
  timeSeq : Option Nat := none
  arb : OutArb := {}
  burst : Option Nat := none
  sent : Option StFrame := none
  txBits : Nat := 0
  txLen : Nat := 0
  txGroup : Nat := 0
  line : List StGroup := []
  deriving DecidableEq, Repr

/-- A host read or remote CSR access in flight (R789, R790): its kind (0 BAR2 read, 1 CSR read, 2 CSR write), BAR2 offset or CSR
address, bytes asked for, units expected and received, and when it began. -/
structure HostJob where
  kind : Nat
  addr : Nat
  len : Nat := 0
  units : Nat := 0
  got : List (Nat × DataUnit) := []
  startFt : Nat := 0
  deriving DecidableEq, Repr

/-- The state of the block. `pending` is the queue of commands, first in, first out; `free` is the model's own count of the
free values drawn so far. Tables are keyed as their operations in Ops.lean state. -/
structure State where
  pending : List Instr := []
  free : Nat := 0
  /-- W1C bits that hardware has set in the current cycle of a slice, and register bits that software has written in it, by register
  key (R30, R31). -/
  setNow : Tbl Word := {}
  wroteNow : Tbl Word := {}
  /-- The floor that the pattern names (R36, R576), and the one that is built (R34). -/
  floor : Floor
  physical : Floor
  /-- Memory-interface dies whose channels a partition owns (R576): partition + 1, by die. -/
  memOwned : Tbl Nat := {}
  /-- Registers by die × 2^24 + offset; an unlisted one holds its reset value (R23). -/
  csr : Tbl Word := {}
  /-- Memory bytes, rising addresses, none zero. -/
  mem : List Host.Cell := []
  /-- PKG_STATE, held by the head tailor (R60). -/
  mode : Mode := .cold
  /-- The active service die (R35, R773) and the mirror die. -/
  headDie : Nat := 96
  mirrorDie : Nat := 98
  /-- Slot tables (R234) by ((die × 1024 + router) × 8 + output) × 512 + entry. -/
  slotTab : Tbl Word := {}
  /-- Tree tables (R160) by (die × 1024 + router) × 1024 + tree. -/
  treeTab : Tbl (BitVec 128) := {}
  /-- Join tables (R330) by (die × 1024 + router) × 32 + entry. -/
  joinTab : Tbl Word := {}
  /-- Route tables (R144) by (die × 1024 + NI) × 128 + entry. -/
  routeTab : Tbl (BitVec 128) := {}
  /-- Route stores (R145) by die × 8192 + package. -/
  routeStore : Tbl (BitVec 32) := {}
  /-- Arrival tables (R146) by (die × 8 + entry port) × 128 + die. -/
  arrivalTab : Tbl Word := {}
  /-- Gate-list entries (R243) by ((die × 16 + gate point) × 2 + bank) × 256 + entry. -/
  gateTab : Tbl Word := {}
  /-- Time keepers by die (R209). -/
  keepers : Tbl Keeper := {}
  /-- Clock regions by die × 2 + panel (R231). -/
  regions : Tbl Region := {}
  /-- Panel clock requests by die (R174). -/
  panelReq : Tbl PanelReq := {}
  /-- Gate points by die × 16 + g (R243). -/
  gates : Tbl Gate := {}
  /-- Shapers and meters by (die × 16 + g) × 8 + VC (R289, R294). -/
  shapers : Tbl Shp := {}
  /-- The round in which each sampler was enabled (R298), by register key. -/
  sampleFrom : Tbl Nat := {}
  /-- Governors by die (R300). -/
  govs : Tbl Gov := {}
  /-- Routers by die × 1024 + p (R131). -/
  routers : Tbl Router := {}
  /-- Units on the wire behind each router output, by (die × 1024 + p) × 8 + output. -/
  wires : Tbl (List Flit) := {}
  /-- Credits on the reverse wire of each router input, by (die × 1024 + p) × 8 + input (R140). -/
  credWires : Tbl (List Nat) := {}
  /-- Hemmed outputs of routers on dies without HLT_HEM_p (R633, R668), by (die × 1024 + p) × 8 + output. -/
  edgeHem : Tbl Bool := {}
  /-- Seam adapters by die × 256 + i (R166). -/
  seams : Tbl Seam := {}
  /-- Tile network interfaces by die × 1024 + p (R142). -/
  nis : Tbl Ni := {}
  /-- Whole packets that wait for injection, by (die × 4096 + attachment) × 8 + VC (R142). -/
  inj : Tbl (List Queued) := {}
  /-- Data units of an injected packet that have not yet entered the router, by ((die × 1024 + p) × 8 + input) × 8 + VC. -/
  stream : Tbl (List Flit) := {}
  /-- Units injected on VC1, VC2 and VC4 in this round by each attachment (R301). -/
  injCount : Tbl Nat := {}
  /-- The hint of each VC head at a LOCAL or AUX input (R283), by ((die × 1024 + p) × 8 + input) × 8 + VC. -/
  hints : Tbl Nat := {}
  /-- TAGs of the requests whose responses are outstanding at a tile or tailor core, plus 2^16 where the TAG has been reused (R88), by
  die × 4096 + attachment. -/
  outTags : Tbl (List Nat) := {}
  /-- The VC, plus 1, whose burst holds a CE's gate point (R286), by die × 16 + g. -/
  bursts : Tbl Nat := {}
  /-- ORDERED injections held after a route patch: (what is held, cycle of release), by die × 4096 + attachment (R185). -/
  orderHold : Tbl (List (Nat × Nat)) := {}
  /-- Regions halted by a global stop (R701), by die × 2 + panel, with the halt cycle. -/
  halted : Tbl (Option Nat) := {}
  /-- Regions whose catch window has ended (R702). -/
  catchShut : Tbl Bool := {}
  /-- Corrected link errors in the current window by (die × 1024 + p) × 8 + input (R612). -/
  secCount : Tbl Nat := {}
  /-- Uncorrectable link errors in the current window (R612). -/
  dedCount : Tbl Nat := {}
  /-- Fault log records (R610) by die × 256 + n. -/
  flog : Tbl (BitVec 128) := {}
  /-- Fault logs whose HEAD has come round to TAIL, so that all 256 records are unread (R610), by die. -/
  flogFull : Tbl Bool := {}
  /-- Fault records forwarded to the head tailor (R611): die and record. -/
  fwd : List (Nat × BitVec 128) := []
  /-- Trace units by die (R730). -/
  traces : Tbl TraceUnit := {}
  /-- Statistics tables (R727) by die × 128 + entry. -/
  stats : Tbl Stat := {}
  /-- Matches of each observation probe since its configuration was written (R725), by die × 16 + n. -/
  prbCount : Tbl Nat := {}
  /-- Words that the pattern gave the RW fields whose reset value is "pattern": those of the OBS block and the power cap, by die × 2^24 +
  offset; they return to them where a mend resets the slice (R751). -/
  patRw : Tbl Word := {}
  /-- The instant named by a pending SERVICE request (R780). -/
  svcAt : Option Nat := none
  /-- Stitch ports whose time request is due (R221), by port die. -/
  timeReq : Tbl Bool := {}
  /-- Sync objects (R443, R446) by die × 16384 + object. -/
  syncObj : Tbl (BitVec 128) := {}
  /-- The pattern's allocation of each sync object, for re-initialisation (R449, R466). -/
  syncInit : Tbl (BitVec 128) := {}
  /-- Counters that have released without AUTO and release no more until an INIT (R459). -/
  syncDone : Tbl Bool := {}
  /-- Halves of pairs that have performed an operation of the epoch they serve (R468). -/
  syncUsed : Tbl Bool := {}
  /-- Epoch of a half whose operations an INIT has ended (R468). -/
  syncLeft : Tbl (Option Nat) := {}
  /-- Breaks in progress at each sync store (R465): package, die, next object to examine. -/
  syncBreak : Tbl (List (Nat × Nat × Nat)) := {}
  /-- Memory ports by die (R814). -/
  memports : Tbl Memport := {}
  /-- Collective engines by die × 8 + k (R375). -/
  ces : Tbl Ce := {}
  /-- The package's ledger (R739). -/
  ledger : Ledger := {}
  /-- Secret stores by service die (R781). -/
  stores : Tbl Store := {}
  /-- Verified boot images by service die (R777). -/
  boots : Tbl Boot := {}
  /-- MSI-X messages sent to the host, by service die × 16 + vector (R791). -/
  msix : Tbl Nat := {}
  /-- Commit windows by die × 16 + n (R475). -/
  wins : Tbl Win := {}
  /-- Keys whose window was freed at T, or to which NOSPACE was sent (R491): die, SRC, GROUP, FT40, LIST. -/
  cmtClosed : List (Nat × BitVec 32 × Nat × Nat × Bool) := []
  /-- Commit coordinators by die × 8 + k (R475). -/
  coords : Tbl Coord := {}
  /-- The load port's image or submission (R578). -/
  loader : Loader := {}
  /-- Patches accepted and not yet ended (R588), and the number of the next. -/
  patches : List Patch := []
  patchNum : Nat := 0
  /-- The patch log: the streams of every logged patch, oldest first (R585). -/
  patchLog : List (List PStream) := []
  /-- Bytes used in each pattern area (R583). -/
  areaUsed : Nat := 0
  /-- Requests that Kerex has posted to each commit queue, by die × 8 + k (R590). -/
  posted : Tbl Nat := {}
  /-- The loaded pattern's PL state (R585). -/
  plWant : PlImage := {}
  /-- Heartbeats by receiver die × 128 + subject die; 127 is the neighbour package at a port die (R623, R626). -/
  hbs : Tbl Hb := {}
  /-- The instant from which a die's heartbeats are judged (R623, R680), and the last number each die has sent, plus 1. -/
  hbFrom : Tbl Nat := {}
  hbSent : Tbl Nat := {}
  /-- The last package heartbeat sent, plus 1 (R626). -/
  pkgHbSent : Nat := 0
  /-- Suspect notices at the health root (R628): package named, package that reported, instant. -/
  suspects : List (Nat × Nat × Nat) := []
  /-- The head tailor's verdict number, the package verdicts taken (originator, VSEQ), and the packages declared dead (R629). -/
  vseq : Nat := 0
  verdictsSeen : List (Nat × Nat) := []
  deadPkgs : List Nat := []
  /-- Whether this package has learnt of its own verdict (R632). -/
  selfDead : Bool := false
  /-- Units under a verdict within the package: scope, die, unit (R630). -/
  deadUnits : List (Nat × Nat × Nat) := []
  /-- Probe sequencers by die × 1024 + router (R613). -/
  probeSeqs : Tbl ProbeSeq := {}
  /-- Probes on the wire behind each output, by (die × 1024 + p) × 8 + output; 6 and 7 are the wires back from LOCAL and AUX (R614). -/
  probeWires : Tbl (List Packet) := {}
  /-- The error window last ended, by (die × 1024 + p) × 8 + input (R612). -/
  secWindow : Tbl Nat := {}
  /-- The last wear rotation and telemetry of each die (R620, R661). -/
  wearFt : Tbl Nat := {}
  telemFt : Tbl Nat := {}
  /-- The head tailor's telemetry table by die × 2 + word (R800). -/
  telem : Tbl Word := {}
  /-- Darn engines by die (R643). -/
  darns : Tbl Darn := {}
  /-- Stalls past the hang threshold, by die (R674). -/
  stalls : Tbl (List Stall) := {}
  /-- The start of each slice's tailor watchdog window (R675). -/
  kickFt : Tbl Nat := {}
  /-- Dumps by partition (R686). -/
  dumps : Tbl Dump := {}
  /-- Owned memory stacks that have finished training (R818). -/
  mpTrained : Tbl Bool := {}
  /-- A stop instant written while ARMED and held until the next ARM (R714), by die. -/
  stopNext : Tbl (Option Word) := {}
  /-- What the head tailor has still to read back of an arming (R696, R708): die, and 0 for MND_STOP_FT, 1 for ARMED. -/
  armWait : List (Nat × Nat) := []
  /-- Stitch ports by port die (R511). -/
  stls : Tbl Stl := {}
  /-- Package-route progress of packets in transit to the egress of a port die (R537): header, segment, hops. -/
  transitPos : Tbl (List (Hdr × PkgStep)) := {}
  /-- The debug sequence's timer (R785), an open that waits for provisioning to end (R788), and whether an ERASE runs (R784). -/
  debugFt : Nat := 0
  debugWait : Option Bool := none
  eraseOnly : Bool := false
  /-- The key material being provisioned and read back (R783). -/
  provision : Option Store := none
  /-- Host reads in flight by tag, and the results returned to the host: BAR2 offset and bytes (R789). -/
  barJobs : Tbl (Option HostJob) := {}
  hostOut : List (Nat × List Byte) := []
  /-- The remote CSR access in flight, by service die (R790). -/
  rcsr : Tbl (Option HostJob) := {}
  /-- Partitions whose tiles a mend holds in reset (R813). -/
  tileReset : Tbl Bool := {}
  /-- A package mend under way (R693): 0 none, 1 begun, 2 its shared dies have been reset. -/
  pkgMend : Nat := 0
  /-- The round boundary at which a partition leaves REJOIN (R681), and the failures its last TEST named, by partition. -/
  rejoinFt : Tbl Nat := {}
  testFails : Tbl (List TestFail) := {}
  /-- The units that the last built-in tests found to have failed, as they are reported to the host (R62). (DESIGN CHOICE, log 150) -/
  testReport : Option (List TestFail) := none
  deriving DecidableEq, Repr

/-- Why a command stops the model with a fault. (DEDUCED, log 10) -/
inductive Fault where
  /-- A command carries a misuse that the rule of this number calls undefined with no effect named (R4). Raised by the
  arrival and injection commands. Safe: nothing can be proved about what follows. -/
  | undefinedMisuse (rule : Nat)
  /-- A command names a die, router, adapter, engine, object or port that the floor does not have (R71, R42). Raised by
  every command with a unit operand. Safe. -/
  | noSuchUnit
  /-- A packet command whose packet carries another command's CMD, which no well-formed command does. Raised by the packet
  commands. Safe. -/
  | wrongCommand
  deriving DecidableEq, Repr

/-- Why a command is refused. -/
inductive Refusal where
  /-- The command has no meaning yet. Raised by Dispatch.lean only. Safe. -/
  | notModelled (mnemonic : String)
  deriving DecidableEq, Repr

/-- The dies of the reference floor that are not compute dies (R34). -/
def referenceOthers : List DieInfo := [
  ⟨64, .port, 0, 2, 0⟩, ⟨65, .port, 0, 5, 1⟩, ⟨66, .port, 1, 2, 2⟩, ⟨67, .port, 1, 5, 3⟩,
  ⟨68, .port, 2, 2, 4⟩, ⟨69, .port, 2, 5, 5⟩, ⟨70, .port, 3, 2, 6⟩, ⟨71, .port, 3, 5, 7⟩,
  ⟨72, .memif, 0, 0, 8⟩, ⟨73, .memif, 0, 1, 8⟩, ⟨74, .memif, 0, 3, 8⟩, ⟨75, .memif, 0, 4, 8⟩,
  ⟨76, .memif, 0, 6, 8⟩, ⟨77, .memif, 0, 7, 8⟩, ⟨78, .memif, 1, 0, 8⟩, ⟨79, .memif, 1, 1, 8⟩,
  ⟨80, .memif, 1, 3, 8⟩, ⟨81, .memif, 1, 4, 8⟩, ⟨82, .memif, 1, 6, 8⟩, ⟨83, .memif, 1, 7, 8⟩,
  ⟨84, .memif, 2, 0, 8⟩, ⟨85, .memif, 2, 1, 8⟩, ⟨86, .memif, 2, 3, 8⟩, ⟨87, .memif, 2, 4, 8⟩,
  ⟨88, .memif, 2, 6, 8⟩, ⟨89, .memif, 2, 7, 8⟩, ⟨90, .memif, 3, 0, 8⟩, ⟨91, .memif, 3, 1, 8⟩,
  ⟨92, .memif, 3, 3, 8⟩, ⟨93, .memif, 3, 4, 8⟩, ⟨94, .memif, 3, 6, 8⟩, ⟨95, .memif, 3, 7, 8⟩,
  ⟨96, .service, 4, 0, 8⟩, ⟨97, .service, 4, 1, 8⟩, ⟨98, .service, 4, 2, 8⟩, ⟨99, .service, 4, 3, 8⟩]

/-- The state right after power-on: COLD, the reference floor of R34, every register at its Reset column, every table
entry zero (R573), every buffer empty. (DESIGN CHOICE, log 2; DESIGN CHOICE, log 3; DESIGN CHOICE, log 4; DESIGN CHOICE, log 44) -/
def State.reset : State :=
  { floor := { w := 8, h := 8, others := referenceOthers }, physical := { w := 8, h := 8, others := referenceOthers } }

end Sys2Proof.Machine
end

