-- ==== Sys2Proof/Machine/Ops.lean ====
section
/-! DEFINITION. The shared operations on the state: the floor, registers, counters, memory, free values, fault records,
trace records, fabric time and the packets an engine queues for injection. -/

namespace Sys2Proof.Machine

open Sys2Proof

/-! ## The floor (R34 to R46) -/

/-- What the floor says of a die number that is not a compute die. -/
def dieInfo (s : State) (d : Nat) : Option DieInfo := s.floor.others.find? (fun i => i.num == d)

/-- The kind of a die, none where the floor has no such die (R39). -/
def kindOf (s : State) (d : Nat) : Option Kind :=
  if d < s.floor.w * s.floor.h then (if s.floor.absent.contains d then none else some .compute) else (dieInfo s d).map (·.kind)

/-- Whether a die exists. -/
def dieExists (s : State) (d : Nat) : Bool := (kindOf s d).isSome

/-- Whether a die is of kind `k`. -/
def isKind (s : State) (d : Nat) (k : Kind) : Bool := kindOf s d == some k

/-- The code of a slice kind (R50). -/
def Kind.code : Kind → Nat
  | .compute => 0
  | .port => 1
  | .memif => 2
  | .service => 3

/-- Physical routers of a slice kind (R42). -/
def Kind.routers : Kind → Nat
  | .compute => 624
  | .port => 24
  | .memif => 24
  | .service => 2

/-- Collective engines of a slice kind (R42). -/
def Kind.ces : Kind → Nat
  | .compute => 8
  | .port => 4
  | .memif => 0
  | .service => 0

/-- Every die of the floor, compute dies first. -/
def allDies (s : State) : List Nat :=
  (List.range (s.floor.w * s.floor.h)).filter (fun d => !s.floor.absent.contains d) ++ s.floor.others.map (·.num)

/-- The port die of a stitch port number (R34). -/
def portDie (s : State) (q : Nat) : Option Nat :=
  (s.floor.others.find? (fun i => i.sport == q && i.kind == .port)).map (·.num)

/-- Whether router `p` of die `d` exists. -/
def routerExists (s : State) (d p : Nat) : Bool :=
  match kindOf s d with
  | some k => p < k.routers
  | none => false

/-- Whether collective engine `k` of die `d` exists. -/
def ceExists (s : State) (d k : Nat) : Bool :=
  match kindOf s d with
  | some kd => k < kd.ces
  | none => false

/-- Key of a router or NI. -/
def rk (d p : Nat) : Nat := d * 1024 + p

/-! ## The register map (R23 to R33) -/

/-- The row of a block's register list at a relative offset. -/
def findReg (l : List RegDesc) (rel : Nat) : Option RegDesc := l.find? (fun r => r.off == rel)

/-- Whether the NI window of position `p` exists (R42, R200): every tile of a compute die, and the listed attachments of
the others. -/
def niExists (k : Kind) (p : Nat) : Bool :=
  match k with
  | .compute => p < 624
  | .port => p == 0 || p == 3 || p == 9 || p == 15 || p == 21
  | .memif => p == 0 || p == 12
  | .service => p == 0

/-- Whether seam adapter `i` exists on a slice kind (R42, R203). -/
def seamExists (k : Kind) (i : Nat) : Bool :=
  match k with
  | .compute => i < 96
  | .port => i < 26
  | .memif => i < 26
  | .service => i == 24 || i == 25

/-- Whether gate point `g` exists on a slice kind. -/
def gateExists (k : Kind) (g : Nat) : Bool :=
  match k with
  | .compute => g < 8
  | .port => g < 4 || g == 8
  | _ => false

/-- The first of two lookups that finds a row. -/
def orReg (a b : Option RegDesc) : Option RegDesc :=
  match a with
  | some r => some r
  | none => b

/-- A lookup that counts only where `b` holds. -/
def whenReg (b : Bool) (a : Option RegDesc) : Option RegDesc := if b then a else none

/-- A register row as a slice kind has it: the PL fields that other kinds read as 0 (R49, R53, R54, R186). -/
def kindRow (k : Kind) (off : Nat) (r : RegDesc) : RegDesc :=
  let gone :=
    if off == SLC_PLACE && k != .service then 0xC0
    else if off == SLC_STATE && k != .compute then 0x3F0000
    else if off == SLC_MODE && k != .compute then 1
    else if off == TRT_CFG && k != .compute then 0x1F1F000000
    else 0
  { r with pl := Nat.land r.pl (2 ^ 64 - 1 - gone) }

/-- The register at CSR offset `off` of a slice of kind `k`; `head` says that the slice is the active service die. None
where no register is implemented (R25). -/
def regDesc (k : Kind) (head : Bool) (off : Nat) : Option RegDesc :=
  let blk := off / 0x10000
  let rel := off % 0x10000
  let comp := k == .compute
  if blk == 0 then (findReg regsSlcAny rel).map (kindRow k rel)
  else if blk == 1 then
    if rel < 0x200 then orReg (findReg regsTimAny rel) (whenReg head (findReg regsTimHead rel))
    else whenReg (gateExists k ((rel - 0x200) / 0x20) && rel < 0x320) (findReg regsGateAny ((rel - 0x200) % 0x20))
  else if blk == 2 then orReg (findReg regsPatAny rel) (whenReg head (findReg regsPatHead rel))
  else if 4 ≤ blk && blk < 7 then
    let p := (off - 0x40000) / 0x100
    let t := 0x40000 + rel % 0x100
    whenReg (p < k.routers && (k != .service || (t != TRT_TREE_ADDR && t != TRT_TREE_DATA)))
      (orReg ((findReg regsTrtAny (rel % 0x100)).map (kindRow k t)) (whenReg comp (findReg regsTrtCompute (rel % 0x100))))
  else if blk == 7 then whenReg comp (findReg regsDarnCompute rel)
  else if blk == 8 then whenReg (niExists k (rel / 0x40)) (findReg regsNiAny (rel % 0x40))
  else if blk == 9 then orReg (findReg regsNidAny rel) (whenReg comp (findReg regsNidCompute rel))
  else if blk == 0xA then
    if rel < 0x8000 then whenReg (seamExists k (rel / 0x100)) (findReg regsSeamAny (rel % 0x100))
    else whenReg comp (findReg regsPanelCompute (rel - 0x8000))
  else if blk == 0xC then
    let w := rel % 0x1000
    whenReg (rel / 0x1000 < k.ces)
      (if w < 0xC00 then findReg regsCeAny w
       else whenReg (w < 0xE80) (findReg regsShpAny ((w - 0xC00) % 0x80)))
  else if blk == 0xD then
    if rel < 0x1000 then findReg regsCmtAny rel
    else whenReg (rel < 0x1800 && (rel - 0x1000) / 0x100 < k.ces) (findReg regsCmtcAny (rel % 0x100))
  else if blk == 0xF then whenReg comp (findReg regsSynCompute rel)
  else if blk == 0x14 then whenReg (k == .port) (findReg regsStlPort rel)
  else if blk == 0x15 then whenReg (k == .port && rel < 0x280) (findReg regsShpAny (rel % 0x80))
  else if blk == 0x16 then
    if 0x3000 ≤ rel && rel < 0x9000 then
      let i := (rel - 0x3000) % 0x2000 / 8
      whenReg (comp && rel % 8 == 0 && i < 624) (findReg regsHltHem ((rel - 0x3000) / 0x2000 * 0x2000 + 0x3000))
    else
      orReg (findReg regsHltAny rel)
        (orReg (whenReg head (findReg regsHltHead rel)) (whenReg comp (findReg regsHltCompute rel)))
  else if blk == 0x17 then
    if 0x200 ≤ rel && rel < 0x400 && rel % 8 == 0 then whenReg head (findReg regsMndHead 0x200)
    else orReg (findReg regsMndAny rel) (whenReg head (findReg regsMndHead rel))
  else if blk == 0x18 then
    if 0x400 ≤ rel && rel < 0x800 then findReg regsPrbAny (rel % 0x40)
    else orReg (findReg regsObsAny rel) (whenReg head (findReg regsObsHead rel))
  else if blk == 0x1C then whenReg (k == .service) (findReg regsSecService rel)
  else if blk == 0x1D then orReg (findReg regsTlrAny rel) (whenReg (k == .service) (findReg regsTlrService rel))
  else none

/-- The register row at an offset of a die. -/
def descOf (s : State) (d off : Nat) : Option RegDesc :=
  match kindOf s d with
  | some k => regDesc k (d == s.headDie) off
  | none => none

/-- Key of a register. -/
def ck (d off : Nat) : Nat := d * 2 ^ 24 + off

/-- The value a register holds on entry to COLD (R573). Rows of the active service die count on every service die here, so
that a takeover changes no stored value. (DESIGN CHOICE, log 2) -/
def csrReset (s : State) (d off : Nat) : Word :=
  match kindOf s d with
  | some k => match regDesc k true off with
    | some r => BitVec.ofNat 64 r.reset
    | none => 0
  | none => 0

/-- The stored bits of a register. -/
def State.reg (s : State) (d off : Nat) : Word := s.csr.get (csrReset s d off) (ck d off)

/-- Set the stored bits of a register. -/
def State.setReg (s : State) (d off : Nat) (v : Word) : State :=
  { s with csr := s.csr.set (csrReset s d off) (ck d off) v }

/-- Field [hi:lo] of a register, as a number. -/
def State.fld (s : State) (d off hi lo : Nat) : Nat := bitsOf (s.reg d off) hi lo

/-- Set field [hi:lo] of a register. -/
def State.setFld (s : State) (d off hi lo v : Nat) : State := s.setReg d off (setBits (s.reg d off) hi lo v)

/-- Bit `b` of a register. -/
def State.flag (s : State) (d off b : Nat) : Bool := s.fld d off b b == 1

/-- Set bit `b` of a register, as hardware does; software that writes 1 to a W1C bit in the same cycle does not clear it (R30). -/
def State.raise (s : State) (d off b : Nat) : State :=
  { s.setFld d off b b 1 with setNow := s.setNow.set 0 (ck d off) (setBits (s.setNow.get 0 (ck d off)) b b 1) }

/-- Whether software has written field [hi:lo] of a register in the current cycle of its slice: a hardware update of the field in that
cycle then has no effect (R31). (DESIGN CHOICE, log 173) -/
def State.wrote (s : State) (d off hi lo : Nat) : Bool := bitsOf (s.wroteNow.get 0 (ck d off)) hi lo != 0

/-- Add to a counter field that wraps (R31, R32). -/
def State.bump (s : State) (d off hi lo n : Nat) : State :=
  if s.wrote d off hi lo then s else s.setFld d off hi lo (wrapTo (hi + 1 - lo) (s.fld d off hi lo + n))

/-- Add to a saturating counter field (R31, R32). -/
def State.bumpSat (s : State) (d off hi lo n : Nat) : State :=
  if s.wrote d off hi lo then s else s.setFld d off hi lo (satTo (hi + 1 - lo) (s.fld d off hi lo + n))

/-- Offset of a register of router `p`. -/
def trt (p off : Nat) : Nat := off + 0x100 * p
/-- Offset of a register of NI `p`. -/
def niw (p off : Nat) : Nat := off + 0x40 * p
/-- Offset of a register of seam adapter `i`. -/
def smw (i off : Nat) : Nat := off + 0x100 * i
/-- Offset of a register of CE `k`. -/
def cew (k off : Nat) : Nat := off + 0x1000 * k
/-- Offset of a register of gate point `g`. -/
def gtw (g off : Nat) : Nat := off + 0x20 * g
/-- Offset of a shaping register of gate point `g` and VC `v` (the shaping windows). -/
def shw (g v off : Nat) : Nat :=
  (if g == 8 then 0x150000 else 0x0C0000 + 0x1000 * g + 0xC00) + 0x80 * (v - 1) + off
/-- Offset of a register of the coordinator of CE `k`. -/
def ccw (k off : Nat) : Nat := off + 0x100 * k

/-- The package number of a slice (R49). -/
def State.pkgOf (s : State) (d : Nat) : Nat := s.fld d SLC_PLACE 63 51

/-- The partition of a slice (R53). -/
def State.partOf (s : State) (d : Nat) : Nat := s.fld d SLC_STATE 21 16

/-! ## Free values -/

/-- The next free value: unconstrained, and drawn anew each time. (DESIGN CHOICE, log 5) -/
def State.draw (s : State) : BitVec 512 × State := (Config.freeBits s.free, { s with free := s.free + 1 })

/-- Free units in place of a value that the spec leaves unpredictable. (DESIGN CHOICE, log 63) -/
def drawUnits (s : State) : Nat → List DataUnit × State
  | 0 => ([], s)
  | n + 1 =>
    let (u, s1) := s.draw
    let r := drawUnits s1 n
    (u :: r.1, r.2)

/-! ## Memory (R65 to R70) -/

/-- Key of a byte of a tile's scratchpad: die, router index of the tile's position, local offset. -/
def scratchKey (d tile off : Nat) : Nat := ((1 * 2 ^ 7 + d) * 2 ^ 10 + tile) * 2 ^ 34 + off
/-- Key of a byte of a memory-interface die's memory. -/
def dramKey (d off : Nat) : Nat := ((2 * 2 ^ 7 + d) * 2 ^ 10) * 2 ^ 34 + off
/-- Key of a byte of a die's staging SRAM: commit windows and CE staging share it on a port die (R839). -/
def stageKey (d k off : Nat) : Nat := ((3 * 2 ^ 7 + d) * 2 ^ 10 + k) * 2 ^ 34 + off
/-- Key of a byte of head-tailor RAM (R771). -/
def headRamKey (d off : Nat) : Nat := ((4 * 2 ^ 7 + d) * 2 ^ 10) * 2 ^ 34 + off
/-- Key of a byte of tailor-core RAM (R767). -/
def tailorKey (d off : Nat) : Nat := ((5 * 2 ^ 7 + d) * 2 ^ 10) * 2 ^ 34 + off
/-- Key of a byte of the commit staging SRAM of a slice (R478). -/
def commitKey (d off : Nat) : Nat := ((6 * 2 ^ 7 + d) * 2 ^ 10) * 2 ^ 34 + off
/-- Key of a byte of the boot window or the load port image of a service die (R606, R777). -/
def bootKey (d off : Nat) : Nat := ((7 * 2 ^ 7 + d) * 2 ^ 10) * 2 ^ 34 + off
/-- Key of a byte of the tailor's send buffer (R766). -/
def sendKey (d off : Nat) : Nat := ((8 * 2 ^ 7 + d) * 2 ^ 10) * 2 ^ 34 + off
/-- Key of a byte of the host's memory as the PCIe endpoint serves it (R789). -/
def imageKey (d off : Nat) : Nat := ((9 * 2 ^ 7 + d) * 2 ^ 10) * 2 ^ 34 + off

/-- What a byte of memory that nothing has written reads as. (DESIGN CHOICE, log 1) -/
def unwritten : Byte := 0

/-- One byte of memory. (DESIGN CHOICE, log 1) -/
def readByte (m : List Host.Cell) (a : Nat) : Byte := ((m.find? (fun c => c.1 == a)).map (·.2)).getD unwritten

/-- Write one byte, keeping the canonical form. -/
def writeByte (m : List Host.Cell) (a : Nat) (b : Byte) : List Host.Cell :=
  if b = unwritten then rowDel m a else rowPut m a b

/-- The canonical form of memory: rising addresses, no byte equal to the unwritten one. -/
def Memory.wf (m : List Host.Cell) : Bool := rowsSorted m && m.all (fun c => decide (c.2 ≠ unwritten))

/-- `n` bytes from address `a`. -/
def readBytes (m : List Host.Cell) (a n : Nat) : List Byte := (List.range n).map (fun i => readByte m (a + i))

/-- Write bytes at consecutive addresses from `a`; `en` enables byte i. -/
def writeMasked (m : List Host.Cell) (a : Nat) (en : Nat → Bool) : List Byte → List Host.Cell
  | [] => m
  | b :: bs => writeMasked (if en 0 then writeByte m a b else m) (a + 1) (fun i => en (i + 1)) bs

/-- Write bytes at consecutive addresses from `a`. -/
def writeBytes (m : List Host.Cell) (a : Nat) (bs : List Byte) : List Host.Cell := writeMasked m a (fun _ => true) bs

/-- A 64 B unit of memory (R18). -/
def readUnit (m : List Host.Cell) (a : Nat) : DataUnit := BitVec.ofNat 512 (natOfBytes (readBytes m a 64))

/-- Write a 64 B unit. -/
def writeUnit (m : List Host.Cell) (a : Nat) (u : DataUnit) : List Host.Cell := writeBytes m a (bytesOfNat 64 u.toNat)

/-- An 8 B word of memory. -/
def readWord (m : List Host.Cell) (a : Nat) : Word := BitVec.ofNat 64 (natOfBytes (readBytes m a 8))

/-- Write an 8 B word. -/
def writeWord (m : List Host.Cell) (a : Nat) (w : Word) : List Host.Cell := writeBytes m a (bytesOfNat 8 w.toNat)

/-- Bytes of the scratchpad that the reference tile implements (R66). -/
def scratchBytes : Nat := 224 * 1024

/-- Bytes of a memory-interface die's memory (R65). -/
def dramBytes : Nat := 2 ^ 34

/-! ## Fabric time (R209, R228) -/

/-- The time keeper of a slice. -/
def State.keeper (s : State) (d : Nat) : Keeper := s.keepers.get {} d

/-- Change the time keeper of a slice. -/
def State.setKeeper (s : State) (d : Nat) (k : Keeper) : State := { s with keepers := s.keepers.set {} d k }

/-- FT of a slice in ns. -/
def State.now (s : State) (d : Nat) : Nat := (s.keeper d).ft.toNat

/-- FT40: the low 40 bits of FT (R21). -/
def State.now40 (s : State) (d : Nat) : Nat := s.now d % 2 ^ 40

/-- The full FT of a 40-bit value, the nearer half of the window about `now` (R228). -/
def ft40Full (now ft40 : Nat) : Nat :=
  let d := (ft40 + 2 ^ 40 - now % 2 ^ 40) % 2 ^ 40
  if d < 2 ^ 39 then now + d else now - (2 ^ 40 - d)

/-- The clock region of a slice: panel 0 is the west panel or the whole slice. -/
def State.region (s : State) (d panel : Nat) : Region := s.regions.get {} (d * 2 + panel)

/-- Change a clock region. -/
def State.setRegion (s : State) (d panel : Nat) (r : Region) : State :=
  { s with regions := s.regions.set {} (d * 2 + panel) r }

/-- The panel of router or NI `p` of a die (R127, R131). -/
def panelOf (s : State) (d p : Nat) : Nat := if isKind s d .compute && 13 ≤ p % 26 then 1 else 0

/-- The clock region of router or NI `p`. -/
def State.regionOf (s : State) (d p : Nat) : Region := s.region d (panelOf s d p)

/-- Whether a stamp taken now in a region carries STRETCH (R80). -/
def stretchNow (r : Region) : Bool := r.down || r.stretch

/-- Whether the region of router `p` is halted by a global stop (R701). -/
def isHalted (s : State) (d p : Nat) : Bool := (s.halted.get none (d * 2 + panelOf s d p)).isSome

/-! ## States of the package and of partitions (R60, R61) -/

/-- Encoding of the fabric states (R60). -/
def Mode.code : Mode → Nat
  | .cold => 0
  | .test => 1
  | .train => 2
  | .fit => 3
  | .service => 4
  | .mend => 5
  | .stop => 6

/-- An event of TLR_IRQ_STATUS at a service die (R791): its bit is set, and MSI-X goes out once for each setting while it is
not masked. -/
def irqAt (s : State) (d b : Nat) : State :=
  if s.flag d TLR_IRQ_STATUS b then s
  else
    let s1 := s.raise d TLR_IRQ_STATUS b
    if s.flag d TLR_IRQ_MASK b then s1 else { s1 with msix := s1.msix.set 0 (d * 16 + b) (s1.msix.get 0 (d * 16 + b) + 1) }

/-- An event at the active service die. -/
def irq (s : State) (b : Nat) : State := irqAt s s.headDie b

/-- The partition of a slice: the pattern's for a compute die, the owner's for a memory-interface die with MEM_OWNED; shared
dies belong to none (R53, R672). -/
def partitionOf (s : State) (d : Nat) : Option Nat :=
  match kindOf s d with
  | some .compute => some (s.partOf d)
  | some .memif => if s.memOwned.get 0 d == 0 then none else some (s.memOwned.get 0 d - 1)
  | _ => none

/-- PART_STATE of some slices changes now (R53, R678): ENTRY_FT40 takes the instant once fabric time is locked, and the statistics
are cleared on entry to TEST, FIT and MEND (R729). -/
def noteState (s : State) (m : Mode) (ds : List Nat) : State :=
  let s1 := ds.foldl (fun s d => if (s.keeper d).lock then s.setFld d SLC_STATE 63 24 (s.now40 d) else s) s
  if m == .test || m == .fit || m == .mend then
    irq { s1 with stats := s1.stats.drop (fun k => ds.contains (k / 128)) } 2
  else irq s1 2

/-- PKG_STATE changes (R62). -/
def enterMode (s : State) (m : Mode) : State :=
  let s1 := noteState { s with mode := m } m (allDies s)
  if m == .stop then irq s1 5 else s1

/-- Whether direct writes to PL fields take effect in a state (R27, R28). -/
def Mode.plOpen : Mode → Bool
  | .cold | .test | .train | .fit => true
  | _ => false

/-! ## Trace records (R730 to R738) -/

/-- Quads that one trace packet holds: 8 units of 4 quads (R731). -/
def tracePacketQuads : Nat := 32

/-- Quads that the trace unit holds: 64 units (R731). -/
def traceUnitQuads : Nat := 256

/-- The Daxad header quad (R736). -/
def daxadHeader (ty quads : Nat) (stretch lost debug : Bool) (pkg die ft40 seq : Nat) : Nat :=
  ty * 2 ^ 120 + 1 * 2 ^ 116 + (quads - 1) % 64 * 2 ^ 110 + boolNat stretch * 2 ^ 109 + boolNat lost * 2 ^ 108 +
    boolNat debug * 2 ^ 107 + pkg % 8192 * 2 ^ 91 + die % 128 * 2 ^ 84 + ft40 % 2 ^ 40 * 2 ^ 40 + seq % 2 ^ 32

/-- Put one record's quads into the trace unit: PAD where the record would span two packets, dropped where the unit has no
room (R731, R734). (DEDUCED, log 162) -/
def tracePut (t : TraceUnit) (now : Nat) (padHdr : Nat) (q : List Nat) : Option TraceUnit :=
  let used := t.quads.length % tracePacketQuads
  let pad := if used + q.length > tracePacketQuads then tracePacketQuads - used else 0
  let qs := t.quads ++ (if pad == 0 then [] else [padHdr + (pad - 1) * 2 ^ 110] ++ List.replicate (pad - 1) 0) ++ q
  if qs.length > traceUnitQuads then none
  else some { t with quads := qs, firstFt := if t.quads.isEmpty then now else t.firstFt }

/-- The next trace SEQ of a slice, which every record takes, lost ones included (R734, R756). -/
def takeSeq (s : State) (d : Nat) : Nat × State :=
  (s.fld d OBS_TRACE_STATUS 63 32, s.bump d OBS_TRACE_STATUS 63 32 1)

/-- Hand one record body to the trace unit of a slice (R730, R734, R736). (DEDUCED, log 162) -/
def traceRec (s : State) (d ty : Nat) (stretch : Bool) (body : List Nat) : State :=
  if !s.flag d OBS_CFG 0 then s
  else
    let t := s.traces.get {} d
    let hdr := fun (ty n : Nat) (lost : Bool) (seq : Nat) =>
      daxadHeader ty n stretch lost false (s.pkgOf d) d (s.now40 d) seq
    let pad := hdr 0 1 false 0
    -- a LOSS record goes before the next record after a loss
    let (t1, s1) :=
      if t.lost == 0 then (t, s)
      else
        let (q, s') := takeSeq s d
        match tracePut t (s.now d) pad [hdr 0x06 2 false q, t.lostSeq % 2 ^ 32 * 2 ^ 32 + t.lost % 2 ^ 32] with
        | some t' => ({ t' with lost := 0, mark := true }, s')
        | none => (t, s)
    let (q, s2) := takeSeq s1 d
    let put := if t1.lost == 0 then tracePut t1 (s.now d) pad (hdr ty (body.length + 1) t1.mark q :: body) else none
    match put with
    | some t2 => { s2 with traces := s2.traces.set {} d { t2 with mark := false } }
    | none =>
      let t3 := { t1 with lost := t1.lost + 1, lostSeq := if t1.lost == 0 then q else t1.lostSeq }
      { s2.bump d OBS_TRACE_DROP 63 32 1 with traces := s2.traces.set {} d t3 }

/-! ## Mend steps (R681, R682, R722) -/

/-- Offset of MND_PART_STATUS_n (R722). -/
def partReg (q : Nat) : Nat := MND_PART_STATUS_0 + 8 * q

/-- The mend step of a partition, 0 for SERVICE (R722). -/
def partStep (s : State) (q : Nat) : Nat := s.fld s.headDie (partReg q) 3 0

/-- Whether a slice lies in a partition that is in MEND (R672). -/
def inMend (s : State) (d : Nat) : Bool :=
  match partitionOf s d with
  | some q => partStep s q != 0
  | none => false

/-- The mend step of a slice's partition, 0 where it has none. -/
def stepOf (s : State) (d : Nat) : Nat :=
  match partitionOf s d with
  | some q => partStep s q
  | none => 0

/-- A further fault of a partition between ISOLATE and REJOIN: the mend restarts from its first step, or fails past MAX_RESTARTS (R681,
R682). -/
def mendRestart (s : State) (q : Nat) : State :=
  if 1 ≤ partStep s q && partStep s q ≤ 9 then
    let n := satTo 8 (s.fld s.headDie (partReg q) 23 16 + 1)
    let s1 := s.setFld s.headDie (partReg q) 23 16 n
    s1.setFld s.headDie (partReg q) 3 0 (if s.fld s.headDie MND_CFG 15 8 < n then 15 else 1)
  else s

/-- A further fault of a partition; while its units are being reset or trained, TEST judges them (R682). (DEDUCED, log 127) -/
def mendFurther (s : State) (q : Nat) : State := if partStep s q == 4 || partStep s q == 5 then s else mendRestart s q

/-- A further fault of a slice's partition (R682). (DEDUCED, log 127) -/
def furtherFault (s : State) (d : Nat) : State :=
  match partitionOf s d with
  | some q => mendFurther s q
  | none => s

/-! ## Fault records (R607 to R611) -/

/-- The 128 bits of a fault record (R607). -/
def faultBits (index detail ft40 cls count action : Nat) : BitVec 128 :=
  BitVec.ofNat 128 (index % 2 ^ 16 * 2 ^ 96 + detail % 2 ^ 32 * 2 ^ 64 + ft40 % 2 ^ 40 * 2 ^ 24 + cls % 256 * 2 ^ 16 +
    count % 256 * 2 ^ 8 + action % 256)

/-- Classes that Kerex forwards whatever their action (R611). -/
def forwardedClass (c : Nat) : Bool := [0x02, 0x04, 0x05, 0x07, 0x0C, 0x0D, 0x0E, 0x0F, 0x10].contains c

/-- Unread records of the fault log, 256 of which fill it (R610). (DEDUCED, log 99) -/
def unreadFaults (s : State) (d : Nat) : Nat :=
  let n := (s.fld d HLT_FLOG_CTL 15 8 + 256 - s.fld d HLT_FLOG_CTL 7 0) % 256
  if n == 0 && s.flogFull.get false d then 256 else n

/-- Write a fault record, or merge it with the newest unread record of the same CLASS and INDEX (R610); Kerex forwards it
under R611. The record's action itself is the caller's. (DEDUCED, log 99) -/
def faultRec (s : State) (d cls index detail action : Nat) : State :=
  let head := s.fld d HLT_FLOG_CTL 15 8
  let newest := s.flog.get 0 (d * 256 + (head + 255) % 256)
  let rec0 := faultBits index detail (s.now40 d) cls 0 action
  let s1 := (s.raise d HLT_EVENT 0)
  let s2 := if s.flag d OBS_CFG 3 then traceRec s1 d 0x05 false [rec0.toNat] else s1
  let s2a := if action != 0 then furtherFault s2 d else s2
  let s3 := if action != 0 || forwardedClass cls then { s2a with fwd := s2a.fwd ++ [(d, rec0)] } else s2a
  if unreadFaults s d != 0 && bitsOf newest 23 16 == cls && bitsOf newest 111 96 == index % 2 ^ 16 then
    let n1 := setBits newest 15 8 (satTo 8 (bitsOf newest 15 8 + 1))
    let n2 := if action == 0 then n1 else setBits n1 7 0 action
    { s3 with flog := s3.flog.set 0 (d * 256 + (head + 255) % 256) n2 }
  else if unreadFaults s d == 256 then (s3.raise d HLT_FLOG_CTL 16).bump d HLT_FLOG_CTL 47 32 1
  else
    { (s3.bump d HLT_FLOG_CTL 47 32 1).setFld d HLT_FLOG_CTL 15 8 ((head + 1) % 256) with
      flog := s3.flog.set 0 (d * 256 + head) rec0, flogFull := s3.flogFull.set false d (unreadFaults s d == 255) }

/-- DETAIL of a fault record: port, VC and TAG (R607). -/
def faultDetail (port vc tag : Nat) : Nat := port % 8 + vc % 8 * 8 + tag % 2 ^ 16 * 2 ^ 16

/-- A header whose check fails is discarded and reported at the checking point (R125). -/
def hcrcFault (s : State) (d index vc tag : Nat) : State := faultRec s d 0x03 index (faultDetail 4 vc tag) 0

/-! ## Attachments and injection (R133, R134, R142) -/

/-- Attachment numbers of a die: tile NI p is p; CE k is 1024 + k; the control attachment (tailor core, commit unit, health
logic, time keeper) is 2048; the memory port 2049; the host port 2050; the sync store 2051; stitch ingress 2052. -/
def attCe (k : Nat) : Nat := 1024 + k
/-- The control attachment. -/
def attCtl : Nat := 2048
/-- The memory port. -/
def attMem : Nat := 2049
/-- The host port. -/
def attHost : Nat := 2050
/-- The sync store. -/
def attSync : Nat := 2051
/-- Stitch ingress. -/
def attStitch : Nat := 2052

/-- Key of an injection queue. -/
def ik (d att vc : Nat) : Nat := (d * 4096 + att) * 8 + vc

/-- Add a record to an injection queue (R142). -/
def State.enqueue (s : State) (d att : Nat) (q : Queued) : State :=
  let k := ik d att q.pk.hdr.vc.toNat
  { s with inj := s.inj.set [] k (s.inj.get [] k ++ [q]) }

/-- The panel in which an attachment of a compute die stands (R133): CE 2, 3, 6, 7 and the sync store stand in the east. -/
def attPanel (s : State) (d att : Nat) : Nat :=
  if !isKind s d .compute then 0
  else if att < 624 then panelOf s d att
  else if 1024 ≤ att && att < 1032 then (if 2 ≤ (att - 1024) % 4 then 1 else 0)
  else if att == 2051 then 1 else 0

/-- Whether an attachment's region is halted (R701). -/
def attHalted (s : State) (d att : Nat) : Bool := (s.halted.get none (d * 2 + attPanel s d att)).isSome

/-- Queue a whole packet for injection at an attachment, on its VC (R142). -/
def sendAt (s : State) (d att : Nat) (p : Packet) : State :=
  s.enqueue d att { pk := p, stamp := (s.region d (attPanel s d att)).cycles }

/-- Queue several packets. -/
def sendAll (s : State) (d att : Nat) (ps : List Packet) : State := ps.foldl (fun s p => sendAt s d att p) s

/-- A single-unit header with the given command, VC and destination, everything else zero (R13). -/
def mkHdr (cmd vc : Nat) (dest : BitVec 64) (src : BitVec 32) : Hdr :=
  { cmd := BitVec.ofNat 8 cmd, vc := BitVec.ofNat 3 vc, dest := dest, src := src }

/-- The ACK response to a request header: OFFSET under R82, TAG under R88, status and 16 further INLINE bytes under R89
and R452. -/
def ackFor (h : Hdr) (src : BitVec 32) (status : Nat) (rest : Nat) : Packet :=
  { hdr := { mkHdr 0x06 3 (respDest h.src) src with tag := h.tag
                                                    inl := BitVec.ofNat 128 (status % 256 + rest * 256) } }

/-- Update the statistics table at a receiving point (R727, R728). -/
def statUpdate (s : State) (d : Nat) (partMode : Mode) (h : Hdr) : State :=
  if s.flag d OBS_STAT_CFG 0 && (partMode == .test || partMode == .fit || partMode == .mend) then
    let e := if h.srcPkg == s.pkgOf d then h.srcDie else 127
    let now := s.now d
    let lat := now - ft40Full now h.ft40.toNat
    let t := s.stats.get {} (d * 128 + e)
    let t' : Stat :=
      { pkts := t.pkts + 1, units := t.units + 1 + h.len.toNat, latSum := t.latSum + lat,
        latMax := max t.latMax lat, latMin := if t.pkts == 0 then lat else min t.latMin lat }
    let s1 := { s with stats := s.stats.set {} (d * 128 + e) t' }
    if h.stretch then s1.bump d OBS_STAT_CFG 63 32 1 else s1
  else s

end Sys2Proof.Machine
end

