-- ==== Sys2Proof/Machine/Route.lean ====
section
/-! DEFINITION. Routes: the darn map and bypasses, the links of a router, the seam adapters behind them, the in-die and line
legs, and the output a unit takes at a router (R127 to R159, R641). -/

namespace Sys2Proof.Machine

open Sys2Proof

/-- Mesh port numbers (R132). -/
def portN : Nat := 0
/-- East (R132). -/
def portE : Nat := 1
/-- South (R132). -/
def portS : Nat := 2
/-- West (R132). -/
def portW : Nat := 3
/-- LOCAL (R132). -/
def portLocal : Nat := 4
/-- AUX (R132). -/
def portAux : Nat := 5
/-- NONE (R132). -/
def portNone : Nat := 7

/-- The port at the other end of a mesh link. -/
def oppPort (o : Nat) : Nat := (o + 2) % 4

/-! ## The darn map (R128, R196) -/

/-- Shift start of a row segment (panel 0 west, 1 east). -/
def darnStart (s : State) (d row panel : Nat) : Nat :=
  s.fld d (TRT_DARN0 + 8 * (row / 8)) (8 * (row % 8) + 4 * panel + 3) (8 * (row % 8) + 4 * panel)

/-- Physical column of logical column `x` in a row (R128). -/
def physCol (s : State) (d row x : Nat) : Nat :=
  let panel := if x < 12 then 0 else 1
  let base := 13 * panel
  let j := x - 12 * panel
  let st := darnStart s d row panel
  if st = 15 ∨ j < st then base + j else base + j + 1

/-- Logical column served at a physical column of a row, none at a position the darn map leaves unused. -/
def logCol (s : State) (d row px : Nat) : Option Nat := (List.range 24).find? (fun x => physCol s d row x == px)

/-- Whether router `p` is bypassed (R129). -/
def isBypassed (s : State) (d p : Nat) : Bool := s.flag d (trt p TRT_CFG) 1

/-- Physical index of the router that serves a logical tile (R128, R131). -/
def tileRouter (s : State) (d x y : Nat) : Nat := 26 * y + physCol s d y x

/-! ## Links -/

/-- What stands at the other end of a router's mesh output: nothing, an input of a router of the same die, or one of the
die's own seam adapters. -/
inductive Link where
  | none
  | router (p input : Nat)
  | seam (i : Nat)
  deriving DecidableEq, Repr

/-- The next column in a row that is not bypassed, going east. -/
def nextEast (s : State) (d row px : Nat) : Option Nat :=
  (List.range 26).find? (fun c => px < c && !isBypassed s d (26 * row + c))

/-- The next column in a row that is not bypassed, going west. -/
def nextWest (s : State) (d row px : Nat) : Option Nat :=
  (List.range 26).reverse.find? (fun c => c < px && !isBypassed s d (26 * row + c))

/-- The port by which a unit that has come along a column to physical column `px` of row `row`, bound for logical column `x`, takes the
extra hop of R130; none where the column stands. -/
def hopToward (s : State) (d row px : Nat) (x : Option Nat) : Option Nat :=
  match x with
  | none => none
  | some x => if physCol s d row x < px then some portW else if px < physCol s d row x then some portE else none

/-- The extra hop in row `row` of a unit that leaves row `from'` of the same die at column `px` (R130). (DEDUCED, log 110) -/
def columnMove (s : State) (d from' row px : Nat) : Option Nat := hopToward s d row px (logCol s d from' px)

/-- A unit sent along a vertical link from row `from` to router (row, px): a bypassed router hands it to the row neighbour that serves
its logical column, which at an unused spare column lies west and at a darned-out router east (R641). (DEDUCED, log 110) -/
def vertLink (s : State) (d from' row px input : Nat) : Link :=
  if !isBypassed s d (26 * row + px) then .router (26 * row + px) input
  else if (columnMove s d from' row px).getD (if px % 13 == 12 then portW else portE) == portW then
    match nextWest s d row px with
    | some c => .router (26 * row + c) portE
    | none => .none
  else
    match nextEast s d row px with
    | some c => .router (26 * row + c) portW
    | none => .none

/-- The physical column at which crossing `k` of the north or south edge attaches (R834). -/
def crossingCol (k : Nat) : Nat := if k < 12 then k else k + 1

/-- The crossing of the north or south edge at a physical column; the spare columns have none (R834). -/
def colCrossing (px : Nat) : Option Nat := (List.range 24).find? (fun k => crossingCol k == px)

/-- The link to a crossing of an edge whose first adapter is `base`. -/
def crossingLink (base px : Nat) : Link :=
  match colCrossing px with
  | some k => .seam (base + k)
  | none => .none

/-- The link behind a mesh output of a compute-die router (R129, R641, R834). -/
def computeLink (s : State) (d p o : Nat) : Link :=
  let row := p / 26
  let px := p % 26
  if o == portN then (if row == 0 then crossingLink 0 px else vertLink s d row (row - 1) px portS)
  else if o == portS then (if row == 23 then crossingLink 48 px else vertLink s d row (row + 1) px portN)
  else if o == portE then
    match nextEast s d row px with
    | some c => .router (26 * row + c) portW
    | none => .seam (24 + row)
  else if o == portW then
    match nextWest s d row px with
    | some c => .router (26 * row + c) portE
    | none => .seam (72 + row)
  else .none

/-- The port of an edge router that faces its compute die, by side of the floor (R132). (DEDUCED, log 23) -/
def edgeSeamPort (side : Nat) : Nat := oppPort side

/-- The port along an edge die's line toward higher positions, by side. -/
def edgeUpPort (side : Nat) : Nat := if side % 2 == 0 then portE else portS

/-- The link behind a mesh output of an edge router at line position `p` (R42, R132). -/
def edgeLink (side p o : Nat) : Link :=
  if o == edgeSeamPort side then .seam p
  else if o == edgeUpPort side then (if p < 23 then .router (p + 1) (oppPort o) else .seam 25)
  else if o == oppPort (edgeUpPort side) then (if p > 0 then .router (p - 1) (oppPort o) else .seam 24)
  else .none

/-- The port of ring router `p` of a service die that leads to its edge neighbour (R134). (DESIGN CHOICE, log 30) -/
def ringPort (corner p : Nat) : Nat :=
  if p == 0 then (if corner == 0 || corner == 3 then portE else portW)
  else (if corner == 0 || corner == 1 then portS else portN)

/-- The link behind a mesh output of a ring router: its own edge neighbour, or the other ring router (R134). (DESIGN CHOICE, log 30) -/
def ringLink (corner p o : Nat) : Link :=
  if 4 ≤ o then .none
  else if o == ringPort corner p then .seam (24 + p)
  else if o == ringPort corner (1 - p) then .router (1 - p) (oppPort o)
  else .none

/-- The link behind a mesh output of any router. -/
def linkOf (s : State) (d p o : Nat) : Link :=
  if 4 ≤ o then .none
  else match kindOf s d with
    | some .compute => computeLink s d p o
    | some .service => match dieInfo s d with
      | some i => ringLink i.idx p o
      | none => .none
    | some _ => match dieInfo s d with
      | some i => edgeLink i.side p o
      | none => .none
    | none => .none

/-! ## Seam adapters (R42, R45, R203) -/

/-- The die at an edge position or corner. -/
def dieAt (s : State) (side idx : Nat) : Option Nat :=
  (s.floor.others.find? (fun i => i.side == side && i.idx == idx)).map (·.num)

/-- Pair a die with an adapter number. -/
def atAdapter (d : Option Nat) (i : Nat) : Option (Nat × Nat) := d.map (fun d => (d, i))

/-- Edge positions along a side. -/
def sideLen (s : State) (side : Nat) : Nat := if side % 2 == 0 then s.floor.w else s.floor.h

/-- The service die and adapter at an end of an edge line: end 0 is position 0. -/
def cornerOf (s : State) (side : Nat) (atEnd : Bool) : Option (Nat × Nat) :=
  let corner := if side == 0 then (if atEnd then 1 else 0) else if side == 1 then (if atEnd then 2 else 1)
    else if side == 2 then (if atEnd then 2 else 3) else (if atEnd then 3 else 0)
  atAdapter (dieAt s 4 corner) (if side % 2 == 0 then 24 else 25)

/-- The edge position that a ring router of a corner faces, with the adapter there. -/
def ringPeer (s : State) (corner p : Nat) : Option (Nat × Nat) :=
  let lastW := s.floor.w - 1
  let lastH := s.floor.h - 1
  if p == 0 then
    if corner == 0 then atAdapter (dieAt s 0 0) 24
    else if corner == 1 then atAdapter (dieAt s 0 lastW) 25
    else if corner == 2 then atAdapter (dieAt s 2 lastW) 25
    else atAdapter (dieAt s 2 0) 24
  else
    if corner == 0 then atAdapter (dieAt s 3 0) 24
    else if corner == 1 then atAdapter (dieAt s 1 0) 24
    else if corner == 2 then atAdapter (dieAt s 1 lastH) 25
    else atAdapter (dieAt s 3 lastH) 25

/-- The adapter position across seam adapter `i` of die `d` (R41, R45). -/
def seamFacing (s : State) (d i : Nat) : Option (Nat × Nat) :=
  match kindOf s d with
  | some .compute =>
    let edge := i / 24
    let k := i % 24
    let cx := d % s.floor.w
    let cy := d / s.floor.w
    if edge == 0 then (if cy > 0 then some (d - s.floor.w, 48 + k) else atAdapter (dieAt s 0 cx) k)
    else if edge == 1 then (if cx + 1 < s.floor.w then some (d + 1, 72 + k) else atAdapter (dieAt s 1 cy) k)
    else if edge == 2 then (if cy + 1 < s.floor.h then some (d + s.floor.w, k) else atAdapter (dieAt s 2 cx) k)
    else (if cx > 0 then some (d - 1, 24 + k) else atAdapter (dieAt s 3 cy) k)
  | some .service => match dieInfo s d with
    | some f => ringPeer s f.idx (i - 24)
    | none => none
  | some _ => match dieInfo s d with
    | some f =>
      if i < 24 then
        let c := if f.side == 0 then f.idx else if f.side == 1 then s.floor.w * f.idx + (s.floor.w - 1)
          else if f.side == 2 then s.floor.w * (s.floor.h - 1) + f.idx else s.floor.w * f.idx
        some (c, 24 * f.side + i)
      else if i == 24 then
        (if f.idx > 0 then atAdapter (dieAt s f.side (f.idx - 1)) 25 else cornerOf s f.side false)
      else
        (if f.idx + 1 < sideLen s f.side then atAdapter (dieAt s f.side (f.idx + 1)) 24 else cornerOf s f.side true)
    | none => none
  | none => none

/-- The adapter at the other side of seam adapter `i` of die `d`, none where the position is empty (R41, R45). -/
def seamPeer (s : State) (d i : Nat) : Option (Nat × Nat) := (seamFacing s d i).filter (fun q => dieExists s q.1)

/-- The logical column that a unit has which enters a compute die by crossing `k` of its north (edge 0) or south edge: that of the column
it leaves on the die across, or position k of an edge die's line (R130, R132, R834). -/
def entryCol (s : State) (d edge k : Nat) : Option Nat :=
  match seamPeer s d (24 * edge + k) with
  | none => none
  | some (d', _) => if isKind s d' .compute then logCol s d' (if edge == 0 then 23 else 0) (crossingCol k) else some k

/-- The extra hop that a unit takes which enters a compute die by crossing `k` of its north or south edge (R130, R834). -/
def entryMove (s : State) (d edge k : Nat) : Option Nat :=
  hopToward s d (if edge == 0 then 0 else 23) (crossingCol k) (entryCol s d edge k)

/-- The router output that leads to seam adapter `i` of die `d` (R834; R133 for edge dies). (DEDUCED, log 23) -/
def seamFeeder (s : State) (d i : Nat) : Option (Nat × Nat) :=
  match kindOf s d with
  | some .compute =>
    let edge := i / 24
    let k := i % 24
    if edge == 0 then some (crossingCol k, portN)
    else if edge == 2 then some (26 * 23 + crossingCol k, portS)
    else if edge == 1 then (nextWest s d k 26).map (fun c => (26 * k + c, portE))
    else ((List.range 26).find? (fun c => !isBypassed s d (26 * k + c))).map (fun c => (26 * k + c, portW))
  | some .service => match dieInfo s d with
    | some f => some (i - 24, ringPort f.idx (i - 24))
    | none => none
  | some _ => match dieInfo s d with
    | some f =>
      if i < 24 then some (i, edgeSeamPort f.side)
      else if i == 24 then some (0, oppPort (edgeUpPort f.side))
      else some (23, edgeUpPort f.side)
    | none => none
  | none => none

/-- The router and input that seam adapter `i` of die `d` feeds: where the router at its crossing is bypassed, the row neighbour that
serves the unit's logical column (R641, R834). -/
def seamRouter (s : State) (d i : Nat) : Option (Nat × Nat) :=
  match seamFeeder s d i with
  | none => none
  | some (p, o) =>
    if isKind s d .compute && (i / 24 == 0 || i / 24 == 2) && isBypassed s d p then
      let row := p / 26
      if (entryMove s d (i / 24) (i % 24)).getD portE == portW then
        (nextWest s d row (p % 26)).map (fun c => (26 * row + c, portE))
      else (nextEast s d row (p % 26)).map (fun c => (26 * row + c, portW))
    else some (p, o)

/-- The seam adapters whose units bypassed routers hand to input `i` of router `p` (R641, R834). -/
def joinedSeams (s : State) (d p i : Nat) : List Nat :=
  if !isKind s d .compute || !(i == portE || i == portW) || !(p / 26 == 0 || p / 26 == 23) then []
  else ((List.range 24).map (fun k => (if p / 26 == 0 then 0 else 48) + k)).filter (fun a => seamRouter s d a == some (p, i))

/-- Whether the direction behind an output is absent: nothing there, an empty position, or an idle adapter (R41, R171). -/
def outAbsent (s : State) (d p o : Nat) : Bool :=
  if 4 ≤ o then false
  else match linkOf s d p o with
    | .none => true
    | .router _ _ => false
    | .seam i => (seamPeer s d i).isNone || s.flag d (smw i SEAM_CFG) 1

/-- The router output at the other end of the link of port `i` of router `p`, when it lies in the same die. -/
def feederOf (s : State) (d p i : Nat) : Option (Nat × Nat) :=
  match linkOf s d p i with
  | .router q o => if linkOf s d q o == .router p i then some (q, o) else none
  | _ => none

/-- The vertical outputs whose units bypassed routers beside router `p` hand to its input `i` (R641). (DEDUCED, log 24) -/
def joinedFeeders (s : State) (d p i : Nat) : List (Nat × Nat) :=
  if !isKind s d .compute || !(i == portE || i == portW) then []
  else
    let row := p / 26
    let cs := (List.range 26).filter (fun c => isBypassed s d (26 * row + c))
    let up := if row == 0 then [] else cs.map (fun c => (26 * (row - 1) + c, portS))
    let down := if row == 23 then [] else cs.map (fun c => (26 * (row + 1) + c, portN))
    (up ++ down).filter (fun x => linkOf s d x.1 x.2 == .router p i)

/-! ## Where a packet is bound within a die (R68, R133, R150, R151, R153) -/

/-- An attachment that a packet leaves the mesh by. -/
inductive Bound where
  | tile (x y : Nat)
  | ce (k : Nat)
  | ctl
  | sync
  | mem
  | host
  | stitch
  | misuse (rule : Nat)
  deriving DecidableEq, Repr

/-- Response commands (R153). -/
def isResponse (cmd : Nat) : Bool := cmd == 0x05 || cmd == 0x06 || cmd == 0x62

/-- Whether a command names a CE when DEST.OFFSET[33] is 1 (R403, R476, R462, R622). -/
def ceCommand (cmd : Nat) : Bool :=
  (0x30 ≤ cmd && cmd ≤ 0x35) || (0x40 ≤ cmd && cmd ≤ 0x46) || (0x20 ≤ cmd && cmd ≤ 0x23) || cmd == 0x50

/-- The serving tile of an address under uniform mode, or the tile itself (R156, R157). -/
def servingTile (uniform : Bool) (x y off : Nat) : Nat × Nat :=
  if uniform then
    let t := (24 * y + x + 199 * (off % 2 ^ 20 / 2048)) % 576
    (t % 24, t / 24)
  else (x, y)

/-- The attachment that a header is bound for on a die of kind `k`. -/
def boundOn (s : State) (k : Kind) (d : Nat) (h : Hdr) : Bound :=
  let cmd := h.cmd.toNat
  let off33 := natBit h.destOff 33
  let ce := h.destOff / 2 ^ 30 % 8
  let eng := h.destOff % 4
  match k with
  | .compute =>
    if isResponse cmd then
      (if eng == 0 then .tile h.destX h.destY else if eng == 1 then .ce h.destX else if eng == 2 then .ctl
       else .misuse 153)
    else if 0x10 ≤ cmd && cmd ≤ 0x1F then (if cmd == 0x1E then .ce ce else .sync)
    else if (ceCommand cmd || (1 ≤ cmd && cmd ≤ 4)) && off33 then .ce ce
    else if (0x20 ≤ cmd && cmd ≤ 0x23) || cmd == 0x50 || cmd == 0x51 || cmd == 0x60 || cmd == 0x61 then .ctl
    else
      let t := servingTile (s.flag d SLC_MODE 0) h.destX h.destY h.destOff
      .tile t.1 t.2
  | .port =>
    if isResponse cmd then
      (if eng == 1 then .ce h.destX else if eng == 2 then .ctl else if eng == 3 then .stitch else .misuse 153)
    else if off33 && cmd != 0x60 && cmd != 0x61 then .ce ce
    else .ctl
  | .memif =>
    if isResponse cmd then
      (if eng == 2 then .ctl else if eng == 3 then .mem else .misuse 153)
    else if (0x20 ≤ cmd && cmd ≤ 0x23) || cmd == 0x50 || cmd == 0x51 || cmd == 0x60 || cmd == 0x61 then .ctl
    else .mem
  | .service => if isResponse cmd && (eng == 0 || eng == 1) then .misuse 153 else .host

/-- The router and port of an attachment (R133). -/
def boundPort (s : State) (k : Kind) (d : Nat) (b : Bound) : Option (Nat × Nat) :=
  match k, b with
  | .compute, .tile x y => if x < 24 && y < 24 then some (tileRouter s d x y, portLocal) else none
  | .compute, .ce n => if n < 8 then some (tileRouter s d (3 + 6 * (n % 4)) (if n < 4 then 6 else 17), portAux) else none
  | .compute, .ctl => some (tileRouter s d 0 0, portAux)
  | .compute, .sync => some (tileRouter s d 12 12, portAux)
  | .port, .ce n => if n < 4 then some (3 + 6 * n, portLocal) else none
  | .port, .stitch => some (12, portLocal)
  | .port, .ctl => some (0, portAux)
  | .memif, .mem => some (12, portLocal)
  | .memif, .ctl => some (0, portAux)
  | .service, .host => some (0, portLocal)
  | .service, .ctl => some (0, portLocal)
  | _, _ => none

/-- The router, port and NI route table of an injecting attachment (R133, R134). -/
def attPort (s : State) (d att : Nat) : Option (Nat × Nat × Nat) :=
  match kindOf s d with
  | some .compute =>
    if att < 624 then some (att, portLocal, att)
    else if 1024 ≤ att && att < 1032 then
      (boundPort s .compute d (.ce (att - 1024))).map (fun r => (r.1, r.2, r.1))
    else if att == attSync then (boundPort s .compute d .sync).map (fun r => (r.1, r.2, r.1))
    else if att == attCtl then (boundPort s .compute d .ctl).map (fun r => (r.1, r.2, r.1))
    else none
  | some .port =>
    if 1024 ≤ att && att < 1028 then some (3 + 6 * (att - 1024), portLocal, 3 + 6 * (att - 1024))
    else if att == attCtl then some (0, portAux, 0)
    else if att == attStitch then some (12, portLocal, 0)
    else none
  | some .memif =>
    if att == attMem then some (12, portLocal, 12) else if att == attCtl then some (0, portAux, 0) else none
  | some .service => if att == attHost || att == attCtl then some (0, portLocal, 0) else none
  | none => none

/-! ## The output of a unit (R149 to R154, R130) -/

/-- Segment `i` of a 48-bit route: direction and hop count (R83). -/
def segOf (r : BitVec 48) (i : Nat) : Nat × Nat := (bitsOf r (8 * i + 7) (8 * i + 6), bitsOf r (8 * i + 5) (8 * i))

/-- The route that a phase follows. -/
def phaseRoute (h : Hdr) (f : Flit) : BitVec 48 :=
  if f.phase == 0 then h.routeLocal else if f.phase == 3 then f.transit else h.routeDest

/-- A unit with progress advanced to a segment that has hops left, or marked ended (R149). -/
def advance (h : Hdr) (f : Flit) : Flit :=
  if f.seg ≥ 6 || f.hops > 0 then f
  else
    let n := f.seg + 1
    if n ≥ 6 || (segOf (phaseRoute h f) n).2 == 0 then { f with seg := 6, hops := 0 }
    else { f with seg := n, hops := (segOf (phaseRoute h f) n).2 }

/-- A unit at the start of a phase (R83, R149). -/
def startPhase (h : Hdr) (phase : Nat) (f : Flit) : Flit :=
  let n := (segOf (phaseRoute h { f with phase := phase }) 0).2
  { f with phase := phase, seg := if n == 0 then 6 else 0, hops := n }

/-- One mesh step toward a router of the same compute die, X first and then Y, in logical coordinates (R150). -/
def inDieStep (s : State) (d p target : Nat) : Nat :=
  let lx := s.fld d (trt p TRT_CFG) 28 24
  let row := p / 26
  let tx := (logCol s d (target / 26) (target % 26)).getD 0
  if lx < tx then portE else if tx < lx then portW
  else if row < target / 26 then portS else portN

/-- One step along the line of an edge die (R151). -/
def lineStep (side p target : Nat) : Nat :=
  if p < target then edgeUpPort side else oppPort (edgeUpPort side)

/-- The port and the unit's next progress when its phase has ended at router `p` (R150, R151, R154). -/
def legOut (s : State) (d p : Nat) (h : Hdr) (f : Flit) : Option (Nat × Flit) :=
  match kindOf s d with
  | none => none
  | some k =>
    let own := h.destPkg == s.pkgOf d
    let b := if k == .port && !own then Bound.stitch
      else if d == h.destDie && own then boundOn s k d h else Bound.misuse 154
    match boundPort s k d b with
    | none => none
    | some (q, port) =>
      if p == q then some (port, f)
      else match k with
        | .compute => some (inDieStep s d p q, f)
        | .service => (dieInfo s d).map (fun i => (ringPort i.idx (1 - p), f))
        | _ => (dieInfo s d).map (fun i => (lineStep i.side p q, f))

/-- The extra hop of R130, for a unit that came along a vertical link, or by a crossing of the north or south edge (R834), into a row
whose darn map differs. (DEDUCED, log 28) -/
def extraHop (s : State) (d p inp : Nat) : Option Nat :=
  let row := p / 26
  if !isKind s d .compute || !(inp == portN || inp == portS) then none
  else if inp == portN && row == 0 || inp == portS && row == 23 then
    match colCrossing (p % 26) with
    | some k => entryMove s d inp k
    | none => none
  else columnMove s d (if inp == portN then row - 1 else row + 1) row (p % 26)

/-- The output a unicast header takes at router `p` once it is in its column, and its progress after that hop; none where the route
leads nowhere (R126, R154). -/
def routeOut (s : State) (d p : Nat) (h : Hdr) (f0 : Flit) : Option (Nat × Flit) :=
  let f := advance h f0
  if f.seg < 6 then
    let dir := (segOf (phaseRoute h f) f.seg).1
    if isKind s d .service then
      match dieInfo s d with
      | some i => if dir == ringPort i.idx p then some (dir, { f with hops := f.hops - 1 }) else some (dir, f)
      | none => none
    else if outAbsent s d p dir then none
    else some (dir, { f with hops := f.hops - 1 })
  else legOut s d p h f

/-- The entry of a router's tree table (R160). -/
def treeEntry (s : State) (d p tree : Nat) : BitVec 128 := s.treeTab.get 0 (rk d p * 1024 + tree)

/-- Whether any leaf of a group is selected: the 16 group bits of a leaf mask (R164). -/
def groupBits (mask : Nat) : Nat :=
  (List.range 16).foldl (fun g i => if mask / 2 ^ (4 * i) % 16 == 0 then g else g + 2 ^ i) 0

/-- The outputs of a multicast or pour header at a router (R160, R164): N, E, S, W, LOCAL. (DEDUCED, log 28; DEDUCED, log 33) -/
def treeOuts (s : State) (d p : Nat) (h : Hdr) : List Nat :=
  let e := treeEntry s d p (bitsOf h.routeLocal 15 0)
  let outs := (List.range 5).filter (fun o => e.getLsbD (64 + o))
  if h.cmd.toNat == 0x33 then
    let mask := h.inlBits 415 352
    let g := groupBits mask
    outs.filter (fun o =>
      if o == portLocal then natBit mask (bitsOf e 74 69)
      else Nat.land g (bitsOf e (16 * o + 15) (16 * o)) != 0)
  else outs

/-- The outputs that the tree entry of a multicast header names (R160). -/
def treeNamed (s : State) (d p : Nat) (h : Hdr) : List Nat :=
  (List.range 5).filter (fun o => (treeEntry s d p (bitsOf h.routeLocal 15 0)).getLsbD (64 + o))

/-- The misuse of a multicast header's tree at a router, whose consequence is undefined: a tree number that no valid entry defines, or
a slice without a tree table (R42, R126), LOCAL at a router that is no tile router (R364), an output that leads to an empty position
or an idle adapter (R41, R171 with R9). -/
def treeMisuse (s : State) (d p : Nat) (h : Hdr) : Option Nat :=
  let t := bitsOf h.routeLocal 15 0
  if isKind s d .service || 1024 ≤ t || !(treeEntry s d p t).getLsbD 75 then some 126
  else if (treeNamed s d p h).contains portLocal && !isKind s d .compute then some 364
  else if (treeNamed s d p h).any (outAbsent s d p) then some 41
  else none

/-- The misuse of a header's route or tree at a router, none where its outputs are known (R41, R126, R154, R364). -/
def routeMisuse (s : State) (d p inp : Nat) (h : Hdr) (f : Flit) : Option Nat :=
  if (extraHop s d p inp).isSome then none
  else if h.mcast then treeMisuse s d p h
  else if (routeOut s d p h f).isSome then none else some 126

/-- Every output a header takes at a router, and its progress after it; none on a misuse of its route or tree. -/
def outsOf (s : State) (d p inp : Nat) (h : Hdr) (f : Flit) : Option (List Nat × Flit) :=
  if let some o := extraHop s d p inp then some ([o], f)
  else if h.mcast then (if (treeMisuse s d p h).isSome then none else some (treeOuts s d p h, f))
  else (routeOut s d p h f).map (fun r => ([r.1], r.2))

/-- LA_OUT for a header at input `inp` of router `p` (R137): the one output it takes; NONE for a multicast unless the tree entry names
exactly one output (R139). -/
def laAt (s : State) (d p inp : Nat) (h : Hdr) (f : Flit) : Nat :=
  match outsOf s d p inp h f with
  | some ([o], _) => if h.mcast && (treeNamed s d p h).length != 1 then portNone else o
  | _ => portNone

end Sys2Proof.Machine
end

