-- ==== Sys2Proof/Machine/Router.lean ====
section
/-! DEFINITION. The router: buffers and credits (R138 to R143), hems (R363, R634, R635, R679), the slot guard (R238), ranking,
rotation and deficit round robin (R270 to R282), quota windows (R281), multicast grants (R163), arrival combining (R461),
the trace budget (R735), observation probes at outputs (R723 to R726), slot service (R232 to R239), and the router commands. -/

namespace Sys2Proof.Machine

open Sys2Proof

/-! ## Access -/

/-- A router's record. -/
def State.router (s : State) (d p : Nat) : Router := s.routers.get {} (rk d p)

/-- Change a router's record. -/
def State.setRouter (s : State) (d p : Nat) (r : Router) : State := { s with routers := s.routers.set {} (rk d p) r }

/-- Key of an input buffer or an output's credits: port × 6 + VC. -/
def bk (port v : Nat) : Nat := port * 6 + v

/-- An input buffer (R140). -/
def Router.buf (r : Router) (i v : Nat) : List Flit := r.bufs.get [] (bk i v)

/-- Change an input buffer. -/
def Router.setBuf (r : Router) (i v : Nat) (l : List Flit) : Router := { r with bufs := r.bufs.set [] (bk i v) l }

/-- Credits held for an output and VC; a link starts with 8 (R140). (DESIGN CHOICE, log 3) -/
def Router.cred (r : Router) (o v : Nat) : Nat := r.credits.get 8 (bk o v)

/-- Change the credits of an output and VC. -/
def Router.setCred (r : Router) (o v n : Nat) : Router := { r with credits := r.credits.set 8 (bk o v) n }

/-- Arbitration state of an output. -/
def Router.out (r : Router) (o : Nat) : OutArb := r.arb.get {} o

/-- Change the arbitration state of an output. -/
def Router.setOut (r : Router) (o : Nat) (a : OutArb) : Router := { r with arb := r.arb.set {} o a }

/-- State of an input link. -/
def Router.link (r : Router) (i : Nat) : InLink := r.links.get {} i

/-- Change the state of an input link. -/
def Router.setLink (r : Router) (i : Nat) (l : InLink) : Router := { r with links := r.links.set {} i l }

/-! ## PART_STATE (R61) -/

/-- PART_STATE of a slice (R61); a slice with no partition has the package's state. -/
def partState (s : State) (d : Nat) : Mode := if s.mode == .service && inMend s d then .mend else s.mode

/-! ## Credits (R140, R641) -/

/-- How a unit is marked that a bypassed router has handed over from a seam adapter (R641, R834): no router output waits for its credit. -/
def viaSeam : Nat := 8192

/-- Entries of an input's buffer of VC `v` that are taken: those for which a router output that feeds the input has spent a credit, and the
units that an adapter has handed on (R140, R169). (DEDUCED, log 24) -/
def inputLoad (s : State) (d p i v : Nat) : Nat :=
  let own : Bool := match linkOf s d p i with
    | .seam _ => true
    | _ => false
  (((feederOf s d p i).toList ++ joinedFeeders s d p i).map (fun x => 8 - (s.router d x.1).cred x.2 v)).sum +
    (((s.router d p).buf i v).filter (fun f => f.cred && (f.via == some viaSeam || own && f.via == none))).length

/-- Whether VC4 into a collective engine stalls: a packet waits at its input for staging (R414). -/
def ceStalls (s : State) (d p o v : Nat) : Bool :=
  v == 4 && (o == portAux || (o == portLocal && !isKind s d .compute)) && (List.range 8).any (fun k =>
    !(s.ces.get {} (d * 8 + k)).stall.isEmpty &&
      (match attPort s d (attCe k) with
       | some (q, o', _) => q == p && o' == o
       | none => false))

/-- Units of VC `v` that wait for the stitch egress of a port die: in its queues, and behind router 12's LOCAL output (R511). -/
def egressUnitsOf (s : State) (d v : Nat) : Nat :=
  let x := s.stls.get {} d
  (([0, 1].flatMap (fun l => x.eg.get [] (2 * v + l))).map (fun p => 1 + p.pk.data.length)).sum +
    ((s.wires.get [] (rk d 12 * 8 + portLocal)).filter (fun f => f.vc == v)).length

/-- Whether the stitch egress has room for `n` more units of VC `v`: the 48 KiB of its queues are shared equally, 128 units for each VC
(R511). (DESIGN CHOICE, log 186) -/
def egressRoom (s : State) (d v n : Nat) : Bool := egressUnitsOf s d v + n ≤ 128

/-- Whether an output leads to a stitch egress whose queues of VC `v` are full (R511). -/
def egressStalls (s : State) (d p o v : Nat) : Bool :=
  o == portLocal && p == 12 && isKind s d .port && !egressRoom s d v 1

/-- Whether an output holds a credit of VC `v`, and neither a collective engine nor a stitch egress behind it stalls; outputs whose units reach one input through a bypassed router share its entries (R140,
R641). (DEDUCED, log 24) -/
def hasCredit (s : State) (d p o v : Nat) : Bool :=
  0 < (s.router d p).cred o v && !ceStalls s d p o v && !egressStalls s d p o v &&
    (match linkOf s d p o with
     | .router q i => ((joinedFeeders s d q i).isEmpty && (joinedSeams s d q i).isEmpty) || inputLoad s d q i v < 8
     | _ => true)

/-! ## Hems -/

/-- Whether the hem bit of seam adapter `i` is set (R671). -/
def seamHem (s : State) (d i : Nat) : Bool :=
  if i < 64 then s.flag d HLT_SEAM_HEM0 i else s.flag d HLT_SEAM_HEM1 (i - 64)

/-- Whether the seam between two dies is a border of a partition in MEND (R679). -/
def mendBorder (s : State) (d d' : Nat) : Bool :=
  (inMend s d || inMend s d') && !(partitionOf s d == partitionOf s d')

/-- Whether a header passes a mend hem (R679); `step` is the step of the partition being mended. -/
def passesMendHem (step : Nat) (h : Hdr) : Bool :=
  let v := h.vc.toNat
  v == 0 || v == 5 || ((v == 2 || v == 3) && (h.srcEng == 2 || h.destOff % 4 == 2)) ||
    (step == 8 && 0x20 ≤ h.cmd.toNat && h.cmd.toNat ≤ 0x23)

/-- The step that governs the mend hem between two dies. -/
def borderStep (s : State) (d d' : Nat) : Nat :=
  if inMend s d then stepOf s d else stepOf s d'

/-- Whether an output of a router carries a hem bit: HLT_HEM_p on a compute die (R668), the slice's own note elsewhere (R633). -/
def outHem (s : State) (d p o : Nat) : Bool :=
  if isKind s d .compute then s.flag d (HLT_HEM_0 + 8 * p) o else s.edgeHem.get false (rk d p * 8 + o)

/-- Whether output `o` is hemmed for a header: a hem bit, a unit hem at an attachment, a failed or hemmed seam adapter, or a
mend hem that the header does not pass (R633, R634, R667, R668, R671, R679). -/
def hemmedFor (s : State) (d p o : Nat) (h : Hdr) : Bool :=
  outHem s d p o ||
  (o == portAux && isKind s d .compute &&
    ((List.range 8).any (fun k => s.flag d HLT_UNIT_HEM k && boundPort s .compute d (.ce k) == some (p, portAux)) ||
      (s.flag d HLT_UNIT_HEM 8 && boundPort s .compute d .sync == some (p, portAux)))) ||
  (match linkOf s d p o with
   | .seam i =>
     seamHem s d i || (s.seams.get {} (d * 256 + i)).link == 4 ||
       (match seamPeer s d i with
        | some (d', _) => mendBorder s d d' && !passesMendHem (borderStep s d d') h
        | none => false)
   | _ => false)

/-- Whether the link behind input `i` is fenced, so that the input discards every unit (R634). (DEDUCED, log 37) -/
def inputFenced (s : State) (d p i : Nat) : Bool :=
  if 4 ≤ i then false else outHem s d p i

/-- Count a packet dropped at a hem (R56, R194); a dropped twin copy is recorded (R608). -/
def countHemDrop (s : State) (d p : Nat) (h : Hdr) : State :=
  let s1 := s.bump d (trt p TRT_HEM_DROP) 31 0 1
  if h.tag == 0xFFFF && h.vc == 2 && h.ordered then faultRec s1 d 0x11 p (faultDetail 0 2 0xFFFF) 0 else s1

/-! ## Slots (R231 to R239) -/

/-- A slot-table entry of an output (R234). -/
def slotEntry (s : State) (d p o e : Nat) : Word := s.slotTab.get 0 ((rk d p * 8 + o) * 512 + e)

/-- Whether a slot entry is reserved (R234). -/
def slotReserved (s : State) (d p o e : Nat) : Bool := (slotEntry s d p o e).getLsbD 0

/-- IN_PORT of a slot entry (R234). -/
def slotInPort (s : State) (d p o e : Nat) : Nat := bitsOf (slotEntry s d p o e) 4 2

/-- The slot-table entry that a region serves in its current slot (R176, R231). -/
def curEntry (r : Region) : Nat := if r.down then 2 * (r.c / 8) % 512 else r.c / 8 % 512

/-- Count one miss of a reserved slot (R189, R190), with its trace record (R730). -/
def countMiss (s : State) (d p o e cause : Nat) : State :=
  let s1 := if o == portAux then s.bumpSat d (trt p TRT_SLOT_MISS_AUX) 11 0 1
    else s.bumpSat d (trt p TRT_SLOT_MISS) (12 * o + 11) (12 * o) 1
  if s.flag d OBS_CFG 1 then
    traceRec s1 d 0x03 false
      [p % 1024 * 2 ^ 118 + o * 2 ^ 115 + bitsOf (slotEntry s d p o e) 15 8 * 2 ^ 107 + e * 2 ^ 98 + cause * 2 ^ 96]
  else s1

/-- Cycles from now to the first cycle of the output's next reserved slot; none without one (R238). The first cycle of a slot is
never released, only the seven behind it (R235). (DEDUCED, log 27) -/
def nextRes (s : State) (d p o : Nat) : Option Nat :=
  if !(s.keeper d).roundsOn then none
  else
    let g := s.regionOf d p
    (List.range 513).findSome? (fun k =>
      let e := if g.down then (curEntry g + 2 * k) % 512 else (curEntry g + k) % 512
      if slotReserved s d p o e && !(k == 0 && g.c % 8 != 0) then some (8 * k - g.c % 8) else none)

/-- Whether the slot guard permits a packet of LEN `len` at an output (R238). -/
def guardOk (s : State) (d p o len : Nat) : Bool :=
  match nextRes s d p o with
  | none => true
  | some n => 1 + len ≤ n

/-! ## Requests (R270) -/

/-- A request: the head of an input's VC buffer, the outputs it asks for and the unit as it will leave. -/
structure Req where
  input : Nat
  vc : Nat
  hdr : Hdr
  fl : Flit
  outs : List Nat
  deriving DecidableEq, Repr

/-- Size of a packet in units (R276). -/
def Req.size (q : Req) : Nat := 1 + q.hdr.len.toNat

/-- The request of the head of one buffer, when that head is a header ready for arbitration. A PROBE that is to be returned
goes back by the input it came from (R614). -/
def reqOf (s : State) (d p i v : Nat) : Option Req :=
  match (s.router d p).buf i v with
  | [] => none
  | f :: _ =>
    if f.scan then none
    else match f.hdr with
      | none => none
      | some h =>
        if h.cmd == 0x52 then some ⟨i, v, h, f, [if i == portLocal || i == portAux then bitsOf h.inl 66 64 else i]⟩
        else (outsOf s d p i h f).map (fun r => ⟨i, v, h, r.2, r.1⟩)

/-- Every request that names output `o`. -/
def reqsAt (s : State) (d p o : Nat) : List Req :=
  (List.range 36).filterMap (fun n =>
    match reqOf s d p (n / 6) (n % 6) with
    | some q => if q.outs.contains o then some q else none
    | none => none)

/-- Whether a request is eligible at output `o` (R270): a credit, or a hem that needs none, and the slot guard. -/
def eligible (s : State) (d p o : Nat) (q : Req) : Bool :=
  (hemmedFor s d p o q.hdr || hasCredit s d p o q.vc) && guardOk s d p o q.hdr.len.toNat

/-! ## Choice (R272 to R279) -/

/-- High-priority inputs of an output (R306). -/
def hipri (s : State) (d p o i : Nat) : Bool := s.flag d (trt p TRT_ARB_HIPRI) (8 * o + i)

/-- The class of an input at an output (R273): 0 before 1 before 2. -/
def reqClass (s : State) (d p o i : Nat) : Nat :=
  if hipri s d p o i then (if ((s.router d p).out o).masked.getD i false then 2 else 0) else 1

/-- Distance of a port behind a rotation pointer (R274). -/
def rotDist (ptr i : Nat) : Nat := (i + 6 - ptr) % 6

/-- Whether request `a` ranks before request `b` of the same VC (R273). -/
def before (s : State) (d p o : Nat) (a b : Req) : Bool :=
  let ptr := ((s.router d p).out o).rot.getD a.vc 0
  reqClass s d p o a.input < reqClass s d p o b.input ||
    (reqClass s d p o a.input == reqClass s d p o b.input && rotDist ptr a.input < rotDist ptr b.input)

/-- The request that an output picks within one VC (R273). -/
def pickIn (s : State) (d p o : Nat) : List Req → Option Req
  | [] => none
  | q :: qs =>
    match pickIn s d p o qs with
    | none => some q
    | some b => if before s d p o q b then some q else some b

/-- The request that an output picks in VC `v` among eligible requests. -/
def pickVc (s : State) (d p o v : Nat) (el : List Req) : Option Req := pickIn s d p o (el.filter (fun q => q.vc == v))

/-- Weight of a VC; 0 counts as 1 (R279). (DEDUCED, log 83) -/
def vcWeight (s : State) (d p v : Nat) : Nat := max 1 (s.fld d (trt p TRT_VC_WEIGHT) (8 * v - 1) (8 * v - 8))

/-- The loop of the deficit round robin (R276); `size` gives the size of the pick of each VC in the set. -/
def drrLoop (size : Nat → Option Nat) (weight : Nat → Nat) : Nat → Nat → List Nat → Option (Nat × List Nat)
  | 0, _, _ => none
  | n + 1, v, df =>
    match size v with
    | some k =>
      if k ≤ df.getD (v - 1) 0 then some (v, setAt df (v - 1) (df.getD (v - 1) 0 - k))
      else
        let w := v % 4 + 1
        drrLoop size weight n w (if (size w).isSome then setAt df (w - 1) (df.getD (w - 1) 0 + weight w) else df)
    | none =>
      let w := v % 4 + 1
      drrLoop size weight n w (if (size w).isSome then setAt df (w - 1) (df.getD (w - 1) 0 + weight w) else df)

/-- Deficits with those of VCs that have no request at any input cleared (R276, R277). -/
def clearIdle (reqs : List Req) (df : List Nat) : List Nat :=
  [1, 2, 3, 4].map (fun v => if reqs.any (fun q => q.vc == v) then df.getD (v - 1) 0 else 0)

/-- The deficit round robin of an output: the VC granted and the deficits after it (R276). Passes are bounded by the largest
size over the least weight. -/
def drr (s : State) (d p o : Nat) (reqs el : List Req) : Option (Req × List Nat) :=
  let a := (s.router d p).out o
  let pick := fun v => pickVc s d p o v el
  if [1, 2, 3, 4].all (fun v => (pick v).isNone) then none
  else
    match drrLoop (fun v => (pick v).map Req.size) (vcWeight s d p) 300 a.turn (clearIdle reqs a.deficit) with
    | some (v, df) => (pick v).map (fun q => (q, df))
    | none => none

/-- A choice of an output among `avail`, part of its requests `reqs`: the request and the deficits that the grant leaves. A VC0 packet
without SLOT is best-effort traffic; a SLOT unit is granted here only before the slice enforces its slot tables (R233, R272). (DEDUCED, log 174) -/
def choose (s : State) (d p o : Nat) (reqs avail : List Req) : Option (Req × List Nat) :=
  let a := (s.router d p).out o
  let el := avail.filter (eligible s d p o)
  let keep := clearIdle reqs a.deficit
  let vc0 := pickVc s d p o 0 (el.filter (fun q => !(q.hdr.slot && (s.keeper d).roundsOn)))
  let vc5 := pickVc s d p o 5 el
  match vc0 with
  | some q => some (q, keep)
  | none =>
    match (if a.masked5 then none else vc5) with
    | some q => some (q, keep)
    | none =>
      match drr s d p o reqs el with
      | some r => some r
      | none => vc5.map (fun q => (q, keep))

/-- Whether a free output serves a late SLOT unit in this cycle, before any other request (R239, R272). -/
def lateDue (s : State) (d p o : Nat) : Bool :=
  ((s.router d p).out o).lateEntry < 512 &&
    (match reqOf s d p (slotInPort s d p o ((s.router d p).out o).lateEntry) 0 with
     | some q => q.hdr.slot && q.outs == [o]
     | none => false)

/-- The choice of an output that is free for it, among all its requests. -/
def chooseAll (s : State) (d p o : Nat) : Option (Req × List Nat) :=
  if ((s.router d p).held.get none o).isSome || lateDue s d p o then none
  else choose s d p o (reqsAt s d p o) (reqsAt s d p o)

/-- The deficits that an output's grant of `q` leaves, where the output chooses it. -/
def deficitFor (s : State) (d p o : Nat) (q : Req) : Option (List Nat) :=
  match chooseAll s d p o with
  | some (b, df) => if b.input == q.input && b.vc == q.vc then some df else none
  | none => none

/-- Whether every other output of a multicast chooses it too; a hemmed output grants at once (R163, R363). -/
def allChoose (s : State) (d p : Nat) (q : Req) : Bool :=
  q.outs.all (fun o => hemmedFor s d p o q.hdr || (deficitFor s d p o q).isSome)

/-- The grant of output `o` with requests `all` among `reqs`: a multicast that some other output does not choose steps aside, and keeps its
VC's deficit (R163, R277). -/
def grantAmong (s : State) (d p o : Nat) (all : List Req) : Nat → List Req → Option (Req × List Nat)
  | 0, _ => none
  | n + 1, reqs =>
    match choose s d p o all reqs with
    | none => none
    | some (q, df) =>
      if q.outs.length ≤ 1 || allChoose s d p q then some (q, df)
      else grantAmong s d p o all n (reqs.filter (fun b => !(b.input == q.input && b.vc == q.vc)))

/-- The grant of output `o` among its requests (R163, R272 to R277). -/
def grantOf (s : State) (d p o n : Nat) (reqs : List Req) : Option (Req × List Nat) := grantAmong s d p o reqs n reqs

/-! ## Quota windows (R281) -/

/-- QUOTA of an output (R307). -/
def quotaOf (s : State) (d p o : Nat) : Nat := s.fld d (trt p TRT_ARB_QUOTA) (8 * o + 7) (8 * o)

/-- Arbitration state of an output after a grant to input `q` on VC `v` (R274, R276, R281). -/
def afterGrant (hp : Bool) (quota q v : Nat) (df : List Nat) (a : OutArb) : OutArb :=
  let win := a.win + 1
  let used5 := if v == 5 then a.used5 + 1 else a.used5
  let masked5 := a.masked5 || (v == 5 && used5 == 8)
  let counts := hp && quota != 0
  let u := a.used.getD q 0 + 1
  let used := if counts then setAt a.used q u else a.used
  let masked := if counts && u == quota then setAt a.masked q true else a.masked
  let base : OutArb :=
    { a with rot := setAt a.rot v ((q + 1) % 6), turn := if 1 ≤ v && v ≤ 4 then v else a.turn, deficit := df }
  if win == 256 then
    { base with win := 0, used5 := 0, masked5 := false, used := [0, 0, 0, 0, 0, 0],
                masked := [false, false, false, false, false, false] }
  else { base with win := win, used5 := used5, masked5 := masked5, used := used, masked := masked }

/-! ## Moving units (R138, R140) -/

/-- The tile or CE of a compute die that injects at an input of a router (R133). -/
def portAtt (s : State) (d p i : Nat) : Option Nat :=
  if !isKind s d .compute then none
  else if i == portLocal then some p
  else ((List.range 8).find? (fun k => match attPort s d (attCe k) with
    | some (q, j, _) => q == p && j == i
    | none => false)).map attCe

/-- Count a data unit that enters the router on VC1, VC2 or VC4 in this round (R301). -/
def countUnit (s : State) (d p i v : Nat) : State :=
  match portAtt s d p i with
  | some a =>
    if v == 1 || v == 2 || v == 4 then
      { s with injCount := s.injCount.set 0 (d * 4096 + a) (s.injCount.get 0 (d * 4096 + a) + 1) }
    else s
  | none => s

/-- Return one credit of VC `v` to whatever feeds input `i` (R140): on the reverse wire of a mesh link, or by taking the next
unit of an injected packet into the buffer. An adapter sees the free entry itself. -/
def returnCredit (s : State) (d p i v : Nat) : State :=
  if i < 4 then
    match linkOf s d p i with
    | .seam _ => s
    | _ =>
      let k := rk d p * 8 + i
      { s with credWires := s.credWires.set [] k (s.credWires.get [] k ++ [v]) }
  else
    let k := (rk d p * 8 + i) * 8 + v
    match s.stream.get [] k with
    | [] => s
    | f :: fs =>
      let r := s.router d p
      let f' := { f with scan := v == 4 && isKind s d .compute }
      countUnit { (s.setRouter d p (r.setBuf i v (r.buf i v ++ [f']))) with stream := s.stream.set [] k fs } d p i v

/-- Return one credit of VC `v` for a unit of input `i`: to the output `via` = router × 8 + port where a bypassed router handed the
unit over from a vertical link (R140, R641), else as R140 states. -/
def creditBack (s : State) (d p i v : Nat) (via : Option Nat) : State :=
  match via with
  | some k =>
    if k == viaSeam then s
    else
      let r := s.router d (k / 8)
      s.setRouter d (k / 8) (r.setCred (k % 8) v (min 8 (r.cred (k % 8) v + 1)))
  | none => returnCredit s d p i v

/-- A context of a router. -/
def ctxAt (r : Router) (c : Nat) : Option Ctx := r.ctxs.getD c none

/-- Change a context of a router. -/
def Router.setCtx (r : Router) (c : Nat) (x : Option Ctx) : Router := { r with ctxs := setAt r.ctxs c x }

/-- Free a context: it can be claimed again from the cycle `from'` on (R346). -/
def freeCtx (r : Router) (c from' : Nat) : Router := { (r.setCtx c none) with ctxFrom := r.ctxFrom.set 0 c from' }

/-- The last unit of a join's output packet has left: its pair's room is free; the packet with LAST frees the context in the next cycle
(R346), and so does the pair of a context that was cut off (R350). -/
def endPair (s : State) (d p c : Nat) (lastPacket : Bool) : State :=
  let r := s.router d p
  match ctxAt r c with
  | none => s
  | some x =>
    let done := { x with heldPk := x.heldPk.drop 1, heldFl := x.heldFl.drop 1, pair := false }
    if lastPacket then (s.setRouter d p (freeCtx r c ((s.regionOf d p).cycles + 2))).bump d (trt p TRT_RED_JOINED) 47 0 1
    else if x.cut then s.setRouter d p (freeCtx r c ((s.regionOf d p).cycles + 1))
    else s.setRouter d p (r.setCtx c (some done))

/-- Take the head unit out of an input buffer; its credit returns. -/
def popUnit (s : State) (d p i v : Nat) : State :=
  let r := s.router d p
  match r.buf i v with
  | [] => s
  | f :: fs =>
    let s1 := s.setRouter d p (r.setBuf i v fs)
    let s2 := if f.cred then creditBack s1 d p i v f.via else s1
    match f.ends with
    | some (c, lastPacket) => endPair s2 d p c lastPacket
    | none => s2

/-- The governor's count of a unit that leaves a router by N, E, S or W (R300). -/
def countHop (s : State) (d o : Nat) : State :=
  if o < 4 && isKind s d .compute then
    let g := s.govs.get {} d
    { s with govs := s.govs.set {} d { g with hops := g.hops + 1 } }
  else s

/-- The VC whose credits an adapter's next frame returns, and how many: the first with credits owed, seven at most (R166). (DESIGN CHOICE, log 38) -/
def credNext (a : Seam) : Nat × Nat :=
  match (List.range 6).find? (fun v => 0 < a.credOwed.getD v 0) with
  | some v => (v, min 7 (a.credOwed.getD v 0))
  | none => (0, 0)

/-- The control fields of an adapter's next frame (R166): ACK is the last frame received in order. -/
def nextFrame (a : Seam) : SeamTx :=
  { seq := a.txSeq, ack := (a.rxSeq + 255) % 256, nak := a.nak, credVc := (credNext a).1, credN := (credNext a).2 }

/-- An adapter's record when its next frame has taken the NAK, the ACK and the credits that were due. -/
def frameTaken (a : Seam) : Seam :=
  { a with nak := false, ackDue := false,
           credOwed := setAt a.credOwed (credNext a).1 (a.credOwed.getD (credNext a).1 0 - (credNext a).2) }

/-- The stream of a seam adapter (R166, R169): while it holds far credits each unit goes in a frame that takes the next SEQ and enters the
replay buffer; otherwise an idle frame carries the credits, the ACK or the NAK that is due. Idle frames with nothing to say are not
recorded. The second part counts the units sent. (DESIGN CHOICE, log 38) -/
def seamPump : Nat → Seam → Seam × Nat
  | 0, a => (a, 0)
  | n + 1, a =>
    match a.txWait.filter (fun _ => a.replay.length < 64) with
    | f :: _ =>
      if 0 < a.farCred.getD f.vc 0 then
        let fr := { nextFrame a with unit := some f }
        let b := frameTaken a
        let r := seamPump n { b with txWait := a.txWait.drop 1, replay := a.replay ++ [fr], wire := a.wire ++ [fr],
                                     txSeq := (a.txSeq + 1) % 256, farCred := setAt a.farCred f.vc (a.farCred.getD f.vc 0 - 1) }
        (r.1, r.2 + 1)
      else if a.nak || a.ackDue || 0 < (credNext a).2 then seamPump n { frameTaken a with wire := a.wire ++ [nextFrame a] }
      else (a, 0)
    | [] =>
      if a.nak || a.ackDue || 0 < (credNext a).2 then seamPump n { frameTaken a with wire := a.wire ++ [nextFrame a] }
      else (a, 0)

/-- Whether a seam adapter sends and accepts frames: it is up or replaying, enabled, and not held idle (R171, R203, R204). -/
def seamLive (s : State) (d i : Nat) (a : Seam) : Bool :=
  (a.link == 2 || a.link == 3) && s.flag d (smw i SEAM_CFG) 0 && !s.flag d (smw i SEAM_CFG) 1

/-- Run a seam adapter's sender after a change of its record, returning to its router one credit for each unit sent; each counts as a seam
unit of a compute die (R300). -/
def seamRun (s : State) (d i : Nat) (a : Seam) : State :=
  let r := if seamLive s d i a then seamPump 128 a else (a, 0)
  let s1 := { s with seams := s.seams.set {} (d * 256 + i) r.1 }
  let sent := a.txWait.take r.2
  let s2 := match seamFeeder s d i with
    | some (p, o) => sent.foldl (fun s f =>
        let rt := s.router d p
        s.setRouter d p (rt.setCred o f.vc (rt.cred o f.vc + 1))) s1
    | none => s1
  if isKind s d .compute then
    let g := s2.govs.get {} d
    { s2 with govs := s2.govs.set {} d { g with seams := g.seams + r.2 } }
  else s2

/-- LA_OUT for the router behind an output (R137): NONE across a die seam, where the receiving adapter computes it (R170), and across a
panel seam whose FIFO is asynchronous (R173). (DEDUCED, log 31) -/
def laFor (s : State) (d p o : Nat) (h : Hdr) (f : Flit) : Nat :=
  match linkOf s d p o with
  | .router q inp =>
    if panelOf s d p != panelOf s d q && ((s.region d 0).down || (s.region d 1).down) then portNone else laAt s d q inp h f
  | _ => portNone

/-- Whether an output leads to an attachment that accepts every unit as it comes: any but a tile's NI (R133, R179). (DEDUCED, log 32) -/
def openSink (s : State) (d o : Nat) : Bool := o == portAux || (o == portLocal && !isKind s d .compute)

/-- Send a unit out of an output: to the tile NI's ejection queue, to a seam adapter, or onto the wire. Takes a credit, which
an attachment that always accepts gives back at once. -/
def pushOut (s : State) (d p o : Nat) (f0 : Flit) : State :=
  let f := { f0 with via := none }
  let r := s.router d p
  let s1 := countHop (if openSink s d o then s else s.setRouter d p (r.setCred o f.vc (r.cred o f.vc - 1))) d o
  if o == portLocal && isKind s d .compute then
    let n := s1.nis.get {} (rk d p)
    { s1 with nis := s1.nis.set {} (rk d p) { n with ej := n.ej.set [] f.vc (n.ej.get [] f.vc ++ [f]) } }
  else match linkOf s d p o with
    | .seam i =>
      let a := s1.seams.get {} (d * 256 + i)
      seamRun s1 d i { a with txWait := a.txWait ++ [f] }
    | _ =>
      let k := rk d p * 8 + o
      { s1 with wires := s1.wires.set [] k (s1.wires.get [] k ++ [f]) }

/-- Send a unit out of every output of a grant; hemmed outputs drop it (R363, R634). -/
def pushAll (s : State) (d p : Nat) (outs : List Nat) (h : Hdr) (f : Flit) : State :=
  outs.foldl (fun s o =>
    if hemmedFor s d p o h then s
    else pushOut s d p o (if f.hdr.isSome then { f with laOut := laFor s d p o h f } else f)) s

/-- Whether every output of a grant can take a unit of VC `v`. -/
def canPush (s : State) (d p : Nat) (outs : List Nat) (h : Hdr) (v : Nat) : Bool :=
  outs.all (fun o => hemmedFor s d p o h || hasCredit s d p o v)

/-! ## Observation probes (R723 to R726) -/

/-- The two keys that a probe forms (R724). -/
def probeKeys (h : Hdr) (colour : Nat) : Nat × Nat :=
  (h.cmd.toNat + h.vc.toNat * 2 ^ 8 + h.flags.toNat * 2 ^ 11 + h.epoch.toNat * 2 ^ 18 + colour * 2 ^ 26 +
     h.srcDie * 2 ^ 28 + h.srcEng * 2 ^ 35 + h.destDie * 2 ^ 37 + h.group.toNat * 2 ^ 44,
   h.srcTile + bitsOf h.dest 43 34 * 2 ^ 10 + h.tag.toNat * 2 ^ 20 + h.srcPkg * 2 ^ 36)

/-- Q1 of PKT_SUMMARY and PKT_FULL (R738). -/
def summaryQuad (h : Hdr) (n colour : Nat) : Nat :=
  h.group.toNat * 2 ^ 112 + h.tag.toNat * 2 ^ 96 + h.cmd.toNat * 2 ^ 88 + h.vc.toNat * 2 ^ 85 + h.flags.toNat * 2 ^ 78 +
    h.len.toNat * 2 ^ 72 + h.epoch.toNat * 2 ^ 64 + h.srcPkg * 2 ^ 51 + h.srcDie * 2 ^ 44 + h.srcTile * 2 ^ 34 +
    h.srcEng * 2 ^ 32 + h.destDie * 2 ^ 25 + bitsOf h.dest 43 34 * 2 ^ 15 + n * 2 ^ 11 + colour * 2 ^ 9

/-- Offset of a register of observation probe `n`. -/
def prw (n off : Nat) : Nat := off + 0x40 * n

/-- One probe evaluates one packet (R724, R725). -/
def probeOne (s : State) (d n point index port colour : Nat) (h : Hdr) : State :=
  let cfg := s.reg d (prw n OBS_PRB_CFG_0)
  let k := probeKeys h colour
  let m0 := (s.reg d (prw n OBS_PRB_MASK0_0)).toNat
  let m1 := (s.reg d (prw n OBS_PRB_MASK1_0)).toNat
  let here := bitsOf cfg 34 32 == point && (point == 6 || point == 7 || bitsOf cfg 47 38 == index) &&
    (point != 1 || bitsOf cfg 37 35 == port)
  let hit := here && Nat.land k.1 m0 == Nat.land (s.reg d (prw n OBS_PRB_MATCH0_0)).toNat m0 &&
    Nat.land k.2 m1 == Nat.land (s.reg d (prw n OBS_PRB_MATCH1_0)).toNat m1
  if !hit then s
  else
    let c := s.prbCount.get 0 (d * 16 + n)
    let s1 := { s with prbCount := s.prbCount.set 0 (d * 16 + n) (c + 1) }
    let s2 := if cfg.getLsbD 0 then
        (s1.bump d (prw n OBS_PRB_PKTS_0) 47 0 1).bump d (prw n OBS_PRB_UNITS_0) 47 0 (1 + h.len.toNat)
      else s1
    if cfg.getLsbD 1 && c % 2 ^ bitsOf cfg 11 8 == 0 then
      let q1 := summaryQuad h n colour
      if cfg.getLsbD 2 then traceRec s2 d 0x02 h.stretch (q1 :: chop 128 4 h.pack.toNat)
      else traceRec s2 d 0x01 h.stretch [q1]
    else s2

/-- Every probe of a slice evaluates a packet at a point, in SERVICE only (R723, R726). -/
def probeEval (s : State) (d point index port colour : Nat) (h : Hdr) : State :=
  if partState s d == .service then
    (List.range 16).foldl (fun s n => probeOne s d n point index port colour h) s
  else s

/-! ## Arrival combining (R461) -/

/-- ARG0 of a sync operation (R450). -/
def syncArg0 (h : Hdr) : Nat := h.inlBits 383 352
/-- ARG1 of a sync operation (R450). -/
def syncArg1 (h : Hdr) : Nat := h.inlBits 415 384
/-- ACKREQ (R450). -/
def syncAckReq (h : Hdr) : Bool := h.inlBits 416 416 == 1
/-- COMBINE (R450). -/
def syncCombine (h : Hdr) : Bool := h.inlBits 417 417 == 1

/-- Whether a packet's phase has ended at this router, so that it is in an in-die leg (R150). -/
def inLeg (h : Hdr) (f : Flit) : Bool := (advance h f).seg ≥ 6

/-- Whether ARRIVE packet `b` merges into `a` (R461); `ha`, `hb` are the buffered units. -/
def merges (a b : Req) (fa fb : Flit) : Bool :=
  b.hdr.cmd == 0x13 && b.vc == a.vc && b.input != a.input && b.outs == a.outs && b.hdr.dest == a.hdr.dest &&
    b.hdr.epoch == a.hdr.epoch && syncCombine a.hdr && syncCombine b.hdr &&
    ((inLeg a.hdr fa && inLeg b.hdr fb) ||
      (a.hdr.routeLocal == b.hdr.routeLocal && a.hdr.routePkg == b.hdr.routePkg && a.hdr.routeDest == b.hdr.routeDest &&
        fa.phase == fb.phase && fa.seg == fb.seg && fa.hops == fb.hops)) && b.hdr.crcOk

/-- The ARRIVE packets that merge into a granted one while their sum stays below 2^32: the header after it, and the inputs
emptied (R461). -/
def mergeAll (a : Req) (fa : Flit) : List (Req × Flit) → Hdr → Hdr × List Nat
  | [], h => (h, [])
  | (b, fb) :: rest, h =>
    if merges a b fa fb && syncArg0 h + syncArg0 b.hdr < 2 ^ 32 then
      let r := mergeAll a fa rest (h.setInl 383 352 (syncArg0 h + syncArg0 b.hdr))
      (r.1, b.input :: r.2)
    else mergeAll a fa rest h

/-- ARRIVE packets that reach a router in this cycle and stand in an input latch, with nothing before them in their buffer: they
request in the same cycle (R136, R461). (DEDUCED, log 25) -/
def latchedArrivals (s : State) (d p o : Nat) : List (Req × Flit) :=
  (List.range 6).filterMap (fun j =>
    match ((s.router d p).link j).latch with
    | none => none
    | some f =>
      match f.hdr with
      | none => none
      | some h =>
        if h.cmd != 0x13 || !((s.router d p).buf j f.vc).isEmpty then none
        else match outsOf s d p j h f with
          | some (os, fl) => if os.contains o then some (⟨j, f.vc, h, fl, os⟩, f) else none
          | none => none)

/-- The granted header and the inputs whose ARRIVE packets merged into it: one merge in a cycle. It recomputes HCRC (R461). (DEDUCED, log 25) -/
def combineArrivals (s : State) (d p o : Nat) (q : Req) : Hdr × List Nat :=
  if q.hdr.cmd != 0x13 || !q.hdr.crcOk || (s.router d p).mergeAt == some (s.regionOf d p).cycles then (q.hdr, [])
  else
    let headOf := fun (b : Req) => ((s.router d p).buf b.input b.vc).headD {}
    let r := mergeAll q (headOf q) ((reqsAt s d p o).map (fun b => (b, headOf b)) ++ latchedArrivals s d p o) q.hdr
    if r.2.isEmpty then (q.hdr, []) else (r.1.seal, r.2)

/-- Remove a merged ARRIVE packet of input `i` and return its credit (R461). -/
def popMerged (s : State) (d p v i : Nat) : State :=
  let r := s.router d p
  let s1 := s.setRouter d p { r with mergeAt := some (s.regionOf d p).cycles }
  if !(r.buf i v).isEmpty then popUnit s1 d p i v
  else match (r.link i).latch with
    | some f => creditBack (s1.setRouter d p ((s1.router d p).setLink i { r.link i with latch := none })) d p i v f.via
    | none => s1

/-! ## The trace budget (R735) -/

/-- The budget of an output after the gains up to a cycle. -/
def budgetNow (a : OutArb) (cycle : Nat) : Nat := min 33 (a.budget + (cycle - a.budgetAt) / 34)

/-- An output's arbitration state with its budget brought up to a cycle and then reduced by `n`. -/
def spendBudget (a : OutArb) (cycle n : Nat) : OutArb :=
  { a with budget := budgetNow a cycle - n, budgetAt := if budgetNow a cycle == 33 then cycle else
             a.budgetAt + (cycle - a.budgetAt) / 34 * 34 }

/-- Whether a packet is one that the trace budget governs. -/
def isTrace (h : Hdr) : Bool := h.cmd == 0x63 && !natBit h.destOff 33

/-! ## Grants -/

/-- Drop the packet at the head of a buffer: its header now, its data units as they come. -/
def dropPacket (s : State) (d p i v : Nat) (h : Hdr) : State :=
  let s1 := popUnit s d p i v
  if h.len == 0 then s1
  else
    let r := s1.router d p
    -- a grant with no outputs consumes the rest of the packet
    s1.setRouter d p { r with held := r.held.set none (8 + bk i v) (some ⟨i, v, [], h, h.len.toNat⟩) }

/-- FT40 of a join's output header is the instant of its grant, and HCRC is recomputed (R341); a slice without LOCK takes no stamp
(R251). -/
def stampJoin (s : State) (d p : Nat) (f : Flit) (h : Hdr) : Hdr :=
  if f.join && !(s.keeper d).lock then h.seal
  else if f.join then
    { h with ft40 := BitVec.ofNat 40 (s.now40 d),
             flags := BitVec.ofNat 7 (bitsOf h.flags 5 0 + boolNat (stretchNow (s.regionOf d p)) * 64) }.seal
  else h

/-- Carry out a grant: the header leaves by every output that is not hemmed, the outputs hold for the packet's data units,
and each output that granted updates its pointers and quotas (R138, R163, R274, R276, R281, R634). -/
def doGrant (s : State) (d p o : Nat) (q : Req) (df : List Nat) : State :=
  let cycle := (s.regionOf d p).cycles
  let a0 := (s.router d p).out o
  if isTrace q.hdr && budgetNow a0 cycle < q.size then
    dropPacket (s.bump d OBS_TRACE_DROP 31 0 1) d p q.input q.vc q.hdr
  else
    let f := ((s.router d p).buf q.input q.vc).headD {}
    let (h1, merged) := combineArrivals s d p o q
    let h := stampJoin s d p f h1
    -- the deficits of a multicast's other outputs, as their own choice of this cycle leaves them (R163)
    let dfs := q.outs.map (fun o' => (o', if o' == o then some df else deficitFor s d p o' q))
    let s1 := popUnit s d p q.input q.vc
    let s2 := merged.foldl (fun s i => popMerged s d p q.vc i) s1
    let s3 := dfs.foldl (fun s x =>
      let r := s.router d p
      let a := r.out x.1
      let a1 := afterGrant (hipri s d p x.1 q.input) (quotaOf s d p x.1) q.input q.vc (x.2.getD a.deficit) a
      s.setRouter d p (r.setOut x.1 (if isTrace h then spendBudget a1 cycle q.size else a1))) s2
    let s4 := q.outs.foldl (fun s o' =>
      probeEval (if hemmedFor s d p o' h then countHemDrop s d p h else s) d 1 p o' 0 h) s3
    let s5 := pushAll s4 d p q.outs h { q.fl with hdr := some h, last := h.len == 0, laOut := portNone, scan := false,
                                                  join := false, cred := true, ends := none, res := false }
    if h.len == 0 then s5
    else q.outs.foldl (fun s o' =>
      let r := s.router d p
      s.setRouter d p { r with held := r.held.set none o' (some ⟨q.input, q.vc, q.outs, h, h.len.toNat⟩) }) s5

/-- One cycle of a held output: the packet's next unit moves when every branch can take it; an output fenced meanwhile
drops the rest (R138, R163, R635). The lowest output of a multicast moves its units. -/
def moveHeld (s : State) (d p key : Nat) (g : Held) : State :=
  match (s.router d p).buf g.input g.vc with
  | [] => s
  | f :: _ =>
    if f.scan || !(g.outs.all (fun o => key ≤ o)) || !canPush s d p g.outs g.hdr g.vc then s
    else
      let s1 := popUnit s d p g.input g.vc
      let s2 := pushAll s1 d p g.outs g.hdr { f with last := g.left == 1, cred := true, join := false, ends := none, res := false }
      let r := s2.router d p
      let keys := if g.outs.isEmpty then [key] else g.outs
      let v := if g.left ≤ 1 then none else some { g with left := g.left - 1 }
      s2.setRouter d p { r with held := keys.foldl (fun t k => t.set none k v) r.held }

/-- The SLOT unit at the head of an input's VC0 that requests output `o` (R235). -/
def slotUnit (s : State) (d p o i : Nat) : Option Req :=
  match reqOf s d p i 0 with
  | some q => if q.hdr.slot && q.outs == [o] then some q else none
  | none => none

/-- Grant a SLOT unit; slot grants count toward the quota window (R272, R280). -/
def grantSlot (s : State) (d p o : Nat) (q : Req) : State :=
  doGrant s d p o q ((s.router d p).out o).deficit

/-- An output has taken the first cycle of reserved slot `e`, and has not released it (R235). -/
def takeSlot (s : State) (d p o e : Nat) : State :=
  let r := s.router d p
  s.setRouter d p (r.setOut o { r.out o with released := e, openSlot := 512 })

/-- Release the current slot of an output for its remaining cycles (R235). (DEDUCED, log 27) -/
def releaseSlot (s : State) (d p o e : Nat) : State :=
  let r := s.router d p
  s.setRouter d p (r.setOut o { r.out o with released := e, openSlot := e })

end Sys2Proof.Machine
end

