-- ==== Sys2Proof/Machine/Fence.lean ====
section
/-! DEFINITION. Fences and the hems they draw (R633 to R637), as the health logic and the failure detector use them. -/

namespace Sys2Proof.Machine

open Sys2Proof

/-- Note a fence in the slice's health events (R656). -/
def noteFence (s : State) (d : Nat) : State := s.raise d HLT_EVENT 1

/-- Hem one mesh output of a router (R633, R668). -/
def hemOut (s : State) (d p o : Nat) : State :=
  if !routerExists s d p then s
  else if isKind s d .compute then s.raise d (HLT_HEM_0 + 8 * p) o
  else { s with edgeHem := s.edgeHem.set false (rk d p * 8 + o) true }

/-- Set the hem bit of a seam adapter (R671). (DEDUCED, log 115) -/
def hemSeamBit (s : State) (d i : Nat) : State :=
  if i < 64 then s.raise d HLT_SEAM_HEM0 i else s.raise d HLT_SEAM_HEM1 (i - 64)

/-- An input at a fenced link discards every unit it holds (R633, R634). -/
def discardInput (s : State) (d p i : Nat) : State :=
  let r := s.router d p
  let bufs := (List.range 6).foldl (fun t v => t.set [] (bk i v) []) r.bufs
  s.setRouter d p { r with bufs := bufs, links := r.links.set {} i {} }

/-- Fence a seam crossing: both adapters FAILED, with their hem bits set (R633). -/
def fenceSeam (s : State) (d i : Nat) : State :=
  let one := fun (s : State) (d i : Nat) =>
    let a := s.seams.get {} (d * 256 + i)
    hemSeamBit { s with seams := s.seams.set {} (d * 256 + i) { a with link := 4 } } d i
  let s1 := noteFence (one s d i) d
  match seamPeer s d i with
  | some (d', i') => one s1 d' i'
  | none => s1

/-- The outputs of a die's routers that lead to router `p`, with the input at which they arrive: those of its own row and the
rows beside it. -/
def outputsTo (s : State) (d p : Nat) : List (Nat × Nat × Nat) :=
  ((List.range 624).filter (fun q => routerExists s d q && p / 26 ≤ q / 26 + 1 && q / 26 ≤ p / 26 + 1)).flatMap (fun q =>
    [0, 1, 2, 3].filterMap (fun o => match linkOf s d q o with
      | .router r inp => if r == p then some (q, o, inp) else none
      | _ => none))

/-- Fence the link at a mesh port of a router, at both ends (R633). -/
def fenceLink (s : State) (d p port : Nat) : State :=
  match linkOf s d p port with
  | .seam i => fenceSeam s d i
  | .router q inp =>
    let s1 := discardInput (discardInput s d p port) d q inp
    let s2 := (outputsTo s d p).foldl (fun s x => if x.2.2 == port then hemOut s d x.1 x.2.1 else s) (hemOut s1 d p port)
    noteFence s2 d
  | .none => noteFence s d

/-- The register and bit of a seam adapter's hem (R671). -/
def seamHemAt (d i : Nat) : Nat × Nat × Nat := if i < 64 then (d, HLT_SEAM_HEM0, i) else (d, HLT_SEAM_HEM1, i - 64)

/-- The hem bits that fence a tile (R633, R668, R671), as die, register and bit: its NI's injection, the outputs that lead to it,
and the seam crossings at its edge. (DEDUCED, log 115) -/
def tileHem (s : State) (d p : Nat) : List (Nat × Nat × Nat) :=
  (d, HLT_HEM_0 + 8 * p, 6) :: ((outputsTo s d p).map (fun x => (d, HLT_HEM_0 + 8 * x.1, x.2.1)) ++
    [0, 1, 2, 3].flatMap (fun o => match linkOf s d p o with
      | .seam i => seamHemAt d i :: (match seamPeer s d i with
        | some (d', i') => [seamHemAt d' i']
        | none => [])
      | _ => []))

/-- Fence a tile (R633). -/
def fenceTile (s : State) (d p : Nat) : State :=
  noteFence ((tileHem s d p).foldl (fun s x => s.raise x.1 x.2.1 x.2.2) s) d

/-- Fence a CE, the sync store or the commit unit (R633, R667): bit 0 to 7 a CE, 8 the sync store, 9 the commit unit. -/
def fenceUnit (s : State) (d bit : Nat) : State := noteFence (s.raise d HLT_UNIT_HEM bit) d

/-- Whether a unit of a slice is fenced (R667). (DEDUCED, log 72) -/
def unitFenced (s : State) (d bit : Nat) : Bool := isKind s d .compute && s.flag d HLT_UNIT_HEM bit

/-- Whether a tile is fenced (R668). -/
def tileFenced (s : State) (d p : Nat) : Bool := isKind s d .compute && s.flag d (HLT_HEM_0 + 8 * p) 6

/-- Fence a die: every adapter that faces it (R633). -/
def fenceDie (s : State) (d : Nat) : State :=
  (List.range 96).foldl (fun s i =>
    match kindOf s d with
    | some k => if seamExists k i && (seamPeer s d i).isSome then fenceSeam s d i else s
    | none => s) s

/-- Write a fault record whose action fences a link when AUTO_FENCE is set (R612, R654). -/
def faultLink (s : State) (d cls p port detail : Nat) (limit : Bool) : State :=
  if limit && s.flag d HLT_CFG 0 then fenceLink (faultRec s d cls p detail 1) d p port
  else faultRec s d cls p detail 0

end Sys2Proof.Machine
end

