-- ==== Sys2Proof/Machine/Operands.lean ====
section
/-! DEFINITION. The operand forms of a packet: what each command allows (R72 to R76, R87, R95, R126), where its data units go
(R69, R70, R98, R837), and the writes and reads they make. -/

namespace Sys2Proof.Machine

open Sys2Proof

/-- One row of R87: the virtual channels, the least and the largest LEN, and whether R112 applies. -/
structure CmdRow where
  cmd : Nat
  vcs : List Nat
  lo : Nat
  hi : Nat
  epoch : Bool
  deriving DecidableEq, Repr

/-- The command table (R87), the sync operations as R451 lists them. -/
def cmdTable : List CmdRow := [
  ⟨0x01, [2, 4], 1, 32, false⟩, ⟨0x02, [2], 1, 32, false⟩, ⟨0x03, [1, 2], 0, 0, false⟩, ⟨0x04, [2], 0, 0, false⟩,
  ⟨0x05, [3], 1, 32, false⟩, ⟨0x06, [3], 0, 0, false⟩,
  ⟨0x10, [0, 1, 2], 0, 0, false⟩, ⟨0x11, [0, 1, 2], 0, 0, false⟩, ⟨0x12, [0, 1, 2], 0, 0, false⟩,
  ⟨0x13, [0, 1, 2], 0, 0, false⟩, ⟨0x14, [0, 1, 2], 0, 0, false⟩, ⟨0x15, [0, 1, 2], 0, 0, false⟩,
  ⟨0x16, [0, 1, 2], 0, 0, false⟩, ⟨0x17, [0, 1, 2], 0, 0, false⟩, ⟨0x18, [0, 1, 2], 0, 0, false⟩,
  ⟨0x19, [0, 1, 2], 0, 0, false⟩, ⟨0x1A, [0, 1, 2], 0, 0, false⟩, ⟨0x1E, [0, 1, 2], 0, 0, false⟩,
  ⟨0x20, [2], 1, 32, false⟩, ⟨0x21, [3], 0, 0, false⟩, ⟨0x22, [0], 0, 0, false⟩, ⟨0x23, [1], 0, 0, false⟩,
  ⟨0x30, [4], 1, 32, true⟩, ⟨0x31, [4], 1, 32, true⟩, ⟨0x32, [4], 0, 0, true⟩, ⟨0x33, [4], 1, 32, true⟩,
  ⟨0x34, [1], 0, 0, true⟩, ⟨0x35, [0], 0, 0, true⟩,
  ⟨0x40, [4], 1, 32, true⟩, ⟨0x41, [4], 1, 32, true⟩, ⟨0x42, [4], 1, 32, true⟩, ⟨0x43, [4], 1, 32, true⟩,
  ⟨0x44, [4], 1, 32, true⟩, ⟨0x45, [4], 1, 32, true⟩, ⟨0x46, [4], 1, 32, true⟩,
  ⟨0x50, [0], 0, 0, false⟩, ⟨0x51, [0], 0, 0, false⟩, ⟨0x52, [5], 0, 32, false⟩, ⟨0x53, [1, 2, 3, 4], 0, 0, false⟩,
  ⟨0x60, [5], 0, 0, false⟩, ⟨0x61, [5], 0, 0, false⟩, ⟨0x62, [5], 0, 0, false⟩, ⟨0x63, [5], 1, 32, false⟩]

/-- The row of a command value (R87). -/
def cmdRow (cmd : Nat) : Option CmdRow := cmdTable.find? (fun r => r.cmd == cmd)

/-- Whether a header's KIND is a reserved one (R16): of a COMMIT_REPORT (R488), a HEARTBEAT (R621), a TIME_XFER (R222) or a CHUNK_NACK
(R404); or the WATCH_MODE of a WAIT (R446, R454). -/
def reservedKind (h : Hdr) : Bool :=
  match h.cmd.toNat with
  | 0x19 => h.inlBits 385 384 == 3
  | 0x23 => 2 ≤ h.inlBits 359 352
  | 0x34 => h.inlBits 393 392 == 3
  | 0x50 => 4 ≤ h.inlBits 359 352
  | 0x51 => 2 ≤ h.inlBits 355 352
  | _ => false

/-- The rule whose misuse a header is, where that misuse is undefined: LEN above 32 (R72), a reserved command (R92), a VC or
LEN outside the command's row (R74), MCAST with a command that may not have it (R126), POUR without it (R126), a reserved FMT or KIND (R16), an
MX operand whose LEN R107 or R108 rules out (with R9), SPARSE where R95 forbids it, a READ of no unit or of more than 32 (R87, with R9). (DESIGN CHOICE, log 11) -/
def headerMisuse (h : Hdr) : Option Nat :=
  let cmd := h.cmd.toNat
  if 33 ≤ h.len.toNat then some 72
  else match cmdRow cmd with
    | none => some 92
    | some r =>
      if !r.vcs.contains h.vc.toNat || h.len.toNat < r.lo || r.hi < h.len.toNat then some 74
      else if h.mcast && !(cmd == 0x01 || cmd == 0x30 || cmd == 0x33 || (0x40 ≤ cmd && cmd ≤ 0x46)) then some 126
      else if cmd == 0x33 && !h.mcast then some 126
      else if 10 ≤ h.fmt.toNat || reservedKind h then some 16
      else if 0x40 ≤ cmd && cmd ≤ 0x46 && h.fmt == 6 && h.len.toNat < 2 then some 107
      else if 0x40 ≤ cmd && cmd ≤ 0x46 && h.fmt == 7 && (h.len.toNat < 2 || 17 < h.len.toNat) then some 108
      else if cmd == 0x04 && (h.inlBits 357 352 == 0 || 33 ≤ h.inlBits 357 352) then some 87
      else if h.sparse &&
          !((cmd == 0x01 || cmd == 0x30 || cmd == 0x31 || cmd == 0x33 || (0x40 ≤ cmd && cmd ≤ 0x46)) &&
            (h.fmt.toNat ≤ 5 || h.fmt == 8 || h.fmt == 9)) then some 95
      else none

/-- Whether a packet's payload has the length its header gives, and a sparse payload agrees with its bitmap (R72, R94). -/
def payloadMisuse (p : Packet) : Option Nat :=
  if p.data.length != p.hdr.len.toNat then some 72
  else if p.hdr.sparse && p.hdr.cmd != 0x33 && !sparseLenOk p.data then some 94
  else none

/-- A packet that reaches its engine: the misuse that R72 to R95 and R126 call undefined stops the model. (DEDUCED, log 10) -/
def packetMisuse (p : Packet) : Option Nat :=
  match headerMisuse p.hdr with
  | some r => some r
  | none => payloadMisuse p

/-- The byte mask of a WRITE or WRITE_ACK with LEN 1 and SPARSE clear: a mask of zero writes all (R837). -/
def byteMask (h : Hdr) : Nat :=
  let m := h.inlBits 415 352
  if (h.cmd == 0x01 || h.cmd == 0x02) && h.len == 1 && !h.sparse && m != 0 then m else 2 ^ 64 - 1

/-- Write one 64 B unit under a byte mask, at a 64 B-aligned offset of a space that ends at `limit`; a unit beyond the end is
discarded (R69, R70). (DEDUCED, log 15) -/
def putUnit (m : List Host.Cell) (key : Nat → Nat) (limit off mask : Nat) (u : DataUnit) : List Host.Cell :=
  if off + 64 ≤ limit then writeMasked m (key off) (fun i => natBit mask i) (bytesOfNat 64 u.toNat) else m

/-- Write the data units of a dense packet from the 64 B-aligned address on (R69). -/
def putUnits (m : List Host.Cell) (key : Nat → Nat) (limit off mask : Nat) : List DataUnit → List Host.Cell
  | [] => m
  | u :: us => putUnits (putUnit m key limit off mask u) key limit (off + 64) mask us

/-- Write the present blocks of a sparse packet to their logical addresses (R97, R98). -/
def putBlocks (m : List Host.Cell) (key : Nat → Nat) (limit off : Nat) (bs : List (Nat × DataUnit)) : List Host.Cell :=
  bs.foldl (fun m b => putUnit m key limit (off + 64 * b.1) (2 ^ 64 - 1) b.2) m

/-- Write a packet's data units at an offset (R69, R70, R98, R837). -/
def putPacket (m : List Host.Cell) (key : Nat → Nat) (limit off : Nat) (p : Packet) : List Host.Cell :=
  let o := off / 64 * 64
  if p.hdr.sparse then putBlocks m key limit o (sparseBlocks p.hdr.fmt.toNat p.data)
  else putUnits m key limit o (byteMask p.hdr) p.data

/-- The 8 B inline write at the 8 B-aligned offset, byte b enabled by INLINE[416 + b] (R69, R87). -/
def putInline (m : List Host.Cell) (key : Nat → Nat) (limit off : Nat) (h : Hdr) : List Host.Cell :=
  let o := off / 8 * 8
  if o + 8 ≤ limit then
    writeMasked m (key o) (fun i => h.inlBits (416 + i) (416 + i) == 1) (bytesOfNat 8 (h.inlBits 415 352))
  else m

/-- The counts word that an A2A_COUNT writes: KEPT in [31:0] and REQ in [63:32] (R404, R838, R420). -/
def countWord (h : Hdr) : Word := BitVec.ofNat 64 (h.inlBits 375 352 + h.inlBits 399 376 * 2 ^ 32)

/-- Write an A2A_COUNT's word at the 8 B-aligned offset (R838). -/
def putCounts (m : List Host.Cell) (key : Nat → Nat) (limit off : Nat) (h : Hdr) : List Host.Cell :=
  let o := off / 8 * 8
  if o + 8 ≤ limit then writeWord m (key o) (countWord h) else m

/-- Read `n` data units from an offset of a space that ends at `limit`; the units beyond the end take free values (R70). (DEDUCED, log 15) -/
def getUnits (s : State) (key : Nat → Nat) (limit off : Nat) : Nat → List DataUnit × State
  | 0 => ([], s)
  | n + 1 =>
    if off + 64 ≤ limit then
      let r := getUnits s key limit (off + 64) n
      (readUnit s.mem (key off) :: r.1, r.2)
    else
      let (u, s1) := s.draw
      let r := getUnits s1 key limit (off + 64) n
      (u :: r.1, r.2)

/-- The number of units a READ asks for: INLINE[357:352], 1 to 32 (R87). -/
def readLen (h : Hdr) : Nat := h.inlBits 357 352

/-- READ_DATA for a request (R82, R87, R88). -/
def readData (h : Hdr) (src : BitVec 32) (units : List DataUnit) : Packet :=
  { hdr := { mkHdr 0x05 3 (respDest h.src) src with tag := h.tag, len := BitVec.ofNat 6 units.length }, data := units }

/-- The tile that serves an address of a compute die, as y × 24 + x (R67, R156, R361: a multicast leaf writes its own). -/
def tileOf (s : State) (d : Nat) (h : Hdr) : Nat :=
  let t := servingTile (s.flag d SLC_MODE 0) h.destX h.destY h.destOff
  t.2 * 24 + t.1

/-- SRC of a compute tile (R81). -/
def tileSrc (s : State) (d x y : Nat) : BitVec 32 := srcField (s.pkgOf d) d (y * 32 + x) 0
/-- SRC of a CE (R81). -/
def ceSrc (s : State) (d k : Nat) : BitVec 32 := srcField (s.pkgOf d) d k 1
/-- SRC of a slice's tailor core, commit unit or sync store (R81, R452, R476). -/
def ctlSrc (s : State) (d : Nat) : BitVec 32 := srcField (s.pkgOf d) d 0 2
/-- SRC of a memory port, host port or stitch port (R81). -/
def portSrc (s : State) (d : Nat) : BitVec 32 := srcField (s.pkgOf d) d 0 3

end Sys2Proof.Machine
end

