-- ==== Sys2Proof/Machine/Reduce.lean ====
section
/-! DEFINITION. The rank-pairing tree (R324 to R327) and the router's reduction unit: join table, contexts, pass record,
descendants, cutoffs and check values (R330 to R359). The cycles of R337 and R339 are not modelled: what the unit does with the units
that have come is done at once. -/

namespace Sys2Proof.Machine

open Sys2Proof

/-- The size of the left child of a node: the largest power of two below the node's size (R324). -/
def splitSize (f l : Nat) : Nat := 2 ^ Nat.log2 (l - f)

/-- The children of node [f, l], l > f (R324). -/
def split (f l : Nat) : (Nat × Nat) × (Nat × Nat) := ((f, f + splitSize f l - 1), (f + splitSize f l, l))

/-- Whether [f, l] is a node of the tree of `n` ranks (R325); the walk goes down at most `fuel` levels. -/
def isNodeIn (f l : Nat) : Nat → Nat → Nat → Bool
  | 0, _, _ => false
  | fuel + 1, a, b =>
    if f = a ∧ l = b then true
    else if b ≤ a then false
    else
      let c := split a b
      if l ≤ c.1.2 then isNodeIn f l fuel c.1.1 c.1.2
      else if c.2.1 ≤ f then isNodeIn f l fuel c.2.1 c.2.2
      else false

/-- Whether [f, l] is a node of the tree of a group of `n` members (R325). -/
def isNode (f l n : Nat) : Bool := 0 < n && isNodeIn f l 32 0 (n - 1)

/-- Whether spans A and B are the left and right child of [A.first, B.last] (R326). (DEDUCED, log 52) -/
def siblings (a b : Nat × Nat) : Bool := a.1 < b.2 && split a.1 b.2 == (a, b)

/-- First rank of an operand's span (R91). -/
def spanFirst (h : Hdr) : Nat := h.inlBits 371 352
/-- Last rank of an operand's span (R91). -/
def spanLast (h : Hdr) : Nat := h.inlBits 391 372
/-- The chunk number of a collective packet (R90). -/
def chunkNo (h : Hdr) : Nat := bitsOf h.chunk 23 9
/-- The packet index of a collective packet (R90). -/
def packetIx (h : Hdr) : Nat := bitsOf h.chunk 8 0
/-- The check value carried with LAST and CHK (R78). -/
def hdrCheck (h : Hdr) : Word := BitVec.ofNat 64 (h.inlBits 479 416)

/-- How a join entry classes an operand (R332). -/
inductive JoinCase where
  | child (right : Bool)
  | descendant
  | none
  deriving DecidableEq, Repr

/-- Join entry `e` of a router (R330). -/
def joinEntry (s : State) (d p e : Nat) : Word := s.joinTab.get 0 (rk d p * 32 + e)

/-- The case of one entry for a span of a group (R332); an entry with FIRST not below LAST names no join (R330). -/
def joinCase (w : Word) (group f l : Nat) : JoinCase :=
  let nf := bitsOf w 39 20
  let nl := bitsOf w 59 40
  if !w.getLsbD 63 || nl ≤ nf || bitsOf w 15 0 != group then .none
  else
    let c := split nf nl
    if (f, l) = c.1 then .child false
    else if (f, l) = c.2 then .child true
    else if nf ≤ f && l ≤ nl && !(f == nf && l == nl) then .descendant
    else .none

/-- Whether a header is an operand that a reduction unit may join (R332, R352, R362). -/
def isOperand (h : Hdr) : Bool := 0x40 ≤ h.cmd.toNat && h.cmd.toNat ≤ 0x46 && !h.mcast && !h.sparse

/-- Whether a router looks operands up (R368). -/
def joinEnabled (s : State) (d p : Nat) : Bool := s.flag d (trt p TRT_RED_CFG) 0

/-- The key of a join (R343). -/
def joinKey (h : Hdr) (e : Nat) : JoinKey := ⟨h.group.toNat, h.tag.toNat, chunkNo h, h.epoch.toNat, e⟩

/-- The context that holds a key; one that has been cut off holds it no more (R350). -/
def findCtx (r : Router) (k : JoinKey) : Option Nat :=
  (List.range 4).find? (fun c => match ctxAt r c with
    | some x => x.key == k && !x.cut
    | none => false)

/-- The context that is claimed for an operand's chunk under entry `e`. -/
def claimedCtx (r : Router) (h : Hdr) (e : Nat) : Option Ctx := (findCtx r (joinKey h e)).bind (ctxAt r)

/-- The join entry under which a router classes an operand: a claimed context runs to completion under the entry it was claimed under,
whatever the table and ENABLE have become (R351). -/
def entryFor (s : State) (d p : Nat) (h : Hdr) (e : Nat) : Word :=
  match claimedCtx (s.router d p) h e with
  | some x => x.word
  | none => if joinEnabled s d p then joinEntry s d p e else 0

/-- The first entry that makes the operand a child, or else the first that makes it a descendant (R332). -/
def lookupJoin (s : State) (d p : Nat) (h : Hdr) : JoinCase × Nat :=
  let cs := (List.range 32).map (fun e => (joinCase (entryFor s d p h e) h.group.toNat (spanFirst h) (spanLast h), e))
  match cs.find? (fun c => c.1 == .child false || c.1 == .child true) with
  | some c => c
  | none => match cs.find? (fun c => c.1 == .descendant) with
    | some c => c
    | none => (.none, 0)

/-- Whether a header takes part in the join lookup of a router (R332, R351, R368). -/
def lookedUp (s : State) (d p : Nat) (h : Hdr) : Bool :=
  isKind s d .compute && isOperand h &&
    (joinEnabled s d p || (List.range 32).any (fun e => (claimedCtx (s.router d p) h e).isSome))

/-- Whether a VC4 header goes on as an ordinary packet: no join entry concerns it (R332). -/
def joinNone (s : State) (d p : Nat) (h : Hdr) : Bool := !lookedUp s d p h || (h.crcOk && (lookupJoin s d p h).1 == .none)

/-- Units held by a context. -/
def ctxUnits (x : Ctx) : Nat := (x.heldPk.map (fun p => p.data.length)).sum

/-- Write a key into the pass record; a full record loses its oldest entry, which EVICT counts (R345, R373). (DESIGN CHOICE, log 36) -/
def recordPass (s : State) (d p : Nat) (k : JoinKey) : State :=
  let r := s.router d p
  if r.pass.length < 8 then s.setRouter d p { r with pass := r.pass ++ [k] }
  else (s.setRouter d p { r with pass := r.pass.drop 1 ++ [k] }).bumpSat d (trt p TRT_RED_CUTOFF) 47 32 1

/-! ## Units that leave the reduction unit -/

/-- The units of a packet as they go on from a router after leaving a context: no credit is owed for them. -/
def unitsOf (fl : Flit) (h : Hdr) (data : List DataUnit) (join : Bool) : List Flit :=
  { fl with hdr := some h, last := data.isEmpty, scan := false, join := join, cred := false, res := false } ::
    (List.range data.length).map (fun j =>
      { fl with hdr := none, data := data.getD j 0, last := j + 1 == data.length, scan := false, join := false,
                cred := false, res := false })

/-- A list of units whose last one ends a join's output packet (R346). -/
def markEnd (e : Option (Nat × Bool)) (fs : List Flit) : List Flit :=
  fs.dropLast ++ (fs.getLast?.toList.map (fun f => { f with ends := e }))

/-- Hand packets on from an input, in order, before anything that waits there (R347, R350). -/
def freeTo (r : Router) (i : Nat) (fs : List Flit) : Router := { r with freed := r.freed.set [] i (r.freed.get [] i ++ fs) }

/-- Whether an input's VC4 is in the middle of a packet that an output holds. -/
def midPacket (r : Router) (i : Nat) : Bool :=
  r.held.rows.any (fun x => match x.2 with
    | some g => g.input == i && g.vc == 4
    | none => false)

/-- Put the packets handed on from an input at the front of its VC4 buffer, at a packet boundary. -/
def flushFreed (r : Router) (i : Nat) : Router :=
  if midPacket r i then r
  else match r.freed.get [] i with
    | [] => r
    | fs => { (r.setBuf i 4 (fs ++ r.buf i 4)) with freed := r.freed.set [] i [] }

/-- The held packets of a context as they pass on unreduced; the last unit is not its packet's last while that packet still arrives. -/
def heldUnits (x : Ctx) (n : Nat) : List Flit :=
  let fs := ((List.zip x.heldPk x.heldFl).drop n).flatMap (fun q => unitsOf q.2 q.1.hdr q.1.data false)
  if x.part then fs.dropLast ++ (fs.getLast?.toList.map (fun f => { f with last := false })) else fs

/-- The header of a completing child's packet that no unit of its pair has been added to passes on unreduced too (R346, R347). -/
def returnOwn (r : Router) (c i : Nat) : Router :=
  match r.joinIn.get .idle i with
  | .out c' own fl us =>
    if c' == c then
      let fs := unitsOf fl own us false
      { (freeTo r i (fs.dropLast ++ (fs.getLast?.toList.map (fun f => { f with last := false })))) with
        joinIn := r.joinIn.set .idle i .pass }
    else r
  | _ => r

/-- Release a context's held packets unreduced, in order, and free it from a cycle on; an input that was filling it passes the rest of
its packet (R346, R347, R350). -/
def releaseCtx (r : Router) (c from' : Nat) : Router :=
  match ctxAt r c with
  | none => r
  | some x =>
    let r1 := freeCtx (freeTo r x.heldIn (heldUnits x 0)) c from'
    let r2 := if x.part then { r1 with joinIn := r1.joinIn.set .idle x.heldIn .pass } else r1
    (List.range 6).foldl (fun r i => returnOwn r c i) r2

/-! ## One pair of packets (R339 to R342, R356 to R358) -/

/-- Whether the children of a pair agree in the fields that R342 names. -/
def pairAgrees (a b : Hdr) : Bool :=
  a.cmd == b.cmd && a.fmt == b.fmt && a.len == b.len && a.last == b.last && a.chk == b.chk && packetIx a == packetIx b

/-- The result units of a stored pair (R324, R340, R342): as many as the left packet's LEN; where the children differ, and for a
format that R102 gives no result for, every unit takes a free value. (DEDUCED, log 29) -/
def joinUnits (s : State) (odd : Bool) (cmd fmt len : Nat) (a b : List DataUnit) : List DataUnit × State :=
  match (if odd then none else denseOp cmd fmt a b) with
  | some us => (us, s)
  | none => (List.range len).foldl (fun (acc : List DataUnit × State) _ => (acc.1 ++ [acc.2.draw.1], acc.2.draw.2)) ([], s)

/-- One result unit of a streaming join (R324, R339, R342). (DEDUCED, log 29) -/
def joinUnit (s : State) (odd : Bool) (cmd fmt : Nat) (a b : DataUnit) : DataUnit × State :=
  if !odd && redAccepts cmd fmt then (unitOp cmd fmt a b, s) else s.draw

/-- The header of a join's output (R341): the left child's, with the node's span; the check value goes into the packet with
LAST, complemented after a failure (R356, R357). -/
def joinHdr (left : Hdr) (w : Word) (check : Option Word) : Hdr :=
  let h := (left.setInl 371 352 (bitsOf w 39 20)).setInl 391 372 (bitsOf w 59 40)
  match check with
  | some c => h.setInl 479 416 c.toNat
  | none => h

/-- The left child's packet of a pair: the completing child's own where the held child is the right one. -/
def leftOf (x : Ctx) (own held : Hdr) : Hdr := if x.side then own else held

/-- Whether a pair is combined only when both packets are whole: MX formats (R340), the packet whose header carries the check value of
all units (R356), children whose LEN differ (R342), a packet without data. (DEDUCED, log 175) -/
def storesPair (x : Ctx) (own held : Hdr) : Bool :=
  let l := leftOf x own held
  l.fmt == 6 || l.fmt == 7 || (l.last && l.chk) || own.len != held.len || own.len == 0

/-- A failed residue check in the reduction unit: the output chunk is bad (R358). -/
def residueBad (s : State) (d p i c : Nat) : State :=
  match ctxAt (s.router d p) c with
  | some x =>
    faultRec ((s.setRouter d p ((s.router d p).setCtx c (some { x with bad := true }))).bumpSat d (trt p TRT_RED_ERR) 31 16 1)
      d 0x0B p (faultDetail i 4 x.key.tag) 0
  | none => s

/-- Note that the residue check of a combined unit fails: the unit's own mark, or the input's (R358). -/
def noteResidue (s : State) (d p i c : Nat) (f : Flit) : State :=
  let l := (s.router d p).link i
  if f.res || l.res then
    residueBad (s.setRouter d p ((s.router d p).setLink i { l with res := false })) d p i c
  else s

/-- Complete a stored pair: the completing child's packet (header, progress, units) of input `i` meets the context's oldest held packet.
The output joins the queue of input `i` (R341); check values run on (R356). -/
def joinPacket (s : State) (d p i c : Nat) (own : Hdr) (fl : Flit) (units : List DataUnit) : State :=
  match ctxAt (s.router d p) c with
  | none => s
  | some x =>
    match x.heldPk, x.heldFl with
    | q :: _, qf :: _ =>
      let left := leftOf x own q.hdr
      let leftFl := if x.side then fl else qf
      let lu := if x.side then units else q.data
      let ru := if x.side then q.data else units
      let rightHdr := if x.side then q.hdr else own
      let (out, s1) := joinUnits s x.odd left.cmd.toNat left.fmt.toNat left.len.toNat lu ru
      let cl := lu.foldl crc64Unit x.crcL
      let cr := ru.foldl crc64Unit x.crcR
      let co := out.foldl crc64Unit x.crcOut
      let chk := left.last && left.chk
      let badL := chk && hdrCheck left != ~~~cl
      let badR := chk && rightHdr.last && rightHdr.chk && hdrCheck rightHdr != ~~~cr
      let fails := boolNat badL + boolNat badR
      let check : Option Word := if chk then some (if fails != 0 || x.bad then co else ~~~co) else none
      let h := joinHdr left x.word check
      let x' : Ctx := { x with crcL := cl, crcR := cr, crcOut := co, begun := true, pair := true }
      let s2 := s1.setRouter d p
        (freeTo ((s1.router d p).setCtx c (some x')) i (markEnd (some (c, left.last)) (unitsOf leftFl h out true)))
      if fails != 0 then
        faultRec (s2.bumpSat d (trt p TRT_RED_ERR) 15 0 fails) d 0x0A p (faultDetail i 4 left.tag.toNat) 0
      else s2
    | _, _ => s

/-- Take the head unit of an input's VC4 buffer into the reduction unit; its credit returns (R339). (DEDUCED, log 29) -/
def consumeHead (s : State) (d p i : Nat) : State := popUnit s d p i 4

/-- Change the head unit of an input's VC4 buffer. -/
def mapHead (s : State) (d p i : Nat) (g : Flit → Flit) : State :=
  let r := s.router d p
  match r.buf i 4 with
  | [] => s
  | f :: fs => s.setRouter d p (r.setBuf i 4 (g f :: fs))

/-- Mark the head unit of an input's VC4 buffer as looked up, so that it goes on as an ordinary unit. -/
def markHead (s : State) (d p i : Nat) : State := mapHead s d p i (fun f => { f with scan := false })

/-- Set what an input's VC4 does for the reduction unit. -/
def setJoinIn (s : State) (d p i : Nat) (m : JoinMode) : State :=
  let r := s.router d p
  s.setRouter d p { r with joinIn := r.joinIn.set .idle i m }

/-- Pass the packet whose header is at the head of an input's VC4 buffer unreduced. -/
def passPacket (s : State) (d p i : Nat) (h : Hdr) : State :=
  let s1 := markHead s d p i
  if h.len == 0 then s1 else setJoinIn s1 d p i .pass

/-- Discard the packet whose header, at the head of an input's VC4 buffer, fails its check at this combining point (R124, R125). -/
def discardOperand (s : State) (d p i : Nat) (h : Hdr) : State :=
  let s1 := hcrcFault (consumeHead s d p i) d p 4 h.tag.toNat
  if h.len == 0 then s1 else setJoinIn s1 d p i .drop

/-- Begin holding a packet in a context (R344). -/
def holdPacket (s : State) (d p i c : Nat) (x : Ctx) (h : Hdr) (f : Flit) : State :=
  let s1 := consumeHead s d p i
  let x' := { x with heldPk := x.heldPk ++ [{ hdr := h, data := [] }], heldFl := x.heldFl ++ [f], part := h.len != 0 }
  let s2 := s1.setRouter d p ((s1.router d p).setCtx c (some x'))
  if h.len == 0 then s2 else setJoinIn s2 d p i (.fill c)

/-- The completing child's header meets the context's oldest held packet (R339, R340, R346): a streaming join puts its output header in the
place of the child's, with the left child's progress. -/
def matchPacket (s : State) (d p i c : Nat) (x : Ctx) (h : Hdr) (f : Flit) : State :=
  match x.heldPk, x.heldFl with
  | q :: _, qf :: _ =>
    let l := leftOf x h q.hdr
    let mx := l.fmt == 6 || l.fmt == 7
    let x' := { x with begun := x.begun || !mx, pair := x.pair || !mx, odd := x.odd || !pairAgrees h q.hdr }
    let put := fun (s : State) => s.setRouter d p ((s.router d p).setCtx c (some x'))
    if storesPair x h q.hdr then
      let s1 := put (consumeHead s d p i)
      if h.len == 0 then joinPacket s1 d p i c h f [] else setJoinIn s1 d p i (.out c h f [])
    else
      let lf := if x.side then f else qf
      let s1 := mapHead (put s) d p i (fun g =>
        { g with hdr := some (joinHdr l x.word none), phase := lf.phase, seg := lf.seg, hops := lf.hops, transit := lf.transit,
                 scan := false, join := true })
      setJoinIn s1 d p i (.stream c 0)
  | _, _ => s

/-- Act on a child operand whose chunk no context holds (R344). -/
def claimOrPass (s : State) (d p i e : Nat) (right : Bool) (h : Hdr) (f : Flit) : State :=
  let r := s.router d p
  let k := joinKey h e
  let cycle := (s.regionOf d p).cycles
  if packetIx h != 0 then passPacket s d p i h
  else if r.pass.contains k then passPacket (s.setRouter d p { r with pass := r.pass.erase k }) d p i h
  else match (List.range 4).find? (fun c => (ctxAt r c).isNone && r.ctxFrom.get 0 c ≤ cycle) with
    | some c => holdPacket s d p i c { key := k, word := entryFor s d p h e, side := right, heldIn := i, claimAt := cycle } h f
    | none => passPacket ((recordPass s d p k).bump d (trt p TRT_RED_PASS) 31 0 1) d p i h

/-- Act on a descendant operand (R347). -/
def descendantHead (s : State) (d p i e : Nat) (h : Hdr) : State :=
  let r := s.router d p
  let k := joinKey h e
  let s1 := match findCtx r k with
    | some c => match ctxAt r c with
      | some x =>
        if x.begun then s
        else (s.setRouter d p (releaseCtx r c ((s.regionOf d p).cycles + 1))).bump d (trt p TRT_RED_PASS) 63 32 1
      | none => s
    | none =>
      if r.pass.contains k then s else (recordPass s d p k).bump d (trt p TRT_RED_PASS) 63 32 1
  passPacket s1 d p i h

/-- Act on an operand header at the head of an input (R124, R332, R344, R347). None: it must wait at its input (R348). -/
def operandHead (s : State) (d p i : Nat) (h : Hdr) (f : Flit) : Option State :=
  let r := s.router d p
  if !lookedUp s d p h then some (passPacket s d p i h)
  else if !h.crcOk then some (discardOperand s d p i h)
  else match lookupJoin s d p h with
    | (.none, _) => some (passPacket s d p i h)
    | (.descendant, e) => some (descendantHead s d p i e h)
    | (.child right, e) =>
      match findCtx r (joinKey h e) with
      | none => some (claimOrPass s d p i e right h f)
      | some c =>
        match ctxAt r c with
        | none => none
        | some x =>
          if x.side != right && !x.heldPk.isEmpty then some (matchPacket s d p i c x h f)
          else if ctxUnits x + h.len.toNat ≤ 32 then some (holdPacket s d p i c { x with side := right, heldIn := i } h f)
          else none

/-- Cut a context off (R350). One that has not begun output passes its packets unreduced, the completing child's header included, and
leaves its key in the pass record. Of one that has, the pair being combined is finished, and every other packet passes unreduced.
(DEDUCED, log 175) -/
def cutOff (s : State) (d p c : Nat) (x : Ctx) : State :=
  let r := s.router d p
  let from' := (s.regionOf d p).cycles + 1
  let s1 :=
    if x.begun && x.pair then
      s.setRouter d p ((freeTo r x.heldIn (heldUnits x 1)).setCtx c
        (some { x with heldPk := x.heldPk.take 1, heldFl := x.heldFl.take 1, cut := true, due := false }))
    else s.setRouter d p (releaseCtx r c from')
  let s2 := if x.begun then s1 else recordPass s1 d p x.key
  faultRec (s2.bump d (trt p TRT_RED_CUTOFF) 31 0 1) d 0x08 p (faultDetail x.heldIn 4 x.key.tag) 0

/-- Whether an operand packet is being written into a context (R287): a held one, or the completing one of a stored pair that has begun. -/
def ctxWriting (r : Router) (c : Nat) (x : Ctx) : Bool :=
  x.part || (x.begun && (List.range 6).any (fun i => match r.joinIn.get .idle i with
    | .out c' _ _ _ => c' == c
    | _ => false))

/-- A cutoff that waits for its break point takes place at the end of the packet being written (R287, R350). -/
def cutIfDue (s : State) (d p c : Nat) : State :=
  match ctxAt (s.router d p) c with
  | some x => if x.due && !ctxWriting (s.router d p) c x then cutOff s d p c x else s
  | none => s

/-- One data unit of a packet that a context holds arrives in it (R339). -/
def fillUnit (s : State) (d p i c : Nat) (x : Ctx) (f : Flit) : State :=
  let s1 := consumeHead s d p i
  let pk := match x.heldPk.getLast? with
    | some q => x.heldPk.dropLast ++ [{ q with data := q.data ++ [f.data] }]
    | none => x.heldPk
  let s2 := s1.setRouter d p ((s1.router d p).setCtx c (some { x with heldPk := pk, part := !f.last }))
  if f.last then cutIfDue (setJoinIn s2 d p i .idle) d p c else s2

/-- One unit of a streaming join (R339): the sum takes the place of the completing child's unit. None: the held child's unit has not come. -/
def streamUnit (s : State) (d p i c n : Nat) (x : Ctx) (f : Flit) : Option State :=
  match x.heldPk with
  | [] => none
  | q :: _ =>
    match q.data[n]? with
    | none => none
    | some y =>
      let a := if x.side then f.data else y
      let b := if x.side then y else f.data
      let (u, s1) := joinUnit s x.odd q.hdr.cmd.toNat q.hdr.fmt.toNat a b
      let x' := { x with crcL := crc64Unit x.crcL a, crcR := crc64Unit x.crcR b, crcOut := crc64Unit x.crcOut u }
      let s2 := noteResidue (s1.setRouter d p ((s1.router d p).setCtx c (some x'))) d p i c f
      let s3 := mapHead s2 d p i (fun g =>
        { g with data := u, scan := false, res := false, ends := if f.last then some (c, q.hdr.last) else none })
      some (setJoinIn s3 d p i (if f.last then .idle else .stream c (n + 1)))

/-- One unit of the completing child of a stored pair (R340): an MX context begins output with it. None: the held packet is not whole. -/
def storeUnit (s : State) (d p i c : Nat) (x : Ctx) (own : Hdr) (fl : Flit) (units : List DataUnit) (f : Flit) : Option State :=
  if f.last && x.part && x.heldPk.length ≤ 1 then none
  else
    let s1 := consumeHead s d p i
    let s2 := s1.setRouter d p ((s1.router d p).setCtx c (some { x with begun := true, pair := true }))
    let s3 := noteResidue s2 d p i c f
    if f.last then some (cutIfDue (joinPacket (setJoinIn s3 d p i .idle) d p i c own fl (units ++ [f.data])) d p c)
    else some (setJoinIn s3 d p i (.out c own fl (units ++ [f.data])))

/-- Act on a data unit at the head of an input for the reduction unit (R339, R340). None: it must wait. -/
def operandData (s : State) (d p i : Nat) (f : Flit) : Option State :=
  let r := s.router d p
  match r.joinIn.get .idle i with
  | .idle => some (markHead s d p i)
  | .pass =>
    let s1 := markHead s d p i
    some (if f.last then setJoinIn s1 d p i .idle else s1)
  | .drop =>
    let s1 := consumeHead s d p i
    some (if f.last then setJoinIn s1 d p i .idle else s1)
  | .fill c =>
    match ctxAt r c with
    | none => some (setJoinIn s d p i .pass)
    | some x => some (fillUnit s d p i c x f)
  | .stream c n =>
    match ctxAt r c with
    | none => some (setJoinIn s d p i .pass)
    | some x => streamUnit s d p i c n x f
  | .out c own fl units =>
    match ctxAt r c with
    | none => some (setJoinIn s d p i .pass)
    | some x => storeUnit s d p i c x own fl units f

/-- One action of the reduction unit on an input, if the head of its VC4 buffer calls for one. A unit that goes on as an
ordinary unit stays at the head until an output takes it. -/
def operandStep (s : State) (d p i : Nat) : Option State :=
  match (s.router d p).buf i 4 with
  | [] => none
  | f :: _ =>
    if !f.scan then none
    else match f.hdr with
      | some h => operandHead s d p i h f
      | none => operandData s d p i f

/-- Run the reduction unit over the inputs in ascending order until no input can go on (R351). -/
def runJoins : Nat → Nat → Nat → State → State
  | 0, _, _, s => s
  | n + 1, d, p, s =>
    let s0 := s.setRouter d p ((List.range 6).foldl flushFreed (s.router d p))
    match (List.range 6).findSome? (operandStep s0 d p) with
    | some s' => runJoins n d p s'
    | none => s0

/-- Run the reduction unit of a compute-die router; other routers have none (R43). -/
def reduceRun (s : State) (d p : Nat) : State := if isKind s d .compute then runJoins 256 d p s else s

/-- The ceiling of a router's contexts in cycles; 0 counts as 65,536 units of 64 fc (R350, R368). (DESIGN CHOICE, log 36) -/
def ceilingOf (s : State) (d p : Nat) : Nat :=
  let c := s.fld d (trt p TRT_RED_CFG) 47 32
  64 * (if c == 0 then 65536 else c)

/-- A context's hold time reaches the ceiling (R287, R350): the cutoff takes place at once, or at the end of the packet being written. -/
def ceilingReached (s : State) (d p c : Nat) (x : Ctx) : State :=
  if ctxWriting (s.router d p) c x then s.setRouter d p ((s.router d p).setCtx c (some { x with due := true })) else cutOff s d p c x

end Sys2Proof.Machine
end

