-- ==== Sys2Proof/Machine/Mesh.lean ====
section
/-! DEFINITION. The router commands: slot starts, arbitration, header and unit arrival, context ceilings; and the seam
adapters and panel requests (R136 to R143, R166 to R175, R208, R232 to R239, R272, R350, R634, R702, R821). -/

namespace Sys2Proof.Machine

open Sys2Proof

/-- The outcome of a command. -/
abbrev Out : Type := Host.Outcome State Fault Refusal

/-- Run a command only where its unit exists (R42, R71). (DESIGN CHOICE, log 9) -/
def onUnit (ok : Bool) (s' : State) : Out := if ok then .next s' else .fault .noSuchUnit

/-! ## Slots and arbitration -/

/-- Drop on with the packets whose header was discarded at an output (R634, R735). -/
def drainDrops (s : State) (d p : Nat) : State :=
  ((s.router d p).held.rowsWhere (fun k => 8 ≤ k)).foldl (fun s x =>
    match x.2 with
    | some g => moveHeld s d p x.1 g
    | none => s) s

/-- Whether a region waits for its panel's clock to run at the requested rate (R827). -/
def panelWaits (g : Region) : Bool := g.ack != g.down

/-- Whether a router may move units now: it forwards (ENABLE), is not bypassed, is not halted, and its panel's clock runs as
requested (R186, R701, R827). -/
def routerRuns (s : State) (d p : Nat) : Bool :=
  s.flag d (trt p TRT_CFG) 0 && !isBypassed s d p && !isHalted s d p && !panelWaits (s.regionOf d p)

/-- The hint of a VC head for one output that it requests (R283). (DEDUCED, log 176) -/
def hintAt (s : State) (d p o : Nat) (q : Req) : Nat :=
  let r := s.router d p
  let a := r.out o
  let reqs := reqsAt s d p o
  let el := reqs.filter (eligible s d p o)
  if !hasCredit s d p o q.vc then 4095
  else
    let h0 := match r.held.get none o with
      | some g => g.left
      | none => 0
    let h1 := match nextRes s d p o with
      | some n => if n < q.size then max h0 (n + 8) else h0
      | none => h0
    let h2 := h1 + ((el.filter (fun b => b.vc == q.vc && b.input != q.input && before s d p o b q)).map Req.size).sum
    let h3 := if 1 ≤ q.vc && q.vc ≤ 4 then
        match drr s d p o reqs el with
        | some (b, _) => if b.vc == q.vc then h2 else h2 + b.size
        | none => h2
      else h2
    let h4 := if (q.vc == 5 && a.masked5) || a.masked.getD q.input false then h3 + (256 - a.win) else h3
    min h4 4095

/-- The hint of the head of VC `v` at input `i` (R283): 0 where no head waits, 4,095 where its output is not known, and for a multicast the
largest of its outputs' hints. (DEDUCED, log 176) -/
def turnHint (s : State) (d p i v : Nat) : Nat :=
  match (s.router d p).buf i v with
  | [] => 0
  | f :: _ =>
    if f.hdr.isNone then 0
    else match reqOf s d p i v with
      | some q => (q.outs.map (fun o => hintAt s d p o q)).foldl max 0
      | none => 4095

/-- Note the hints of the heads at the LOCAL and AUX inputs of a router in an arbitration cycle (R283, R284). -/
def noteHints (s : State) (d p : Nat) : State :=
  { s with hints := ([portLocal, portAux].flatMap (fun i => (List.range 6).map (fun v => (i, v)))).foldl (fun t x =>
      t.set 0 ((rk d p * 8 + x.1) * 8 + x.2) (turnHint s d p x.1 x.2)) s.hints }

/-- What a router does at the start of an arbitration cycle: joins, drops at hems, hints. -/
def cycleStart (s : State) (d p : Nat) : State := noteHints (drainDrops (reduceRun s d p) d p) d p

/-- Serve the late SLOT unit of a free output, or count it as served where it has gone (R239). -/
def serveLate (s : State) (d p o : Nat) : State :=
  let r := s.router d p
  let a := r.out o
  let s1 := s.setRouter d p (r.setOut o { a with lateEntry := 512 })
  match slotUnit s1 d p o (slotInPort s d p o a.lateEntry) with
  | some q => if hemmedFor s1 d p o q.hdr || hasCredit s1 d p o 0 then grantSlot s1 d p o q else s1
  | none => s1

/-- One arbitration cycle of an output (R138, R239, R272, R309). -/
def arbitrate (s0 : State) (d p o : Nat) : State :=
  if !routerRuns s0 d p then s0
  else
    let s := cycleStart s0 d p
    let r := s.router d p
    let a := r.out o
    match r.held.get none o with
    | some g => moveHeld s d p o g
    | none =>
      if lateDue s d p o then serveLate s d p o
      else
        let s := if a.lateEntry < 512 then s.setRouter d p (r.setOut o { a with lateEntry := 512 }) else s
        let a := (s.router d p).out o
        let r := s.router d p
        let reqs := reqsAt s d p o
        match grantOf s d p o 37 reqs with
        | some (q, df) => doGrant s d p o q df
        | none =>
          let s1 := s.setRouter d p (r.setOut o { a with deficit := clearIdle reqs a.deficit })
          if !reqs.isEmpty && reqs.all (fun q => !guardOk s d p o q.hdr.len.toNat) then
            s1.bump d (trt p TRT_GUARD_REFUSE) 47 0 1
          else s1

/-- OUTPUT_ARBITRATION (R272). -/
def execOutputArbitration (d p o : Nat) (s : State) : Out :=
  onUnit (routerExists s d p && o < 6) (arbitrate s d p o)

/-- The first cycle of a reserved slot (R235, R239). -/
def slotStart (s : State) (d p o : Nat) : State :=
  let g := s.regionOf d p
  let e := curEntry g
  let r := s.router d p
  if !(s.flag d (trt p TRT_CFG) 0) || isBypassed s d p || isHalted s d p || !(s.keeper d).roundsOn || g.c % 8 != 0 ||
      !slotReserved s d p o e || (r.out o).released == e then s
  else if panelWaits g then countMiss (s.setRouter d p (r.setOut o { r.out o with released := e })) d p o e 2
  else
    match r.held.get none o with
    | some _ => countMiss (s.setRouter d p (r.setOut o { r.out o with lateEntry := e, released := e })) d p o e 1
    | none =>
      match slotUnit s d p o (slotInPort s d p o e) with
      | none => releaseSlot s d p o e
      | some q =>
        if hemmedFor s d p o q.hdr || hasCredit s d p o 0 then grantSlot (takeSlot s d p o e) d p o q
        else countMiss (releaseSlot s d p o e) d p o e 1

/-- RESERVED_SLOT_START (R235). -/
def execReservedSlotStart (d p o : Nat) (s : State) : Out :=
  onUnit (routerExists s d p && o < 6) (slotStart s d p o)

/-! ## Arrival of a header (R136, R137) -/

/-- Take units of an injected packet into the LOCAL or AUX buffer while it has room (R140, R142). -/
def fillStream : Nat → Nat → Nat → Nat → Nat → State → State
  | 0, _, _, _, _, s => s
  | n + 1, d, p, i, v, s =>
    if ((s.router d p).buf i v).length < 8 && !(s.stream.get [] ((rk d p * 8 + i) * 8 + v)).isEmpty then
      fillStream n d p i v (returnCredit s d p i v)
    else s

/-- Write a unit to its input buffer (R140). -/
def bufferUnit (s : State) (d p i : Nat) (f : Flit) : State :=
  let r := s.router d p
  s.setRouter d p (r.setBuf i f.vc (r.buf i f.vc ++ [{ f with stamp := (s.regionOf d p).cycles }]))

/-- The output whose reserved slot serves the SLOT unit that has just been written to input `i` (R234, R235). -/
def slotOf (s : State) (d p i : Nat) (h : Hdr) (f : Flit) : Option Nat :=
  if !h.slot || !(s.keeper d).roundsOn then none
  else match outsOf s d p i h f with
    | some ([o], _) =>
      let e := curEntry (s.regionOf d p)
      if slotReserved s d p o e && slotInPort s d p o e == i then some o else none
    | _ => none

/-- Count the miss of a SLOT unit that arrives at IN_PORT during a released slot of its output (R236). -/
def lateArrival (s : State) (d p i : Nat) (h : Hdr) (f : Flit) : State :=
  match slotOf s d p i h f with
  | some o =>
    let e := curEntry (s.regionOf d p)
    if ((s.router d p).out o).openSlot == e && (s.regionOf d p).c % 8 != 0 then countMiss s d p o e 0 else s
  | none => s

/-- A SLOT unit that arrives in the first cycle of its slot and heads its buffer is granted in that cycle (R235). -/
def slotArrival (s : State) (d p i : Nat) (h : Hdr) (f : Flit) : Option State :=
  match slotOf s d p i h f with
  | some o =>
    let e := curEntry (s.regionOf d p)
    let a := (s.router d p).out o
    if (s.regionOf d p).c % 8 != 0 || ((s.router d p).held.get none o).isSome || !(a.released != e || a.openSlot == e) then none
    else match slotUnit s d p o i with
      | some q =>
        if ((s.router d p).buf i 0).length == 1 && (hemmedFor s d p o h || hasCredit s d p o 0) then
          some (grantSlot (takeSlot s d p o e) d p o q)
        else none
      | none => none
  | none => none

/-- The look-ahead path of a header that has just been written to an empty buffer: the output that LA_OUT names grants it in this
cycle (R136, R139). (DESIGN CHOICE, log 26) -/
def lookAhead (s : State) (d p i : Nat) (h : Hdr) (f : Flit) : Option State :=
  let o := f.laOut
  if portAux < o || ((s.router d p).buf i f.vc).length != 1 || ((s.router d p).held.get none o).isSome || lateDue s d p o ||
      (h.mcast && (treeNamed s d p h).length != 1) then none
  else match reqOf s d p i f.vc with
    | none => none
    | some q0 =>
      let others := (reqsAt s d p o).filter (fun b => !(b.input == i && b.vc == f.vc))
      match grantOf s d p o 37 (others ++ [{ q0 with outs := [o] }]) with
      | some (q, df) => if q.input == i && q.vc == f.vc then some (doGrant s d p o q df) else none
      | none => none

/-- A packet that no output of its tree takes ends at this router (R164, R367): its units are discarded as they come, and their
credits return. (DEDUCED, log 33) -/
def endHere (s : State) (d p i : Nat) (f : Flit) (h : Hdr) : State :=
  let r := s.router d p
  let l := r.link i
  if i < 4 then
    let n := if l.busy then h.len.toNat - l.left else h.len.toNat
    let b := r.buf i f.vc
    let r1 := (r.setBuf i f.vc (b.take (b.length - n))).setLink i
      { l with latch := none, busy := false, left := 0, drop := l.busy, known := true, owed := 0 }
    (List.range (n + 1)).foldl (fun s _ => creditBack s d p i f.vc f.via) (s.setRouter d p r1)
  else
    { s.setRouter d p (r.setLink i { l with latch := none }) with
      stream := s.stream.set [] ((rk d p * 8 + i) * 8 + f.vc) [] }

/-- A VC4 header at the head of its buffer that no join entry concerns is an ordinary packet from its arrival on (R332). -/
def admitNone (s : State) (d p i : Nat) (h : Hdr) : State :=
  let r := s.router d p
  if (r.buf i 4).length == 1 && r.joinIn.get .idle i == .idle && (r.freed.get [] i).isEmpty && joinNone s d p h then
    passPacket s d p i h
  else s

/-- A header in the latch of an input is served in the slot it arrives for (R235), takes the look-ahead path, or stays in the buffer;
TRT_LA_MISS counts the headers that took the buffered path (R136, R188). -/
def headerArrive (s : State) (d p i : Nat) (f : Flit) (h : Hdr) : State :=
  let r := s.router d p
  let l := r.link i
  let s1 := s.setRouter d p (r.setLink i { l with latch := none })
  let onUnitInput := f.vc == 4 && isKind s d .compute
  let s2 := lateArrival (bufferUnit s1 d p i { f with scan := onUnitInput }) d p i h f
  let s3 := if onUnitInput then admitNone s2 d p i h else s2
  let s4 := if i < 4 then s3 else fillStream 8 d p i f.vc s3
  let miss := fun (s : State) => s.bump d (trt p TRT_LA_MISS) 47 0 1
  if !routerRuns s d p then miss (reduceRun s4 d p)
  else match slotArrival s4 d p i h f with
    | some s5 => if f.laOut == portNone then miss s5 else s5
    | none => match lookAhead s4 d p i h f with
      | some s5 => s5
      | none => miss (reduceRun s4 d p)

/-- ROUTER_HEADER_ARRIVAL (R136): the header that stands in the latch of input `i`. A route or tree that leads nowhere is
misuse (R41, R126, R154, R364). (DESIGN CHOICE, log 26; DESIGN CHOICE, log 34) -/
def execRouterHeaderArrival (d p i : Nat) (s : State) : Out :=
  if !(routerExists s d p && i < 6) then .fault .noSuchUnit
  else match ((s.router d p).link i).latch with
    | none => .next s
    | some f =>
      match f.hdr with
      | none => .next s
      | some h =>
        match outsOf s d p i h f with
        | none => if h.cmd != 0x52 then .fault (.undefinedMisuse ((routeMisuse s d p i h f).getD 126)) else .next (headerArrive s d p i f h)
        | some ([], _) => .next (endHere s d p i f h)
        | some _ => .next (headerArrive s d p i f h)

/-! ## Arrival of a unit (R143) -/

/-- Count a link error of an input: LOCAL and AUX share one field (R193). -/
def countLinkErr (s : State) (d p i reg : Nat) : State :=
  let j := min i 4
  s.bumpSat d (trt p reg) (12 * j + 11) (12 * j) 1

/-- Key of the error windows of an input. -/
def ek (d p i : Nat) : Nat := rk d p * 8 + i

/-- A corrected error on an input (R143, R612). (DEDUCED, log 104) -/
def noteSec (s : State) (d p i : Nat) : State :=
  let s1 := countLinkErr s d p i TRT_LINK_SEC
  { s1 with secCount := s1.secCount.set 0 (ek d p i) (s1.secCount.get 0 (ek d p i) + 1) }

/-- An uncorrectable error on an input: counted, recorded with the packet's TAG where known, and the link fenced when the
window's DED count reaches DED_LIMIT (R143, R612). -/
def noteDed (s : State) (d p i vc tag : Nat) : State :=
  let n := s.dedCount.get 0 (ek d p i) + 1
  let s1 := countLinkErr { s with dedCount := s.dedCount.set 0 (ek d p i) n } d p i TRT_LINK_DED
  faultLink s1 d 0x02 p i (faultDetail i vc tag) (s.fld d HLT_THRESH 15 0 ≤ n && i < 4)

/-- Take the credit that a unit's sideband returns: it serves the output of the same port (R135, R140). -/
def takeCredit (s : State) (d p i : Nat) (c : Option Nat) : State :=
  match c with
  | none => s
  | some v =>
    let r := s.router d p
    let s1 := s.setRouter d p (r.setCred i v (min 8 (r.cred i v + 1)))
    match feederOf s d p i with
    | some (q, o) =>
      let k := rk d q * 8 + o
      { s1 with credWires := s1.credWires.set [] k ((s1.credWires.get [] k).erase v) }
    | none => s1

/-- Take the first unit off the wire of an output. -/
def popWire (s : State) (d q o : Nat) : State :=
  let k := rk d q * 8 + o
  { s with wires := s.wires.set [] k ((s.wires.get [] k).drop 1) }

/-- The seam adapter whose units bypassed routers hand to an input and that has some (R641, R834). -/
def joinedSeam (s : State) (d p i : Nat) : Option Nat :=
  (joinedSeams s d p i).find? (fun a => !(s.seams.get {} (d * 256 + a)).rx.isEmpty)

/-- The joined vertical output, or the joined adapter, that the arriving unit comes from (R641): none where it comes over the input's own
link. A packet under way keeps its source; a new one comes from the first wire with a unit, the own link first. (DEDUCED, log 24) -/
def joinedSource (s : State) (d p i : Nat) : Option Nat :=
  let l := (s.router d p).link i
  if l.busy then l.via
  else
    let waits := fun (x : Nat × Nat) => !(s.wires.get [] (rk d x.1 * 8 + x.2)).isEmpty
    if (feederOf s d p i).any waits then none
    else match (joinedFeeders s d p i).find? waits with
      | some x => some (x.1 * 8 + x.2)
      | none => (joinedSeam s d p i).map (fun _ => viaSeam)

/-- Take the unit off the wire that feeds an input of the same die. -/
def takeWire (s : State) (d p i : Nat) (via : Option Nat) : State :=
  match via with
  | some k => if k == viaSeam then s else popWire s d (k / 8) (k % 8)
  | none => match feederOf s d p i with
    | some (q, o) => popWire s d q o
    | none => s

/-- The buffered unit that a link unit makes. -/
def flitOf (u : LinkUnit) (h : Option Hdr) (last : Bool) : Flit :=
  { vc := u.vc, hdr := h, data := u.unit, last := last, phase := u.phase, seg := u.seg, hops := u.hops,
    transit := u.transit, laOut := u.laOut }

/-- Change the state of an input link. -/
def setLink (s : State) (d p i : Nat) (l : InLink) : State := s.setRouter d p ((s.router d p).setLink i l)

/-- Give back the credit of a discarded unit, and those of the units before it whose VC was not known: its VC names theirs (R143).
(DEDUCED, log 37) -/
def discardUnit (s : State) (d p i : Nat) (l : InLink) (u : LinkUnit) : State :=
  let s1 := (List.range (1 + l.owed)).foldl (fun s _ => creditBack s d p i u.vc l.via) s
  setLink s1 d p i { l with owed := 0, known := true, vc := u.vc, drop := u.type != 3 }

/-- A unit with a failed sideband while no packet is in progress is discarded: its credit returns where the VC of the packet being discarded
is known, and waits for the VC otherwise (R143). (DEDUCED, log 37) -/
def discardUnknown (s : State) (d p i : Nat) (l : InLink) : State :=
  if l.drop && l.known then creditBack s d p i l.vc l.via
  else setLink s d p i { l with drop := true, known := false, owed := (if l.drop then l.owed else 0) + 1 }

/-- A header or data unit with its codes checked (R143). -/
def linkUnitArrive (s : State) (d p i : Nat) (u : LinkUnit) (via : Option Nat) : State :=
  let l : InLink := if u.type == 0 then (s.router d p).link i else { (s.router d p).link i with via := via }
  let s1 := if u.err == .corrected then noteSec s d p i else s
  if u.type == 0 then setLink s1 d p i { l with drop := false, known := false, owed := 0, res := l.res || u.residue }
  else if l.busy then
    -- a packet is in progress: whatever its sideband says, this is its next data unit
    let last := l.left ≤ 1
    let bad := u.err == .unitBad || u.err == .sidebandBad
    let s2 := if bad then noteDed s1 d p i l.vc l.tag else s1
    let f := { flitOf u none last with vc := l.vc, via := via, scan := l.vc == 4 && isKind s d .compute, res := u.residue }
    let s3 := bufferUnit s2 d p i f
    reduceRun (setLink s3 d p i { l with busy := !last, left := l.left - 1 }) d p
  else if u.err == .sidebandBad then
    noteDed (discardUnknown s1 d p i l) d p i (if l.drop && l.known then l.vc else 0) 0
  else if u.type == 1 then
    if u.err == .unitBad then
      noteDed (creditBack (setLink s1 d p i { l with drop := true, known := true, vc := u.vc, owed := 0 }) d p i u.vc via) d p i u.vc 0
    else
      let h := Hdr.unpack u.unit
      setLink s1 d p i { busy := h.len != 0, vc := u.vc, left := h.len.toNat, tag := h.tag.toNat, via := via,
                         latch := some { flitOf u (some h) (h.len == 0) with via := via } }
  else if l.drop then discardUnit s1 d p i l u
  else s1

/-- The seam adapter that an input takes its unit from: the one behind its link, or one joined through a bypassed router (R641). -/
def inputSeam (s : State) (d p i : Nat) (via : Option Nat) : Option Nat :=
  if via == some viaSeam then joinedSeam s d p i
  else match via, linkOf s d p i with
    | none, .seam a => some a
    | _, _ => none

/-- Whether an adapter may hand a unit of VC `v` to its router: the input's buffer has a free entry (R140, R169). -/
def seamRoom (s : State) (d p i v : Nat) : Bool :=
  let latched := match ((s.router d p).link i).latch with
    | some f => if f.vc == v then 1 else 0
    | none => 0
  inputLoad s d p i v + latched < 8

/-- The unit of a buffered flit as a link carries it. -/
def unitOfFlit (f : Flit) : LinkUnit :=
  { type := match f.hdr with
      | some _ => 1
      | none => if f.last then 3 else 2
    vc := f.vc, laOut := f.laOut, phase := f.phase, seg := f.seg, hops := f.hops, transit := f.transit,
    unit := match f.hdr with
      | some h => h.pack
      | none => f.data
    residue := f.res }

/-- The unit that an input takes: at a seam, the oldest unit of its VC in the adapter's receive buffer that the input has room for; the
adapter computes LA_OUT and then owes a credit to the far side (R137, R169, R170). (DESIGN CHOICE, log 38) -/
def seamSource (s : State) (d p i : Nat) (via : Option Nat) (u : LinkUnit) : State × LinkUnit :=
  match inputSeam s d p i via with
  | none => (s, u)
  | some a =>
    let r := s.seams.get {} (d * 256 + a)
    let l := (s.router d p).link i
    let v := if l.busy then l.vc else u.vc
    match (if seamRoom s d p i v then r.rx.find? (fun f => f.vc == v) else none) with
    | none => (s, { u with type := 0, err := .clean })
    | some f =>
      let r' := { r with rx := r.rx.erase f, credOwed := setAt r.credOwed f.vc (r.credOwed.getD f.vc 0 + 1) }
      let la := match f.hdr with
        | some h => laAt s d p i h f
        | none => portNone
      (seamRun s d a r', { unitOfFlit f with laOut := la, credit := u.credit, err := u.err, residue := f.res || u.residue })

/-- A unit that arrives after the halt goes into the catch register of 8 units, until the window ends (R702). -/
def catchUnit (s : State) (d p i : Nat) (u : LinkUnit) : State :=
  let r := s.router d p
  let c := r.catchReg.get [] i
  if s.catchShut.get false (d * 2 + panelOf s d p) || u.type == 0 || 8 ≤ c.length then s
  else
    let h := if u.type == 1 then some (Hdr.unpack u.unit) else none
    s.setRouter d p { r with catchReg := r.catchReg.set [] i (c ++ [flitOf u h (u.type == 3)]) }

/-- LINK_UNIT_ARRIVAL (R143): a unit and its sideband reach input `i` of router `p`. A fenced input discards the unit and
returns no credit (R634). -/
def execLinkUnitArrival (d p i : Nat) (u : LinkUnit) (s : State) : Out :=
  if !(routerExists s d p && i < 6 && u.vc < 6) then .fault .noSuchUnit
  else
    let via := if u.type == 0 then none else joinedSource s d p i
    let s0 := if u.type == 0 then s else takeWire s d p i via
    if isHalted s d p then
      let (s1, u1) := seamSource s0 d p i via u
      .next (catchUnit s1 d p i u1)
    else
    let s1 := takeCredit s0 d p i (if u.err == .sidebandBad then none else u.credit)
    if inputFenced s d p i then .next s1
    else
      let (s2, u2) := seamSource s1 d p i via u
      .next (linkUnitArrive s2 d p i u2 via)

/-- CONTEXT_CEILING (R287, R350): the hold time of context `c` has reached its ceiling. -/
def execContextCeiling (d p c : Nat) (s : State) : Out :=
  if !(isKind s d .compute && p < 624 && c < 4) then .fault .noSuchUnit
  else match ctxAt (s.router d p) c with
    | none => .next s
    | some x =>
      if isHalted s d p || x.cut || (s.regionOf d p).cycles < x.claimAt + ceilingOf s d p then .next s
      else .next (reduceRun (ceilingReached s d p c x) d p)

/-! ## Seam adapters (R166 to R171, R821) -/

/-- Whether seam adapter `i` of die `d` exists. -/
def hasSeam (s : State) (d i : Nat) : Bool :=
  match kindOf s d with
  | some k => seamExists k i
  | none => false

/-- An adapter's record. -/
def State.seam (s : State) (d i : Nat) : Seam := s.seams.get {} (d * 256 + i)

/-- Change an adapter's record. -/
def State.setSeam (s : State) (d i : Nat) (a : Seam) : State := { s with seams := s.seams.set {} (d * 256 + i) a }

/-- The adapter enters FAILED and reports a hardware fault; with AUTO_FENCE the crossing is fenced (R168, R633, R652). -/
def seamFail (s : State) (d i : Nat) : State :=
  let s1 := s.setSeam d i { s.seam d i with link := 4, wire := [] }
  if s.flag d HLT_CFG 0 then fenceSeam (faultRec s1 d 0x04 i 0 4) d i else faultRec s1 d 0x04 i 0 0

/-- How far sequence `b` lies ahead of `a`, modulo 256. -/
def seqAhead (a b : Nat) : Nat := (b + 256 - a) % 256

/-- Drop the replay-buffer frames that an ACK covers: those up to and including sequence `ack` (R166). A replay ends, and LINK shows 2
again, with the first ACK that covers a frame: the spec names no end. (DESIGN CHOICE, log 38) -/
def ackFrames (a : Seam) (ack : Nat) : Seam :=
  match a.replay with
  | [] => a
  | fr :: _ =>
    let n := seqAhead fr.seq ack + 1
    if n ≤ a.replay.length then { a with replay := a.replay.drop n, link := if a.link == 3 then 2 else a.link } else a

/-- Go-back-N (R167): every frame of the replay buffer is sent again, with the present ACK; an adapter that itself discards frames asks for
its own replay again. -/
def replayFrames (a : Seam) : Seam :=
  let fs := a.replay.map (fun fr => { fr with tries := fr.tries + 1, ack := (a.rxSeq + 255) % 256, nak := false })
  { a with link := 3, replay := fs, wire := a.wire ++ fs, nak := a.nak || a.discarding }

/-- The unit of a received frame as the adapter's receive buffer holds it. -/
def seamFlit (u : LinkUnit) : Flit :=
  { flitOf u (if u.type == 1 then some (Hdr.unpack u.unit) else none) (u.type == 3) with res := u.residue }

/-- The frame that reaches an adapter is the oldest one under way from the adapter across the seam. -/
def takeSeamWire (s : State) (d i : Nat) : State :=
  match seamPeer s d i with
  | some (d', j) => s.setSeam d' j { s.seam d' j with wire := (s.seam d' j).wire.drop 1 }
  | none => s

/-- Take the fields of a frame that an adapter accepts (R166, R169). -/
def takeFrame (s : State) (d i : Nat) (a : Seam) (f : SeamRx) : Seam :=
  let a1 := ackFrames a f.ack
  let a2 := { a1 with farCred := setAt a1.farCred f.credVc (min 24 (a1.farCred.getD f.credVc 0 + f.credN)) }
  if f.body.type == 0 then a2
  else { a2 with rxSeq := (a2.rxSeq + 1) % 256, discarding := false, nak := false, ackDue := true,
                 rx := if seamHem s d i then a2.rx else a2.rx ++ [seamFlit f.body] }

/-- One received seam frame (R166, R167, R168): a frame that fails FCRC, and a frame with a unit whose SEQ is out of order, is discarded
whole, and the first of a run is answered by NAK. (DESIGN CHOICE, log 38) -/
def seamFrame (s0 : State) (d i : Nat) (f : SeamRx) : State :=
  let s := takeSeamWire s0 d i
  let a := s.seam d i
  if !seamLive s d i a then s
  else if !f.fcrcOk then seamRun (s.bump d (smw i SEAM_CRC_ERR) 31 0 1) d i { a with discarding := true, nak := true }
  else if f.body.type != 0 && f.seq != a.rxSeq then seamRun s d i { a with discarding := true, nak := a.nak || !a.discarding }
  else
    let a1 := takeFrame s d i a f
    if f.nak && !a1.replay.isEmpty then
      let a2 := replayFrames a1
      let s1 := (seamRun s d i a2).bump d (smw i SEAM_REPLAY) 31 0 1
      if a2.replay.any (fun fr => 16 ≤ fr.tries) then seamFail s1 d i else s1
    else seamRun s d i a1

/-- SEAM_FRAME (R167). -/
def execSeamFrame (d i : Nat) (f : SeamRx) (s : State) : Out :=
  onUnit (hasSeam s d i && f.body.vc < 6 && f.credVc < 6 && f.credN < 8 && f.seq < 256 && f.ack < 256) (seamFrame s d i f)

/-- Whether an adapter may train: it faces a die, is enabled, and is not held idle (R41, R171, R203). -/
def seamMayRun (s : State) (d i : Nat) : Bool :=
  (seamPeer s d i).isSome && s.flag d (smw i SEAM_CFG) 0 && !s.flag d (smw i SEAM_CFG) 1

/-- UCIE_STATE_CHANGE (R821): pl_state_sts reaches Active, with the extra cycles of its path measured (R170, R204), or
leaves it; a lower rate leaves the adapter FAILED (R819). -/
def execUcieStateChange (d i : Nat) (active fullRate : Bool) (extra : Nat) (s : State) : Out :=
  if !hasSeam s d i then .fault .noSuchUnit
  else if !seamMayRun s d i then .next s
  else if active && fullRate then
    .next (s.setSeam d i { ({} : Seam) with link := 2, latency := (6 + extra) % 256, txWait := (s.seam d i).txWait })
  else if (s.seam d i).link == 4 then .next s
  else .next (seamFail s d i)

/-- A write to SEAM_PANEL requests a panel clock change and restarts its delay (R174, R208). -/
def panelWrite (s : State) (d : Nat) (v : Word) : State :=
  { s.setFld d SEAM_PANEL 1 0 (bitsOf v 1 0) with
    panelReq := s.panelReq.set {} d { west := v.getLsbD 0, east := v.getLsbD 1, wait := 2 } }

/-- SEAM_PANEL_WRITE (R208). -/
def execSeamPanelWrite (d : Nat) (v : Word) (s : State) : Out := onUnit (isKind s d .compute) (panelWrite s d v)

/-- SEAM_RECALIBRATION (R661): a module whose die temperature (units of 0.5 °C) has moved by more than DELTA is recalibrated.
The step stands for the whole calibration, so modules take turns by construction. (DESIGN CHOICE, log 39) -/
def execSeamRecalibration (d i temp : Nat) (s : State) : Out :=
  let a := s.seam d i
  let moved := (temp - a.calTemp) + (a.calTemp - temp)
  onUnit (hasSeam s d i)
    (if a.link == 2 && s.fld d HLT_CAL_CFG 7 0 < moved then s.setSeam d i { a with calTemp := temp } else s)

end Sys2Proof.Machine
end

