-- ==== Sys2Proof/Machine/Memport.lean ====
section
/-! DEFINITION. The memory port of a memory-interface die (R68, R69, R70, R814 to R818, R838). -/

namespace Sys2Proof.Machine

open Sys2Proof

/-- A memory port's record. -/
def State.mp (s : State) (d : Nat) : Memport := s.memports.get {} d

/-- Change a memory port's record. -/
def State.setMp (s : State) (d : Nat) (m : Memport) : State := { s with memports := s.memports.set {} d m }

/-- The first tag that no request holds (R815). -/
def freeTag (m : Memport) : Option Nat := (List.range 256).find? (fun t => !m.reqs.any (fun r => r.tag == t))

/-- Issue requests for the units that still wait, on free tags (R815); `fuel` bounds the requests. -/
def mpIssue (now : Nat) (write : Nat → Bool) : Nat → Memport → Memport
  | 0, m => m
  | n + 1, m =>
    match freeTag m, m.jobs.find? (fun j => !j.left.isEmpty) with
    | some t, some j =>
      match j.left with
      | (ix, off) :: rest =>
        mpIssue now write n
          { m with jobs := m.jobs.map (fun q => if q.id == j.id then { q with left := rest } else q),
                   reqs := m.reqs ++ [{ tag := t, job := j.id, idx := ix, off := off, write := write j.hdr.cmd.toNat, issued := now }] }
      | [] => m
    | _, _ => m

/-- Whether a command writes (R838). -/
def mpWrites (cmd : Nat) : Bool := cmd != 0x04

/-- Requests go out as tags allow. -/
def mpPump (s : State) (d : Nat) : State :=
  if attHalted s d attMem then s else s.setMp d (mpIssue (s.now d) mpWrites 256 (s.mp d))

/-- The units that a command addresses, with their offsets (R69, R98, R815). -/
def mpUnits (p : Packet) : List (Nat × Nat) :=
  let h := p.hdr
  let off := h.destOff / 64 * 64
  match h.cmd.toNat with
  | 0x03 => [(0, h.destOff / 64 * 64)]
  | 0x32 => [(0, h.destOff / 64 * 64)]
  | 0x04 => (List.range (readLen h)).map (fun j => (j, off + 64 * j))
  | _ =>
    if h.sparse then
      let bs := (sparseBlocks h.fmt.toNat p.data).map (·.1)
      (List.range bs.length).map (fun j => (j, off + 64 * bs.getD j 0))
    else (List.range p.data.length).map (fun j => (j, off + 64 * j))

/-- A command arrives at the memory port (R838): its data goes to memory, and one request for each unit to the controller. -/
def mpArrive (s : State) (d : Nat) (p : Packet) : State :=
  let h := p.hdr
  let key := dramKey d
  let s0 := statUpdate s d (partState s d) h
  let mem := match h.cmd.toNat with
    | 0x03 => putInline s0.mem key dramBytes h.destOff h
    | 0x32 => putCounts s0.mem key dramBytes h.destOff h
    | 0x04 => s0.mem
    | _ => putPacket s0.mem key dramBytes h.destOff p
  let m := s0.mp d
  let us := mpUnits p
  let job : MpJob := { id := m.nextJob, hdr := h, n := us.length, left := us.filter (fun u => u.2 + 64 ≤ dramBytes) }
  let s1 := { s0 with mem := mem }.setMp d { m with jobs := m.jobs ++ [job], nextJob := m.nextJob + 1 }
  mpPump s1 d

/-- Answer a job whose units have all come, or that has failed, and forget it (R815, R816). -/
def mpFinish (s : State) (d : Nat) (j : MpJob) : State :=
  let m := s.mp d
  let s1 := s.setMp d { m with jobs := m.jobs.filter (fun q => q.id != j.id) }
  match j.hdr.cmd.toNat with
  | 0x04 =>
    if j.failed then sendAt s1 d attMem (ackFor j.hdr (portSrc s d) 2 0)
    else
      let r := (List.range j.n).foldl (fun (a : List DataUnit × State) ix =>
        match j.got.find? (fun g => g.1 == ix) with
        | some g => (a.1 ++ [g.2], a.2)
        | none => let (u, t) := a.2.draw; (a.1 ++ [u], t)) ([], s1)
      sendAt r.2 d attMem (readData j.hdr (portSrc s d) r.1)
  | 0x02 => sendAt s1 d attMem (ackFor j.hdr (portSrc s d) (if j.failed then 2 else 0) 0)
  | _ => s1

/-- Finish a job when nothing of it is outstanding. -/
def mpSettle (s : State) (d id : Nat) : State :=
  let m := s.mp d
  match m.jobs.find? (fun j => j.id == id) with
  | some j => if j.left.isEmpty && m.reqs.all (fun r => r.job != id || r.dead) then mpFinish s d j else s
  | none => s

/-- An access has failed (R816): its unit holds a free value, a record is written, and the job is marked. -/
def mpFail (s : State) (d : Nat) (r : MpReq) : State :=
  let m := s.mp d
  let (u, s1) := s.draw
  let tag := ((m.jobs.find? (fun j => j.id == r.job)).map (fun j => j.hdr.tag.toNat)).getD 0
  let s2 := { s1 with mem := writeUnit s1.mem (dramKey d r.off) u }.setMp d
    { m with jobs := m.jobs.map (fun (j : MpJob) => if j.id == r.job then { j with failed := true } else j) }
  faultRec s2 d 0x12 0 (faultDetail 0 0 tag) 0

/-- A controller response for a tag (R815, R816). A late response only frees the tag. -/
def mpResponse (s : State) (d tag : Nat) (err : Bool) : State :=
  let m := s.mp d
  match m.reqs.find? (fun r => r.tag == tag) with
  | none => s
  | some r =>
    let s1 := s.setMp d { m with reqs := m.reqs.filter (fun q => q.tag != tag) }
    if r.dead then mpPump s1 d
    else
      let s2 := if err then mpFail s1 d r
        else if r.write then s1
        else
          let u := readUnit s1.mem (dramKey d r.off)
          let m1 := s1.mp d
          s1.setMp d { m1 with jobs := m1.jobs.map (fun (j : MpJob) => if j.id == r.job then { j with got := j.got ++ [(r.idx, u)] } else j) }
      mpPump (mpSettle s2 d r.job) d

/-- A response arrives in a global stop, which holds it (R701, R817). -/
def mpHold (s : State) (d tag : Nat) (err : Bool) : State := s.setMp d { s.mp d with held := (s.mp d).held ++ [(tag, err)] }

/-- A released stop's held responses are taken in the order in which they came (R817). -/
def mpResume (s : State) (d : Nat) : State :=
  (s.mp d).held.foldl (fun s r => mpResponse s d r.1 r.2) (mpPump (s.setMp d { s.mp d with held := [] }) d)

/-- MP_RESPONSE (R815, R817). -/
def execMpResponse (d tag : Nat) (err : Bool) (s : State) : Out :=
  onUnit (isKind s d .memif) (if attHalted s d attMem then mpHold s d tag err else mpResponse s d tag err)

/-- MP_TIMEOUT (R816): a request of tag `tag` has had no response for 10 µs; its tag stays in use until the late response. -/
def mpTimeout (s : State) (d tag : Nat) : State :=
  let m := s.mp d
  match m.reqs.find? (fun r => r.tag == tag) with
  | none => s
  | some r =>
    if r.dead || s.now d < r.issued + 10000 then s
    else
      let s1 := s.setMp d { m with reqs := m.reqs.map (fun q => if q.tag == tag then { q with dead := true } else q) }
      mpSettle (mpFail s1 d r) d r.job

/-- MP_TIMEOUT (R816). -/
def execMpTimeout (d tag : Nat) (s : State) : Out :=
  onUnit (isKind s d .memif) (if attHalted s d attMem then s else mpTimeout s d tag)

/-- Whether the memory port acts on a command (R838). -/
def mpActs (cmd : Nat) : Bool := (1 ≤ cmd && cmd ≤ 4) || cmd == 0x30 || cmd == 0x31 || cmd == 0x32 || cmd == 0x63

end Sys2Proof.Machine
end

