-- ==== Sys2Proof/Machine/Shaping.lean ====
section
/-! DEFINITION. Gate lists (R243 to R248), shapers (R289 to R293), three-colour meters (R294 to R297), queue samplers (R298,
R299) and the power governor (R300 to R304), with their commands. -/

namespace Sys2Proof.Machine

open Sys2Proof

/-- Nanoseconds of a round (R231). -/
def roundNs : Nat := 2560

/-- The first round boundary at or after an instant (R230). -/
def boundaryAt (t : Nat) : Nat := (t + (roundNs - 1)) / roundNs * roundNs

/-- FT of a slice in 2^-16 ns. -/
def State.fine (s : State) (d : Nat) : Nat := (s.keeper d).ft.toNat * 65536 + (s.keeper d).frac.toNat

/-- Nanoseconds and sixteenths: FT in 1/16 ns (R222). -/
def State.ft16 (s : State) (d : Nat) : Nat := s.fine d / 4096

/-! ## Gate lists -/

/-- Key of a gate point. -/
def gk (d g : Nat) : Nat := d * 16 + g

/-- A gate point's record. -/
def State.gate (s : State) (d g : Nat) : Gate := s.gates.get {} (gk d g)

/-- Change a gate point's record. -/
def State.setGate (s : State) (d g : Nat) (x : Gate) : State := { s with gates := s.gates.set {} (gk d g) x }

/-- Entry `e` of a physical bank (R243). -/
def gateEntry (s : State) (d g bank e : Nat) : Word := s.gateTab.get 0 ((gk d g * 2 + bank) * 256 + e)

/-- Whether a gate point exists. -/
def hasGate (s : State) (d g : Nat) : Bool :=
  match kindOf s d with
  | some k => gateExists k g
  | none => false

/-- The instant at which the current entry ends (R245): after its duration, or at the end of the period. -/
def gateEnd (s : State) (d g : Nat) : Nat :=
  let x := s.gate d g
  let stop := x.startFt + x.period * roundNs
  if x.cur ≥ x.last then stop else min stop (x.curFt + 5 * bitsOf (gateEntry s d g x.bank x.cur) 17 0)

/-- Whether a gate point lets a packet of VC `v` begin that takes `span` 2^-16 ns (R244, R248). After a write to the active bank
the gating is free until the next takeover (R269). -/
def gatePermits (s : State) (d g v span : Nat) : Bool :=
  let x := s.gate d g
  let e := gateEntry s d g x.bank x.cur
  if x.lost then Config.gateFree (gk d g) v (s.fine d)
  else x.openAll || (e.getLsbD (18 + v) && (!e.getLsbD 24 || s.fine d + span ≤ gateEnd s d g * 65536))

/-- The end of a gate entry: the next entry becomes current, or entry 0 when the period ends (R245). -/
def gateAdvance (s : State) (d g : Nat) : State :=
  let x := s.gate d g
  let stop := x.startFt + x.period * roundNs
  if x.openAll || s.now d < gateEnd s d g then s
  else if stop ≤ s.now d then s.setGate d g { x with cur := 0, curFt := stop, startFt := stop }
  else s.setGate d g { x with cur := x.cur + 1, curFt := gateEnd s d g }

/-- GATE_ENTRY_END (R245). -/
def execGateEntryEnd (d g : Nat) (s : State) : Out := onUnit (hasGate s d g) (gateAdvance s d g)

/-- The instant of an armed takeover and whether it is late (R246, R247). LATE marks a takeover under R247, one whose TIM_GATE_TAKE
lay before the arming; a TIM_GATE_TAKE that is no round boundary takes over at the next one with LATE 0. (DESIGN CHOICE, log 177) -/
def takeoverAt (s : State) (d g armed : Nat) : Nat × Bool :=
  let t := (s.reg d (gtw g TIM_GATE_TAKE)).toNat
  if t < armed then (boundaryAt (armed + 1), true) else (boundaryAt t, false)

/-- An armed takeover: the pending bank becomes active at entry 0 (R246, R247). -/
def gateTake (s : State) (d g : Nat) : State :=
  let x := s.gate d g
  match x.armedAt with
  | none => s
  | some a =>
    let (t, late) := takeoverAt s d g a
    if s.now d < t then s
    else s.setGate d g
      { bank := 1 - x.bank, last := s.fld d (gtw g TIM_GATE_CTL) 7 0, period := s.fld d (gtw g TIM_GATE_CTL) 15 8 + 1,
        cur := 0, curFt := t, startFt := t, openAll := false, late := late, armedAt := none }

/-- GATE_TAKEOVER (R246). -/
def execGateTakeover (d g : Nat) (s : State) : Out := onUnit (hasGate s d g) (gateTake s d g)

/-- Arming: a write that sets ARM (R246). A write of ARM = 0 afterwards leaves the takeover pending. (DESIGN CHOICE, log 177) -/
def gateArm (s : State) (d g : Nat) : State :=
  if s.flag d (gtw g TIM_GATE_CTL) 16 then s.setGate d g { s.gate d g with armedAt := some (s.now d) } else s

/-! ## Shapers -/

/-- Key of a shaper and meter. -/
def sk (d g v : Nat) : Nat := gk d g * 8 + v

/-- A shaper's and meter's record. -/
def State.shp (s : State) (d g v : Nat) : Shp := s.shapers.get {} (sk d g v)

/-- Change a shaper's and meter's record. -/
def State.setShp (s : State) (d g v : Nat) (x : Shp) : State := { s with shapers := s.shapers.set {} (sk d g v) x }

/-- Whether a shaping point has a shaper of VC `v`. -/
def hasShaper (s : State) (d g v : Nat) : Bool := hasGate s d g && 1 ≤ v && v ≤ 5

/-- Whether slot number `n`, counted from FT 0, is a refill instant for an interval (R289). -/
def refillSlot (n interval : Nat) : Bool := n % 512 % 2 ^ interval == 0

/-- Refill a shaper (R290, R292): it latches its fields; a shaper just enabled starts full. -/
def shaperRefill (x : Shp) (cfg : Word) (slot : Nat) : Shp :=
  let depth : Int := bitsOf cfg 47 32
  let full := cfg.getLsbD 0 && !x.cfg.getLsbD 0
  { x with cfg := cfg, tokens := if full then depth else min (x.tokens + bitsOf cfg 63 48) depth, slotAt := slot }

/-- SHAPER_REFILL (R290). An enabled shaper with RATE 0 is misuse (R293), one with INTERVAL 10 to 15 uses a reserved value (R16,
R289); a shaper that is not enabled refills at the instants that 2^INTERVAL slots give. -/
def execShaperRefill (d g v : Nat) (s : State) : Out :=
  let cfg := s.reg d (shw g v SHP_SHAPE_CFG)
  let slot := s.now d / 5
  if !hasShaper s d g v then .fault .noSuchUnit
  else if cfg.getLsbD 0 && 10 ≤ bitsOf cfg 19 16 then .fault (.undefinedMisuse 16)
  else if !refillSlot slot (bitsOf cfg 19 16) || ((s.shp d g v).slotAt == slot && slot != 0) then .next s
  else if cfg.getLsbD 0 && bitsOf cfg 63 48 == 0 then .fault (.undefinedMisuse 293)
  else .next (s.setShp d g v (shaperRefill (s.shp d g v) cfg slot))

/-- Whether a shaper lets a packet start (R290). -/
def shaperOk (s : State) (d g v : Nat) : Bool := !(s.shp d g v).cfg.getLsbD 0 || 0 ≤ (s.shp d g v).tokens

/-- Charge a granted packet of LEN `len` (R290). -/
def shaperCharge (s : State) (d g v len : Nat) : State :=
  let x := s.shp d g v
  if v == 0 || !x.cfg.getLsbD 0 then s
  else s.setShp d g v { x with tokens := x.tokens - (64 * (1 + len) + bitsOf x.cfg 31 22 : Nat) }

/-! ## Meters -/

/-- Refill a meter (R294, R297): it latches its fields; a meter just enabled starts full. -/
def meterRefill (x : Shp) (rate burst : Word) (slot : Nat) : Shp :=
  let full := rate.getLsbD 0 && !x.mcfg.getLsbD 0
  let cbs := bitsOf burst 23 0
  let pbs := bitsOf burst 55 32
  { x with mcfg := rate, mburst := burst, mslotAt := slot,
           tc := if full then cbs else min (x.tc + bitsOf rate 63 48) cbs,
           tp := if full then pbs else min (x.tp + bitsOf rate 47 32) pbs }

/-- METER_REFILL (R294). An enabled meter with INTERVAL 10 to 15 uses a reserved value (R16, R289). -/
def execMeterRefill (d g v : Nat) (s : State) : Out :=
  let rate := s.reg d (shw g v SHP_METER_RATE)
  let slot := s.now d / 5
  if !hasShaper s d g v then .fault .noSuchUnit
  else if rate.getLsbD 0 && 10 ≤ bitsOf rate 19 16 then .fault (.undefinedMisuse 16)
  else if !refillSlot slot (bitsOf rate 19 16) || ((s.shp d g v).mslotAt == slot && slot != 0) then .next s
  else .next (s.setShp d g v (meterRefill (s.shp d g v) rate (s.reg d (shw g v SHP_METER_BURST)) slot))

/-- Mark a packet of LEN `len` (R294): the colour (1 green, 2 yellow, 3 red) and the buckets after it. -/
def meterMark (x : Shp) (len : Nat) : Nat × Shp :=
  let b := 64 * (1 + len)
  if x.tp < b then (3, x)
  else if x.tc < b then (2, { x with tp := x.tp - b })
  else (1, { x with tp := x.tp - b, tc := x.tc - b })

/-- Pass a packet through the ingress meter of a shaping point (R294, R295): its colour, whether the meter discards it, and the
state after it. A packet of VC0, or at a meter that is not enabled, is unmarked. -/
def meterPass (s : State) (d g v len : Nat) : Nat × Bool × State :=
  let x := s.shp d g v
  if v == 0 || !x.mcfg.getLsbD 0 then (0, false, s)
  else
    let (c, x') := meterMark x len
    let reg := if c == 1 then SHP_GREEN else if c == 2 then SHP_YELLOW else SHP_RED
    (c, c == 3 && x.mcfg.getLsbD 20, (s.setShp d g v x').bump d (shw g v reg) 47 0 1)

/-- Every shaper and meter of a slice starts full on entry to SERVICE (R292, R294). (DEDUCED, log 88) -/
def fillShapers (s : State) (d : Nat) : State :=
  (List.range 9).foldl (fun s g =>
    if hasGate s d g then
      [1, 2, 3, 4, 5].foldl (fun s v =>
        let x := s.shp d g v
        s.setShp d g v { x with tokens := (s.fld d (shw g v SHP_SHAPE_CFG) 47 32 : Nat),
                                tc := s.fld d (shw g v SHP_METER_BURST) 23 0,
                                tp := s.fld d (shw g v SHP_METER_BURST) 55 32 }) s
    else s) s

/-! ## Queue samplers -/

/-- Configuration and result registers of a sampler (R310, R311, R318). -/
def samplerRegs : SamplePoint → Nat × Nat
  | .router p => (trt p TRT_QSAMPLE_CFG, trt p TRT_QSAMPLE)
  | .shape g v => (shw g v 0x40, shw g v 0x48)

/-- Whether a sampler exists. -/
def samplerExists (s : State) (d : Nat) : SamplePoint → Bool
  | .router p => routerExists s d p
  | .shape g v => hasShaper s d g v

/-- Depth in units and head delay of the packet queues of an egress VC: each queue's units, and when its head came. -/
def queueDepth (now : Nat) (qs : List (List (Nat × Nat))) : Nat × Nat :=
  (((qs.flatten).map (·.1)).sum, qs.foldl (fun m q => match q with
    | [] => m
    | x :: _ => max m (now - x.2)) 0)

/-- Depth in units and head delay in cycles of a sampled queue (R298): a CE's egress queue, or at the stitch egress the VC's two
queues, by DL, with the older of their heads. (DEDUCED, log 178) -/
def sampleOf (s : State) (d : Nat) : SamplePoint → Nat × Nat
  | .router p =>
    let cfg := s.reg d (trt p TRT_QSAMPLE_CFG)
    let b := (s.router d p).buf (bitsOf cfg 6 4) (bitsOf cfg 10 8)
    (b.length, match b with
      | [] => 0
      | f :: _ => (s.regionOf d p).cycles - f.stamp)
  | .shape g v =>
    if g == 8 then
      queueDepth (s.region d 0).cycles ([0, 1].map (fun dl =>
        ((s.stls.get {} d).eg.get [] (v * 2 + dl)).map (fun x => (1 + x.pk.data.length, x.stamp))))
    else
      queueDepth (s.region d (attPanel s d (attCe g))).cycles
        [(s.inj.get [] (ik d (attCe g) v)).map (fun x => (1 + x.pk.data.length, x.stamp))]

/-- The region whose slots a sampler counts. -/
def sampleRegion (s : State) (d : Nat) : SamplePoint → Region
  | .router p => s.regionOf d p
  | .shape g _ => s.region d (attPanel s d (attCe g))

/-- Write one sample (R298, R311). -/
def sampleWrite (s : State) (d reg depth delay : Nat) : State :=
  let dl := min delay 65535
  let v := s.reg d reg
  s.setReg d reg (setBits (setBits (setBits (setBits v 15 0 depth) 47 32 dl) 31 16 (max depth (bitsOf v 31 16))) 63 48
    (max dl (bitsOf v 63 48)))

/-- Q1 of a QSAMPLE record (R737). -/
def sampleQuad (pt : SamplePoint) (cfg : Word) (depth delay : Nat) : Nat :=
  match pt with
  | .router p => p % 1024 * 2 ^ 118 + bitsOf cfg 6 4 * 2 ^ 114 + bitsOf cfg 10 8 * 2 ^ 111 + depth % 2 ^ 16 * 2 ^ 80 +
      delay * 2 ^ 64
  | .shape g v => g % 1024 * 2 ^ 118 + 2 ^ 117 + v % 8 * 2 ^ 111 + depth % 2 ^ 16 * 2 ^ 80 + delay * 2 ^ 64

/-- One sample, when its slot begins in a round that counts (R298); with QUEUE_TRACE it makes a trace record (R730). -/
def queueSample (s : State) (d : Nat) (pt : SamplePoint) : State :=
  let (cr, vr) := samplerRegs pt
  let cfg := s.reg d cr
  let g := sampleRegion s d pt
  let n := (s.now d / roundNs) - s.sampleFrom.get 0 (ck d cr)
  if cfg.getLsbD 0 && g.c == 8 * bitsOf cfg 20 12 && n % (bitsOf cfg 31 24 + 1) == 0 then
    let (depth, delay) := sampleOf s d pt
    let s1 := sampleWrite s d vr depth delay
    if s1.flag d OBS_CFG 2 then traceRec s1 d 0x04 false [sampleQuad pt cfg depth (min delay 65535)] else s1
  else s

/-- QUEUE_SAMPLE (R298). -/
def execQueueSample (d : Nat) (pt : SamplePoint) (s : State) : Out := onUnit (samplerExists s d pt) (queueSample s d pt)

/-- Clear the maxima of a sampler (R299). -/
def sampleClear (s : State) (d reg : Nat) : State :=
  s.setReg d reg (setBits (setBits (s.reg d reg) 31 16 0) 63 48 0)

/-- A write to a sampler's configuration (R298, R299, R310): enabling starts its count of rounds. -/
def sampleCfgWrite (s : State) (d : Nat) (pt : SamplePoint) (v : Word) : State :=
  let (cr, vr) := samplerRegs pt
  let mask := match pt with
    | .router _ => 0xFF1FF771
    | .shape _ _ => 0xFF1FF001
  let s1 := if v.getLsbD 0 && !s.flag d cr 0 then
      { s with sampleFrom := s.sampleFrom.set 0 (ck d cr) (s.now d / roundNs) } else s
  let s2 := s1.setReg d cr (v &&& BitVec.ofNat 64 mask)
  if v.getLsbD 1 then sampleClear s2 d vr else s2

/-- QSAMPLE_CLEAR (R299): a write of `v`, with CLEAR set, to a sampler's configuration. -/
def execQsampleClear (d : Nat) (pt : SamplePoint) (v : Word) (s : State) : Out :=
  onUnit (samplerExists s d pt) (sampleCfgWrite s d pt (v ||| 2#64))

/-! ## The power governor (R300 to R304) -/

/-- The governor's record of a compute slice. -/
def State.gov (s : State) (d : Nat) : Gov := s.govs.get {} d

/-- CAP in force: at least 160 (R300, R319). -/
def govCap (s : State) (d : Nat) : Nat := max 160 (s.fld d NI_GOV_CAP 8 0)

/-- Energy of the round just ended, in 0.1 pJ (R300). -/
def govEnergy (model : Word) (g : Gov) : Int :=
  (bitsOf model 63 48 * 256000 + g.hops * bitsOf model 31 16 + g.seams * bitsOf model 47 32 : Nat)

/-- PERMIT_MIN as it acts (R321). -/
def permitMin (ctl : Word) : Nat := min 4096 (max 1 (bitsOf ctl 44 32))

/-- The governor at a round boundary (R300, R304). -/
def govNext (model ctl : Word) (cap : Nat) (g : Gov) : Gov :=
  let e := govEnergy model g
  let avg := g.avg + (e - g.avg).fdiv 8
  let budget : Nat := cap * 6400000
  let permit :=
    if !ctl.getLsbD 0 then 4096
    else if (budget : Int) < avg then max (g.permit - g.permit / 8 - 1) (permitMin ctl)
    else if avg < (budget - budget / 16 : Nat) then min (g.permit + bitsOf ctl 28 16) 4096
    else g.permit
  { avg := avg, permit := permit, hops := 0, seams := 0, withheld := false }

/-- The governor's work at a round boundary of a compute slice: the round's count, the new permit, and the injection counts from
zero (R300, R301, R323). -/
def govRound (s : State) (d : Nat) : State :=
  if !isKind s d .compute then s
  else
    let g := s.gov d
    let s1 := if g.withheld then s.bump d NI_GOV_ROUNDS 47 0 1 else s
    { s1 with govs := s1.govs.set {} d (govNext (s.reg d NI_GOV_MODEL) (s.reg d NI_GOV_CTL) (govCap s d) g),
              injCount := s1.injCount.drop (fun k => k / 4096 == d) }

/-- Units an attachment has injected on VC1, VC2 and VC4 in this round (R301). -/
def injUsed (s : State) (d att : Nat) : Nat := s.injCount.get 0 (d * 4096 + att)

/-- PERMIT: 4,096 while the governor is not enabled (R304). -/
def govPermit (s : State) (d : Nat) : Nat := if s.flag d NI_GOV_CTL 0 then (s.gov d).permit else 4096

/-- The permit of an attachment (R301, R304, R321); none where the governor does not act. -/
def permitOf (s : State) (d att : Nat) : Option Nat :=
  if !isKind s d .compute || !s.flag d NI_GOV_CTL 0 then none
  else if att < 624 then some (s.gov d).permit
  else if 1024 ≤ att && att < 1032 then some ((s.gov d).permit * max 1 (s.fld d NI_GOV_CTL 15 8))
  else none

/-- Whether the governor lets an attachment present a header on VC `v` (R301, R302). -/
def govPermits (s : State) (d att v : Nat) : Bool :=
  if v == 1 || v == 2 || v == 4 then
    match permitOf s d att with
    | some n => injUsed s d att < n
    | none => true
  else true

/-- A write to NI_GOV_CAP stores the nearer end of its range (R319). -/
def govCapWrite (s : State) (d : Nat) (v : Word) : State :=
  s.setReg d NI_GOV_CAP (BitVec.ofNat 64 (min 480 (max 160 (bitsOf v 8 0))))

/-- NI_GOV_CAP_WRITE (R319): the governor reads it at the next round boundary. -/
def execNiGovCapWrite (d : Nat) (v : Word) (s : State) : Out := onUnit (isKind s d .compute) (govCapWrite s d v)

end Sys2Proof.Machine
end

