-- ==== Sys2Proof/Machine/Time.lean ====
section
/-! DEFINITION. Fabric time (R209 to R230), rounds (R231 to R233, R249, R250), panel clock changes (R174, R827), entry to
SERVICE (R780) and the time exchange (R221 to R225), with their commands. -/

namespace Sys2Proof.Machine

open Sys2Proof

/-! ## The time keeper -/

/-- The slew term of one cycle: it reduces the offset that remains (R210). -/
def slewTerm (slew : Int) : Int := if 0 < slew then -1 else if slew < 0 then 1 else 0

/-- One cycle of the reference (R210): 0.625 ns and the slew term. -/
def keeperTick (k : Keeper) : Keeper :=
  let t : Int := (k.ft.toNat * 65536 + k.frac.toNat + 0xA000 : Nat)
  let n := (t + slewTerm k.slew).toNat
  { k with ft := BitVec.ofNat 64 (n / 65536), frac := BitVec.ofNat 16 n, slew := k.slew + slewTerm k.slew }

/-- Set FT to a value in 2^-16 ns: a step (R212). -/
def keeperStep (k : Keeper) (fine : Int) : Keeper :=
  { k with ft := BitVec.ofInt 64 (fine / 65536), frac := BitVec.ofInt 16 fine, slew := 0 }

/-- Whether a round boundary has been reached that the slice has not yet taken (R231). (DEDUCED, log 8) -/
def boundaryDue (s : State) (d : Nat) : Bool := s.now d / roundNs != (s.keeper d).round

/-- A clock region in one cycle of the reference (R20, R231, R232): a clocked-down panel begins a cycle in at most every second one.
The first cycle of a round takes c from its boundary, and a stretched cycle that begins with the boundary is the new round's (R249). -/
def regionTick (crossing frozen : Bool) (k : Clk) (g : Region) : Region :=
  if k == .none || (g.down && g.fresh) then { g with fresh := false }
  else
    { g with cycles := g.cycles + 1, fresh := true, restart := false,
             c := if frozen then g.c else if g.restart then 0 else if crossing then g.c
               else min (g.c + 1) (if g.down then 2047 else 4095),
             stretch := g.stretch || (k == .stretched && !crossing),
             nextStretch := g.nextStretch || (k == .stretched && crossing) }

/-- Regions of a slice: two panels on a compute die, one on the others. -/
def panelsOf (s : State) (d : Nat) : List Nat := if isKind s d .compute then [0, 1] else [0]

/-- One cycle of a slice's reference (R210) with what its clock regions do in it. A new cycle begins: what software and hardware did to
the slice's registers in the last one is past (R30, R31). (DESIGN CHOICE, log 173) -/
def timeTick (s : State) (d : Nat) (w e : Clk) : State :=
  let s0 := { s with setNow := s.setNow.drop (fun k => k / 2 ^ 24 == d), wroteNow := s.wroteNow.drop (fun k => k / 2 ^ 24 == d) }
  let s1 := s0.setKeeper d (keeperTick (s0.keeper d))
  let crossing := s1.now d / roundNs != s.now d / roundNs
  (panelsOf s d).foldl (fun s p =>
    s.setRegion d p (regionTick crossing (s.halted.get none (d * 2 + p)).isSome (if p == 0 then w else e) (s.region d p))) s1

/-- TIME_KEEPER_TICK (R210). -/
def execTimeKeeperTick (d : Nat) (w e : Clk) (s : State) : Out := onUnit (dieExists s d) (timeTick s d w e)

/-! ## Round boundaries -/

/-- The slot-table rows of a slice's panel whose slots a round did not serve, as (router, output, entry, cause): those after
the last slot reached, and the odd entries of a clocked-down panel (R176, R232). -/
def missedSlots (s : State) (d panel : Nat) : List (Nat × Nat × Nat × Nat) :=
  let g := s.region d panel
  s.slotTab.rows.filterMap (fun r =>
    let e := r.1 % 512
    let o := r.1 / 512 % 8
    let p := r.1 / 4096 % 1024
    if r.1 / 4194304 != d || !r.2.getLsbD 0 || panelOf s d p != panel then none
    else if g.down then
      (if e % 2 == 1 then some (p, o, e, 3) else if g.c / 8 < e / 2 then some (p, o, e, 2) else none)
    else if g.c / 8 < e then some (p, o, e, 2) else none)

/-- A panel's half of a counter register: [63:32] east, [31:0] west or the whole slice (R264). -/
def bumpPanel (s : State) (d panel reg : Nat) : State :=
  if panel == 1 then s.bump d reg 63 32 1 else s.bump d reg 31 0 1

/-- Count the slots that a region's round did not serve (R176, R232). -/
def countSkipped (s : State) (d panel : Nat) : State :=
  if !(s.keeper d).roundsOn then s
  else
    let ms := missedSlots s d panel
    let s1 := ms.foldl (fun s m => countMiss s d m.1 m.2.1 m.2.2.1 m.2.2.2) s
    if ms.any (fun m => m.2.2.2 == 2) then bumpPanel s1 d panel TIM_MISS_ROUNDS else s1

/-- Released slots are forgotten at a round boundary (R235). -/
def clearReleased (s : State) (d : Nat) : State :=
  { s with routers := { rows := s.routers.rows.map (fun r =>
      if r.1 / 1024 == d then (r.1, { r.2 with arb := r.2.arb.rows.foldl (fun t a =>
        t.set {} a.1 { a.2 with released := 512, openSlot := 512 }) r.2.arb }) else r) } }

/-- The panel clock requests at a boundary: the second one after the write takes effect (R174, R208, R827). (DESIGN CHOICE, log 45) -/
def panelSwitch (s : State) (d : Nat) : State :=
  let q := s.panelReq.get {} d
  if q.wait == 0 then s
  else
    let s1 := { s with panelReq := s.panelReq.set {} d { q with wait := q.wait - 1 } }
    if q.wait != 1 then s1
    else [(0, q.west), (1, q.east)].foldl (fun s x =>
      let g := s.region d x.1
      s.setRegion d x.1 (if g.down == x.2 then g else { g with down := x.2, reqFt := s.fine d, ackLate := false })) s1

/-- One region's work at a boundary: stretched rounds, the new round, the end of a stop (R231, R249, R250). A halted region does none
of it until its stop is released. (DESIGN CHOICE, log 45) -/
def regionBoundary (s : State) (d panel : Nat) : State :=
  let g := s.region d panel
  let still := (s.halted.get none (d * 2 + panel)).isSome
  if still && !g.resume then s.setRegion d panel { g with stretch := false, nextStretch := false }
  else
    let was := !still && (g.down || g.stretch)
    let s1 := if was then bumpPanel s d panel TIM_STRETCH_ROUNDS else s
    let s2 := s1.setRegion d panel
      { g with stretch := g.nextStretch, nextStretch := false, lastStretch := was, resume := false,
               c := if g.fresh then 0 else g.c, restart := !g.fresh }
    if still then
      let s3 := { s2 with halted := s2.halted.set none (d * 2 + panel) none, catchShut := s2.catchShut.set false (d * 2 + panel) false }
      if isKind s d .memif then mpResume s3 d else s3
    else s2

/-- Entry to SERVICE (R62, R292, R294, R780). -/
def enterService (s : State) : State :=
  let s1 := { enterMode s .service with svcAt := none }
  let s2 := s1.setReg s.headDie TLR_SVC_STATUS (BitVec.ofNat 64 (s.now40 s.headDie * 2 ^ 24 + 2))
  (allDies s).foldl fillShapers s2

/-- The start of a round in a slice (R231): skipped slots, the governor, ROUNDS_ON (R233), a backup root's takeover (R219),
panel clocks, and, at the active service die, a pending entry to SERVICE. A halted region keeps its counters (R250, R701). -/
def roundBoundary (s : State) (d : Nat) : State :=
  let live := (panelsOf s d).filter (fun p => (s.halted.get none (d * 2 + p)).isNone)
  let s1 := live.foldl (fun s p => countSkipped s d p) s
  let s2 := if live.isEmpty then s1 else clearReleased (govRound s1 d) d
  let s3 := (panelsOf s d).foldl (fun s p => regionBoundary s d p) s2
  let s4 := panelSwitch s3 d
  let k := s4.keeper d
  let on := k.roundsOn || (k.lock && s.mode != .cold && s.mode != .test)
  let s5 := s4.setKeeper d { k with round := s.now d / roundNs, roundsOn := on, root := k.root || k.takeover, takeover := false }
  match s5.svcAt with
  | some t => if d == s5.headDie && t ≤ s5.now d then enterService s5 else s5
  | none => s5

/-- ROUND_BOUNDARY (R231): due when FT has reached a multiple of 2,560 ns. -/
def execRoundBoundary (d : Nat) (s : State) : Out :=
  onUnit (dieExists s d) (if boundaryDue s d then roundBoundary s d else s)

/-! ## Panel clocks (R827, R828) -/

/-- PNL_DOWN_ACK (R827): the panel runs at the requested rate. -/
def execPnlDownAck (d panel : Nat) (s : State) : Out :=
  let g := s.region d panel
  onUnit (isKind s d .compute && panel < 2) (s.setRegion d panel { g with ack := g.down })

/-- PNL_ACK_TIMEOUT (R827): 64 fc, 40 ns, after the request without an acknowledgement. -/
def execPnlAckTimeout (d panel : Nat) (s : State) : Out :=
  let g := s.region d panel
  onUnit (isKind s d .compute && panel < 2)
    (if g.ack != g.down && !g.ackLate && g.reqFt + 40 * 65536 ≤ s.fine d then
       faultRec (s.setRegion d panel { g with ackLate := true }) d 0x10 panel 0 0
     else s)

/-! ## The time root (R213 to R219) -/

/-- Whether a slice acts as pod root: ROLE 2 on the active service die, or a backup that has taken over (R219). -/
def actsAsRoot (s : State) (d : Nat) : Bool :=
  d == s.headDie && (s.fld d TIM_CFG 1 0 == 2 || (s.fld d TIM_CFG 1 0 == 3 && (s.keeper d).root))

/-- Byte `b` of the PTP buffer (R214). (DESIGN CHOICE, log 44) -/
def ptpByte (s : State) (d b : Nat) : Nat := s.fld d (TIM_PTP_BUF0 + 8 * (b / 8)) (8 * (b % 8) + 7) (8 * (b % 8))

/-- Bytes `b` to `b + n - 1` of the PTP buffer, big-endian. -/
def ptpBig (s : State) (d b n : Nat) : Nat := (List.range n).foldl (fun a i => a * 256 + ptpByte s d (b + i)) 0

/-- Whether the buffered message passes R214. -/
def ptpOk (s : State) (d : Nat) : Bool :=
  let ty := ptpByte s d 0 % 16
  ((ty == 0 && !natBit (ptpByte s d 6) 1) || ty == 8) && ptpByte s d 1 % 16 == 2 && natBit (ptpByte s d 7) 3

/-- The time of day a message states, in 2^-16 ns (R215). -/
def ptpToD (s : State) (d : Nat) : Int :=
  (((ptpBig s d 34 6) * 1000000000 + ptpBig s d 40 4) * 65536 : Nat) + signedOf 64 (ptpBig s d 8 8)

/-- Set LAST_RESULT (R262). -/
def ptpResult (s : State) (d r : Nat) : State := s.setFld d TIM_PTP_STATUS 3 1 r

/-- A submitted PTP message (R214, R215). -/
def ptpSubmit (s : State) (d : Nat) : State :=
  if !actsAsRoot s d then s
  else if ptpOk s d then s.setKeeper d { s.keeper d with tod := some (ptpToD s d), todAt := s.now d }
  else ptpResult (s.raise d TIM_EVENT 2) d 2

/-- PTP_SUBMIT (R214). -/
def execPtpSubmit (d : Nat) (s : State) : Out := onUnit (dieExists s d) (ptpSubmit s d)

/-- One microsecond in 2^-16 ns. -/
def microFine : Int := 65536000

/-- A PPS edge at the root (R213, R216, R217, R224). (DEDUCED, log 42) -/
def ppsEdge (s : State) (d : Nat) : State :=
  if !actsAsRoot s d then s
  else
    let k := { s.keeper d with lastPps := s.now d }
    let s1 := (s.setKeeper d k).setReg d TIM_PPS_STAMP k.ft
    match k.tod with
    | none => s1
    | some tod =>
      let off : Int := (k.ft.toNat * 65536 : Nat) - tod
      let k1 := { k with tod := none }
      if s.mode == .cold || s.mode == .test || s.mode == .train then
        ptpResult (s1.setKeeper d { keeperStep k1 tod with lock := true, holdover := false, lastPps := tod.toNat / 65536 }) d 1
      else if off ≤ microFine && -microFine ≤ off then
        ptpResult (s1.setKeeper d { k1 with slew := off, holdover := false }) d 1
      else ptpResult ((s1.setKeeper d k1).raise d TIM_EVENT 0) d 3

/-- PPS_EDGE (R216). -/
def execPpsEdge (d : Nat) (s : State) : Out := onUnit (dieExists s d) (ppsEdge s d)

/-- 1.1 s in ns (R217). -/
def ppsLimit : Nat := 1100000000

/-- No PPS edge for 1.1 s (R217); a pending time of day that has waited as long is given up (R262). (DEDUCED, log 43) -/
def ppsMissing (s : State) (d : Nat) : State :=
  let k := s.keeper d
  if !actsAsRoot s d || s.now d < k.lastPps + ppsLimit then s
  else
    let s1 := if k.tod.isSome && k.todAt + ppsLimit ≤ s.now d then
        ptpResult (s.setKeeper d { k with tod := none }) d 4 else s
    if k.holdover then s1 else (s1.setKeeper d { s1.keeper d with holdover := true }).raise d TIM_EVENT 1

/-- PPS_MISSING (R217). -/
def execPpsMissing (d : Nat) (s : State) : Out := onUnit (dieExists s d) (ppsMissing s d)

/-! ## Time exchange within a package (R221 to R225) -/

/-- XFER_PERIOD in rounds; 0 counts as 64 (R256). -/
def xferPeriod (s : State) (d : Nat) : Nat := if s.fld d TIM_CFG 31 24 == 0 then 64 else s.fld d TIM_CFG 31 24

/-- Count a new request of a child (R225). -/
def xferSent (k : Keeper) (round : Nat) : Keeper :=
  { k with seq := (k.seq + 1) % 256, waiting := true, noResp := if k.waiting then k.noResp + 1 else 0, lastXfer := round }

/-- A TIME_XFER request of slice `d` to its parent (R221, R222). -/
def xferRequest (s : State) (d seq : Nat) : Packet :=
  { hdr := (mkHdr 0x51 0 (fabricAddr (s.pkgOf d) (s.fld d TIM_CFG 22 16) 0 0 0) (ctlSrc s d)).setInl 367 360 seq }

/-- The periodic request of a follower, or, at a time master, of its stitch port, whose next free frame carries it (R221). A backup root
is a follower until its takeover (R219). -/
def xferPeriodic (s : State) (d : Nat) : State :=
  let k := s.keeper d
  let role := s.fld d TIM_CFG 1 0
  let round := s.now d / roundNs
  if role == 2 || actsAsRoot s d || round < k.lastXfer + xferPeriod s d then s
  else
    let k1 := xferSent k round
    if role == 1 then { s.setKeeper d k1 with timeReq := s.timeReq.set false d true }
    else sendAt (s.setKeeper d k1) d attCtl (xferRequest s d k1.seq)

/-- TIME_XFER_PERIOD (R221). -/
def execTimeXferPeriod (d : Nat) (s : State) : Out := onUnit (dieExists s d) (xferPeriodic s d)

/-- The parent's response to a request (R221, R222): T3 is filled in when it is injected. (DEDUCED, log 161) -/
def xferResponse (s : State) (d : Nat) (q : Hdr) : Packet :=
  let k := s.keeper d
  let h0 := mkHdr 0x51 0 (respDest q.src) (ctlSrc s d)
  let h1 := (((h0.setInl 463 424 (s.now40 d)).setInl 423 384 q.ft40.toNat).setInl 375 372 (s.ft16 d % 16)).setInl 371 368
    (q.inlBits 371 368)
  { hdr := ((h1.setInl 367 360 (q.inlBits 367 360)).setInl 357 356 (boolNat k.lock + 2 * boolNat k.holdover)).setInl 355 352 1 }

/-- A 40-bit difference of two instants in 1/16 ns, signed (R223). -/
def diff16 (a b : Nat) : Int := signedOf 44 ((a + 2 ^ 44 - b % 2 ^ 44) % 2 ^ 44)

/-- Theta and delay of an exchange, in 1/16 ns (R223). (DEDUCED, log 41) -/
def thetaDelay (t1 t2 t3 t4 : Nat) : Int × Int :=
  ((diff16 t1 t2 + diff16 t4 t3).fdiv 2, (diff16 t4 t1 - diff16 t3 t2).fdiv 2)

/-- Whether a slice relocks: its partition is in MEND at the RELOCK step (R212, R223, R681). -/
def relocking (s : State) (d : Nat) : Bool := stepOf s d == 7

/-- Take the result of an exchange into a child's keeper and registers (R223, R224, R225). -/
def applyExchange (s : State) (d : Nat) (theta delay : Int) (locked : Bool) : State :=
  let k := s.keeper d
  let thr : Int := (s.fld d TIM_CFG 39 32 : Nat)
  let near : Bool := theta ≤ thr && -thr ≤ theta
  let k1 := if (s.mode == .train || relocking s d) && !k.stepped then
      { keeperStep k ((s.fine d : Nat) - theta * 4096) with stepped := true }
    else { k with slew := theta * 4096 }
  let good := if near && locked then k.good + 1 else 0
  let bad := if near then 0 else k.bad + 1
  let lost := bad == 4 && k.lock
  let k2 := { k1 with good := good, bad := bad, waiting := false, noResp := 0,
                      lock := (k.lock || 8 ≤ good) && !lost, holdover := k.holdover && !near }
  let s1 := (s.setKeeper d k2).setReg d TIM_OFFSET (BitVec.ofNat 64 (twosOf 32 delay * 2 ^ 32 + twosOf 32 theta))
  if lost then s1.raise d TIM_EVENT 4 else s1

/-- A TIME_XFER response at its child (R223): taken when its SEQ is that of the last request. -/
def xferTake (s : State) (d : Nat) (h : Hdr) : State :=
  let k := s.keeper d
  if !k.waiting || h.inlBits 367 360 != k.seq then s
  else
    let t1 := h.inlBits 423 384 * 16 + h.inlBits 371 368
    let t2 := h.inlBits 463 424 * 16 + h.inlBits 375 372
    let t3 := h.ft40.toNat * 16 + h.inlBits 379 376
    let r := thetaDelay t1 t2 t3 (s.ft16 d)
    applyExchange s d r.1 r.2 (h.inlBits 356 356 == 1)

/-- PARENT_LOST (R225): three requests in a row without a response. (DEDUCED, log 43) -/
def parentLost (s : State) (d : Nat) : State :=
  let k := s.keeper d
  if k.noResp < 3 then s
  else
    let alt := s.fld d TIM_CFG 1 0 == 1 && s.flag d TIM_CFG 8
    (s.setKeeper d { k with noResp := 0, holdover := true, alt := k.alt || alt }).raise d TIM_EVENT 3

/-- PARENT_LOST (R225). -/
def execParentLost (d : Nat) (s : State) : Out := onUnit (dieExists s d) (parentLost s d)

/-- A read of TIM_FT: the value returned, and its fraction captured (R252). -/
def readFt (s : State) (d : Nat) : Word × State :=
  ((s.keeper d).ft, s.setReg d TIM_FT_FRAC (BitVec.ofNat 64 (s.keeper d).frac.toNat))

/-- TIM_FT_READ (R252). -/
def execTimFtRead (d : Nat) (s : State) : Out := onUnit (dieExists s d) (readFt s d).2

end Sys2Proof.Machine
end

