-- ==== Sys2Proof/Machine/Arrive.lean ====
section
/-! DEFINITION. The arrival of a packet at the attachment it is bound for: its units leave the wire behind the output, its
header is checked (R124, R125), and the statistics table counts it (R727). -/

namespace Sys2Proof.Machine

open Sys2Proof

/-- Whether an attachment stands behind an output of its own, and where: its router and port. -/
def sinkPort (s : State) (d att : Nat) : Option (Nat × Nat) := (attPort s d att).map (fun r => (r.1, r.2.1))

/-- Take an arriving packet's units off the wire behind its attachment's output, where they stand there; what waits behind the LOCAL
output of a tile's router belongs to earlier packets. (DEDUCED, log 32) -/
def offWire (s : State) (d att : Nat) (p : Packet) : State :=
  match sinkPort s d att with
  | none => s
  | some (q, o) =>
    let k := rk d q * 8 + o
    if o == portLocal && isKind s d .compute then s
    else match s.wires.get [] k with
    | [] => s
    | f :: fs =>
      if f.hdr == some p.hdr then { s with wires := s.wires.set [] k (fs.drop p.data.length) } else s

/-- The NI whose window counts what reaches an attachment (R42, R200): a tile's own, and those of the other dies' attachments; the AUX
attachments of a compute die and the stitch port have none. -/
def arrivalNi (s : State) (d att : Nat) : Option Nat :=
  if isKind s d .compute then (if att < 624 then some att else none)
  else if att == attStitch then none
  else (attPort s d att).map (fun r => r.2.2)

/-- Whether the NI of an attachment delivers: NI_CFG.ENABLE (R198); a tile's NI holds what comes in its ejection queue. (DEDUCED, log 46) -/
def delivers (s : State) (d att : Nat) : Bool :=
  match arrivalNi s d att with
  | some t => isKind s d .compute || s.flag d (niw t NI_CFG) 0
  | none => true

/-- A packet is taken off the wire for its engine and counted as delivered (R200); a tile's NI counts when it begins to deliver. -/
def takeArrival (s : State) (d att : Nat) (p : Packet) : State :=
  let s1 := offWire s d att p
  match arrivalNi s d att with
  | some t => if isKind s d .compute then s1 else s1.bump d (niw t NI_EJ_CNT) 47 0 1
  | none => s1

/-- A header whose check fails at an attachment is discarded, counted and recorded (R125, R200). -/
def badArrival (s : State) (d att : Nat) (p : Packet) : State :=
  let s1 := offWire s d att p
  let s2 := match arrivalNi s d att with
    | some t => s1.bump d (niw t NI_HCRC_ERR) 47 0 1
    | none => s1
  hcrcFault s2 d (att % 1024) p.hdr.vc.toNat p.hdr.tag.toNat

/-- Whether the output that leads to an attachment is hemmed for a header: nothing reaches it (R633, R634). -/
def attHemmed (s : State) (d att : Nat) (h : Hdr) : Bool :=
  match sinkPort s d att with
  | some (p, o) => hemmedFor s d p o h
  | none => false

/-- Whether an attachment exists. -/
def attExists (s : State) (d att : Nat) : Bool := (attPort s d att).isSome

/-- What comes before anything that a header says is looked at: nothing reaches an attachment that is halted, hemmed or not enabled, and a
failed header check discards the packet with a fault record (R124, R125, R198), whatever misuse its fields show (R12). -/
def headerChecked (s : State) (d att : Nat) (p : Packet) (act : Out) : Out :=
  if !attExists s d att then .fault .noSuchUnit
  else if attHalted s d att || attHemmed s d att p.hdr || !delivers s d att then .next s
  else if !p.hdr.crcOk then .next (badArrival s d att p)
  else act

/-- A packet of command `cmd` reaches attachment `att`: a failed header check discards the packet (R125), a misuse that the spec calls
undefined stops the model, and otherwise the engine acts on it. (DESIGN CHOICE, log 9) -/
def arriveAt (s : State) (d att cmd : Nat) (p : Packet) (act : State → Out) : Out :=
  headerChecked s d att p
    (if p.hdr.cmd.toNat != cmd then .fault .wrongCommand
     else match packetMisuse p with
       | some r => .fault (.undefinedMisuse r)
       | none => act (takeArrival s d att p))

/-- The arrival of a packet whose engine always goes on. -/
def arrive (s : State) (d att cmd : Nat) (p : Packet) (act : State → State) : Out :=
  arriveAt s d att cmd p (fun s => .next (act s))

end Sys2Proof.Machine
end

