-- ==== Sys2Proof/Machine/Sync.lean ====
section
/-! DEFINITION. The sync store (R443 to R469): objects, operations, watches, releases, locks, epoch pairs, breaks and
re-initialisation, with their commands. -/

namespace Sys2Proof.Machine

open Sys2Proof

/-! ## Objects (R446 to R448) -/

/-- Key of a sync object. -/
def ok (d o : Nat) : Nat := d * 16384 + o

/-- A sync object's 128 bits. -/
def State.sobj (s : State) (d o : Nat) : BitVec 128 := s.syncObj.get 0 (ok d o)

/-- Change a sync object. -/
def State.setSobj (s : State) (d o : Nat) (x : BitVec 128) : State := { s with syncObj := s.syncObj.set 0 (ok d o) x }

/-- TYPE (R447): 1 counter, 2 semaphore, 3 lock, 4 flag. -/
def objType (x : BitVec 128) : Nat := bitsOf x 127 125
/-- PAIRED. -/
def objPaired (x : BitVec 128) : Bool := x.getLsbD 124
/-- AUTO. -/
def objAuto (x : BitVec 128) : Bool := x.getLsbD 123
/-- WATCH_VALID. -/
def objWatched (x : BitVec 128) : Bool := x.getLsbD 122
/-- EPOCH. -/
def objEpoch (x : BitVec 128) : Nat := bitsOf x 121 114
/-- WATCH_MODE: 0 ONCE, 1 CHANGE, 2 PERSIST. -/
def objMode (x : BitVec 128) : Nat := bitsOf x 113 112
/-- WATCH, in SRC form. -/
def objWatch (x : BitVec 128) : BitVec 32 := BitVec.ofNat 32 (bitsOf x 95 64)
/-- VALUE. -/
def objValue (x : BitVec 128) : Nat := bitsOf x 63 0
/-- VALUE[31:0]: COUNT, OWNER or FVAL. -/
def objLow (x : BitVec 128) : Nat := bitsOf x 31 0
/-- VALUE[63:32]: TARGET, MAX or CMP. -/
def objHigh (x : BitVec 128) : Nat := bitsOf x 63 32
/-- HELD of a lock. -/
def lockHeld (x : BitVec 128) : Bool := x.getLsbD 32
/-- BROKEN of a lock. -/
def lockBroken (x : BitVec 128) : Bool := x.getLsbD 33

/-- The part of VALUE whose change a watch sees: HELD of a lock, COUNT or FVAL of the others (R451, R455). -/
def objSeen (x : BitVec 128) : Nat := if objType x == 3 then boolNat (lockHeld x) else objLow x

/-- FT[39:10] of a store (R448). -/
def lockTime (s : State) (d : Nat) : Nat := s.now d / 1024 % 2 ^ 30

/-- Hold time of a lock in units of 1,024 ns (R452, R464). -/
def holdTime (s : State) (d : Nat) (x : BitVec 128) : Nat := (lockTime s d + 2 ^ 30 - bitsOf x 63 34) % 2 ^ 30

/-- A lock made free, with BROKEN as given (R463). (DEDUCED, log 50) -/
def freeLock (x : BitVec 128) (broken : Bool) : BitVec 128 := setBits x 33 32 (2 * boolNat broken)

/-! ## Answers and notifications (R452, R455, R458) -/

/-- A notification to an object's watcher: RESULT, status and VALUE (R455, R458). -/
def notify (s : State) (d : Nat) (x : BitVec 128) (status result value : Nat) : State :=
  let h := mkHdr 0x06 3 (respDest (objWatch x)) (ctlSrc s d)
  sendAt s d attSync
    { hdr := { h with tag := BitVec.ofNat 16 (bitsOf x 111 96),
                      inl := BitVec.ofNat 128 (status % 256 + (result % 256 + value * 256) * 256) } }

/-- An answer to a request (R452). -/
def answer (s : State) (d : Nat) (h : Hdr) (result value : Nat) : State :=
  sendAt s d attSync (ackFor h (ctlSrc s d) 0 (result % 256 + value * 256))

/-- Whether the condition of an armed watch holds after an operation (R455). -/
def watchHolds (old new : BitVec 128) (released : Bool) : Bool :=
  if objMode new == 1 then objSeen old != objSeen new
  else if objMode new == 3 then false
  else match objType new with
    | 1 => released
    | 2 => 0 < objLow new
    | 3 => !lockHeld new
    | 4 => objHigh new ≤ objLow new
    | _ => false

/-- Write an object back after an operation and evaluate its watch where COUNT, FVAL or HELD changed (R451, R455). (DEDUCED, log 51) -/
def settle (s : State) (d o : Nat) (old new : BitVec 128) (released : Bool) : State :=
  if objWatched new && (released || objSeen old != objSeen new) && watchHolds old new released then
    let s1 := notify s d new 0 4 (objValue new)
    s1.setSobj d o (if objMode new == 0 then setBits new 122 122 0 else new)
  else s.setSobj d o new

/-! ## Operations (R449 to R463, R467) -/

/-- What an operation leaves: the object, its RESULT and VALUE, whether a release occurred, and whether the watch is to be
evaluated. -/
structure SyncRes where
  obj : BitVec 128
  result : Nat := 0
  value : Nat
  released : Bool := false
  deriving DecidableEq, Repr

/-- The release check of a counter (R459); `done` says that it has released without AUTO since its last INIT. -/
def releaseCheck (done : Bool) (x : BitVec 128) : BitVec 128 × Bool :=
  if objHigh x == 0 || objLow x < objHigh x then (x, false)
  else if objAuto x then
    let y := setBits x 31 0 (objLow x - objHigh x)
    (if objPaired x then setBits y 121 114 (objEpoch x + 2) else y, true)
  else (x, !done)

/-- ADD and ARRIVE (R451, R459). -/
def syncAdd (done : Bool) (x : BitVec 128) (n : Nat) : SyncRes :=
  if objType x == 1 then
    let r := releaseCheck done (setBits x 31 0 (objLow x + n))
    { obj := r.1, value := objValue r.1, released := r.2 }
  else
    let mx := if objHigh x == 0 then 2 ^ 32 - 1 else objHigh x
    let y := setBits x 31 0 (min (objLow x + n) mx)
    { obj := y, value := objValue y }

/-- TAKE (R451). -/
def syncTake (x : BitVec 128) (n : Nat) : SyncRes :=
  if n ≤ objLow x then
    let y := setBits x 31 0 (objLow x - n)
    { obj := y, value := objValue y }
  else { obj := x, result := 1, value := objValue x }

/-- ACQUIRE (R463); `t` is FT[39:10] and `hold` the hold time so far. -/
def syncAcquire (x : BitVec 128) (src : BitVec 32) (t hold : Nat) : SyncRes :=
  if lockHeld x then { obj := x, result := 1, value := objLow x + hold * 2 ^ 32 }
  else
    let y := setBits (setBits (setBits x 31 0 src.toNat) 33 32 1) 63 34 t
    { obj := y, result := if lockBroken x then 2 else 0, value := objValue y }

/-- UNLOCK (R463). -/
def syncUnlock (x : BitVec 128) (src : BitVec 32) : SyncRes :=
  if lockHeld x && objLow x == src.toNat then
    let y := freeLock x false
    { obj := y, value := objValue y }
  else { obj := x, result := 3, value := objValue x }

/-- SET and SET_MAX (R451). -/
def syncSet (x : BitVec 128) (v : Nat) : SyncRes :=
  let y := setBits x 31 0 v
  { obj := y, value := objValue y }

/-- INIT of VALUE (R451): a lock becomes free with BROKEN clear; the watch is cleared. (DEDUCED, log 50) -/
def initValue (x : BitVec 128) (v : Nat) : BitVec 128 :=
  setBits (if objType x == 3 then freeLock x false else setBits x 63 0 v) 122 122 0

/-- Whether an operation is permitted for a type (R451). -/
def syncTypeOk (cmd ty : Nat) : Bool :=
  if ty == 0 || 5 ≤ ty then false
  else match cmd with
    | 0x12 => ty == 1 || ty == 2
    | 0x13 => ty == 1
    | 0x14 => ty == 2
    | 0x15 => ty == 3
    | 0x16 => ty == 3
    | 0x17 => ty == 4
    | 0x18 => ty == 4
    | _ => true

/-- Whether a request is answered when it is performed (R451). -/
def syncAlways (cmd : Nat) : Bool := cmd == 0x10 || cmd == 0x14 || cmd == 0x15

/-- Whether a refused request is answered (R449, R451, R467). -/
def syncDue (cmd : Nat) (h : Hdr) : Bool :=
  syncAlways cmd || cmd == 0x19 || (syncAckReq h && cmd != 0x13)

/-- The object an operation acts on (R444, R467): for a paired object, the half of the packet's epoch parity. -/
def syncTarget (s : State) (d : Nat) (h : Hdr) : Nat :=
  let o := h.destOff / 16 % 16384
  if objPaired (s.sobj d o) then o / 2 * 2 + h.epoch.toNat % 2 else o

/-- Count and refuse an operation (R449, R467). -/
def syncRefuse (s : State) (d cmd o : Nat) (h : Hdr) (result : Nat) : State :=
  let s1 := if result == 5 then (s.bump d SYN_EPOCH_DROP 47 0 1).raise d SYN_EVENT 2 else s.raise d SYN_EVENT 3
  if syncDue cmd h then answer s1 d h result (objValue (s.sobj d o)) else s1

/-- Finish an operation: write the object, answer where due, and evaluate the watch (R451, R452, R455). (DEDUCED, log 51) -/
def syncFinish (s : State) (d cmd o : Nat) (h : Hdr) (r : SyncRes) : State :=
  let old := s.sobj d o
  let s1 := if !r.released then s
    else if objAuto old then { s with syncUsed := s.syncUsed.set false (ok d o) false }
    else { s with syncDone := s.syncDone.set false (ok d o) true }
  let s2 := if syncAlways cmd || (syncAckReq h && cmd != 0x13) then answer s1 d h r.result r.value else s1
  settle s2 d o old r.obj r.released

/-- An INIT ends the operations of the epoch that a half has served; those that come after it make VALUE unpredictable (R468). -/
def initEnds (s : State) (d o : Nat) : State :=
  let x := s.sobj d o
  if objPaired x && s.syncUsed.get false (ok d o) then
    { s with syncUsed := s.syncUsed.set false (ok d o) false, syncLeft := s.syncLeft.set none (ok d o) (some (objEpoch x)) }
  else s

/-- An operation of epoch `e` at a half (R468): where an INIT has fallen between the operations of that epoch, VALUE is free. -/
def epochOp (s : State) (d o e : Nat) : State :=
  let x := s.sobj d o
  if !objPaired x then s
  else if s.syncLeft.get none (ok d o) == some e then
    let (w, s1) := s.draw
    { (s1.setSobj d o (setBits x 63 0 w.toNat)) with syncLeft := s1.syncLeft.set none (ok d o) none }
  else if objEpoch x == e then { s with syncUsed := s.syncUsed.set false (ok d o) true }
  else s

/-- INIT (R451, R458): the watch ends with a CANCELLED notification, a paired half takes EPOCH from the packet. -/
def syncInitOp (s : State) (d o : Nat) (h : Hdr) : State :=
  let x := s.sobj d o
  let v := syncArg0 h + syncArg1 h * 2 ^ 32
  let y0 := initValue x v
  let y := if objPaired x then setBits y0 121 114 h.epoch.toNat else y0
  let s1 := { ((initEnds s d o).setSobj d o y) with syncDone := s.syncDone.set false (ok d o) false }
  let s2 := if objWatched x then notify s1 d x 0 7 (objValue y) else s1
  if syncAckReq h then answer s2 d h 0 (objValue y) else s2

/-- Whether a watch armed now fires at once (R455). -/
def firesAtOnce (x : BitVec 128) : Bool :=
  let m := objMode x
  match objType x with
  | 1 => m == 0 && objHigh x != 0 && objHigh x ≤ objLow x
  | 2 => (m == 0 || m == 2) && 0 < objLow x
  | 3 => (m == 0 || m == 2) && !lockHeld x
  | 4 => (m == 0 || m == 2) && objHigh x ≤ objLow x
  | _ => false

/-- WAIT (R454, R455). -/
def syncWaitOp (s : State) (d o : Nat) (h : Hdr) : State :=
  let x := s.sobj d o
  if objWatched x && objWatch x != h.src then answer s d h 1 (objValue x)
  else
    let s1 := if objWatched x then notify s d x 0 7 (objValue x) else s
    let y0 := if objType x == 4 then setBits x 63 32 (syncArg0 h) else x
    let y := setBits (setBits (setBits (setBits y0 95 64 h.src.toNat) 111 96 h.tag.toNat) 113 112 (syncArg1 h % 4)) 122 122 1
    if firesAtOnce y then
      (notify s1 d y 0 4 (objValue y)).setSobj d o (if objMode y == 0 then setBits y 122 122 0 else y)
    else s1.setSobj d o y

/-- CANCEL (R451): clears the watch of the sender, without notification. -/
def syncCancelOp (s : State) (d o : Nat) (h : Hdr) : State :=
  let x := s.sobj d o
  let y := if objWatched x && objWatch x == h.src then setBits x 122 122 0 else x
  let s1 := s.setSobj d o y
  if syncAckReq h then answer s1 d h 0 (objValue y) else s1

/-- Perform one operation on the object it is bound for (R451). -/
def syncPerform (s : State) (d cmd o : Nat) (h : Hdr) : State :=
  let x := s.sobj d o
  let fin := syncFinish s d cmd o h
  let done := s.syncDone.get false (ok d o)
  match cmd with
  | 0x10 => fin { obj := x, value := objValue x }
  | 0x11 => syncInitOp s d o h
  | 0x12 => fin (syncAdd done x (syncArg0 h))
  | 0x13 => fin (syncAdd done x (syncArg0 h))
  | 0x14 => fin (syncTake x (syncArg0 h))
  | 0x15 => fin (syncAcquire x h.src (lockTime s d) (holdTime s d x))
  | 0x16 => fin (syncUnlock x h.src)
  | 0x17 => fin (syncSet x (syncArg0 h))
  | 0x18 => fin (syncSet x (max (objLow x) (syncArg0 h)))
  | 0x19 => syncWaitOp s d o h
  | 0x1A => syncCancelOp s d o h
  | _ => s

/-- Whether a CE increments, or watches as a queue's tail, an object that is not allocated as a counter (R430): an ADD, or a WAIT in mode
CHANGE, that a CE has sent. -/
def ceMisuse (x : BitVec 128) (cmd : Nat) (h : Hdr) : Bool :=
  objType x != 1 && bitsOf h.src 1 0 == 1 && (cmd == 0x12 || (cmd == 0x19 && h.inlBits 385 384 == 1))

/-- An object that a CE misuses: its VALUE and its watch become free, and a waiter may be notified (R430). (DEDUCED, log 183) -/
def spoilObj (s : State) (d o : Nat) : State :=
  let (v, s1) := s.draw
  let (w, s2) := s1.draw
  let x := s2.sobj d o
  let y := setBits (setBits (setBits x 63 0 v.toNat) 113 64 w.toNat) 122 122 (bitsOf w 511 511)
  let s3 := s2.setSobj d o y
  if objWatched x && w.getLsbD 510 then notify s3 d x (bitsOf w 509 502) (bitsOf w 501 494) (objValue y) else s3

/-- One SYNC_OP at the store (R445, R449, R467, R470, R474). (DEDUCED, log 49) -/
def syncOp (s : State) (d cmd : Nat) (h : Hdr) : State :=
  let s0 := if cmd == 0x13 then
      (s.bump d SYN_ARRIVE_PKTS 47 0 1).bump d SYN_ARRIVE_SUM 47 0 (syncArg0 h) else s
  if !s.flag d SYN_CFG 0 || unitFenced s d 8 then s
  else
    let o := syncTarget s d h
    let s1 := if cmd == 0x11 then s0 else epochOp s0 d o h.epoch.toNat
    let x := s1.sobj d o
    let s2 := if objPaired x && cmd != 0x11 && objEpoch x != h.epoch.toNat then syncRefuse s1 d cmd o h 5
      else if !syncTypeOk cmd (objType x) then syncRefuse s1 d cmd o h 6
      else syncPerform (s1.bump d SYN_OPS 47 0 1) d cmd o h
    if ceMisuse x cmd h then spoilObj s2 d o else s2

/-- A SYNC_OP of command `cmd` arrives at the store of die `d` (R444). -/
def syncArrive (d cmd : Nat) (h : Hdr) (s : State) : Out :=
  arrive s d attSync cmd { hdr := h } (fun s => syncOp (statUpdate s d (partState s d) h) d cmd h)

/-- SYNC_READ (R451). -/
def execSyncRead (d : Nat) (h : Hdr) (s : State) : Out := syncArrive d 0x10 h s
/-- SYNC_INIT (R451, R458). -/
def execSyncInit (d : Nat) (h : Hdr) (s : State) : Out := syncArrive d 0x11 h s
/-- SYNC_ADD (R459). -/
def execSyncAdd (d : Nat) (h : Hdr) (s : State) : Out := syncArrive d 0x12 h s
/-- SYNC_ARRIVE (R461). -/
def execSyncArrive (d : Nat) (h : Hdr) (s : State) : Out := syncArrive d 0x13 h s
/-- SYNC_TAKE (R451). -/
def execSyncTake (d : Nat) (h : Hdr) (s : State) : Out := syncArrive d 0x14 h s
/-- SYNC_ACQUIRE (R463). -/
def execSyncAcquire (d : Nat) (h : Hdr) (s : State) : Out := syncArrive d 0x15 h s
/-- SYNC_UNLOCK (R463). -/
def execSyncUnlock (d : Nat) (h : Hdr) (s : State) : Out := syncArrive d 0x16 h s
/-- SYNC_SET (R451). -/
def execSyncSet (d : Nat) (h : Hdr) (s : State) : Out := syncArrive d 0x17 h s
/-- SYNC_SET_MAX (R451). -/
def execSyncSetMax (d : Nat) (h : Hdr) (s : State) : Out := syncArrive d 0x18 h s
/-- SYNC_WAIT (R454). -/
def execSyncWait (d : Nat) (h : Hdr) (s : State) : Out := syncArrive d 0x19 h s
/-- SYNC_CANCEL (R451). -/
def execSyncCancel (d : Nat) (h : Hdr) (s : State) : Out := syncArrive d 0x1A h s

/-! ## Lost locks (R463 to R465) -/

/-- Object numbers of a store's locks, ascending. -/
def lockObjects (s : State) (d : Nat) : List Nat :=
  s.syncObj.rows.filterMap (fun r => if r.1 / 16384 == d && objType r.2 == 3 then some (r.1 % 16384) else none)

/-- Take a lock from its owner: free with BROKEN set, watch evaluated (R463). -/
def loseLock (s : State) (d o : Nat) : State :=
  let x := s.sobj d o
  settle s d o x (freeLock x true) false

/-- Examine one held lock against the ceiling (R464). -/
def ceilingExamine (s : State) (d o : Nat) : State :=
  let x := s.sobj d o
  let c := s.fld d SYN_CFG 31 2
  if c != 0 && lockHeld x && c ≤ holdTime s d x then
    faultRec (((loseLock s d o).bump d SYN_CUTOFF 47 0 1).raise d SYN_EVENT 0) d 0x09 o 0 0
  else s

/-- LOCK_CEILING_EXAMINE (R464): every held lock of the store. -/
def execLockCeilingExamine (d : Nat) (s : State) : Out :=
  onUnit (isKind s d .compute)
    (if attHalted s d attSync then s else (lockObjects s d).foldl (fun s o => ceilingExamine s d o) s)

/-- Whether a lock's owner names a package and die (R465). -/
def ownedBy (x : BitVec 128) (pkg die : Nat) : Bool :=
  lockHeld x && bitsOf x 31 19 == pkg && bitsOf x 18 12 == die

/-- Break one lock (R463, R465). -/
def breakLock (s : State) (d o : Nat) : State := (loseLock s d o).raise d SYN_EVENT 1

/-- A write to SYN_BREAK starts a break (R465, R473). -/
def breakStart (s : State) (d : Nat) (v : Word) : State :=
  { s with syncBreak := s.syncBreak.set [] d (s.syncBreak.get [] d ++ [(bitsOf v 12 0, bitsOf v 19 13, 0)]) }

/-- SYN_BREAK (R465). -/
def execSynBreak (d : Nat) (v : Word) (s : State) : Out := onUnit (isKind s d .compute) (breakStart s d v)

/-- One examination of a break in progress: the next lock object, or, after the last, the locks acquired meanwhile and the
end of the break (R465). -/
def breakExamine (s : State) (d : Nat) : State :=
  match s.syncBreak.get [] d with
  | [] => s
  | (pkg, die, next) :: rest =>
    match (lockObjects s d).find? (fun o => next ≤ o) with
    | some o =>
      let s1 := if ownedBy (s.sobj d o) pkg die then breakLock s d o else s
      { s1 with syncBreak := s1.syncBreak.set [] d ((pkg, die, o + 1) :: rest) }
    | none =>
      let s1 := (lockObjects s d).foldl (fun s o => if ownedBy (s.sobj d o) pkg die then breakLock s d o else s) s
      { s1 with syncBreak := s1.syncBreak.set [] d rest }

/-- SYN_BREAK_EXAMINE (R465). -/
def execSynBreakExamine (d : Nat) (s : State) : Out :=
  onUnit (isKind s d .compute) (if attHalted s d attSync then s else breakExamine s d)

/-! ## Register and commit writes, re-initialisation -/

/-- A CSR write of an object's VALUE (R469). -/
def objLoWrite (s : State) (d o : Nat) (v : Word) : State :=
  let x := s.sobj d o
  match partState s d with
  | .cold | .test | .train | .fit => s.setSobj d o (setBits x 63 0 v.toNat)
  | .service =>
    let y := initValue x v.toNat
    if objType x == 0 then s.raise d SYN_EVENT 3
    else
    let s1 := { ((initEnds s d o).setSobj d o y) with syncDone := s.syncDone.set false (ok d o) false }
    if objWatched x then notify s1 d x 0 7 (objValue y) else s1
  | _ => s

/-- SYN_OBJ_LO_WRITE (R469). -/
def execSynObjLoWrite (d o : Nat) (v : Word) (s : State) : Out :=
  onUnit (isKind s d .compute && o < 16384) (objLoWrite s d o v)

/-- Write the allocation fields of an object: TYPE, PAIRED and AUTO (R469). -/
def objHiWrite (s : State) (d o : Nat) (v : Word) : State :=
  s.setSobj d o (setBits (s.sobj d o) 127 123 (bitsOf v 63 59))

/-- A SYNC record of a commit stream writes COUNT or FVAL (R479); the watch is evaluated (R455). -/
def objCommit (s : State) (d o v : Nat) : State :=
  let x := s.sobj d o
  if objType x == 0 || objType x == 3 then
    -- the object is unpredictable (R480)
    let (w, s1) := s.draw
    s1.setSobj d o (setBits x 63 0 w.toNat)
  else settle s d o x (setBits x 31 0 v) false

/-- Re-initialise one object from the pattern's allocation (R466): a lock is free with BROKEN set, and a watcher that `tell`
names receives FENCED (R458). -/
def objReinit (s : State) (d : Nat) (tell : BitVec 32 → Bool) (o : Nat) : State :=
  let x := s.sobj d o
  let s1 := if objWatched x && tell (objWatch x) then notify s d x 1 7 0 else s
  let y := s.syncInit.get 0 (ok d o)
  { (s1.setSobj d o (if objType y == 3 then freeLock y true else y)) with
    syncDone := s1.syncDone.set false (ok d o) false, syncUsed := s1.syncUsed.set false (ok d o) false,
    syncLeft := s1.syncLeft.set none (ok d o) none }

/-- Re-initialise a store (R466). -/
def syncReinit (s : State) (d : Nat) (tell : BitVec 32 → Bool) : State :=
  let os := (s.syncObj.rows ++ s.syncInit.rows).filterMap (fun r => if r.1 / 16384 == d then some (r.1 % 16384) else none)
  { os.eraseDups.foldl (fun s o => objReinit s d tell o) s with syncBreak := s.syncBreak.set [] d [] }

end Sys2Proof.Machine
end

