-- ==== Sys2Proof/Machine/Transfer.lean ====
section
/-! DEFINITION. Transfers of collective data (R399 to R408): how a sender cuts one into packets, what names it at its receiver,
when it is complete and whether its check value holds; and the group table (R383, R384) that senders and receivers read. -/

namespace Sys2Proof.Machine

open Sys2Proof

/-! ## The group table (R383, R384) -/

/-- A CE's record. -/
def State.ce (s : State) (d k : Nat) : Ce := s.ces.get {} (d * 8 + k)

/-- Change a CE's record. -/
def State.setCe (s : State) (d k : Nat) (c : Ce) : State := { s with ces := s.ces.set {} (d * 8 + k) c }

/-- The eight words of a group-table entry as one number, word 0 lowest. -/
def gtEntry (s : State) (d k e : Nat) : BitVec 512 :=
  BitVec.ofNat 512 (glue 64 ((List.range 8).map (fun w => ((s.ce d k).gt.get 0 (e * 8 + w)).toNat)))

/-- A group as one CE's entry describes it (R383). -/
structure Grp where
  valid : Bool
  mkind : Nat
  n : Nat
  tailObj : Nat
  qlog : Nat
  clog : Nat
  group : Nat
  qbase : BitVec 64
  cbase : BitVec 64
  p : Nat
  d : Nat
  m : Nat
  pi : Nat
  di : Nat
  defChunk : Nat
  treeValid : Bool
  tree : Nat
  upValid : Bool
  upCe : Nat
  upDie : Nat
  placeOff : Nat
  abortOff : Nat
  abortN : Nat
  barValid : Bool
  barObj : Nat
  barDie : Nat
  tmo : Nat
  hang : Nat
  deriving DecidableEq, Repr

/-- Field of word `w` of an entry. -/
def gw (x : BitVec 512) (w hi lo : Nat) : Nat := bitsOf x (64 * w + hi) (64 * w + lo)

/-- Read an entry (R383); CHUNK_TMO in ns and HANG in ns, 0 counting as 65,536 units. -/
def grpOf (x : BitVec 512) : Grp where
  valid := gw x 0 63 63 == 1
  mkind := gw x 0 62 61
  n := gw x 0 60 40
  tailObj := gw x 0 39 26
  qlog := gw x 0 25 22
  clog := gw x 0 21 18
  group := gw x 0 15 0
  qbase := BitVec.ofNat 64 (gw x 1 63 0)
  cbase := BitVec.ofNat 64 (gw x 2 63 0)
  p := gw x 3 63 50
  d := gw x 3 49 43
  m := gw x 3 42 33
  pi := gw x 3 32 20
  di := gw x 3 19 14
  defChunk := gw x 4 51 48
  treeValid := gw x 4 47 47 == 1
  tree := gw x 4 46 37
  upValid := gw x 4 36 36 == 1
  upCe := gw x 4 35 33
  upDie := gw x 4 32 26
  placeOff := gw x 4 25 0
  abortOff := gw x 5 57 32
  abortN := gw x 5 30 24
  barValid := gw x 6 53 53 == 1
  barObj := gw x 6 52 39
  barDie := gw x 6 38 32
  tmo := (if gw x 6 31 16 == 0 then 65536 else gw x 6 31 16) * 100
  hang := (if gw x 6 15 0 == 0 then 65536 else gw x 6 15 0) * 1000

/-- The group of entry `e`. -/
def State.grp (s : State) (d k e : Nat) : Grp := grpOf (gtEntry s d k e)

/-- The valid entry of a CE for a group number. -/
def entryOf (s : State) (d k group : Nat) : Option Nat :=
  (List.range 64).find? (fun e => let g := s.grp d k e; g.valid && g.group == group)

/-- Round up to a multiple of 64. -/
def up64 (n : Nat) : Nat := (n + 63) / 64 * 64

/-- The key of a byte of a CE's staging: on a port die it lies CE_STAGE_CFG.BASE into the SRAM that the four CEs share (R432, R839). -/
def stageAt (s : State) (d k off : Nat) : Nat :=
  if isKind s d .port then stageKey d 8 (s.fld d (cew k CE_STAGE_CFG) 25 0 + off) else stageKey d k off

/-- A little-endian number of `n` bytes in a CE's staging. -/
def stageNat (s : State) (d k off n : Nat) : Nat := natOfBytes (readBytes s.mem (stageAt s d k off) n)

/-- Logical tile (x, y) of member `m` (R384). -/
def memberTile (s : State) (d k : Nat) (g : Grp) (m : Nat) : Nat × Nat :=
  let w := stageNat s d k (g.placeOff + 2 * m) 2
  (w % 32, w / 256 % 32)

/-- Start of the die-place table. -/
def diePlaceOff (g : Grp) : Nat := up64 (g.placeOff + (if g.mkind == 0 then 2 * g.m else 0))

/-- Die and home CE of a die block of this package block (R384). -/
def diePlace (s : State) (d k : Nat) (g : Grp) (di : Nat) : Nat × Nat :=
  let w := stageNat s d k (diePlaceOff g + 4 * di) 4
  (w % 128, w / 128 % 8)

/-- Package, die and package CE of a package block (R384). -/
def pkgPlace (s : State) (d k : Nat) (g : Grp) (pi : Nat) : Nat × Nat × Nat :=
  let w := stageNat s d k (up64 (diePlaceOff g + 4 * g.d) + 4 * pi) 4
  (w % 8192, w / 8192 % 128, w / 2 ^ 20 % 8)

/-- The fabric address of a CE (R403). -/
def ceAddr (a : Nat × Nat × Nat) : BitVec 64 := fabricAddr a.1 a.2.1 0 0 (2 ^ 33 + a.2.2 * 2 ^ 30)

/-- The physical NI that serves a logical tile. -/
def niOf (s : State) (d : Nat) (t : Nat × Nat) : Nat := tileRouter s d t.1 t.2

/-- The first rank of the die block of a CE (R375). -/
def firstRank (g : Grp) : Nat := (g.pi * g.d + g.di) * g.m

/-- The CE of a die whose die block holds the tile of NI `p` in a group: the CE that its send engine reports to (R377, R381). -/
def homeCeOf (s : State) (d group p : Nat) : Option (Nat × Nat) :=
  (List.range 8).findSome? (fun k => (entryOf s d k group).bind (fun e =>
    let g := s.grp d k e
    if g.mkind == 0 && (List.range g.m).any (fun m => niOf s d (memberTile s d k g m) == p) then some (k, e) else none))

/-! ## Cutting a transfer into packets (R399 to R401) -/

/-- Units of a packet image: 32, or 17 for FMT 7 (R107, R108, R399). -/
def imageUnits (fmt : Nat) : Nat := if fmt == 7 then 17 else 32

/-- Cut a list into groups of `n`; at most `fuel` groups. -/
def groupsOf {α : Type} (n : Nat) : Nat → List α → List (List α)
  | 0, _ => []
  | fuel + 1, xs => if xs.isEmpty then [] else xs.take n :: groupsOf n fuel (xs.drop n)

/-- The walk over the blocks of a sparse transfer (R400): for each packet the first block of its extent and the present blocks
in it, until the extent reaches `n` blocks. -/
def sparseWalk (n : Nat) : Nat → Nat → List (Nat × DataUnit) → List (Nat × List (Nat × DataUnit))
  | 0, _, _ => []
  | fuel + 1, start, bs =>
    if n ≤ start then []
    else
      let here := (bs.filter (fun b => start ≤ b.1 && b.1 < start + 512)).take 31
      let stop := if here.length == 31 then (here.getLast?.map (·.1 + 1)).getD n else start + 512
      (start, here) :: sparseWalk n fuel stop (bs.filter (fun b => stop ≤ b.1))

/-- Data units of one sparse packet: the bitmap and the present blocks (R93, R400). -/
def sparsePayload (start : Nat) (bs : List (Nat × DataUnit)) : List DataUnit :=
  BitVec.ofNat 512 ((bs.map (fun b => 2 ^ (b.1 - start))).sum) :: bs.map (·.2)

/-- The payloads of a transfer of `n` units, with the unit at which each starts. Units come by index; a dense transfer brings
every index. -/
def payloads (sparse : Bool) (fmt n : Nat) (us : List (Nat × DataUnit)) : List (Nat × List DataUnit) :=
  if sparse then
    let coded := (us.map (fun u => (u.1, dropNegZero fmt u.2))).filter (fun u => u.2 != 0)
    (sparseWalk n 1024 0 coded).map (fun w => (w.1, sparsePayload w.1 w.2))
  else
    let k := imageUnits fmt
    let gs := groupsOf k 1024 (us.map (·.2))
    (List.range gs.length).map (fun i => (k * i, gs.getD i []))

/-- The packets of a transfer (R401, R404): `h` is the header every packet starts from, with the chunk number in CHUNK; `step`
says whether DEST moves on with the data, and A2A_DATA carries UNIT. -/
def buildTransfer (h : Hdr) (n : Nat) (us : List (Nat × DataUnit)) (step : Bool) : List Packet :=
  let ps := payloads h.sparse h.fmt.toNat n us
  let crc := crc64 (ps.flatMap (·.2))
  (List.range ps.length).map (fun i =>
    let x := ps.getD i (0, [])
    let last := i + 1 == ps.length
    let h1 : Hdr := { h with
      len := BitVec.ofNat 6 x.2.length,
      chunk := BitVec.ofNat 24 (h.chunk.toNat / 512 * 512 + i),
      dest := if step then h.dest + BitVec.ofNat 64 (64 * x.1) else h.dest,
      flags := BitVec.ofNat 7 (Nat.lor (Nat.land h.flags.toNat 0x67) (16 + 8 * boolNat last)) }
    let h2 := if h.cmd == 0x31 then h1.setInl 395 372 (h.inlBits 395 372 + x.1) else h1
    { hdr := if last then h2.setInl 479 416 crc.toNat else h2, data := x.2 })

/-! ## Receiving a transfer (R401 to R408) -/

/-- The key of the transfer that a packet belongs to (R404). -/
def xkeyOf (h : Hdr) : XKey :=
  let cmd := h.cmd.toNat
  if 0x40 ≤ cmd then
    { cmd := cmd, group := h.group.toNat, tag := h.tag.toNat, chunk := chunkNo h, a := spanFirst h, b := spanLast h }
  else
    { cmd := cmd, group := h.group.toNat, tag := h.tag.toNat, chunk := chunkNo h, a := h.inlBits 371 352, src := h.src }

/-- Whether a transfer under retry named `k` covers the packets of transfer `x`: the same one, or a span within it (R406). -/
def underRetry (k x : XKey) : Bool :=
  k.cmd == x.cmd && k.group == x.group && k.tag == x.tag && k.chunk == x.chunk &&
    (if 0x40 ≤ k.cmd then k.a ≤ x.a && x.b ≤ k.b else k.a == x.a && k.src == x.src)

/-- Whether a packet is to be discarded because its transfer is under retry and its stamp precedes the resend instant (R406). -/
def stale (retry : List (XKey × Nat)) (now : Nat) (h : Hdr) : Bool :=
  retry.any (fun r => underRetry r.1 (xkeyOf h) && ft40Full now h.ft40.toNat < r.2)

/-- Add a packet, which arrived at `now`, to the transfers being received. -/
def rxAdd (rx : List Xfer) (now : Nat) (p : Packet) : List Xfer :=
  let k := xkeyOf p.hdr
  if rx.any (fun x => x.key == k) then
    rx.map (fun x => if x.key == k then
      { x with pks := p :: x.pks.filter (fun q => packetIx q.hdr != packetIx p.hdr),
               lastFt := if p.hdr.last then now else x.lastFt } else x)
  else rx ++ [{ key := k, epoch := p.hdr.epoch.toNat, pks := [p], firstFt := now, lastFt := now }]

/-- The packets of a transfer in packet-index order when all have arrived (R401). -/
def rxWhole (x : Xfer) : Option (List Packet) :=
  match x.pks.find? (fun p => p.hdr.last) with
  | none => none
  | some z =>
    let ps := (List.range (packetIx z.hdr + 1)).filterMap (fun i => x.pks.find? (fun p => packetIx p.hdr == i))
    if ps.length == packetIx z.hdr + 1 then some ps else none

/-- Whether a whole transfer's check value holds (R401, R402); one without CHK fails (R126). -/
def rxOk (ps : List Packet) : Bool :=
  match ps.getLast? with
  | some z => z.hdr.chk && hdrCheck z.hdr == crc64 (ps.flatMap (·.data))
  | none => false

/-- The units of a transfer by index, placed by repeating the walk (R400). -/
def rxUnits (ps : List Packet) : List (Nat × DataUnit) :=
  match ps with
  | [] => []
  | p :: _ =>
    if p.hdr.sparse then
      (ps.foldl (fun (a : Nat × List (Nat × DataUnit)) q =>
        let bs := sparseBlocks q.hdr.fmt.toNat q.data
        let stop := if bs.length == 31 then (bs.getLast?.map (·.1 + 1)).getD 512 else 512
        (a.1 + stop, a.2 ++ bs.map (fun b => (a.1 + b.1, b.2)))) (0, [])).2
    else
      let us := ps.flatMap (·.data)
      List.zip (List.range us.length) us

end Sys2Proof.Machine
end

