-- ==== Sys2Proof/Machine/Ni.lean ====
section
/-! DEFINITION. The network interfaces: injection and route formation (R121, R142 to R148, R185, R237, R301), the tile port
(R805 to R813), delivery to a tile with the generation hold (R117 to R119), tile reads (R809), twin copies (R648 to R650, R810)
and the send engine of a tile (R381, R382, R417). -/

namespace Sys2Proof.Machine

open Sys2Proof

/-- An NI's record. -/
def State.ni (s : State) (d p : Nat) : Ni := s.nis.get {} (rk d p)

/-- Change an NI's record. -/
def State.setNi (s : State) (d p : Nat) (n : Ni) : State := { s with nis := s.nis.set {} (rk d p) n }

/-- Whether `p` is a tile NI of a compute die. -/
def isTile (s : State) (d p : Nat) : Bool := isKind s d .compute && p < 624

/-- Logical column and row of a tile NI (R198). -/
def niTile (s : State) (d p : Nat) : Nat × Nat := (s.fld d (niw p NI_CFG) 12 8, s.fld d (niw p NI_CFG) 20 16)

/-- SRC of the tile behind an NI (R81, R807). -/
def niSrc (s : State) (d p : Nat) : BitVec 32 := tileSrc s d (niTile s d p).1 (niTile s d p).2

/-- Whether a tile is in reset (R813): before TEST, and from RESET to REJOIN of its partition's mend. -/
def tileInReset (s : State) (d : Nat) : Bool :=
  s.mode == .cold || (match partitionOf s d with
    | some q => s.tileReset.get false q
    | none => false)

/-! ## Route formation (R144 to R147) -/

/-- The route that an entry selects (R144, R147). -/
def routeSel (e : BitVec 128) : BitVec 48 :=
  BitVec.ofNat 48 (if e.getLsbD 113 then bitsOf e 111 64 else bitsOf e 47 0)

/-- The route fields of a header at NI table `t`; none when no route is held (R147). -/
def formRoute (s : State) (d t : Nat) (h : Hdr) : Option Hdr :=
  let entry := fun (e : Nat) => s.routeTab.get 0 (rk d t * 128 + e)
  if h.mcast then
    some { h with routeLocal := BitVec.ofNat 48 (bitsOf h.routeLocal 15 0), routePkg := 0, routeDest := 0 }
  else if h.destPkg == s.pkgOf d then
    let e := entry h.destDie
    if e.getLsbD 48 then some { h with routeLocal := routeSel e, routePkg := 0, routeDest := 0 } else none
  else
    let st := s.routeStore.get 0 (d * 8192 + h.destPkg)
    let e := entry (100 + bitsOf st 26 24)
    let a := s.arrivalTab.get 0 ((d * 8 + bitsOf st 29 27) * 128 + h.destDie)
    if st.getLsbD 31 && e.getLsbD 48 && a.getLsbD 48 then
      some { h with routeLocal := routeSel e, routePkg := BitVec.ofNat 24 (bitsOf st 23 0),
                    routeDest := BitVec.ofNat 48 (bitsOf a 47 0) }
    else none

/-! ## Injection (R121, R123, R142, R301) -/

/-- The gate point that governs an attachment's injections, if any (R286). -/
def attGate (s : State) (d att : Nat) : Option Nat :=
  if 1024 ≤ att && att < 1032 && hasGate s d (att - 1024) then some (att - 1024) else none

/-- The span of a packet of LEN `len` at a CE, one unit in each fc, in 2^-16 ns; a clocked-down panel's fc is 1.25 ns (R20, R244). -/
def fcSpan (down : Bool) (len : Nat) : Nat := (1 + len) * (if down then 81920 else 40960)

/-- Whether a CE's gate point lets a packet of VC `v` begin (R244, R270). -/
def gateLets (s : State) (d att g v len : Nat) : Bool :=
  gatePermits s d g v (fcSpan (s.region d (attPanel s d att)).down len) && (v == 0 || shaperOk s d g v)

/-- Whether the burst of another VC holds a CE's gate point (R286): its queue still requests, and neither its gate entry nor its shaper
ends the burst. A packet of VC0 goes in its reserved slot all the same (R237). (DEDUCED, log 83) -/
def burstHolds (s : State) (d att g v : Nat) : Bool :=
  match s.bursts.get 0 (gk d g) with
  | 0 => false
  | w + 1 => v != 0 && w != v && (match s.inj.get [] (ik d att w) with
    | [] => false
    | q :: _ => gateLets s d att g w q.pk.hdr.len.toNat)

/-- Whether the mend of its partition withholds a packet from injection (R681): those of the NIs and CEs on VC1 to VC4, but not those of
the control attachment, whose SRC has engine select 2 (R688). -/
def mendHolds (s : State) (d v : Nat) (h : Hdr) : Bool := inMend s d && 1 ≤ v && v ≤ 4 && h.srcEng != 2

/-- What a route patch holds ORDERED packets for (R185): packets to a die of this package by its number, to package P by 128 + P, to
a die of another package by 2^14 + die, and to another package by exit entry q as 2^15 + q. -/
def heldBy (s : State) (d code : Nat) (h : Hdr) : Bool :=
  let own := h.destPkg == s.pkgOf d
  if code < 128 then own && h.destDie == code
  else if code < 2 ^ 14 then !own && h.destPkg == code - 128
  else if code < 2 ^ 15 then !own && h.destDie == code - 2 ^ 14
  else !own && bitsOf (s.routeStore.get 0 (d * 8192 + h.destPkg)) 26 24 == code - 2 ^ 15

/-- Whether an ORDERED packet waits for the drain after a route patch (R185). -/
def drainHolds (s : State) (d att : Nat) (h : Hdr) : Bool :=
  h.ordered && (s.orderHold.get [] (d * 4096 + att)).any (fun x => heldBy s d x.1 h)

/-- Whether an attachment injects at all: an NI of a tile or of a die without tiles follows NI_CFG.ENABLE (R198). (DEDUCED, log 46) -/
def injects (s : State) (d att t : Nat) : Bool :=
  if att == attStitch || (isKind s d .compute && 624 ≤ att) then true else s.flag d (niw t NI_CFG) 0

/-- The header that an injection puts on the wire: its own SRC for a tile, SLOT, FT40, STRETCH and HCRC (R79, R80, R121, R123,
R807). TIME_XFER carries its fractions (R222). (DEDUCED, log 31) A slice without LOCK stamps nothing but its time exchange (R251). A packet
whose FT40 is no stamp of this injection, a forwarded ABORT (R424) or a CHUNK_NACK (R404), has STRETCH by this region's round. (DESIGN
CHOICE, log 179) -/
def injectHdr (s : State) (d att : Nat) (r : Region) (h : Hdr) : Hdr :=
  let slot := h.vc == 0 && (s.keeper d).roundsOn
  let stamps := (s.keeper d).lock || h.cmd == 0x51
  let keep := h.cmd == 0x34 || h.cmd == 0x35 || !stamps
  let flags := Nat.land h.flags.toNat 0x1F + 32 * boolNat slot + 64 * boolNat (stamps && stretchNow r)
  let h1 : Hdr := { h with flags := BitVec.ofNat 7 flags, src := if att < 624 && isKind s d .compute then niSrc s d att else h.src,
                           ft40 := if keep then h.ft40 else BitVec.ofNat 40 (s.now40 d) }
  let frac := s.ft16 d % 16
  let h2 := if h.cmd == 0x51 then (if h.inlBits 355 352 == 0 then h1.setInl 371 368 frac else h1.setInl 379 376 frac) else h1
  h2.seal

/-- Whether a VC0 packet may go now: best effort before ROUNDS_ON, and then only in a reserved entry of its output whose IN_PORT
is its own (R233, R237). (DEDUCED, log 35) -/
def slotTime (s : State) (d p port : Nat) (h : Hdr) (f : Flit) : Bool :=
  if h.vc != 0 || !(s.keeper d).roundsOn then true
  else
    let e := curEntry (s.regionOf d p)
    match outsOf s d p port h f with
    | some ([o], _) =>
      slotReserved s d p o e && slotInPort s d p o e == port && ((s.router d p).out o).released != e
    | _ => false

/-- Whether the injection input of a router takes a new packet on a VC: its latch is free, no earlier packet streams in, and the
VC's buffer has room (R140, R142). -/
def inputFree (s : State) (d p port v : Nat) : Bool :=
  (((s.router d p).link port).latch).isNone && ((s.router d p).buf port v).length < 8 &&
    (List.range 6).all (fun w => (s.stream.get [] ((rk d p * 8 + port) * 8 + w)).isEmpty)

/-- Place an injected packet: its header in the input latch, its data units behind it (R136, R142). -/
def placePacket (s : State) (d p port v : Nat) (h : Hdr) (f : Flit) (data : List DataUnit) : State :=
  let r := s.router d p
  let la := match outsOf s d p port h f with
    | some ([o], _) => o
    | _ => portNone
  let fl := { f with vc := v, hdr := some h, last := data.isEmpty, laOut := la }
  let rest := (List.range data.length).map (fun j => ({ vc := v, data := data.getD j 0, last := j + 1 == data.length } : Flit))
  let s1 := s.setRouter d p (r.setLink port { r.link port with latch := some fl })
  { s1 with stream := s1.stream.set [] ((rk d p * 8 + port) * 8 + v) rest }

/-- Whether the first packet of an injection queue may be granted now, apart from its route (R142, R185, R244, R270, R301, R681). (DEDUCED, log 35; DEDUCED, log 46) -/
def mayInject (s : State) (d att p port t v : Nat) (h : Hdr) : Bool :=
  injects s d att t && !isHalted s d p && !panelWaits (s.regionOf d p) && !mendHolds s d v h && inputFree s d p port v &&
    !drainHolds s d att h && govPermits s d att v &&
    (match attGate s d att with
     | some g => gateLets s d att g v h.len.toNat && !burstHolds s d att g v
     | none => true)

/-- An NI takes orders from the order bus while it holds fewer than 4 (R380). -/
def takeOrders (n : Ni) : Ni := { n with orders := n.orders ++ n.bus.take (4 - n.orders.length), bus := n.bus.drop (4 - n.orders.length) }

/-- The send order at work is complete: its report goes to its CE (R381). -/
def orderDone (s : State) (d p : Nat) (r : Report) : State :=
  let n := s.ni d p
  s.setNi d p (takeOrders { n with orders := n.orders.drop 1, reports := n.reports ++ [r] })

/-- Take the first packet off an injection queue; with the last packet of a send order the order is complete (R381). -/
def dequeue (s : State) (d att v : Nat) : State :=
  let k := ik d att v
  let s1 := { s with inj := s.inj.set [] k ((s.inj.get [] k).drop 1) }
  match s.inj.get [] k with
  | q :: _ => (match q.ends with
    | some r => orderDone s1 d att r
    | none => s1)
  | [] => s1

/-- Note a request of a tile or tailor core whose response carries its TAG; one that reuses an outstanding TAG spoils both responses'
data (R88). The TAGs from 0xC000 on of a control attachment are its hardware's own (log 47). -/
def noteTag (s : State) (d att : Nat) (h : Hdr) : State :=
  let t := h.tag.toNat
  if (isTile s d att || (att == attCtl && t < 0xC000)) && (h.cmd == 0x02 || h.cmd == 0x04 || h.cmd == 0x60) then
    let k := d * 4096 + att
    let l := s.outTags.get [] k
    let again := l.contains t || l.contains (t + 65536)
    { s with outTags := s.outTags.set [] k (l.map (fun x => if x == t then t + 65536 else x) ++ [if again then t + 65536 else t]) }
  else s

/-- A response comes back to a tile or tailor core: its data is free where its TAG was reused (R88). -/
def takeTag (s : State) (d att : Nat) (p : Packet) : Packet × State :=
  let t := p.hdr.tag.toNat
  let k := d * 4096 + att
  let l := s.outTags.get [] k
  if !(p.hdr.cmd == 0x05 || p.hdr.cmd == 0x06 || p.hdr.cmd == 0x62) then (p, s)
  else if l.contains (t + 65536) then
    let r := drawUnits { s with outTags := s.outTags.set [] k (l.erase (t + 65536)) } p.data.length
    let h := if p.hdr.cmd == 0x62 then p.hdr.setInl 415 352 (bitsOf r.2.draw.1 63 0) else p.hdr
    ({ hdr := h, data := r.1 }, if p.hdr.cmd == 0x62 then r.2.draw.2 else r.2)
  else (p, { s with outTags := s.outTags.set [] k (l.erase t) })

/-- Count an injection: NI_INJ_CNT, the header in the permit of the round, the shaper and burst of the gate point, the outstanding TAG and
the probe at the injecting point (R88, R200, R286, R290, R301, R723). Data units count as they enter the router. -/
def countInjected (s0 : State) (d att t v : Nat) (h : Hdr) : State :=
  let s := noteTag s0 d att h
  let s1 := match kindOf s d with
    | some k => if niExists k t then s.bump d (niw t NI_INJ_CNT) 47 0 1 else s
    | none => s
  let s2 := if v == 1 || v == 2 || v == 4 then
      { s1 with injCount := s1.injCount.set 0 (d * 4096 + att) (injUsed s1 d att + 1) } else s1
  match attGate s d att with
  | some g =>
    let left := s2.inj.get [] (ik d att v)
    let s3 := if v == 0 then s2 else { s2 with bursts := s2.bursts.set 0 (gk d g) (if left.isEmpty then 0 else v + 1) }
    probeEval (shaperCharge s3 d g v h.len.toNat) d 4 (att - 1024) 0 0 h
  | none => if att < 624 then probeEval s2 d 2 att 0 0 h else s2

/-- The governor withholds a header that is otherwise ready (R323). -/
def noteWithheld (s : State) (d att v : Nat) : State :=
  if govPermits s d att v then s else { s with govs := s.govs.set {} d { s.gov d with withheld := true } }

/-- The units of a packet as an ejection queue holds them; they owe no credit. -/
def packetFlits (p : Packet) : List Flit :=
  { vc := p.hdr.vc.toNat, hdr := some p.hdr, last := p.data.isEmpty, cred := false } ::
    (List.range p.data.length).map (fun j =>
      { vc := p.hdr.vc.toNat, data := p.data.getD j 0, last := j + 1 == p.data.length, cred := false })

/-- Whether a packet of a port-die CE takes the CE's port path: it leaves by this die's own stitch port (R510, R537), and follows no tree
(R155). (DEDUCED, log 82) -/
def takesPortPath (s : State) (d att : Nat) (h : Hdr) : Bool :=
  1024 ≤ att && isKind s d .port && !h.mcast && h.destPkg != s.pkgOf d &&
    (dieInfo s d).map (·.sport) == some (bitsOf (s.routeStore.get 0 (d * 8192 + h.destPkg)) 26 24)

/-- Hand a packet to the stitch port over the CE's port path: it stands behind router 12's LOCAL output as the others do (R510). The path has
no slots, so SLOT stays clear (R79). (DEDUCED, log 82) -/
def portPath (s : State) (d att t v : Nat) (h0 : Hdr) (data : List DataUnit) : State :=
  let h1 := injectHdr s d att (s.regionOf d t) h0
  let h := { h1 with flags := h1.flags &&& 0x5F#7 }.seal
  let s1 := countInjected (dequeue s d att v) d att t v h
  let k := rk d 12 * 8 + portLocal
  { s1 with wires := s1.wires.set [] k (s1.wires.get [] k ++ packetFlits { hdr := h, data := data }) }

/-- Inject the first whole packet of an attachment's queue on VC `v` (R142). -/
def niInject (s : State) (d att v : Nat) : State :=
  match attPort s d att, s.inj.get [] (ik d att v) with
  | some (p, port, t), q :: _ =>
    let h := q.pk.hdr
    if !mayInject s d att p port t v h then noteWithheld s d att v
    else if att < 624 && isKind s d .compute && h.cmd == 0x63 then dequeue s d att v
    else if isTile s d att && tileFenced s d att then countHemDrop (dequeue s d att v) d p h
    else if att == attStitch then
      let slot := v == 0 && (s.keeper d).roundsOn
      let h1 := ({ h with flags := BitVec.ofNat 7 (Nat.land h.flags.toNat 0x5F + 32 * boolNat slot) } : Hdr)
      let h2 := if h1.flags == h.flags then h else h1.seal
      let f := startPhase h2 q.phase { transit := q.transit }
      if !slotTime s d p port h2 f then s
      else placePacket (dequeue s d att v) d p port v h2 f q.pk.data
    else match formRoute s d t h with
      | none => (dequeue s d att v).bump d (niw t NI_NOROUTE) 47 0 1
      | some h0 =>
        let f := startPhase h0 0 {}
        if takesPortPath s d att h then
          (if egressRoom s d v (1 + q.pk.data.length) then portPath s d att t v h0 q.pk.data else s)
        else if !slotTime s d p port h0 f then s
        else
          let h1 := injectHdr s d att (s.regionOf d p) h0
          placePacket (countInjected (dequeue s d att v) d att t v h1) d p port v h1 f q.pk.data
  | _, _ => s

/-- NI_INJECT (R142). -/
def execNiInject (d att v : Nat) (s : State) : Out := onUnit (attExists s d att && v < 6) (niInject s d att v)

/-- ORDERED_DRAIN_END (R185): the holds of an attachment whose drain time has passed end. -/
def execOrderedDrainEnd (d att : Nat) (s : State) : Out :=
  let k := d * 4096 + att
  let now := (s.region d (attPanel s d att)).cycles
  onUnit (attExists s d att)
    { s with orderHold := s.orderHold.set [] k ((s.orderHold.get [] k).filter (fun x => now < x.2)) }

/-! ## The tile presents a packet (R807) -/

/-- Units that stand in an injection queue: those of packets that wait, and those of the packet that is entering the router (R142). The
packets that the NI's own engines have ready stand in it too, or behind it until it has room. (DEDUCED, log 48) -/
def queuedUnits (s : State) (d att v : Nat) : Nat :=
  ((s.inj.get [] (ik d att v)).map (fun q => 1 + q.pk.data.length)).sum +
    (match attPort s d att with
     | some (p, port, _) => (s.stream.get [] ((rk d p * 8 + port) * 8 + v)).length
     | none => 0)

/-- Whether a tile launches a guaranteed flow's packet outside SERVICE: VC0 travels in reserved slots once ROUNDS_ON (R64, R233). -/
def launchMisuse (s : State) (d v : Nat) : Bool := v == 0 && (s.keeper d).roundsOn && partState s d != .service

/-- Cycles until the next round boundary (R231). -/
def cyclesLeft (g : Region) : Nat := (if g.down then 2048 else 4096) - g.c

/-- The turn hint that a tile or CE is presented for VC `v` (R284, R806): the router's, or the cycles until the next round boundary while
the governor withholds the VC. -/
def turnHintAt (s : State) (d att v : Nat) : Nat :=
  match attPort s d att with
  | some (p, port, _) =>
    max (s.hints.get 0 ((rk d p * 8 + port) * 8 + v))
      (if govPermits s d att v then 0 else cyclesLeft (s.region d (attPanel s d att)))
  | none => 0

/-- tp_hint of a tile (R806): the hint of VC v in bits [12v + 11 : 12v]. -/
def tpHint (s : State) (d p : Nat) : BitVec 72 :=
  BitVec.ofNat 72 (((List.range 6).map (fun v => min 4095 (turnHintAt s d p v) * 2 ^ (12 * v))).sum)

/-- TP_INJECT_UNIT (R807): one unit of a packet on VC `v`; `last` marks its final unit. A unit without a permit is misuse (R805), and
so is a packet whose length or header breaks R72 to R126, or one of a guaranteed flow outside SERVICE (R64). (DEDUCED, log 48; DESIGN
CHOICE, log 170) -/
def execTpInjectUnit (d p v : Nat) (last : Bool) (u : DataUnit) (s : State) : Out :=
  if !(isTile s d p && v < 6) then .fault .noSuchUnit
  else if tileInReset s d then .next s
  else
    let n := s.ni d p
    let us := n.part.get [] v ++ [u]
    if isHalted s d p || 33 < queuedUnits s d p v + us.length then .fault (.undefinedMisuse 805)
    else if !last then .next (s.setNi d p { n with part := n.part.set [] v us })
    else
      let h := Hdr.unpack (us.headD 0)
      let pk : Packet := { hdr := h, data := us.drop 1 }
      match (if h.vc.toNat != v then some 807 else if launchMisuse s d v then some 64 else packetMisuse pk) with
      | some r => .fault (.undefinedMisuse r)
      | none => .next (sendAt (s.setNi d p { n with part := n.part.set [] v [] }) d p pk)

/-! ## Twin copies (R648 to R650) -/

/-- The twin configuration of a tile in force (R648, R650, R669): none when disabled or on a uniform-mode die. -/
def twinOf (s : State) (d p : Nat) : Option Word :=
  let w := s.reg d (HLT_TWIN_0 + 8 * p)
  if w.getLsbD 0 && bitsOf w 23 16 != 0 && !s.flag d SLC_MODE 0 then some w else none

/-- Whether an offset lies in a twin window. -/
def inTwin (w : Word) (off : Nat) : Bool :=
  let base := bitsOf w 15 8 * 4096
  base ≤ off && off < base + bitsOf w 23 16 * 4096

/-- The address of a twin copy at the partner. -/
def twinDest (s : State) (d : Nat) (w : Word) (off : Nat) : BitVec 64 :=
  fabricAddr (s.pkgOf d) d (bitsOf w 44 40) (bitsOf w 36 32) (bitsOf w 31 24 * 4096 + (off - bitsOf w 15 8 * 4096))

/-- Send one twin copy and count it (R648, R649). (DESIGN CHOICE, log 18) -/
def twinSend (s : State) (d p : Nat) (w : Word) (off : Nat) (cmd : Nat) (inl : BitVec 128) (data : List DataUnit) : State :=
  let h : Hdr := { mkHdr cmd 2 (twinDest s d w off) (niSrc s d p) with
    tag := 0xFFFF, flags := 4, inl := inl, len := BitVec.ofNat 6 data.length }
  (sendAt s d p { hdr := h, data := data }).bump d (HLT_TWIN_CNT_0 + 8 * p) 31 0 1

/-- The twin copy of one written unit, under its byte mask (R648, R837). (DESIGN CHOICE, log 18) -/
def twinUnit (s : State) (d p off mask : Nat) (u : DataUnit) : State :=
  match twinOf s d p with
  | some w => if inTwin w off then twinSend s d p w off 0x01 (BitVec.ofNat 128 (mask % 2 ^ 64)) [u] else s
  | none => s

/-- Count a twin copy received from the tile whose twin this is (R649). -/
def twinRecv (s : State) (d p : Nat) (h : Hdr) : State :=
  if h.tag == 0xFFFF && (h.cmd == 0x01 || h.cmd == 0x03) && h.srcDie == d && h.srcPkg == s.pkgOf d && h.srcEng == 0 then
    let q := tileRouter s d (h.srcTile % 32) (h.srcTile / 32)
    match twinOf s d q with
    | some w =>
      if (bitsOf w 36 32, bitsOf w 44 40) == niTile s d p then s.bump d (HLT_TWIN_CNT_0 + 8 * p) 63 32 1 else s
    | none => s
  else s

/-- TWIN_NOTICE (R810): a local write at OFFSET[19:3] that the tile marks as twin. -/
def execTwinNotice (d p addr be : Nat) (u : DataUnit) (s : State) : Out :=
  if !isTile s d p then .fault .noSuchUnit
  else if isHalted s d p then .fault (.undefinedMisuse 805)
  else if tileInReset s d || be % 2 ^ 64 == 0 then .next s
  else .next (twinUnit s d p (addr % 2 ^ 17 * 8 / 64 * 64) be u)

/-! ## Delivery to a tile (R118, R808) -/

/-- Whether a command's data units go to the tile's scratchpad: writes, collective data and multicast operands (R361, R362, R732,
R838). -/
def isTileWrite (cmd : Nat) : Bool :=
  cmd == 0x01 || cmd == 0x02 || cmd == 0x30 || cmd == 0x31 || cmd == 0x33 || cmd == 0x63 || (0x40 ≤ cmd && cmd ≤ 0x46)

/-- Whether a twin window mirrors a command's writes (R648). -/
def isTwinWrite (cmd : Nat) : Bool := cmd == 0x01 || cmd == 0x02

/-- Whether an offset leaves the 2 KiB granule of its packet under uniform mode (R158). (DESIGN CHOICE, log 14) -/
def offGranule (s : State) (d : Nat) (h : Hdr) (off : Nat) : Bool :=
  s.flag d SLC_MODE 0 && !h.mcast && off / 2048 != h.destOff % 2 ^ 20 / 2048

/-- Write one unit of a packet at an offset of the tile's scratchpad (R66, R69, R70, R158, R648). (DESIGN CHOICE, log 14) -/
def tileUnit (s : State) (d p : Nat) (h : Hdr) (off mask : Nat) (u : DataUnit) : State :=
  let (v, s1) := if offGranule s d h off then s.draw else (u, s)
  let s2 := { s1 with mem := putUnit s1.mem (scratchKey d p) scratchBytes off mask v }
  if isTwinWrite h.cmd.toNat then twinUnit s2 d p off mask v else s2

/-- Deliver data unit `i` of a packet; `got` are the units before it (R69, R98, R808). -/
def tileData (s : State) (d p : Nat) (h : Hdr) (got : List DataUnit) (u : DataUnit) : State :=
  if !isTileWrite h.cmd.toNat then s
  else
    let base := h.destOff % 2 ^ 20 / 64 * 64
    if h.sparse then
      match got with
      | [] => s
      | m :: rest => tileUnit s d p h (base + 64 * (bitmapBlocks m).getD rest.length 0) (2 ^ 64 - 1)
          (dropNegZero h.fmt.toNat u)
    else tileUnit s d p h (base + 64 * got.length) (byteMask h) u

/-- Issue reads of a tile on free tags (R809): 32 in all. (DESIGN CHOICE, log 16) -/
def issueReads : Nat → List RdReq → List RdReq
  | 0, rs => rs
  | n + 1, rs =>
    let used := rs.flatMap (fun r => r.tags.map (·.1))
    match (List.range 32).find? (fun t => !used.contains t), rs.findIdx? (fun r => r.next < r.n) with
    | some t, some i =>
      match rs[i]? with
      | some r => issueReads n (setAt rs i { r with next := r.next + 1, tags := r.tags ++ [(t, r.next)] })
      | none => rs
    | _, _ => rs

/-- The check of a received transfer and its report to the home CE (R381, R402, R406, R420). -/
def tileTransfer (s : State) (d p : Nat) (pk : Packet) : State :=
  let h := pk.hdr
  match homeCeOf s d h.group.toNat p with
  | none => s
  | some (k, _) =>
    let n := s.ni d p
    let now := s.now d
    if h.cmd == 0x32 then
      s.setNi d p { n with reports := n.reports ++ [{ ce := k, kind := 3, key := xkeyOf h, hdr := h, p := p }] }
    else if stale n.retry now h then s
    else
      let rx := rxAdd n.rx now pk
      match rx.find? (fun x => x.key == xkeyOf h) with
      | none => s
      | some x =>
        match rxWhole x with
        | none => s.setNi d p { n with rx := rx }
        | some ps =>
          s.setNi d p { n with rx := rx.filter (fun y => y.key != x.key),
                               reports := n.reports ++ [{ ce := k, kind := 2, ok := rxOk ps, key := x.key,
                                                          hdr := (ps.headD pk).hdr, p := p }] }

/-- What a packet does once all of it has reached its tile: answers, inline writes, reads, reports and messages (R87, R118, R119,
R808, R809, R838). (DEDUCED, log 17) -/
def tileDone (s : State) (d p : Nat) (pk : Packet) : State :=
  let h := pk.hdr
  let off := h.destOff % 2 ^ 20
  let key := scratchKey d p
  let s1 := twinRecv s d p h
  match h.cmd.toNat with
  | 0x01 => s1
  | 0x02 => sendAt s1 d p (ackFor h (niSrc s d p) 0 0)
  | 0x03 =>
    let s2 := { s1 with mem := putInline s1.mem key scratchBytes off h }
    match twinOf s d p with
    | some w => if inTwin w off then twinSend s2 d p w (off / 8 * 8) 0x03 h.inl [] else s2
    | none => s2
  | 0x04 =>
    let n := s1.ni d p
    let r : RdReq := { hdr := h, off := off / 64 * 64, n := readLen h }
    s1.setNi d p { n with rd := issueReads 32 (n.rd ++ [r]) }
  | 0x30 => tileTransfer s1 d p pk
  | 0x31 => tileTransfer s1 d p pk
  | 0x32 => tileTransfer { s1 with mem := putCounts s1.mem key scratchBytes off h } d p pk
  | c =>
    if isTileWrite c then s1
    else
      let r := takeTag s1 d p pk
      r.2.setNi d p { r.2.ni d p with msg := some r.1 }

/-- The distance of a packet's generation from the tile's (R118). -/
def genAhead (s : State) (d p : Nat) (h : Hdr) : Nat := (h.gen.toNat + 16 - (s.ni d p).gen) % 16

/-- Whether a header is held for its generation (R118): not that of a GEN_TOKEN, which brings the generation and passes in arrival order
(R119). -/
def genHeld (s : State) (d p : Nat) (h : Hdr) : Bool := h.cmd != 0x53 && 1 ≤ genAhead s d p h && genAhead s d p h ≤ 7

/-- Count a header that the NI begins to deliver (R118, R200, R723, R727). -/
def tileBegin (s : State) (d p : Nat) (h : Hdr) : State :=
  let s1 := if h.cmd != 0x53 && 8 ≤ genAhead s d p h then s.bump d (niw p NI_STALE_GEN) 47 0 1 else s
  probeEval (statUpdate (s1.bump d (niw p NI_EJ_CNT) 47 0 1) d (partState s d) h) d 3 p 0 0 h

/-- Deliver a whole packet to its tile. -/
def tileWhole (s : State) (d p : Nat) (pk : Packet) : State :=
  let r := pk.data.foldl (fun (a : State × List DataUnit) u => (tileData a.1 d p pk.hdr a.2 u, a.2 ++ [u]))
    (tileBegin s d p pk.hdr, [])
  tileDone r.1 d p pk

/-- Drop a header whose check fails at a tile NI (R125, R200). -/
def tileBadHdr (s : State) (d p : Nat) (h : Hdr) : State :=
  hcrcFault (s.bump d (niw p NI_HCRC_ERR) 47 0 1) d p h.vc.toNat h.tag.toNat

/-- A list without its first `n` units of VC `v`. -/
def dropVc (v : Nat) : Nat → List Flit → List Flit
  | _, [] => []
  | 0, fs => fs
  | n + 1, f :: fs => if f.vc == v then dropVc v n fs else f :: dropVc v (n + 1) fs

/-- The units of VC `v` that wait behind the LOCAL output of a tile's router come into the ejection queue while it has room for 8 (R142). -/
def ejFill (s : State) (d p v : Nat) : State :=
  let k := rk d p * 8 + portLocal
  let w := s.wires.get [] k
  let n := s.ni d p
  let q := n.ej.get [] v
  let room := 8 - q.length
  if w.isEmpty then s
  else { s.setNi d p { n with ej := n.ej.set [] v (q ++ (w.filter (fun f => f.vc == v)).take room) } with
         wires := s.wires.set [] k (dropVc v room w) }

/-- Take the head of an ejection queue; the unit's credit goes back to the router's LOCAL output (R140). -/
def popEj (s : State) (d p v : Nat) : State :=
  let n := s.ni d p
  match n.ej.get [] v with
  | [] => s
  | f :: fs =>
    let s1 := ejFill (s.setNi d p { n with ej := n.ej.set [] v fs }) d p v
    let r := s1.router d p
    if f.cred then s1.setRouter d p (r.setCred portLocal v (min 8 (r.cred portLocal v + 1))) else s1

/-- Change the packet in delivery of a VC. -/
def setCur (s : State) (d p v : Nat) (c : Option Dlv) : State :=
  s.setNi d p { s.ni d p with cur := (s.ni d p).cur.set none v c }

/-- TP_DELIVER (R808): the unit at the head of VC `v`'s ejection queue goes to the tile, under the tile's permit. -/
def execTpDeliver (d p v : Nat) (s : State) : Out :=
  if !(isTile s d p && v < 6) then .fault .noSuchUnit
  else if tileInReset s d || isHalted s d p || !s.flag d (niw p NI_CFG) 0 then .next s
  else match (s.ni d p).ej.get [] v with
    | [] => .next s
    | f :: _ =>
      match (s.ni d p).cur.get none v with
      | some c =>
        let s1 := popEj s d p v
        if c.drop then .next (if f.last then setCur s1 d p v none else s1)
        else
          let s2 := tileData s1 d p c.hdr c.got f.data
          let got := c.got ++ [f.data]
          if !f.last then .next (setCur s2 d p v (some { c with got := got }))
          else match payloadMisuse { hdr := c.hdr, data := got } with
            | some r => .fault (.undefinedMisuse r)
            | none => .next (tileDone (setCur s2 d p v none) d p { hdr := c.hdr, data := got })
      | none =>
        match f.hdr with
        | none => .next (popEj s d p v)
        | some h =>
          if !h.crcOk then
            let s1 := tileBadHdr (popEj s d p v) d p h
            .next (if f.last then s1 else setCur s1 d p v (some { hdr := h, drop := true }))
          else match headerMisuse h with
            | some r => .fault (.undefinedMisuse r)
            | none =>
              if genHeld s d p h then .next s
              else
                let s1 := tileBegin (popEj s d p v) d p h
                .next (if h.len == 0 then tileDone s1 d p { hdr := h } else setCur s1 d p v (some { hdr := h }))

/-- A packet command reaches a tile: delivered at once, or queued for TP_DELIVER behind packets of its VC, a hold, or a tile that
is not running (R118, R808); units for which the queue of 8 has no room wait behind the router's output (R142). -/
def tileArrive (s : State) (d p : Nat) (pk : Packet) : State :=
  let n := s.ni d p
  let v := pk.hdr.vc.toNat
  if !(n.ej.get [] v).isEmpty || (n.cur.get none v).isSome || genHeld s d p pk.hdr || tileInReset s d ||
      !s.flag d (niw p NI_CFG) 0 then
    let k := rk d p * 8 + portLocal
    ejFill { s with wires := s.wires.set [] k (s.wires.get [] k ++ packetFlits pk) } d p v
  else tileWhole s d p pk

/-- TP_GEN_LOADED (R118): the tile reports a new loaded generation. -/
def execTpGenLoaded (d p gen : Nat) (s : State) : Out :=
  onUnit (isTile s d p && gen < 16) (s.setNi d p { s.ni d p with gen := gen })

/-- GEN_TOKEN (R119): the token goes to the tile in arrival order on its VC. -/
def execGenToken (d p : Nat) (h : Hdr) (s : State) : Out :=
  if !isTile s d p then .fault .noSuchUnit
  else arrive s d p 0x53 { hdr := h } (fun s => tileArrive s d p { hdr := h })

/-! ## Reads of the tile (R809) -/

/-- The unit that a tile reads out for a READ at an offset; one beyond the granule of a uniform-mode packet takes a free value (R158). -/
def granuleRead (s : State) (d : Nat) (h : Hdr) (off : Nat) (r : DataUnit × State) : DataUnit × State :=
  if offGranule s d h off then s.draw else r

/-- The unit that a tile reads out at an offset; one beyond the scratchpad takes a free value (R70). -/
def tileRead (s : State) (d p off : Nat) : DataUnit × State :=
  if off + 64 ≤ scratchBytes then (readUnit s.mem (scratchKey d p off), s) else s.draw

/-- TP_READ_DATA (R809): the data of tag `tag` arrives; a READ whose units have all come is answered in address order. In a
global stop the data is taken and nothing else happens (R811). (DESIGN CHOICE, log 16) -/
def tpReadData (s : State) (d p tag : Nat) : State :=
  let n := s.ni d p
  match n.rd.findIdx? (fun r => r.tags.any (fun t => t.1 == tag)) with
  | none => s
  | some i =>
    match n.rd[i]? with
    | none => s
    | some r =>
      let idx := ((r.tags.find? (fun t => t.1 == tag)).map (·.2)).getD 0
      let (u, s1) := granuleRead s d r.hdr (r.off + 64 * idx) (tileRead s d p (r.off + 64 * idx))
      let r1 := { r with tags := r.tags.filter (fun t => t.1 != tag), got := r.got ++ [(idx, u)] }
      if isHalted s d p then s1.setNi d p { n with rd := setAt n.rd i r1 }
      else if r1.got.length == r1.n then
        let us := (List.range r1.n).map (fun j => ((r1.got.find? (fun g => g.1 == j)).map (·.2)).getD 0)
        sendAt (s1.setNi d p { n with rd := issueReads 32 (n.rd.eraseIdx i) }) d p (readData r.hdr (niSrc s d p) us)
      else s1.setNi d p { n with rd := issueReads 32 (setAt n.rd i r1) }

/-- TP_READ_DATA (R809). -/
def execTpReadData (d p tag : Nat) (s : State) : Out :=
  onUnit (isTile s d p && tag < 32) (if tileInReset s d then s else tpReadData s d p tag)

/-! ## The send engine (R381, R382, R417) -/

/-- Units of a tile's scratchpad by index. -/
def tileUnits (s : State) (d p off : Nat) : Nat → Nat → List (Nat × DataUnit) × State
  | _, 0 => ([], s)
  | i, n + 1 =>
    let (u, s1) := tileRead s d p (off + 64 * i)
    let r := tileUnits s1 d p off (i + 1) n
    ((i, u) :: r.1, r.2)

/-- Zeros written to `n` units of a tile's scratchpad (R381). -/
def tileClear (m : List Host.Cell) (d p off : Nat) : Nat → List Host.Cell
  | 0 => m
  | n + 1 => tileClear (putUnit m (scratchKey d p) scratchBytes off (2 ^ 64 - 1) 0) d p (off + 64) n

/-- Whether a packet's DEST moves on with its data: when it is bound for a tile and not for a CE (R400, R403). -/
def destMoves (h : Hdr) : Bool := !natBit h.destOff 33

/-- The packets that a send order makes (R381, R382, R404): a count order is one packet. -/
def orderPackets (s : State) (d p : Nat) (o : Order) : List Packet × State :=
  if o.units == 0 then ([{ hdr := o.hdr }], s)
  else
    let r := tileUnits s d p o.off 0 o.units
    (buildTransfer o.hdr o.units r.1 (destMoves o.hdr), r.2)

/-- A report of a finished order. -/
def orderReport (o : Order) (p kind : Nat) : Report :=
  { ce := o.ce, kind := kind, key := { cmd := o.hdr.cmd.toNat, group := o.group, tag := o.tag, chunk := o.chunk, a := o.seg },
    hdr := o.hdr, p := p }

/-- The packets of a send order go to the injection queue; the last of them carries the order's report (R381). -/
def sendOrder (s : State) (d p : Nat) (o : Order) (os : List Order) (ps : List Packet) : State :=
  let n := s.ni d p
  match ps.getLast? with
  | none => orderDone s d p (orderReport o p 0)
  | some q =>
    (sendAll (s.setNi d p { n with orders := { o with busy := true } :: os }) d p ps.dropLast).enqueue d p
      { pk := q, stamp := (s.region d (attPanel s d p)).cycles, ends := some (orderReport o p 0) }

/-- Carry out the first order of a send engine, when it is of the kind named and its instant has come (R381, R406): a clear is reported
when it is done, a send when its last packet has been injected. (DEDUCED, log 64) -/
def runOrder (s : State) (d p : Nat) (clear : Bool) : State :=
  let n := s.ni d p
  match n.orders with
  | [] => s
  | o :: os =>
    if o.clear != clear || o.busy || s.now d < o.start || tileInReset s d || attHalted s d p then s
    else if clear then
      { s with mem := tileClear s.mem d p o.off o.units }.setNi d p
        (takeOrders { n with orders := os, reports := n.reports ++ [orderReport o p 1] })
    else
      let r := orderPackets s d p o
      sendOrder r.2 d p o os r.1

/-- ORDER_SEND (R381). -/
def execOrderSend (d p : Nat) (s : State) : Out := onUnit (isTile s d p) (runOrder s d p false)

/-- ORDER_CLEAR (R381). -/
def execOrderClear (d p : Nat) (s : State) : Out := onUnit (isTile s d p) (runOrder s d p true)

/-- Discard every order and every packet not yet injected of an operation at an NI (R381). -/
def cancelAt (s : State) (d p group tag : Nat) : State :=
  let n := s.ni d p
  let mine := fun (h : Hdr) => 0x30 ≤ h.cmd.toNat && h.cmd.toNat ≤ 0x46 && h.group.toNat == group && h.tag.toNat == tag
  let k := ik d p 4
  let keep := fun (o : Order) => !(o.group == group && o.tag == tag)
  let n1 := takeOrders { n with orders := n.orders.filter keep, bus := n.bus.filter keep,
                                rx := n.rx.filter (fun x => !(x.key.group == group && x.key.tag == tag)),
                                retry := n.retry.filter (fun x => !(x.1.group == group && x.1.tag == tag)) }
  { s.setNi d p n1 with
    inj := s.inj.set [] k ((s.inj.get [] k).filter (fun q => !mine q.pk.hdr)) }

/-- ORDER_CANCEL (R381): the first cancel on its way to NI `p` reaches it. -/
def execOrderCancel (d p : Nat) (s : State) : Out :=
  onUnit (isTile s d p)
    (match (s.ni d p).cancels with
     | [] => s
     | (g, t) :: cs => cancelAt (s.setNi d p { s.ni d p with cancels := cs }) d p g t)

end Sys2Proof.Machine
end

