-- ==== Sys2Proof/Machine/Operation.lean ====
section
/-! DEFINITION. What a descriptor asks for (R392 to R394): its fields, how its data is cut into chunks and segments (R399, R411), the
blocks, owners and algorithms of its hierarchy (R375 to R378, R409 to R411), and when its fields are misuse. -/

namespace Sys2Proof.Machine

open Sys2Proof

/-! ## Fields (R392) -/

/-- OP. -/
def dOp (x : BitVec 512) : Nat := bitsOf x 7 0
/-- OPER. -/
def dOper (x : BitVec 512) : Nat := bitsOf x 10 8
/-- FMT. -/
def dFmt (x : BitVec 512) : Nat := bitsOf x 15 12
/-- SPARSE. -/
def dSparse (x : BitVec 512) : Bool := x.getLsbD 16
/-- ALGO. -/
def dAlgo (x : BitVec 512) : Nat := bitsOf x 18 17
/-- FLAT. -/
def dFlat (x : BitVec 512) : Bool := x.getLsbD 19
/-- SIG_EN. -/
def dSigEn (x : BitVec 512) : Bool := x.getLsbD 20
/-- DONE_EN. -/
def dDoneEn (x : BitVec 512) : Bool := x.getLsbD 21
/-- DIGEST. -/
def dDigest (x : BitVec 512) : Bool := x.getLsbD 22
/-- AFTER. -/
def dAfter (x : BitVec 512) : Bool := x.getLsbD 23
/-- LAUNCH. -/
def dLaunch (x : BitVec 512) : Bool := x.getLsbD 24
/-- STAGE. -/
def dStage (x : BitVec 512) : Bool := x.getLsbD 25
/-- EPOCH. -/
def dEpoch (x : BitVec 512) : Nat := bitsOf x 39 32
/-- ROOT. -/
def dRoot (x : BitVec 512) : Nat := bitsOf x 63 44
/-- LENGTH in units. -/
def dUnits (x : BitVec 512) : Nat := bitsOf x 99 64 / 64
/-- SRC. -/
def dSrc (x : BitVec 512) : BitVec 64 := BitVec.ofNat 64 (bitsOf x 191 128)
/-- DST. -/
def dDst (x : BitVec 512) : BitVec 64 := BitVec.ofNat 64 (bitsOf x 255 192)
/-- SCNT_OFFSET. -/
def dScnt (x : BitVec 512) : Nat := bitsOf x 289 256
/-- RCNT_OFFSET. -/
def dRcnt (x : BitVec 512) : Nat := bitsOf x 353 320
/-- CAP. -/
def dCap (x : BitVec 512) : Nat := bitsOf x 377 354
/-- LAUNCH_FT40. -/
def dLaunchAt (x : BitVec 512) : Nat := bitsOf x 423 384
/-- SIG_OBJ. -/
def dSigObj (x : BitVec 512) : Nat := bitsOf x 437 424
/-- DONE_OBJ. -/
def dDoneObj (x : BitVec 512) : Nat := bitsOf x 461 448
/-- FREE_OBJ. -/
def dFreeObj (x : BitVec 512) : Nat := bitsOf x 475 462

/-- Whether an operation reduces (R393). -/
def isReduce (x : BitVec 512) : Bool := 1 ≤ dOp x && dOp x ≤ 3
/-- Whether an operation is an all-to-all (R393). -/
def isA2a (x : BitVec 512) : Bool := dOp x == 6 || dOp x == 7
/-- Whether an operation moves data (R393). -/
def movesData (x : BitVec 512) : Bool := 1 ≤ dOp x && dOp x ≤ 7

/-! ## Chunks (R394, R399) -/

/-- CHUNK_LOG2 in force. -/
def chunkLog (g : Grp) (x : BitVec 512) : Nat := if bitsOf x 43 40 == 15 then g.defChunk else bitsOf x 43 40

/-- Bytes of a chunk. -/
def chunkBytes (g : Grp) (x : BitVec 512) : Nat := 2 ^ (12 + chunkLog g x)

/-- Units of one packet image, 1 for the formats that have none (R394, R399). -/
def imageOf (x : BitVec 512) : Nat := if dFmt x == 6 then 32 else if dFmt x == 7 then 17 else 1

/-- Units that are cut into chunks: LENGTH, or CAP for an all-to-all pair. -/
def totalUnits (x : BitVec 512) : Nat := if isA2a x then dCap x else if movesData x then dUnits x else 0

/-- The first unit of chunk `c`: for FMT 6 and 7 a chunk holds the images that begin within it (R399). -/
def chunkStart (g : Grp) (x : BitVec 512) (c : Nat) : Nat :=
  let i := imageOf x
  min (totalUnits x) ((chunkBytes g x / 64 * c + i - 1) / i * i)

/-- Units of chunk `c`. (DEDUCED, log 56) -/
def chunkUnits (g : Grp) (x : BitVec 512) (c : Nat) : Nat := chunkStart g x (c + 1) - chunkStart g x c

/-- Chunks of an operation. -/
def nChunks (g : Grp) (x : BitVec 512) : Nat :=
  if totalUnits x < imageOf x then 0 else (totalUnits x - imageOf x) / (chunkBytes g x / 64) + 1

/-- Units of one segment of REDUCE_SCATTER. -/
def segUnits (g : Grp) (x : BitVec 512) : Nat := dUnits x / max 1 g.n

/-- The units of chunk `c`, counted from its start, that segment `q` of the output covers (R393): all, but for REDUCE_SCATTER. -/
def pieceOf (g : Grp) (x : BitVec 512) (c q : Nat) : Nat × Nat :=
  let a := chunkStart g x c
  let u := chunkUnits g x c
  if dOp x == 3 then
    let z := segUnits g x
    (min u (q * z - a), min u ((q + 1) * z - a))
  else (0, u)

/-- The segments that chunk `c` holds outputs of (R404). -/
def segsOf (g : Grp) (x : BitVec 512) (c : Nat) : List Nat :=
  if dOp x == 3 then
    let z := max 1 (segUnits g x)
    let a := chunkStart g x c / z
    (List.range (chunkUnits g x c / z + 2)).filterMap (fun i =>
      let p := pieceOf g x c (a + i)
      if a + i < g.n && p.1 < p.2 then some (a + i) else none)
  else if dOp x == 4 then List.range g.n
  else [0]

/-- Where chunk `c` of segment `q` lies in a member's DST, in bytes. -/
def dstAt (g : Grp) (x : BitVec 512) (c q : Nat) : Nat :=
  if dOp x == 3 then 64 * (chunkStart g x c + (pieceOf g x c q).1 - q * segUnits g x)
  else if dOp x == 4 then 64 * (q * dUnits x + chunkStart g x c)
  else 64 * chunkStart g x c

/-- Bytes that the operation writes at DST when every unit comes (R393, R420). -/
def outBytes (g : Grp) (x : BitVec 512) : Nat :=
  if dOp x == 3 then 64 * segUnits g x
  else if dOp x == 4 then 64 * dUnits x * g.n
  else if isA2a x then 64 * dCap x * g.n
  else 64 * dUnits x

/-! ## Blocks (R375, R384) -/

/-- Whether a CE is the home CE of a die block of the group. -/
def isHome (g : Grp) : Bool := g.mkind ≤ 1
/-- Whether a CE is the package CE of its package block (R383). -/
def isPkgCe (g : Grp) : Bool := !g.upValid
/-- Ranks of a package block. -/
def pkgRanks (g : Grp) : Nat := g.d * g.m
/-- The package block of a rank. -/
def piOf (g : Grp) (r : Nat) : Nat := r / max 1 (pkgRanks g)
/-- The die block of a rank within its package block. -/
def diOf (g : Grp) (r : Nat) : Nat := r / max 1 g.m % max 1 g.d
/-- Whether a rank lies in this CE's die block. -/
def inDie (g : Grp) (r : Nat) : Bool := isHome g && piOf g r == g.pi && diOf g r == g.di
/-- Whether a rank lies in this CE's package block. -/
def inPkg (g : Grp) (r : Nat) : Bool := piOf g r == g.pi
/-- The ranks of this CE's members. -/
def localRanks (g : Grp) : List Nat := if isHome g then (List.range g.m).map (fun m => firstRank g + m) else []
/-- The first rank of the block that a CE serves (R404). -/
def servedRank (g : Grp) : Nat := if isHome g then firstRank g else g.pi * pkgRanks g

/-- The address of the home CE of die block `di` of this package block. -/
def homeCe (s : State) (d k : Nat) (g : Grp) (di : Nat) : Nat × Nat × Nat :=
  if isHome g && di == g.di then (s.pkgOf d, d, k)
  else
    let q := diePlace s d k g di
    (s.pkgOf d, q.1, q.2)

/-- The address of the package CE of package block `pi`. (DEDUCED, log 57) -/
def pkgCe (s : State) (d k : Nat) (g : Grp) (pi : Nat) : Nat × Nat × Nat :=
  if pi == g.pi then (if g.upValid then (s.pkgOf d, g.upDie, g.upCe) else (s.pkgOf d, d, k))
  else pkgPlace s d k g pi

/-- Whether the package CE of this package block is the home CE of one of its die blocks. -/
def pkgCeIsHome (s : State) (d k : Nat) (g : Grp) : Bool :=
  (List.range g.d).any (fun di => homeCe s d k g di == pkgCe s d k g g.pi)

/-- The home CE of a rank as a destination (R421): its package, die and CE. -/
def rankCe (s : State) (d k : Nat) (g : Grp) (r : Nat) : Nat × Nat × Nat :=
  let h := homeCe s d k g (diOf g r)
  ((pkgCe s d k g (piOf g r)).1, h.2.1, h.2.2)

/-- The home CE of die block `j`, counted over all packages (R410). -/
def blockCe (s : State) (d k : Nat) (g : Grp) (j : Nat) : Nat × Nat × Nat :=
  if isHome g && j == g.pi * g.d + g.di then (s.pkgOf d, d, k) else rankCe s d k g (j * g.m)

/-- The parent of a node of the tree of `n` ranks (R324); none for the root and for no node. -/
def parentIn (f l : Nat) : Nat → Nat → Nat → Option (Nat × Nat)
  | 0, _, _ => none
  | fuel + 1, a, b =>
    if b ≤ a then none
    else
      let c := split a b
      if c.1 == (f, l) || c.2 == (f, l) then some (a, b)
      else if l ≤ c.1.2 then parentIn f l fuel c.1.1 c.1.2
      else if c.2.1 ≤ f then parentIn f l fuel c.2.1 c.2.2
      else none

/-- The smallest node that holds a span. (DESIGN CHOICE, log 63) -/
def nodeAround (f l : Nat) : Nat → Nat → Nat → Nat × Nat
  | 0, a, b => (a, b)
  | fuel + 1, a, b =>
    if b ≤ a then (a, b)
    else
      let c := split a b
      if l ≤ c.1.2 then nodeAround f l fuel c.1.1 c.1.2
      else if c.2.1 ≤ f then nodeAround f l fuel c.2.1 c.2.2
      else (a, b)

/-- The owner of a node (R409). -/
def ownerOf (s : State) (d k : Nat) (g : Grp) (f l : Nat) : Nat × Nat × Nat :=
  if piOf g f == piOf g l && diOf g f == diOf g l && piOf g f == g.pi then homeCe s d k g (diOf g f)
  else pkgCe s d k g (piOf g f)

/-! ## Algorithms (R410, R411) -/

/-- Whether a number is a power of two. -/
def isPow2 (n : Nat) : Bool := n != 0 && 2 ^ Nat.log2 n == n

/-- The algorithm of a level of `b` blocks of `z` members for a chunk of `u` units: 0 tree, 1 doubling, 2 halving (R410). Where the
regions of halving would cut a packet image of FMT 6 or 7, the level doubles; R412 leaves the bits unchanged. (DEDUCED, log 56) -/
def algAt (cfg : Word) (x : BitVec 512) (b z u : Nat) : Nat :=
  if !(dOp x == 1 || dOp x == 3) || b ≤ 1 || !isPow2 b || !isPow2 z then 0
  else if dAlgo x == 1 || (imageOf x != 1 && u % (imageOf x * b) != 0) then 1
  else if dAlgo x == 2 && b ≤ u then 2
  else if 64 * dUnits x < 2 ^ bitsOf cfg 20 16 || u < b then 1
  else 2

/-- The algorithm of the package level for chunk `c`; FLAT removes that level (R410). -/
def pkgAlg (g : Grp) (cfg : Word) (x : BitVec 512) (c : Nat) : Nat :=
  if dFlat x then 0 else algAt cfg x g.d g.m (chunkUnits g x c)
/-- The algorithm of the pod level for chunk `c`. -/
def podAlg (g : Grp) (cfg : Word) (x : BitVec 512) (c : Nat) : Nat :=
  if dFlat x then 0 else algAt cfg x g.p (pkgRanks g) (chunkUnits g x c)
/-- The algorithm of the one level that FLAT leaves above the die level for chunk `c`: its blocks are the die blocks of all packages
(R410). (DEDUCED, log 55) -/
def flatAlg (g : Grp) (cfg : Word) (x : BitVec 512) (c : Nat) : Nat :=
  if dFlat x then algAt cfg x (g.p * g.d) g.m (chunkUnits g x c) else 0

/-- The region that block `j` keeps after `k` halving steps of [lo, hi) (R411). -/
def regionAt (j : Nat) : Nat → Nat → Nat → Nat × Nat
  | 0, lo, hi => (lo, hi)
  | k + 1, lo, hi =>
    let r := regionAt j k lo hi
    let mid := r.1 + (r.2 - r.1) / 2
    if natBit j k then (mid, r.2) else (r.1, mid)

/-- `a` XOR 2^k. -/
def flipBit (a k : Nat) : Nat := Nat.xor a (2 ^ k)

/-! ## Misuse (R376, R379, R394, R430) -/

/-- The misuse of a group-table entry that has become valid, by rule (R376, R379, R430): MKIND 3 is reserved (R16, R383). -/
def groupMisuse (s : State) (d k e : Nat) : Option Nat :=
  let g := s.grp d k e
  if !g.valid then none
  else if g.mkind == 3 then some 16
  else if g.n != g.p * g.d * g.m || 1048576 < g.n || g.n == 0 then some 376
  else if (List.range 64).any (fun e' => e' != e && (s.grp d k e').valid && (s.grp d k e').group == g.group) then some 430
  else if g.mkind == 0 && s.flag d SLC_MODE 0 then some 379
  else none

/-- Whether the fields of a descriptor break R394, or hold a reserved value (R16, R392, R393). (DESIGN CHOICE, log 65) -/
def descMisuse (g : Grp) (x : BitVec 512) : Bool :=
  let op := dOp x
  let clog := bitsOf x 43 40
  8 < op ||
    (movesData x && 10 ≤ dFmt x) ||
    (movesData x && 9 ≤ clog && clog ≤ 14) ||
    (isReduce x && !redAccepts (0x40 + dOper x) (dFmt x)) ||
    (dSparse x && !(1 ≤ op && op ≤ 5 && (dFmt x ≤ 5 || dFmt x == 8 || dFmt x == 9) && chunkBytes g x ≤ 2 ^ 19)) ||
    (movesData x && 32768 < nChunks g x) ||
    (1 ≤ op && op ≤ 5 && bitsOf x 69 64 != 0) ||
    (op == 3 && bitsOf x 99 64 % (64 * max 1 g.n) != 0) ||
    (1 ≤ op && op ≤ 5 && imageOf x != 1 && dUnits x % imageOf x != 0) ||
    (movesData x && dFmt x == 7 && 2 ^ 19 < chunkBytes g x) ||
    ((op == 2 || op == 5) && g.n ≤ dRoot x) ||
    (isA2a x && dCap x == 0) ||
    dAlgo x == 3

end Sys2Proof.Machine
end

