-- ==== Sys2Proof/Machine/Values.lean ====
section
/-! DEFINITION. The values that a collective engine holds (R329, R411): operations by number, what a CE sends, how node values
combine and move between the owners, doubling partners and halving regions of a level, and how an output is put together. -/

namespace Sys2Proof.Machine

open Sys2Proof

/-- An operation at a CE: die, CE, group-table entry and descriptor number. -/
structure OpId where
  d : Nat
  k : Nat
  e : Nat
  tag : Nat
  deriving DecidableEq, Repr

/-- An entry at work. -/
def State.ent (s : State) (d k e : Nat) : CeEnt := (s.ce d k).ents.get {} e

/-- Change an entry at work. -/
def State.setEnt (s : State) (d k e : Nat) (x : CeEnt) : State :=
  s.setCe d k { s.ce d k with ents := (s.ce d k).ents.set {} e x }

/-- An active operation. -/
def State.op (s : State) (i : OpId) : Option CeOp := (s.ent i.d i.k i.e).ops.find? (fun o => o.tag == i.tag)

/-- Change an active operation; no effect where it is not active. -/
def State.setOp (s : State) (i : OpId) (o : CeOp) : State :=
  let n := s.ent i.d i.k i.e
  s.setEnt i.d i.k i.e { n with ops := n.ops.map (fun p => if p.tag == i.tag then o else p) }

/-- Apply a change to an active operation. -/
def State.updOp (s : State) (i : OpId) (f : CeOp → CeOp) : State :=
  match s.op i with
  | some o => s.setOp i (f o)
  | none => s

/-- The group of an operation. -/
def State.grpOp (s : State) (i : OpId) : Grp := s.grp i.d i.k i.e

/-! ## What a CE sends -/

/-- The header that every packet of an operation starts from (R401, R404). -/
def opHdr (s : State) (i : OpId) (o : CeOp) (cmd chunk : Nat) (dest : BitVec 64) : Hdr :=
  { mkHdr cmd 4 dest (ceSrc s i.d i.k) with
    epoch := BitVec.ofNat 8 (dEpoch o.desc), tag := BitVec.ofNat 16 i.tag, group := BitVec.ofNat 16 (s.grpOp i).group,
    chunk := BitVec.ofNat 24 (chunk * 512), fmt := BitVec.ofNat 4 (dFmt o.desc),
    flags := BitVec.ofNat 7 (boolNat (dSparse o.desc) + 16) }

/-- A reduction operand's span (R91). -/
def spanHdr (h : Hdr) (f l : Nat) : Hdr := (h.setInl 371 352 f).setInl 391 372 l

/-- What names a transfer that carries a header's fields (R404). -/
def hdrKey (h : Hdr) : XKey := { xkeyOf h with src := 0 }

/-- Units [lo, hi) of a list of numbered units, numbered from `lo`. -/
def sliceUnits (us : List (Nat × DataUnit)) (lo hi : Nat) : List (Nat × DataUnit) :=
  (us.filter (fun u => lo ≤ u.1 && u.1 < hi)).map (fun u => (u.1 - lo, u.2))

/-- Numbered units moved up by `lo`. -/
def liftUnits (us : List (Nat × DataUnit)) (lo : Nat) : List (Nat × DataUnit) := us.map (fun u => (u.1 + lo, u.2))

/-- Send one transfer of `n` units from a CE and keep it for re-sending (R401, R408). -/
def sendTransfer (s : State) (i : OpId) (h : Hdr) (n : Nat) (us : List (Nat × DataUnit)) : State :=
  let ps := buildTransfer h n us false
  sendAll (s.updOp i (fun o =>
    { o with sent := o.sent ++ [{ key := hdrKey h, dest := h.dest, pks := ps }], lastSend := s.now i.d })) i.d (attCe i.k) ps

/-- The sync store that holds a CE's signal objects (R392, R431). -/
def syncDieOf (s : State) (d k : Nat) : Nat := if isKind s d .port then s.fld d (cew k CE_CFG) 38 32 else d

/-- A sync operation that a CE sends: command, VC, object, package and die of the store, EPOCH, TAG, ARG0, ARG1 (R451). (DEDUCED, log 68) -/
def ceSync (s : State) (d k cmd vc o pkg die epoch tag a0 a1 : Nat) (combine : Bool) : State :=
  let h := mkHdr cmd vc (fabricAddr pkg die 0 0 (o * 16)) (ceSrc s d k)
  sendAt s d (attCe k)
    { hdr := { h with epoch := BitVec.ofNat 8 epoch, tag := BitVec.ofNat 16 tag,
                      inl := BitVec.ofNat 128 (a0 % 2 ^ 32 + a1 % 2 ^ 32 * 2 ^ 32 + boolNat combine * 2 ^ 65) } }

/-- Increment a counter object that a descriptor names (R397, R413, R416). -/
def ceIncrement (s : State) (d k o : Nat) : State := ceSync s d k 0x12 1 o (s.pkgOf d) (syncDieOf s d k) 0 0 1 0 false

/-! ## Memory of the package, as a CE member's buffers name it (R392, R430, R839) -/

/-- Bytes of a CE's staging (R432). -/
def stageSize (s : State) (d k : Nat) : Nat :=
  let z := s.fld d (cew k CE_STAGE_CFG) 58 32
  if z == 0 then 0 else if isKind s d .compute then 2 ^ 20 else z

/-- Whether the shares of a port die's staging SRAM overlap or leave it, which R432 calls undefined. -/
def sharesBad (s : State) (d : Nat) : Bool :=
  let at0 := fun (k : Nat) => s.fld d (cew k CE_STAGE_CFG) 25 0
  isKind s d .port && (List.range 4).any (fun k => stageSize s d k != 0 &&
    (2 ^ 26 < at0 k + stageSize s d k || (List.range k).any (fun j => stageSize s d j != 0 &&
      at0 j < at0 k + stageSize s d k && at0 k < at0 j + stageSize s d j)))

/-- The bytes that a fabric address of this package names: where its space lies and where it ends. -/
def spaceAt (s : State) (d : Nat) (a : BitVec 64) : Option (Nat × (Nat → Nat) × Nat) :=
  let die := bitsOf a 50 44
  let off := bitsOf a 33 0
  if bitsOf a 63 51 != s.pkgOf d then none
  else if natBit off 33 then
    let k := off / 2 ^ 30 % 8
    if ceExists s die k then some (off % 2 ^ 26, stageAt s die k, stageSize s die k) else none
  else match kindOf s die with
    | some .memif => some (off, dramKey die, dramBytes)
    | some .compute =>
      let t := servingTile (s.flag die SLC_MODE 0) (bitsOf a 38 34) (bitsOf a 43 39) off
      if t.1 < 24 && t.2 < 24 then some (off % 2 ^ 20, scratchKey die (tileRouter s die t.1 t.2), scratchBytes) else none
    | _ => none

/-- `n` units from a fabric address of this package, numbered from 0; a unit that does not exist takes a free value (R70). (DESIGN CHOICE, log 59) -/
def spaceRead (s : State) (d : Nat) (a : BitVec 64) (n : Nat) : List DataUnit × State :=
  match spaceAt s d a with
  | some (off, key, lim) => getUnits s key lim (off / 64 * 64) n
  | none => (List.range n).foldl (fun (r : List DataUnit × State) _ => let (u, t) := r.2.draw; (r.1 ++ [u], t)) ([], s)

/-- Write numbered units from a fabric address of this package. A CE's own write to staging touches no operation's data.
(DESIGN CHOICE, log 19) -/
def spaceWrite (s : State) (d : Nat) (a : BitVec 64) (us : List (Nat × DataUnit)) : State :=
  match spaceAt s d a with
  | some (off, key, lim) =>
    { s with mem := us.foldl (fun m u => putUnit m key lim (off / 64 * 64 + 64 * u.1) (2 ^ 64 - 1) u.2) s.mem }
  | none => s

/-- A member's buffer: SRC or DST at byte offset `off`, as a fabric address. A tile member uses OFFSET[19:0] alone (R392). -/
def memberAddr (s : State) (d k : Nat) (g : Grp) (base : BitVec 64) (m off : Nat) : BitVec 64 :=
  if g.mkind == 0 then
    let t := memberTile s d k g m
    fabricAddr (s.pkgOf d) d t.2 t.1 ((bitsOf base 19 0 + off) % 2 ^ 20)
  else base + BitVec.ofNat 64 off

/-! ## Node values (R329, R411) -/

/-- Free units in the places of given ones. -/
def redraw (s : State) (us : List (Nat × DataUnit)) : List (Nat × DataUnit) × State :=
  let r := drawUnits s us.length
  (List.zip (us.map (·.1)) r.1, r.2)

/-- The data that an operation holds becomes unpredictable (R839). -/
def spoilOp (s : State) (i : OpId) : State :=
  match s.op i with
  | none => s
  | some o =>
    let v := o.vals.foldl (fun (r : List NodeVal × State) x =>
      let u := redraw r.2 x.units
      (r.1 ++ [{ x with units := u.1 }], u.2)) ([], s)
    let f := o.fins.foldl (fun (r : List FinVal × State) x =>
      let u := redraw r.2 x.units
      (r.1 ++ [{ x with units := u.1 }], u.2)) ([], v.2)
    let g := o.staged.foldl (fun (r : List (Nat × List DataUnit) × State) x =>
      let u := drawUnits r.2 x.2.length
      (r.1 ++ [(x.1, u.1)], u.2)) ([], f.2)
    g.2.setOp i { o with vals := v.1, fins := f.1, staged := g.1 }

/-- A packet writes into a CE's staging (R839): each operation with staging reserved may lose its data, as a free value says, since the
spec does not say which bytes a reservation takes. (DESIGN CHOICE, log 19) -/
def stageTouched (s : State) (d k : Nat) : State :=
  (s.ce d k).ents.rows.foldl (fun s n => n.2.ops.foldl (fun s o =>
    if o.live.isEmpty && o.stagedBytes == 0 then s
    else
      let r := s.draw
      if r.1.getLsbD 0 then spoilOp r.2 ⟨d, k, n.1, o.tag⟩ else r.2) s) s

/-- Free units numbered over [lo, hi). -/
def drawValue (s : State) (lo hi : Nat) : List (Nat × DataUnit) × State :=
  let r := drawUnits s (hi - lo)
  ((List.range (hi - lo)).map (fun j => (lo + j, r.1.getD j 0)), r.2)

/-- Merge two rising lists of numbered units under an operator; an absent block reads as zeros (R99). -/
def sparseCombine (op : DataUnit → DataUnit → DataUnit) : Nat → List (Nat × DataUnit) → List (Nat × DataUnit) → List (Nat × DataUnit)
  | 0, _, _ => []
  | _, [], bs => bs.map (fun b => (b.1, op 0 b.2))
  | _, as, [] => as.map (fun a => (a.1, op a.2 0))
  | n + 1, a :: as, b :: bs =>
    if a.1 < b.1 then (a.1, op a.2 0) :: sparseCombine op n as (b :: bs)
    else if b.1 < a.1 then (b.1, op 0 b.2) :: sparseCombine op n (a :: as) bs
    else (a.1, op a.2 b.2) :: sparseCombine op n as bs

/-- The combination of two values, left first (R105, R107, R327, R329); a pair that R102 or R103 gives no result for takes free
units. (DESIGN CHOICE, log 66) -/
def combineUnits (s : State) (o : CeOp) (a b : NodeVal) : List (Nat × DataUnit) × State :=
  let cmd := 0x40 + dOper o.desc
  let fmt := dFmt o.desc
  if dSparse o.desc then
    let us := sparseCombine (unitOp cmd fmt) (a.units.length + b.units.length + 1) a.units b.units
    ((us.map (fun u => (u.1, dropNegZero fmt u.2))).filter (fun u => u.2 != 0), s)
  else
    let n := imageOf o.desc
    let parts := List.zipWith (fun p q => denseOp cmd fmt p q)
      (groupsOf (max n 1) 65536 (a.units.map (·.2))) (groupsOf (max n 1) 65536 (b.units.map (·.2)))
    if a.units.length == b.units.length && parts.all (·.isSome) then
      (List.zip (a.units.map (·.1)) (parts.flatMap (fun p => p.getD [])), s)
    else drawValue s a.lo a.hi

/-- Two held values that are siblings over one region, left first: the children of a node of the tree for `n` members (R326,
R329); `bad` asks for a pair whose residue check fails (R358), or for one whose checks hold. (DEDUCED, log 52) -/
def siblingPair (n : Nat) (bad : Bool) (vs : List NodeVal) : Option (NodeVal × NodeVal) :=
  vs.findSome? (fun a => (vs.find? (fun b =>
    (a.bad || b.bad) == bad && a.chunk == b.chunk && a.lo == b.lo && a.hi == b.hi && siblings (a.f, a.l) (b.f, b.l) &&
    isNode a.f b.l n)).map (fun b => (a, b)))

/-- Two held parts of one node's value, lower first (R411). -/
def partPair (vs : List NodeVal) : Option (NodeVal × NodeVal) :=
  vs.findSome? (fun a => (vs.find? (fun b =>
    a.chunk == b.chunk && a.f == b.f && a.l == b.l && a.hi == b.lo)).map (fun b => (a, b)))

/-- Record which of two siblings came later, when it came in a transfer (R428). -/
def noteLag (o : CeOp) (a b : NodeVal) : CeOp :=
  let late := if a.ft < b.ft then b else a
  let lag := late.ft - (if a.ft < b.ft then a else b).ft
  if late.inc && o.slowLag < lag then { o with slowRank := late.f, slowLag := satTo 28 lag } else o

/-- Take two values out of a list and put one in. -/
def swapVals (vs : List NodeVal) (a b v : NodeVal) : List NodeVal := vs.filter (fun u => u != a && u != b) ++ [v]

/-- One combination or merge of held values, if any is due (R329, R411). -/
def combineOnce (s : State) (i : OpId) : Option State :=
  match s.op i with
  | none => none
  | some o =>
    match siblingPair (s.grpOp i).n false o.vals with
    | some (a, b) =>
      let (us, s1) := combineUnits s o a b
      let v : NodeVal := { chunk := a.chunk, f := a.f, l := b.l, lo := a.lo, hi := a.hi, units := us, ft := max a.ft b.ft,
                           inc := false, srcs := a.srcs ++ b.srcs }
      some (s1.setOp i { noteLag o a b with vals := swapVals o.vals a b v })
    | none =>
      match partPair o.vals with
      | some (a, b) =>
        let v : NodeVal := { a with hi := b.hi, units := a.units ++ b.units, ft := max a.ft b.ft, srcs := a.srcs ++ b.srcs,
                                    bad := a.bad || b.bad }
        some (s.setOp i { o with vals := swapVals o.vals a b v })
      | none => none

/-- Send a value, or a region of it, to another CE as an operand (R409, R411). -/
def sendValue (s : State) (i : OpId) (o : CeOp) (v : NodeVal) (lo hi : Nat) (dst : Nat × Nat × Nat) : State :=
  let h := spanHdr (opHdr s i o (0x40 + dOper o.desc) v.chunk (ceAddr dst)) v.f v.l
  sendTransfer s i h (hi - lo) (sliceUnits v.units lo hi)

/-- Note that a value has left this CE's hands, and drop it or keep it. -/
def leaveValue (s : State) (i : OpId) (v : NodeVal) (keep : Option NodeVal) : State :=
  s.updOp i (fun o => { o with shares := o.shares ++ [(v.chunk, v.f, v.l)],
                               vals := o.vals.filter (fun u => u != v) ++ keep.toList })

/-- What is to be done with a held value: nothing, handing it to a CE (all of it, keeping it or not), halving with a
partner, dropping it, or taking it as the root. -/
inductive ValAct where
  | hold
  | give (dst : Nat × Nat × Nat) (keep : Bool)
  | halve (dst : Nat × Nat × Nat) (step j : Nat)
  | drop
  | root
  deriving DecidableEq, Repr

/-- Exchange at a level whose blocks are numbered `j` here and hold `z` ranks each (R411). -/
def exchangeAct (o : CeOp) (v : NodeVal) (alg j z u : Nat) (partner : Nat → Nat × Nat × Nat) : ValAct :=
  let k := Nat.log2 ((v.l - v.f + 1) / max 1 z)
  if !(v.f ≤ j * z && j * z ≤ v.l) then .hold
  else if alg == 1 then
    (if o.shares.contains (v.chunk, v.f, v.l) then .hold else .give (partner (flipBit j k)) true)
  else if (v.lo, v.hi) == regionAt j k 0 u then .halve (partner (flipBit j k)) k j
  else .hold

/-- What a CE does with a value it holds (R329, R409 to R411). -/
def valueAct (s : State) (i : OpId) (o : CeOp) (v : NodeVal) : ValAct :=
  let g := s.grpOp i
  let x := o.desc
  let me := (s.pkgOf i.d, i.d, i.k)
  let u := chunkUnits g x v.chunk
  let pk := pkgAlg g o.cfg x v.chunk
  let pod := podAlg g o.cfg x v.chunk
  let pf := g.pi * pkgRanks g
  let pl := pf + pkgRanks g - 1
  if v.f == 0 && v.l + 1 == g.n then .root
  else match parentIn v.f v.l 32 0 (g.n - 1) with
    | none => .hold
    | some (a, b) =>
      if inDie g a && inDie g b then .hold
      else if flatAlg g o.cfg x v.chunk != 0 then
        exchangeAct o v (flatAlg g o.cfg x v.chunk) (g.pi * g.d + g.di) g.m u (fun j => blockCe s i.d i.k g j)
      else if inPkg g a && inPkg g b then
        if pk == 0 then (let w := ownerOf s i.d i.k g a b; if w == me then .hold else .give w false)
        else exchangeAct o v pk g.di g.m u
          (fun j => homeCe s i.d i.k g j)
      else
        let up := pkgCe s i.d i.k g g.pi
        let whole := v.f == pf && v.l == pl
        if whole && !(v.lo == 0 && v.hi == u) then (if isPkgCe g then .hold else .give up false)
        else
          let mine := isPkgCe g || pk == 0 || (g.di == 0 && !pkgCeIsHome s i.d i.k g)
          if !mine then .drop
          else if pod == 0 then (let w := ownerOf s i.d i.k g a b; if w == me then .hold else .give w false)
          else if !isPkgCe g then .give up false
          else exchangeAct o v pod g.pi (pkgRanks g) u (fun j => pkgCe s i.d i.k g j)

/-- The region of a chunk that an operand from another CE covers (R411): all of it, but under halving. -/
def recvRegion (s : State) (i : OpId) (o : CeOp) (c : Nat) (src : BitVec 32) (f l : Nat) : Nat × Nat :=
  let g := s.grpOp i
  let u := chunkUnits g o.desc c
  let own := bitsOf src 31 19 == s.pkgOf i.d
  if bitsOf src 1 0 != 1 then (0, u)
  else if flatAlg g o.cfg o.desc c == 2 then
    regionAt (g.pi * g.d + g.di) (Nat.log2 ((l - f + 1) / max 1 g.m) + 1) 0 u
  else if own && pkgAlg g o.cfg o.desc c == 2 then
    if l - f + 1 == pkgRanks g then
      match (List.range g.d).find? (fun di => let h := homeCe s i.d i.k g di; (h.2.1, h.2.2) == (bitsOf src 18 12, bitsOf src 11 2)) with
      | some j => regionAt j (Nat.log2 g.d) 0 u
      | none => (0, u)
    else regionAt g.di (Nat.log2 ((l - f + 1) / max 1 g.m) + 1) 0 u
  else if !own && podAlg g o.cfg o.desc c == 2 then
    regionAt g.pi (Nat.log2 ((l - f + 1) / max 1 (pkgRanks g)) + 1) 0 u
  else (0, u)

/-! ## Outputs put together (R393, R411) -/

/-- The output of a chunk and segment as far as received. -/
def finOf (o : CeOp) (c q : Nat) : FinVal := (o.fins.find? (fun v => v.chunk == c && v.seg == q)).getD { chunk := c, seg := q }

/-- Units of a region that the received parts cover; the parts do not overlap. -/
def covered (v : FinVal) (lo hi : Nat) : Nat := (v.got.map (fun r => min r.2 hi - max r.1 lo)).sum

/-- Put a numbered unit into a rising list. -/
def putIx : List (Nat × DataUnit) → Nat × DataUnit → List (Nat × DataUnit)
  | [], u => [u]
  | a :: as, u => if u.1 < a.1 then u :: a :: as else if u.1 == a.1 then u :: as else a :: putIx as u

/-- Add a region to an output, where nothing of it has come yet. -/
def addFin (o : CeOp) (c q lo hi : Nat) (us : List (Nat × DataUnit)) : CeOp :=
  let v := finOf o c q
  if covered v lo hi != 0 then o
  else
    { o with fins := o.fins.filter (fun w => !(w.chunk == c && w.seg == q)) ++
        [{ v with got := v.got ++ [(lo, hi)], units := us.foldl putIx v.units }] }

end Sys2Proof.Machine
end

