-- ==== Sys2Proof/Machine/Collective.lean ====
section
/-! DEFINITION. How a collective engine moves an operation's data (R409 to R417): delivery to its members, distribution between home
CEs and package CEs, the walk of values to the root, staging and the start of chunks, and the steps of an all-to-all. -/

namespace Sys2Proof.Machine

open Sys2Proof

/-! ## Delivery to members (R393, R398, R416, R417) -/

/-- Whether the member of a rank receives outputs of a segment (R393). -/
def rankWants (o : CeOp) (q r : Nat) : Bool :=
  if dOp o.desc == 2 then r == dRoot o.desc else if dOp o.desc == 3 then r == q else true

/-- Whether a block of `n` ranks from `a` holds a rank that wants a segment. -/
def blockWants (o : CeOp) (q a n : Nat) : Bool :=
  if dOp o.desc == 2 then a ≤ dRoot o.desc && dRoot o.desc < a + n
  else if dOp o.desc == 3 then a ≤ q && q < a + n
  else true

/-- The local ranks that want a segment. -/
def wantedHere (g : Grp) (o : CeOp) (q : Nat) : List Nat := (localRanks g).filter (fun r => rankWants o q r)

/-- The header of a final output for members (R404). -/
def resultHdr (s : State) (i : OpId) (o : CeOp) (c q : Nat) (dest : BitVec 64) : Hdr :=
  ((opHdr s i o 0x30 c dest).setInl 371 352 q).setInl 372 372 1

/-- The packets of one output for the tile members of a CE: one multicast over the tree when it goes to all of them and a tree is
named, otherwise one transfer for each (R411, R412). -/
def resultTransfers (s : State) (i : OpId) (o : CeOp) (c q : Nat) (us : List (Nat × DataUnit)) : List (XKey × List Packet) :=
  let g := s.grpOp i
  let p := pieceOf g o.desc c q
  let rs := wantedHere g o q
  let dst := fun (r : Nat) => memberAddr s i.d i.k g (dDst o.desc) (r - firstRank g) (dstAt g o.desc c q)
  let mk := fun (h : Hdr) => (hdrKey h, buildTransfer h (p.2 - p.1) us true)
  if g.treeValid && rs.length == g.m then
    let h := resultHdr s i o c q (dst (firstRank g))
    [mk { h with flags := h.flags ||| 2, routeLocal := BitVec.ofNat 48 g.tree }]
  else rs.map (fun r => mk (resultHdr s i o c q (dst r)))

/-- Order a clear of `n` units at a tile member, for a chunk and SEG (R381, R417). -/
def orderClear (s : State) (i : OpId) (c q off n m : Nat) : State :=
  let g := s.grpOp i
  let p := niOf s i.d (memberTile s i.d i.k g m)
  let x := s.ni i.d p
  s.setNi i.d p (takeOrders { x with bus := x.bus ++
    [{ ce := i.k, clear := true, group := g.group, tag := i.tag % 65536, chunk := c, seg := q, off := off, units := n }] })

/-- Send prepared transfers and keep them (R408). -/
def sendResults (s : State) (i : OpId) (ts : List (XKey × List Packet)) : State :=
  ts.foldl (fun s t =>
    sendAll (s.updOp i (fun o => { o with sent := o.sent ++ [{ key := t.1, result := true, pks := t.2 }], lastSend := s.now i.d }))
      i.d (attCe i.k) t.2) s

/-- Deliver an output to the CE's own members (R393, R416, R417, R421). -/
def deliverLocal (s : State) (i : OpId) (c q : Nat) (us : List (Nat × DataUnit)) : State :=
  match s.op i with
  | none => s
  | some o =>
    let g := s.grpOp i
    let rs := wantedHere g o q
    let p := pieceOf g o.desc c q
    let n := p.2 - p.1
    let off := dstAt g o.desc c q
    let due := rs.map (fun r => ({ rank := r, chunk := c, seg := q } : Due))
    if rs.isEmpty then s
    else if g.mkind == 1 then
      let a := memberAddr s i.d i.k g (dDst o.desc) 0 off
      let s1 := if dSparse o.desc then spaceWrite s i.d a ((List.range n).map (fun j => (j, 0))) else s
      (spaceWrite s1 i.d a us).updOp i (fun o => { o with due := o.due ++ due, landed := o.landed ++ due })
    else
      let ts := resultTransfers s i o c q us
      let s1 := s.updOp i (fun o => { o with due := o.due ++ due })
      if dSparse o.desc then
        rs.foldl (fun s r => orderClear s i c q (bitsOf (dDst o.desc) 19 0 + off) n (r - firstRank g))
          (s1.updOp i (fun o => { o with
            clears := o.clears ++ [{ chunk := c, seg := q, wait := rs, pks := ts.flatMap (fun t => t.2) }],
            sent := o.sent ++ ts.map (fun t => { key := t.1, result := true, pks := t.2 }) }))
      else sendResults s1 i ts

/-- The tile of a rank has reported its clear of a chunk and SEG: once every clear of the delivery is reported, it is sent (R417). -/
def clearReported (s : State) (i : OpId) (c q rank : Nat) : State :=
  match s.op i with
  | none => s
  | some o =>
    match o.clears.find? (fun x => x.chunk == c && x.seg == q) with
    | none => s
    | some x =>
      let rest := o.clears.filter (fun y => y != x)
      let left := x.wait.filter (fun r => r != rank)
      if left.isEmpty then
        sendAll (s.setOp i { o with clears := rest, lastSend := s.now i.d }) i.d (attCe i.k) x.pks
      else s.setOp i { o with clears := rest ++ [{ x with wait := left }] }

/-! ## Distribution (R409, R411) -/

/-- How far a CE passes an output on: to its members, to its package, to its package and the other package CEs, or, for an input of
one of its members, to its members and its package CE. -/
inductive Scope where
  | members | package | pod | origin
  deriving DecidableEq, Repr

/-- The CEs that a CE passes a segment on to. -/
def scopeTargets (s : State) (i : OpId) (o : CeOp) (q : Nat) (sc : Scope) : List (Nat × Nat × Nat) :=
  let g := s.grpOp i
  let pkgs := ((List.range g.p).filter (fun pi => pi != g.pi && blockWants o q (pi * pkgRanks g) (pkgRanks g))).map
    (fun pi => pkgCe s i.d i.k g pi)
  let homes := ((List.range g.d).filter (fun di =>
      !(isHome g && di == g.di) && blockWants o q ((g.pi * g.d + di) * g.m) g.m)).map (fun di => homeCe s i.d i.k g di)
  match sc with
  | .members => []
  | .package => homes
  | .pod => pkgs ++ homes
  | .origin => if isPkgCe g then pkgs ++ homes else if g.p * g.d ≤ 1 then [] else [pkgCe s i.d i.k g g.pi]

/-- The algorithm of the level that forms the root: with FLAT its blocks are all the die blocks (R410), with one package block those of
the package, otherwise the package blocks. -/
def rootAlg (g : Grp) (o : CeOp) (c : Nat) : Nat :=
  if dFlat o.desc then flatAlg g o.cfg o.desc c
  else if g.p == 1 then pkgAlg g o.cfg o.desc c else podAlg g o.cfg o.desc c

/-- Whether the blocks of the level that forms the root are die blocks. -/
def dieRoot (g : Grp) (x : BitVec 512) : Bool := dFlat x || g.p == 1

/-- The scope of a value that every block of that level holds after an exchange. -/
def levelScope (g : Grp) (x : BitVec 512) : Scope := if dieRoot g x then .members else .package

/-- The index of this CE's block and the number of blocks at that level. -/
def rootLevel (g : Grp) (x : BitVec 512) : Nat × Nat :=
  if dFlat x then (g.pi * g.d + g.di, g.p * g.d) else if g.p == 1 then (g.di, g.d) else (g.pi, g.p)

/-- The CE of block `j` at that level. -/
def rootPeer (s : State) (i : OpId) (g : Grp) (x : BitVec 512) (j : Nat) : Nat × Nat × Nat :=
  if dFlat x then blockCe s i.d i.k g j else if g.p == 1 then homeCe s i.d i.k g j else pkgCe s i.d i.k g j

/-- Whether the home CEs of a package block all-gather a chunk of an ALL_REDUCE whose regions its package CE, no home CE, sends them:
the package level halved it (R411). (DEDUCED, log 57) -/
def pkgGather (s : State) (i : OpId) (o : CeOp) (c : Nat) : Bool :=
  let g := s.grpOp i
  dOp o.desc == 1 && !dieRoot g o.desc && pkgAlg g o.cfg o.desc c == 2 && !pkgCeIsHome s i.d i.k g

/-- What a CE sends another of an output: all of the segment's part of the chunk, or, under `pkgGather`, a home CE's region. -/
def passRegion (s : State) (i : OpId) (o : CeOp) (c q : Nat) (t : Nat × Nat × Nat) : Nat × Nat :=
  let g := s.grpOp i
  match (List.range g.d).find? (fun di => homeCe s i.d i.k g di == t) with
  | some di => if pkgGather s i o c then regionAt di (Nat.log2 g.d) 0 (chunkUnits g o.desc c) else pieceOf g o.desc c q
  | none => pieceOf g o.desc c q

/-- Pass a whole output on, once, leaving out the CE it came from. -/
def distribute (s : State) (i : OpId) (c q : Nat) (us : List (Nat × DataUnit)) (sc : Scope) (frm : Nat × Nat × Nat) : State :=
  match s.op i with
  | none => s
  | some o =>
    if o.fwd.contains (c, q) then s
    else
      let g := s.grpOp i
      let p := pieceOf g o.desc c q
      let s1 := s.setOp i { o with fwd := o.fwd ++ [(c, q)] }
      let s2 := ((scopeTargets s i o q sc).filter (fun t => t != frm && t != (s.pkgOf i.d, i.d, i.k))).eraseDups.foldl
        (fun s t =>
          let r := passRegion s i o c q t
          sendTransfer s i ((opHdr s i o 0x30 c (ceAddr t)).setInl 371 352 q) (r.2 - r.1)
            (sliceUnits us (r.1 - p.1) (r.2 - p.1))) s1
      deliverLocal s2 i c q us

/-- The level at which a CE all-gathers a chunk (R411): its block, the number of blocks, and the CE of each; none where it takes no part. -/
def gatherLevel (s : State) (i : OpId) (o : CeOp) (c : Nat) : Option (Nat × Nat × (Nat → Nat × Nat × Nat)) :=
  let g := s.grpOp i
  let x := o.desc
  if dOp x == 1 && rootAlg g o c == 2 && (if dieRoot g x then isHome g else isPkgCe g) then
    some ((rootLevel g x).1, (rootLevel g x).2, fun t => rootPeer s i g x t)
  else if isHome g && pkgGather s i o c then some (g.di, g.d, fun t => homeCe s i.d i.k g t)
  else none

/-- The steps of the all-gather that are due (R411): step k sends the region held after halving step k. -/
def gatherSteps (s : State) (i : OpId) (c j b : Nat) (peer : Nat → Nat × Nat × Nat) : State :=
  match s.op i with
  | none => s
  | some o =>
    let g := s.grpOp i
    let u := chunkUnits g o.desc c
    (List.range (Nat.log2 b)).reverse.foldl (fun s k =>
      let r := regionAt j (k + 1) 0 u
      let v := finOf o c 0
      if o.gath.contains (c, k) || covered v r.1 r.2 != r.2 - r.1 then s
      else
        sendTransfer (s.updOp i (fun o => { o with gath := o.gath ++ [(c, k)] })) i
          (opHdr s i o 0x30 c (ceAddr (peer (flipBit j k)))) (r.2 - r.1) (sliceUnits v.units r.1 r.2)) s

/-- Add a region to an output; when it is whole, pass it on. `lo`, `hi` count within the chunk. -/
def takeFin (s : State) (i : OpId) (c q lo hi : Nat) (us : List (Nat × DataUnit)) (sc : Scope) (frm : Nat × Nat × Nat) : State :=
  let s1 := s.updOp i (fun o => addFin o c q lo hi us)
  match s1.op i with
  | none => s1
  | some o =>
    let g := s1.grpOp i
    let p := pieceOf g o.desc c q
    let v := finOf o c q
    let s2 := match gatherLevel s1 i o c with
      | some (j, b, peer) => gatherSteps s1 i c j b peer
      | none => s1
    if covered v p.1 p.2 == p.2 - p.1 then distribute s2 i c q (sliceUnits v.units p.1 p.2) sc frm else s2

/-- Send the pieces of a halved root to the CEs whose ranks want them (R411). -/
def scatterPieces (s : State) (i : OpId) (o : CeOp) (v : NodeVal) : State :=
  let g := s.grpOp i
  let me := (s.pkgOf i.d, i.d, i.k)
  (segsOf g o.desc v.chunk).foldl (fun s q =>
    let p := pieceOf g o.desc v.chunk q
    let lo := max p.1 v.lo
    let hi := min p.2 v.hi
    let dst := if dFlat o.desc then blockCe s i.d i.k g (q / max 1 g.m)
      else if g.p == 1 then homeCe s i.d i.k g (diOf g q) else pkgCe s i.d i.k g (piOf g q)
    if hi ≤ lo then s
    else if dst == me then takeFin s i v.chunk q lo hi (liftUnits (sliceUnits v.units lo hi) lo) (levelScope g o.desc) me
    else sendTransfer s i ((opHdr s i o 0x30 v.chunk (ceAddr dst)).setInl 371 352 q) (hi - lo) (sliceUnits v.units lo hi)) s

/-- The reduction of a chunk is complete at this CE, or its region of it (R329, R411). -/
def finishRoot (s : State) (i : OpId) (v : NodeVal) : State :=
  match s.op i with
  | none => s
  | some o =>
    let g := s.grpOp i
    let me := (s.pkgOf i.d, i.d, i.k)
    let s1 := leaveValue s i v none
    match rootAlg g o v.chunk with
    | 2 =>
      if dOp o.desc == 3 then scatterPieces s1 i o v
      else takeFin s1 i v.chunk 0 v.lo v.hi v.units (levelScope g o.desc) me
    | a =>
      let sc := if a == 1 then levelScope g o.desc else .pod
      (segsOf g o.desc v.chunk).foldl (fun s q =>
        let p := pieceOf g o.desc v.chunk q
        distribute s i v.chunk q (sliceUnits v.units p.1 p.2) sc me) s1

/-- Act on one held value, if anything is due. -/
def actOnce (s : State) (i : OpId) (v : NodeVal) : Option State :=
  match s.op i with
  | none => none
  | some o =>
    match valueAct s i o v with
    | .hold => none
    | .drop => some (leaveValue s i v none)
    | .root => some (finishRoot s i v)
    | .give dst keep =>
      some (sendValue (leaveValue s i v (if keep then some v else none)) i o v v.lo v.hi dst)
    | .halve dst k j =>
      let mine := regionAt j (k + 1) 0 (chunkUnits (s.grpOp i) o.desc v.chunk)
      let other := if mine.1 == v.lo then (mine.2, v.hi) else (v.lo, mine.1)
      let keep : NodeVal := { v with lo := mine.1, hi := mine.2,
                                     units := v.units.filter (fun u => mine.1 ≤ u.1 && u.1 < mine.2) }
      some (sendValue (leaveValue s i v (some keep)) i o v other.1 other.2 dst)

/-- Combine and act until nothing is due. -/
def runValues : Nat → State → OpId → State
  | 0, s, _ => s
  | n + 1, s, i =>
    match s.op i with
    | none => s
    | some o =>
      match o.vals.findSome? (fun v => actOnce s i v) with
      | some s1 => runValues n s1 i
      | none => match combineOnce s i with
        | some s1 => runValues n s1 i
        | none => s

/-- Take a value into an operation (R329). A span that is no node makes the result unpredictable (R126): the node around it takes
free units. -/
def takeValue (s : State) (i : OpId) (v : NodeVal) : State :=
  let g := s.grpOp i
  if isNode v.f v.l g.n then runValues 256 (s.updOp i (fun o => { o with vals := o.vals ++ [v] })) i
  else
    let w := nodeAround v.f (min v.l (g.n - 1)) 32 0 (g.n - 1)
    let (us, s1) := drawValue s v.lo v.hi
    runValues 256 (s1.updOp i (fun o => { o with vals := o.vals ++ [{ v with f := w.1, l := w.2, units := us }] })) i

/-! ## Staging (R413, R414, R432) -/

/-- Bytes of a chunk's reservation (R413). -/
def chunkNeed (g : Grp) (o : CeOp) : Nat := 3 * chunkBytes g o.desc

/-- Whether `n` bytes fit in the half of an epoch's parity (R413). -/
def stageFits (s : State) (d k parity n : Nat) : Bool := (s.ce d k).used.get 0 parity + n ≤ stageSize s d k / 2

/-- Reserve or free staging in a half. -/
def stageUse (s : State) (d k parity n : Nat) (free : Bool) : State :=
  let c := s.ce d k
  let u := c.used.get 0 parity
  s.setCe d k { c with used := c.used.set 0 parity (if free then u - n else u + n) }

/-- Reserve a chunk's staging, whole or not at all (R413). (DEDUCED, log 53) -/
def reserveChunk (s : State) (i : OpId) (c : Nat) : Option State :=
  match s.op i with
  | none => none
  | some o =>
    if o.live.contains c then some s
    else
      let n := chunkNeed (s.grpOp i) o
      let q := dEpoch o.desc % 2
      if stageFits s i.d i.k q n then
        some ((stageUse s i.d i.k q n false).updOp i (fun o => { o with live := o.live ++ [c] }))
      else none

/-! ## The start of a chunk (R411, R413, R421) -/

/-- A member's input units [a, a + n) from SRC: from staging when the operation staged them (R412), otherwise from the member. -/
def memberUnits (s : State) (i : OpId) (o : CeOp) (r a n : Nat) : List (Nat × DataUnit) × State :=
  let g := s.grpOp i
  let num := fun (us : List DataUnit) => (List.range n).map (fun j => (j, us.getD j 0))
  match o.staged.find? (fun x => x.1 == r) with
  | some x => (num ((x.2.drop a).take n), s)
  | none =>
    let q := spaceRead s i.d (memberAddr s i.d i.k g (dSrc o.desc) (r - firstRank g) (64 * a)) n
    (num q.1, q.2)

/-- A member's units as a transfer carries them: sparse-coded when the operation is sparse (R96). -/
def codeUnits (o : CeOp) (us : List (Nat × DataUnit)) : List (Nat × DataUnit) :=
  if dSparse o.desc then (us.map (fun u => (u.1, dropNegZero (dFmt o.desc) u.2))).filter (fun u => u.2 != 0) else us

/-- Order a tile member's send engine to send (R381). (DEDUCED, log 64) -/
def orderSend (s : State) (i : OpId) (r c off n start : Nat) (h : Hdr) : State :=
  let g := s.grpOp i
  let p := niOf s i.d (memberTile s i.d i.k g (r - firstRank g))
  let x := s.ni i.d p
  let ord : Order := { ce := i.k, clear := false, group := g.group, tag := i.tag % 65536, chunk := c, off := off, units := n,
                       hdr := { h with src := niSrc s i.d p }, start := start }
  (s.setNi i.d p (takeOrders { x with bus := x.bus ++ [ord] })).updOp i (fun o => { o with
    out := o.out ++ [(r, c)], lastSend := s.now i.d,
    sent := o.sent ++ [{ key := hdrKey h, dest := h.dest, order := some (p, ord) }] })

/-- The local ranks whose inputs an operation carries (R393). -/
def inputRanks (g : Grp) (o : CeOp) : List Nat :=
  if dOp o.desc == 5 then (localRanks g).filter (fun r => r == dRoot o.desc)
  else if isReduce o.desc || dOp o.desc == 4 then localRanks g else []

/-- The header of a member's input for chunk `c` (R404, R411). -/
def inputHdr (s : State) (i : OpId) (o : CeOp) (r c : Nat) : Hdr :=
  let dst := ceAddr (s.pkgOf i.d, i.d, i.k)
  if isReduce o.desc then spanHdr (opHdr s i o (0x40 + dOper o.desc) c dst) r r
  else (opHdr s i o 0x30 c dst).setInl 371 352 (if dOp o.desc == 4 then r else 0)

/-- Bring one member's input of a chunk in: an order to its send engine, or, from the CE's own buffer or from staging, the data
itself (R377, R412). -/
def inputMember (s : State) (i : OpId) (c r : Nat) : State :=
  match s.op i with
  | none => s
  | some o =>
    let g := s.grpOp i
    let a := chunkStart g o.desc c
    let n := chunkUnits g o.desc c
    if g.mkind == 0 && !dStage o.desc then
      orderSend s i r c ((bitsOf (dSrc o.desc) 19 0 + 64 * a) % 2 ^ 20) n 0 (inputHdr s i o r c)
    else
      let (us, s1) := memberUnits s i o r a n
      let us := codeUnits o us
      if isReduce o.desc then
        takeValue s1 i { chunk := c, f := r, l := r, lo := 0, hi := n, units := us, ft := s.now i.d,
                         srcs := [{ cmd := 0, group := 0, tag := 0, chunk := c, a := r, b := r }] }
      else takeFin s1 i c (if dOp o.desc == 4 then r else 0) 0 n us .origin (s.pkgOf i.d, i.d, i.k)

/-! ### All-to-all (R418 to R421) -/

/-- REQ of a local source for a destination (R418). -/
def reqOfPair (s : State) (i : OpId) (o : CeOp) (r t : Nat) : Nat :=
  let g := s.grpOp i
  if dOp o.desc == 6 then dCap o.desc
  else
    let a := memberAddr s i.d i.k g (if g.mkind == 0 then BitVec.ofNat 64 (dScnt o.desc)
      else BitVec.ofNat 64 ((dSrc o.desc).toNat / 2 ^ 34 * 2 ^ 34 + dScnt o.desc)) (r - firstRank g) (8 * t)
    match spaceAt s i.d a with
    | some (off, key, _) => (readWord s.mem (key off)).toNat % 2 ^ 32
    | none => 0

/-- Write KEPT back beside REQ in the send counts (R419). -/
def writeKept (s : State) (i : OpId) (o : CeOp) (r t kept : Nat) : State :=
  let g := s.grpOp i
  if dOp o.desc == 6 then s
  else
    let a := memberAddr s i.d i.k g (if g.mkind == 0 then BitVec.ofNat 64 (dScnt o.desc)
      else BitVec.ofNat 64 ((dSrc o.desc).toNat / 2 ^ 34 * 2 ^ 34 + dScnt o.desc)) (r - firstRank g) (8 * t)
    match spaceAt s i.d a with
    | some (off, key, _) => { s with mem := writeBytes s.mem (key (off + 4)) (bytesOfNat 4 kept) }
    | none => s

/-- Where a pair's data or count goes (R421): the destination tile at `off` of its buffer, or the CE of a CE member. -/
def pairDest (s : State) (i : OpId) (t : Nat) (base : BitVec 64) (off : Nat) : BitVec 64 :=
  let g := s.grpOp i
  let h := rankCe s i.d i.k g t
  if g.mkind == 0 then
    let m := memberTile s i.d i.k g (t % max 1 g.m)
    fabricAddr h.1 h.2.1 m.2 m.1 ((bitsOf base 19 0 + off) % 2 ^ 20)
  else ceAddr h

/-- The first unit of a destination's segment in SRC (R418). (DESIGN CHOICE, log 59) -/
def pairStart (s : State) (i : OpId) (o : CeOp) (r t : Nat) : Nat :=
  if dOp o.desc == 6 then dCap o.desc * t else ((List.range t).map (fun u => reqOfPair s i o r u)).sum

/-- A packet from a member, or from the CE on a CE member's behalf. -/
def pairSend (s : State) (i : OpId) (o : CeOp) (r c t a n : Nat) (h : Hdr) : State :=
  let g := s.grpOp i
  let note := fun (s : State) (b : Nat) => s.updOp i (fun o => { o with sent := o.sent.map (fun x =>
    if x.key == hdrKey h && x.dest == h.dest then { x with key := { x.key with b := b } } else x) })
  if g.mkind == 0 && !(dStage o.desc && n != 0) then
    note (orderSend s i r c ((bitsOf (dSrc o.desc) 19 0 + 64 * a) % 2 ^ 20) n 0 h) t
  else if n == 0 then sendAt s i.d (attCe i.k) { hdr := h }
  else
    let (us, s1) := memberUnits s i o r a n
    note (let ps := buildTransfer h n us (destMoves h)
          sendAll (s1.updOp i (fun o => { o with sent := o.sent ++ [{ key := hdrKey h, dest := h.dest, pks := ps }],
                                                 lastSend := s.now i.d })) i.d (attCe i.k) ps) t

/-- The counts of one local source (R419): each destination learns KEPT and REQ, and the units beyond CAP are counted. -/
def pairCounts (s : State) (i : OpId) (r : Nat) : State :=
  (List.range (s.grpOp i).n).foldl (fun s t =>
    match s.op i with
    | none => s
    | some o =>
      let req := reqOfPair s i o r t
      let kept := min req (dCap o.desc)
      let h := ((opHdr s i o 0x32 0 (pairDest s i t (BitVec.ofNat 64 (dRcnt o.desc)) (8 * r))).setInl 375 352 kept).setInl 399 376 req
      let h := { h with flags := 0 }
      let s1 := writeKept s i o r t kept
      let s2 := if req == kept then s1
        else (s1.updOp i (fun o => { o with dropped := o.dropped + (req - kept), truncated := true })).bump i.d
          (cew i.k CE_A2A_DROP) 47 0 (req - kept)
      pairSend s2 i o r 0 t 0 0 h) s

/-- Chunk `c` of one local source to every destination (R419, R421). -/
def pairChunk (s : State) (i : OpId) (c r : Nat) : State :=
  (List.range (s.grpOp i).n).foldl (fun s t =>
    match s.op i with
    | none => s
    | some o =>
      let g := s.grpOp i
      let kept := min (reqOfPair s i o r t) (dCap o.desc)
      let a := chunkStart g o.desc c
      let n := min kept (a + chunkUnits g o.desc c) - a
      if n == 0 then s
      else
        let h := ((opHdr s i o 0x31 c (pairDest s i t (dDst o.desc) (64 * (dCap o.desc * r + a)))).setInl 371 352 r).setInl 395 372 a
        pairSend s i o r c t (pairStart s i o r t + a) n h) s

/-! ### Starting -/

/-- Bring in the inputs of chunk `c`, whose staging is reserved (R411). -/
def runChunk (s : State) (i : OpId) (c : Nat) : State :=
  match s.op i with
  | none => s
  | some o =>
    let g := s.grpOp i
    let s1 := s.updOp i (fun o => { o with next := max o.next (c + 1), blocked := false })
    if isA2a o.desc then
      let s2 := if c == 0 then (localRanks g).foldl (fun s r => pairCounts s i r) s1 else s1
      (localRanks g).foldl (fun s r => pairChunk s i c r) s2
    else (inputRanks g o).foldl (fun s r => inputMember s i c r) s1

/-- WINDOW in force (R431). -/
def windowOf (cfg : Word) : Nat := if bitsOf cfg 11 8 == 0 then 16 else bitsOf cfg 11 8

/-- Start the next chunk of an operation, when its reservation succeeds within WINDOW chunks (R413): those that the CE has started and not
finished. (DEDUCED, log 53) -/
def startChunk (s : State) (i : OpId) : State :=
  match s.op i with
  | none => s
  | some o =>
    if nChunks (s.grpOp i) o.desc ≤ o.next || windowOf o.cfg ≤ (o.live.filter (fun c => c < o.next)).length then s
    else match reserveChunk s i o.next with
      | some s1 => runChunk s1 i o.next
      | none => s.setOp i { o with blocked := true }

end Sys2Proof.Machine
end

