-- ==== Sys2Proof/Machine/Records.lean ====
section
/-! DEFINITION. How an operation ends at a collective engine: chunks and signals (R398, R416), completion records and what follows
them (R395 to R397), digests (R749, R750), the live pair (R112, R113), and aborts (R423 to R427). -/

namespace Sys2Proof.Machine

open Sys2Proof

/-! ## What is finished (R398, R416) -/

/-- Whether this CE's share of a chunk's reduction has left its hands: the values it sent, dropped or took as the root cover the
`n` ranks from `a` (R409, R411). -/
def shareDone (o : CeOp) (c a n : Nat) : Bool :=
  o.shares.any (fun x => x.1 == c && x.2.1 ≤ a && a + n ≤ x.2.2 + 1) ||
    n ≤ ((o.shares.filter (fun x => x.1 == c && a ≤ x.2.1 && x.2.2 < a + n)).map (fun x => x.2.2 - x.2.1 + 1)).sum

/-- Whether every local member that wants an output of chunk `c` has it. -/
def localLanded (g : Grp) (o : CeOp) (c : Nat) : Bool :=
  (segsOf g o.desc c).all (fun q => (wantedHere g o q).all (fun r => o.landed.contains { rank := r, chunk := c, seg := q }))

/-- Whether the home CEs exchange a chunk among themselves at the level that forms the root, so that a package CE takes no part and owes
no output (R410, R411). (DEDUCED, log 57) -/
def homesExchange (g : Grp) (o : CeOp) (c : Nat) : Bool :=
  isReduce o.desc && dieRoot g o.desc && rootAlg g o c != 0

/-- Whether this CE has passed on every output of chunk `c` that it owes to other CEs. -/
def outputsPassed (g : Grp) (o : CeOp) (c : Nat) : Bool :=
  let root := isReduce o.desc && g.pi == 0
  let wants := fun (q : Nat) => if homesExchange g o c then blockWants o q (firstRank g) g.m
    else blockWants o q (g.pi * pkgRanks g) (pkgRanks g)
  (segsOf g o.desc c).all (fun q => !(wants q || (root && rootAlg g o c == 0)) || o.fwd.contains (c, q))


/-- Whether this CE has finished with chunk `c` (R398). -/
def chunkDone (g : Grp) (o : CeOp) (c : Nat) : Bool :=
  c < o.next &&
    (if isA2a o.desc then !o.out.any (fun x => x.2 == c)
     else if homesExchange g o c && !isHome g then true
     else
       (if isReduce o.desc then shareDone o c (servedRank g) (if isHome g then g.m else pkgRanks g) else true) &&
       (if isHome g then localLanded g o c else true) &&
       (if isPkgCe g then outputsPassed g o c else true))

/-- Whether every count and every kept unit of an all-to-all has come to every local member (R420). -/
def a2aDone (g : Grp) (o : CeOp) : Bool :=
  (localRanks g).all (fun t => (List.range g.n).all (fun r =>
    match o.a2a.find? (fun x => x.dst == t && x.src == r) with
    | some x => match x.count with
      | some (kept, _) => (List.range (nChunks g o.desc)).all (fun c => kept ≤ chunkStart g o.desc c || x.chunks.contains c)
      | none => false
    | none => false))

/-- Whether an operation may end at this CE now (R398). -/
def opDone (s : State) (i : OpId) (o : CeOp) : Bool :=
  let g := s.grpOp i
  match dOp o.desc with
  | 0 => true
  | 8 => o.released
  | n =>
    nChunks g o.desc ≤ o.next && (List.range (nChunks g o.desc)).all (chunkDone g o) && o.clears.isEmpty &&
      (if isA2a o.desc then a2aDone g o else true) &&
      (if n == 2 && isHome g && !inDie g (dRoot o.desc) then
        o.lastSend + 2 * g.tmo < s.now i.d && o.resend.isEmpty else true)

/-- Whether the aligned chunk `z` of DST holds all that the operation writes there (R416): for ALL_GATHER every part of every
segment that meets it, for an all-to-all every kept unit of every slot that meets it, and the count of every slot that begins in it. -/
def dstChunkDone (g : Grp) (o : CeOp) (z : Nat) : Bool :=
  let x := o.desc
  let cu := chunkBytes g x / 64
  let lo := z * cu
  let hi := min (lo + cu) (outBytes g x / 64)
  let slot := if isA2a x then dCap x else dUnits x
  let srcs := (List.range g.n).filter (fun r => slot * r < hi && lo < slot * (r + 1))
  (localRanks g).all (fun t => srcs.all (fun r =>
    let cs := (List.range (nChunks g x)).filter (fun c =>
      slot * r + chunkStart g x c < hi && lo < slot * r + chunkStart g x (c + 1))
    if isA2a x then
      match o.a2a.find? (fun y => y.dst == t && y.src == r) with
      | some y => match y.count with
        | some (kept, _) => cs.all (fun c => slot * r + min kept (chunkStart g x (c + 1)) ≤ max lo (slot * r + chunkStart g x c) ||
            y.chunks.contains c)
        | none => slot * r < lo && cs.all (fun c => y.chunks.contains c)
      | none => false
    else cs.all (fun c => o.landed.contains { rank := t, chunk := c, seg := r })))

/-- The output chunks whose signal is due (R416). (DESIGN CHOICE, log 70) -/
def signalsDue (g : Grp) (o : CeOp) : List Nat :=
  if !dSigEn o.desc || !isHome g then []
  else if dOp o.desc == 4 || isA2a o.desc then
    let n := (outBytes g o.desc + chunkBytes g o.desc - 1) / chunkBytes g o.desc
    (List.range n).filter (fun z => !o.signalled.contains z && dstChunkDone g o z)
  else
    (List.range (nChunks g o.desc)).filter (fun c =>
      !o.signalled.contains c && (segsOf g o.desc c).any (fun q => !(wantedHere g o q).isEmpty) && localLanded g o c)

/-- Send the signals that are due, and free the staging of the chunks that are finished (R413, R416). A finished chunk is
progress (R423). (DEDUCED, log 53; DESIGN CHOICE, log 70) -/
def settleOp (s : State) (i : OpId) : State :=
  match s.op i with
  | none => s
  | some o =>
    let g := s.grpOp i
    let sig := signalsDue g o
    let ended := o.live.filter (chunkDone g o)
    let s1 := s.setOp i { o with signalled := o.signalled ++ sig, live := o.live.filter (fun c => !ended.contains c),
                                 progressFt := if ended.isEmpty then o.progressFt else s.now i.d }
    let s2 := sig.foldl (fun s _ => ceIncrement s i.d i.k (dSigObj o.desc)) s1
    stageUse s2 i.d i.k (dEpoch o.desc % 2) (ended.length * chunkNeed g o) true

/-! ## Digests (R747 to R750) -/

/-- The rank whose output a descriptor's digest covers (R749). -/
def digestRank (x : BitVec 512) : Nat := if dOp x == 2 then dRoot x else 0

/-- Whether a CE makes a digest of an operation: it is the home CE of the digest rank (R749). -/
def makesDigest (g : Grp) (x : BitVec 512) : Bool :=
  dDigest x && (dOp x == 1 || dOp x == 2 || dOp x == 4 || dOp x == 5) && inDie g (digestRank x)

/-- The bytes of the digest rank's output from DST, by chunk, as delivered (R749). (DEDUCED, log 60) -/
def digestBytes (s : State) (i : OpId) (o : CeOp) (c : Nat) : List Byte :=
  let g := s.grpOp i
  let n := min (chunkBytes g o.desc) (outBytes g o.desc - c * chunkBytes g o.desc)
  match spaceAt s i.d (memberAddr s i.d i.k g (dDst o.desc) (digestRank o.desc - firstRank g) (c * chunkBytes g o.desc)) with
  | some (off, key, _) => readBytes s.mem (key off) n
  | none => []

/-- Bytes of 64-bit words. -/
def wordsBytes (ws : List (BitVec 64)) : List Byte := ws.flatMap (fun w => bytesOfNat 8 w.toNat)

/-- DIGEST of an operation (R749). (DEDUCED, log 60) -/
def digestOf (s : State) (i : OpId) (o : CeOp) : List (BitVec 64) :=
  let g := s.grpOp i
  let x := o.desc
  let pre := bytesOfNat 8 (64 * dUnits x) ++ bytesOfNat 4 g.n ++ bytesOfNat 1 (dOp x) ++ bytesOfNat 1 (dOper x) ++
    bytesOfNat 1 (dFmt x) ++ bytesOfNat 1 (boolNat (dSparse x))
  let n := (outBytes g x + chunkBytes g x - 1) / chunkBytes g x
  Config.sha384 (pre ++ (List.range n).flatMap (fun c => wordsBytes (Config.sha384 (digestBytes s i o c))))

/-- A quad of a ledger body from two words. -/
def quadOf (hi lo : Nat) : Nat := hi % 2 ^ 64 * 2 ^ 64 + lo % 2 ^ 64

/-- Two data units from eight quads. -/
def unitsOfQuads (qs : List Nat) : List DataUnit :=
  [BitVec.ofNat 512 (glue 128 (qs.take 4)), BitVec.ofNat 512 (glue 128 (qs.drop 4))]

/-- The DIGEST record as a ledger submission to the active service die (R746, R747, R750). -/
def submitDigest (s : State) (i : OpId) (o : CeOp) : State :=
  let g := s.grpOp i
  let x := o.desc
  let w := (digestOf s i o).map (·.toNat)
  let hdr := daxadHeader 0x85 11 false false false (s.pkgOf i.d) i.d (s.now40 i.d) 0
  let q1 := g.group * 2 ^ 112 + i.tag % 65536 * 2 ^ 96 + dEpoch x * 2 ^ 88 + dOp x * 2 ^ 80 + dOper x * 2 ^ 77 + dFmt x * 2 ^ 73 +
    boolNat (dSparse x) * 2 ^ 72 + digestRank x * 2 ^ 52 + i.k * 2 ^ 49
  let q2 := o.startFt % 2 ^ 64 * 2 ^ 64 + 64 * dUnits x * 2 ^ 28 + g.n * 2 ^ 7
  let qs := [hdr, q1, q2, quadOf (w.getD 1 0) (w.getD 0 0), quadOf (w.getD 3 0) (w.getD 2 0), quadOf (w.getD 5 0) (w.getD 4 0), 0, 0]
  sendAt s i.d (attCe i.k)
    { hdr := { mkHdr 0x63 5 (fabricAddr (s.pkgOf i.d) s.headDie 0 0 (2 ^ 33)) (ceSrc s i.d i.k) with len := 2 },
      data := unitsOfQuads qs }

/-! ## Completion records (R395 to R397) -/

/-- The words of a completion record without PHASE and END_FT40 (R395). -/
def recordWord (g : Grp) (tag : Nat) (x : BitVec 512) (status : Nat) (foreign : Bool) (o : Option CeOp) : BitVec 256 :=
  BitVec.ofNat 256 (bitsOf x 511 476 * 2 ^ 204 + (o.map (fun p => satTo 24 p.dropped)).getD 0 * 2 ^ 168 +
    (o.map (fun p => p.slowRank)).getD 0 * 2 ^ 104 + (o.map (fun p => p.startFt % 2 ^ 40)).getD 0 * 2 ^ 64 +
    boolNat foreign * 2 ^ 63 + (o.map (fun p => satTo 7 p.retries)).getD 0 * 2 ^ 56 + status % 256 * 2 ^ 48 + dOp x * 2 ^ 40 +
    dEpoch x * 2 ^ 32 + tag % 65536 * 2 ^ 16 + g.group)

/-- Response tags of a CE: the watch on TAIL_OBJ, the watches on the halves of BAR_OBJ, descriptor reads and record writes of
entry `e`. -/
def tagTail (e : Nat) : Nat := 0x8000 + e
/-- Barrier watch of a half. (DEDUCED, log 47) -/
def tagBar (e half : Nat) : Nat := 0x9000 + 2 * e + half
/-- Descriptor read. (DEDUCED, log 47) -/
def tagFetch (e : Nat) : Nat := 0xA000 + e
/-- Record write. -/
def tagRec (e : Nat) : Nat := 0xB000 + e

/-- The four packets of a record: three WRITE8 and the WRITE_ACK of the word with PHASE, ORDERED on VC2 (R395). -/
def recordPackets (base : BitVec 64) (src : BitVec 32) (tag : Nat) (w : BitVec 256) : List Packet :=
  let w8 := fun (j : Nat) =>
    ({ hdr := { mkHdr 0x03 2 (base + BitVec.ofNat 64 (8 * j)) src with
                flags := 4, inl := BitVec.ofNat 128 (bitsOf w (64 * j + 63) (64 * j) + 0xFF * 2 ^ 64) } } : Packet)
  let at64 := base.toNat % 64
  [w8 0, w8 1, w8 2,
   { hdr := { mkHdr 0x02 2 (base - BitVec.ofNat 64 at64) src with
              flags := 4, len := 1, tag := BitVec.ofNat 16 tag, inl := BitVec.ofNat 128 (0xFF * 2 ^ (at64 + 24)) },
     data := [BitVec.ofNat 512 (bitsOf w 255 192 * 2 ^ (8 * (at64 + 24)))] }]

/-- Write the first waiting record, when no earlier operation is still active or waiting to start (R395, R397). -/
def pumpRecords (s : State) (d k e : Nat) : State :=
  let n := s.ent d k e
  let g := s.grp d k e
  match n.recBusy with
  | some _ => s
  | none =>
    let earliest := fun (r : CeRec) => n.recs.all (fun q => if q.old == r.old then r.tag ≤ q.tag else r.old) &&
      (r.old || (n.ops.all (fun o => r.tag < o.tag) && n.queue.all (fun q => r.tag < q.1)))
    match n.recs.find? earliest with
    | none => s
    | some r =>
      let c := n.written
      let phase := if c / 2 ^ g.clog % 2 == 0 then 1 else 0
      let w := setBits (setBits r.word 167 128 (s.now40 d)) 255 255 phase
      let base := g.cbase + BitVec.ofNat 64 (32 * (c % 2 ^ g.clog))
      sendAll (s.setEnt d k e { n with recs := n.recs.erase r, recBusy := some r }) d (attCe k)
        (recordPackets base (ceSrc s d k) (tagRec e) w)

/-- Put a record in line (R395). -/
def addRecord (s : State) (d k e : Nat) (r : CeRec) : State :=
  let n := s.ent d k e
  pumpRecords (s.setEnt d k e { n with recs := n.recs ++ [r] }) d k e

/-- The ACK of a record's PHASE word (R397): with status OK the record counts as written and DONE_OBJ is incremented. (DEDUCED, log 69) -/
def recordAcked (s : State) (d k e status : Nat) : State :=
  let n := s.ent d k e
  match n.recBusy with
  | none => s
  | some r =>
    let s1 := s.setEnt d k e { n with recBusy := none, written := if status == 0 && !r.old then n.written + 1 else n.written }
    let s2 := if status == 0 then
        let t := s1.bump d (cew k CE_OPS_DONE) 47 0 1
        match r.done with
        | some o => ceIncrement t d k o
        | none => t
      else s1
    pumpRecords s2 d k e

/-! ## The live pair (R112, R113) -/

/-- Whether an epoch lies in a live pair (R112); with none, any epoch is held. -/
def epochLive (n : CeEnt) (epoch : Nat) : Bool :=
  match n.live with
  | some e => epoch == e || epoch == (e + 1) % 256
  | none => true

/-- Advance a live pair while its first epoch is finished and the next descriptor carries a later one (R113). -/
def advanceLive : Nat → CeEnt → CeEnt
  | 0, n => n
  | k + 1, n =>
    match n.live, n.queue with
    | some e, q :: _ =>
      let ahead := (dEpoch q.2 + 256 - e) % 256
      if ahead == 0 || 128 ≤ ahead || n.ops.any (fun o => dEpoch o.desc == e) then n
      else advanceLive k { n with live := some ((e + 1) % 256) }
    | _, _ => n

/-- Advance an entry's live pair. -/
def State.advance (s : State) (d k e : Nat) : State := s.setEnt d k e (advanceLive 256 (s.ent d k e))

/-! ## The end of an operation (R398, R413, R440) -/

/-- Staging bytes that an operation still holds. -/
def opStaging (g : Grp) (o : CeOp) : Nat := o.live.length * chunkNeed g o + o.stagedBytes

/-- Update the slow-member registers (R428, R440). -/
def slowUpdate (s : State) (d k group : Nat) (o : CeOp) : State :=
  let w := BitVec.ofNat 64 (group * 2 ^ 48 + o.slowRank * 2 ^ 28 + o.slowLag)
  let s1 := s.setReg d (cew k CE_SLOW) w
  if s1.fld d (cew k CE_SLOW_MAX) 27 0 < o.slowLag then s1.setReg d (cew k CE_SLOW_MAX) w else s1

/-- Take an operation out of its entry, free its staging, and put its record in line. -/
def closeOp (s : State) (i : OpId) (o : CeOp) (status : Nat) (foreign : Bool) : State :=
  let g := s.grpOp i
  let n := s.ent i.d i.k i.e
  let s1 := stageUse (s.setEnt i.d i.k i.e { n with ops := n.ops.filter (fun p => p.tag != i.tag) }) i.d i.k
    (dEpoch o.desc % 2) (opStaging g o) true
  let s2 := slowUpdate s1 i.d i.k g.group o
  let s3 := if status == 1 then s2.raise i.d (cew i.k CE_EVENT) 7 else s2
  let done := if dDoneEn o.desc then some (dDoneObj o.desc) else none
  addRecord (s3.advance i.d i.k i.e) i.d i.k i.e
    { tag := i.tag, word := recordWord g i.tag o.desc status foreign (some o), done := done }

/-- End an operation that is finished (R398, R420, R750). -/
def endOp (s : State) (i : OpId) : State :=
  match s.op i with
  | none => s
  | some o =>
    if !opDone s i o then s
    else
      let status := if o.truncated then 1 else 0
      let s1 := if status == 0 && makesDigest (s.grpOp i) o.desc then submitDigest s i o else s
      closeOp s1 i o status false

/-! ## Aborts (R423 to R427) -/

/-- The CEs of an entry's abort list (R424). -/
def abortList (s : State) (d k : Nat) (g : Grp) : List (Nat × Nat × Nat) :=
  (List.range g.abortN).map (fun j =>
    let w := stageNat s d k (g.abortOff + 4 * j) 4
    (w % 8192, w / 8192 % 128, w / 2 ^ 20 % 8))

/-- An ABORT packet (R404). -/
def abortPacket (s : State) (d k : Nat) (g : Grp) (tag epoch reason ft40 : Nat) (dst : Nat × Nat × Nat) : Packet :=
  let h := mkHdr 0x35 0 (ceAddr dst) (ceSrc s d k)
  { hdr := { h with epoch := BitVec.ofNat 8 epoch, tag := BitVec.ofNat 16 tag, group := BitVec.ofNat 16 g.group,
                    ft40 := BitVec.ofNat 40 ft40, inl := BitVec.ofNat 128 reason } }

/-- Send ABORT to an entry's abort list but for the sender (R424). -/
def floodAbort (s : State) (d k e tag epoch reason ft40 : Nat) (frm : Option (Nat × Nat × Nat)) : State :=
  let g := s.grp d k e
  sendAll s d (attCe k) (((abortList s d k g).filter (fun t => some t != frm)).map
    (fun t => abortPacket s d k g tag epoch reason ft40 t))

/-- Order cancel of an operation on the send engines of the die block (R381, R424). -/
def cancelMembers (s : State) (d k : Nat) (g : Grp) (tag : Nat) : State :=
  if g.mkind != 0 then s
  else (List.range g.m).foldl (fun s m =>
    let p := niOf s d (memberTile s d k g m)
    let x := s.ni d p
    s.setNi d p { x with cancels := x.cancels ++ [(g.group, tag % 65536)] }) s

/-- Whether a header is a data packet of an operation. -/
def ofOp (group tag : Nat) (h : Hdr) : Bool :=
  0x30 ≤ h.cmd.toNat && h.cmd.toNat ≤ 0x46 && h.cmd != 0x34 && h.cmd != 0x35 && h.group.toNat == group && h.tag.toNat == tag % 65536

/-- Free the staging that is reserved for chunks of operations that have not started, where `f` holds (R414, R424). -/
def freeEarly (s : State) (d k : Nat) (f : Early → Bool) : State :=
  let c := s.ce d k
  let s1 := (c.early.filter f).foldl (fun s e => stageUse s d k e.parity e.bytes true) s
  s1.setCe d k { s1.ce d k with early := c.early.filter (fun e => !f e) }

/-- Stop injecting the transfers of an operation, and discard its packets that wait at the CE (R424). -/
def dropPackets (s : State) (d k group tag : Nat) : State :=
  let q := ik d (attCe k) 4
  let s1 := { s with inj := s.inj.set [] q ((s.inj.get [] q).filter (fun x => !ofOp group tag x.pk.hdr)) }
  let s2 := freeEarly s1 d k (fun e => e.group == group && e.tag == tag % 65536)
  let c := s2.ce d k
  let keep := fun (p : CePkt) => !ofOp group tag p.pk.hdr
  s2.setCe d k { c with held := c.held.filter keep, stall := c.stall.filter keep }

/-- The results of an aborted operation at the DST of a CE's members are unpredictable (R396): free units. -/
def spoilDst (s : State) (d k : Nat) (g : Grp) (x : BitVec 512) : State :=
  if !movesData x then s
  else ((localRanks g).filter (fun r => dOp x != 2 || r == dRoot x)).foldl (fun s r =>
    let us := drawUnits s (outBytes g x / 64)
    (List.range us.1.length).foldl (fun s j =>
      spaceWrite s d (memberAddr s d k g (dDst x) (r - firstRank g) (64 * j)) [(0, us.1.getD j 0)]) us.2) s

/-- Abort one active operation without its flood (R424). (DEDUCED, log 61) -/
def abortOne (s : State) (i : OpId) (o : CeOp) (reason : Nat) (foreign : Bool) : State :=
  let g := s.grpOp i
  let s1 := dropPackets (cancelMembers s i.d i.k g i.tag) i.d i.k g.group i.tag
  closeOp (spoilDst s1 i.d i.k g o.desc) i o reason foreign

/-- Halt an entry's group and abort every active operation of an epoch (R425). (DEDUCED, log 61) -/
def haltGroup (s : State) (d k e epoch reason : Nat) (foreign : Bool) : State :=
  let n := s.ent d k e
  let s1 := s.setEnt d k e { n with halted := true, wait := false }
  (n.ops.filter (fun o => dEpoch o.desc == epoch)).foldl (fun s o => abortOne s ⟨d, k, e, o.tag⟩ o reason foreign) s1

/-- Abort an active operation: the flood, the cancels, the record and the halt (R424, R425). -/
def abortOp (s : State) (i : OpId) (o : CeOp) (reason ft40 : Nat) (frm : Option (Nat × Nat × Nat)) : State :=
  let s1 := floodAbort s i.d i.k i.e i.tag (dEpoch o.desc) reason ft40 frm
  haltGroup s1 i.d i.k i.e (dEpoch o.desc) reason frm.isSome

/-- Originate ABORT for an active operation (R423). -/
def originate (s : State) (i : OpId) (reason : Nat) : State :=
  match s.op i with
  | none => s
  | some o =>
    let s1 := (s.raise i.d (cew i.k CE_EVENT) 0).bump i.d (cew i.k CE_ABORT_CNT) 31 0 1
    let s2 := if reason == 3 then s1.raise i.d (cew i.k CE_EVENT) 5 else s1
    abortOp s2 i o reason (s.now40 i.d) none

end Sys2Proof.Machine
end

