-- ==== Sys2Proof/Machine/Ce.lean ====
section
/-! DEFINITION. What reaches a collective engine: collective data and operands (R112, R329, R401 to R408, R414), resend requests, aborts
and releases (R405, R424, R462), and the reports of its send engines (R381). -/

namespace Sys2Proof.Machine

open Sys2Proof

/-- Descriptors of an entry that have started or ended: the number of the next to start. -/
def startedCount (n : CeEnt) : Nat :=
  match n.queue with
  | q :: _ => q.1
  | [] => n.head

/-- The active operation that a header names. -/
def opNamed (n : CeEnt) (h : Hdr) : Option CeOp := n.ops.find? (fun o => o.tag % 65536 == h.tag.toNat)

/-- How far a TAG lies past the last started descriptor, minus one (R424). -/
def tagAhead (n : CeEnt) (tag : Nat) : Nat := (tag + 65536 - startedCount n % 65536) % 65536

/-- Count a packet that the epoch check drops (R112, R435). -/
def epochDrop (s : State) (d k : Nat) : State :=
  (s.bump d (cew k CE_EPOCH_DROP) 47 0 1).raise d (cew k CE_EVENT) 6

/-! ## Bad transfers (R405 to R408, R358) -/

/-- RETRY_WAIT in ns: units of 64 fc of the CE's panel (R20, R405). -/
def retryWait (s : State) (i : OpId) (o : CeOp) : Nat :=
  bitsOf o.cfg 63 48 * (if (s.region i.d (attPanel s i.d (attCe i.k))).down then 80 else 40)

/-- A CHUNK_NACK packet (R404). (DEDUCED, log 62) -/
def nackPacket (s : State) (i : OpId) (o : CeOp) (chunk first last kind trs : Nat) (dst : Nat × Nat × Nat) : Packet :=
  let h := { opHdr s i o 0x34 chunk (ceAddr dst) with vc := 1, flags := 0, fmt := 0, ft40 := BitVec.ofNat 40 trs }
  { hdr := ((h.setInl 371 352 first).setInl 391 372 last).setInl 393 392 kind }

/-- The CEs that are asked to send a transfer again (R405). (DEDUCED, log 62) -/
def nackTargets (s : State) (i : OpId) (x : XKey) (src : BitVec 32) : List (Nat × Nat × Nat) :=
  let g := s.grpOp i
  if x.cmd == 0x31 then [rankCe s i.d i.k g x.a]
  else if bitsOf src 1 0 == 1 then [(bitsOf src 31 19, bitsOf src 18 12, bitsOf src 11 2)]
  else
    let f := x.a
    let l := if 0x40 ≤ x.cmd then x.b else x.a
    let meets := fun (a n : Nat) => a ≤ l && f < a + n
    ((List.range g.d).filter (fun di => meets ((g.pi * g.d + di) * g.m) g.m)).map (fun di => homeCe s i.d i.k g di) ++
      ((List.range g.p).filter (fun pi => pi != g.pi && meets (pi * pkgRanks g) (pkgRanks g))).map
        (fun pi => pkgCe s i.d i.k g pi)

/-- The transfers that a receiver of an operation has under retry (R405): receiver 0 is the CE, p + 1 the tile of NI p. -/
def retriesOf (o : CeOp) (rc : Nat) : List (XKey × Nat) := (o.retry.filter (fun r => r.1 == rc)).map (·.2)

/-- Ask for a transfer of receiver `rc` again (R405, R406): `last` is LAST of KIND 1 and 2. -/
def sendNack (s : State) (i : OpId) (rc : Nat) (x : XKey) (src : BitVec 32) (last : Nat) : State :=
  match s.op i with
  | none => s
  | some o =>
    let trs := s.now i.d + retryWait s i o
    let kind := if 0x40 ≤ x.cmd then 0 else if x.cmd == 0x31 then 1 else 2
    let ts := nackTargets s i x src
    let mine := fun (y : XKey) => rc == 0 && underRetry x y
    let s1 := s.setOp i { o with
      retry := o.retry.filter (fun r => !(r.1 == rc && r.2.1 == x)) ++ [(rc, x, trs)], retries := o.retries + ts.length,
      rx := o.rx.filter (fun y => !mine y.key), seen := o.seen.filter (fun y => !mine y) }
    let s2 := sendAll s1 i.d (attCe i.k)
      (ts.map (fun t => nackPacket s i o x.chunk x.a (if kind == 0 then x.b else last) kind trs t))
    (s2.raise i.d (cew i.k CE_EVENT) 2).bump i.d (cew i.k CE_RETRY_CNT) 31 0 ts.length

/-- A transfer is bad at a receiver: asked for again the first time, an abort the second (R405, R408). -/
def badTransfer (s : State) (i : OpId) (rc : Nat) (x : XKey) (src : BitVec 32) (last : Nat) : State :=
  match s.op i with
  | none => s
  | some o => if (retriesOf o rc).any (fun r => underRetry r.1 x) then originate s i 2 else sendNack s i rc x src last

/-- Count a failed check value (R435, R439). -/
def countChk (s : State) (d k : Nat) : State := (s.bumpSat d (cew k CE_ERR) 15 0 1).raise d (cew k CE_EVENT) 3

/-- A residue check fails while values combine (R358): the partial result is discarded, its transfers are asked for again, and the
CE's own inputs come again; a second failure in a chunk aborts. -/
def residueFail (s : State) (i : OpId) (a b : NodeVal) : State :=
  let s0 := (s.bumpSat i.d (cew i.k CE_ERR) 31 16 1).raise i.d (cew i.k CE_EVENT) 4
  match s0.op i with
  | none => s0
  | some o =>
    if o.residue.contains a.chunk then originate s0 i 2
    else
      let s1 := s0.setOp i { o with residue := o.residue ++ [a.chunk], vals := o.vals.filter (fun v => v != a && v != b) }
      (a.srcs ++ b.srcs).eraseDups.foldl (fun s x =>
        if x.cmd == 0 then inputMember s i a.chunk x.a else sendNack s i 0 { x with src := 0 } x.src x.b) s1

/-- The residue failure that is due, if one is: of two siblings that are held, one fails its check (R358). -/
def checkResidue (s : State) (i : OpId) : State :=
  match (s.op i).bind (fun o => siblingPair (s.grpOp i).n true o.vals) with
  | some (a, b) => residueFail s i a b
  | none => s

/-! ## Whole transfers (R393, R401, R411) -/

/-- Whether a transfer's packets disagree with the descriptor, which makes the result unpredictable (R103). -/
def offDescriptor (o : CeOp) (ps : List Packet) : Bool :=
  ps.any (fun p => p.hdr.fmt.toNat != dFmt o.desc || p.hdr.sparse != dSparse o.desc ||
    (0x40 ≤ p.hdr.cmd.toNat && p.hdr.cmd.toNat != 0x40 + dOper o.desc))

/-- The units of a transfer over a region of `n` units; free ones where it disagrees with the descriptor or its length. -/
def transferUnits (s : State) (o : CeOp) (ps : List Packet) (n : Nat) : List (Nat × DataUnit) × State :=
  let us := rxUnits ps
  if offDescriptor o ps || (!dSparse o.desc && us.length != n) then drawValue s 0 n else (us, s)

/-- The region and scope of an output, or of an input, that comes as COLL_DATA from `src` (R409, R411). -/
def collRegion (s : State) (i : OpId) (o : CeOp) (c q : Nat) (src : BitVec 32) : (Nat × Nat) × Scope :=
  let g := s.grpOp i
  let own := bitsOf src 31 19 == s.pkgOf i.d
  let from3 := (bitsOf src 31 19, bitsOf src 18 12, bitsOf src 11 2)
  let p := pieceOf g o.desc c q
  let (j, b) := rootLevel g o.desc
  let peer := (List.range b).find? (fun t => t != j && rootPeer s i g o.desc t == from3)
  let u := chunkUnits g o.desc c
  if bitsOf src 1 0 != 1 then (p, .origin)
  else if isHome g && pkgGather s i o c && own then
    match (List.range g.d).find? (fun t => t != g.di && homeCe s i.d i.k g t == from3) with
    | some t => (regionAt t (Nat.log2 (Nat.xor t g.di) + 1) 0 u, .members)
    | none => (regionAt g.di (Nat.log2 g.d) 0 u, .members)
  else if isReduce o.desc && rootAlg g o c == 2 && (dFlat o.desc || own == (g.p == 1)) then
    match peer with
    | some t =>
      if dOp o.desc == 3 then
        let r := regionAt t (Nat.log2 b) 0 u
        ((max p.1 r.1, min p.2 r.2), levelScope g o.desc)
      else (regionAt t (Nat.log2 (Nat.xor t j) + 1) 0 u, levelScope g o.desc)
    | none => (p, .members)
  else (p, if !isPkgCe g then .members else if own then .pod else .package)

/-- Take a whole, checked transfer into its operation; `residue` says that the checks of R358 find a fault when it combines, `ft` when
its packet with LAST arrived (R428). -/
def takeTransfer (s : State) (i : OpId) (ps : List Packet) (h : Hdr) (ft : Nat) (residue : Bool) : State :=
  match s.op i with
  | none => s
  | some o =>
    let g := s.grpOp i
    let x := xkeyOf h
    let c := x.chunk
    let key := { x with src := h.src }
    let s1 := s.setOp i { o with rx := o.rx.filter (fun y => y.key != x), seen := o.seen ++ [x] }
    if 0x40 ≤ h.cmd.toNat then
      let r := recvRegion s i o c h.src x.a x.b
      let (us, s2) := transferUnits s1 o ps (r.2 - r.1)
      checkResidue (takeValue s2 i { chunk := c, f := x.a, l := x.b, lo := r.1, hi := r.2, units := liftUnits us r.1, ft := ft,
                                     inc := true, srcs := [key], bad := residue }) i
    else if h.cmd == 0x31 then
      let a := memberAddr s i.d i.k g (dDst o.desc) 0 (64 * (dCap o.desc * x.a + h.inlBits 395 372))
      let us := rxUnits ps
      (spaceWrite s1 i.d a us).updOp i (fun o => { o with a2a := o.a2a.map (fun y =>
        if y.src == x.a && y.dst == firstRank g then { y with chunks := c :: y.chunks } else y) })
    else
      let q := x.a
      let r := collRegion s i o c q h.src
      let (us, s2) := transferUnits s1 o ps (r.1.2 - r.1.1)
      takeFin s2 i c q r.1.1 r.1.2 (liftUnits us r.1.1) r.2 (bitsOf h.src 31 19, bitsOf h.src 18 12, bitsOf h.src 11 2)

/-! ## Packets for an operation -/

/-- An all-to-all count for a local member (R420). -/
def noteCount (o : CeOp) (t r kept req : Nat) : CeOp :=
  let x := (o.a2a.find? (fun y => y.dst == t && y.src == r)).getD { dst := t, src := r }
  if x.count.isSome then o
  else
    { o with a2a := o.a2a.filter (fun y => !(y.dst == t && y.src == r)) ++ [{ x with count := some (kept, req) }],
             dropped := o.dropped + (req - kept), truncated := o.truncated || kept < req }

/-- The all-to-all record of a pair is there to note chunks in. -/
def ensurePair (o : CeOp) (t r : Nat) : CeOp :=
  if o.a2a.any (fun y => y.dst == t && y.src == r) then o else { o with a2a := o.a2a ++ [{ dst := t, src := r }] }

/-- A count for a CE member: written at its own RCNT_OFFSET and noted (R420, R421). The source rank follows from the sender's
place. -/
def countForCe (s : State) (i : OpId) (o : CeOp) (h : Hdr) : State :=
  let g := s.grpOp i
  let src := (List.range g.n).find? (fun r =>
    rankCe s i.d i.k g r == (bitsOf h.src 31 19, bitsOf h.src 18 12, bitsOf h.src 11 2))
  match src with
  | none => s
  | some r =>
    let a := BitVec.ofNat 64 ((dDst o.desc).toNat / 2 ^ 34 * 2 ^ 34 + dRcnt o.desc + 8 * r)
    let s1 := match spaceAt s i.d a with
      | some (off, key, lim) => { s with mem := putCounts s.mem key lim off h }
      | none => s
    settleOp (s1.updOp i (fun o => noteCount o (firstRank g) r (h.inlBits 375 352) (h.inlBits 399 376))) i

/-- A data packet of an active operation whose chunk's staging is reserved (R401, R405, R406). -/
def opPacket (s : State) (i : OpId) (x : CePkt) : State :=
  let p := x.pk
  let s0 := s.updOp i (fun o => { o with progressFt := s.now i.d })
  match s0.op i with
  | none => s0
  | some o =>
    let g := s0.grpOp i
    let h := p.hdr
    let now := s0.now i.d
    if h.cmd == 0x32 then countForCe s0 i o h
    else if stale (retriesOf o 0) now h || o.seen.contains (xkeyOf h) then s0
    else
      let o1 := if h.cmd == 0x31 then ensurePair o (firstRank g) (xkeyOf h).a else o
      let rx := (rxAdd o1.rx x.ft p).map (fun y => if y.key == xkeyOf h && x.bad then { y with bad := true } else y)
      let s1 := s0.setOp i { o1 with rx := rx }
      match rx.find? (fun y => y.key == xkeyOf h) with
      | none => s1
      | some y =>
        match rxWhole y with
        | none => s1
        | some ps =>
          let hd := (ps.headD p).hdr
          if rxOk ps then settleOp (takeTransfer s1 i ps hd y.lastFt y.bad) i
          else badTransfer (countChk s1 i.d i.k) i 0 y.key hd.src (if y.key.cmd == 0x31 then firstRank g else servedRank g)

/-- Take a data packet in, reserving staging for its chunk; false when it must wait (R414). -/
def admitPacket (s : State) (i : OpId) (p : CePkt) : State × Bool :=
  match s.op i with
  | none => (s, true)
  | some o =>
    let c := chunkNo p.pk.hdr
    if p.pk.hdr.cmd == 0x32 || o.live.contains c then (opPacket s i p, true)
    else if chunkDone (s.grpOp i) o c || nChunks (s.grpOp i) o.desc ≤ c then (s, true)
    else match reserveChunk s i c with
      | some s1 => (opPacket s1 i p, true)
      | none => (s, false)

/-- Bytes that a chunk of an operation that has not started takes (R413): by its descriptor where that is fetched, otherwise by the
group's default chunk size. (DESIGN CHOICE, log 54) -/
def earlyNeed (g : Grp) (n : CeEnt) (tag : Nat) : Nat :=
  match n.queue.find? (fun q => q.1 % 65536 == tag) with
  | some q => 3 * chunkBytes g q.2
  | none => 3 * 2 ^ (12 + g.defChunk)

/-- Hold a packet of an operation that has not started, in staging reserved for its chunk (R112, R414); a count takes none. False when
it must wait. -/
def holdEarly (s : State) (d k e : Nat) (p : CePkt) : State × Bool :=
  let h := p.pk.hdr
  let c := s.ce d k
  let x : Early := { group := h.group.toNat, tag := h.tag.toNat, chunk := chunkNo h, parity := h.epoch.toNat % 2,
                     bytes := earlyNeed (s.grp d k e) (s.ent d k e) h.tag.toNat }
  if h.cmd == 0x32 || c.early.any (fun y => y.group == x.group && y.tag == x.tag && y.chunk == x.chunk) then
    (s.setCe d k { c with held := c.held ++ [p] }, true)
  else if stageFits s d k x.parity x.bytes then
    let s1 := stageUse s d k x.parity x.bytes false
    (s1.setCe d k { s1.ce d k with held := c.held ++ [p], early := c.early ++ [x] }, true)
  else (s, false)

/-- What a CE does with a data packet that has passed its meter: drop it under R112, hold it for an operation that has not
started, discard it after the operation's end, or take it in. False when it must wait at the input (R414). -/
def cePacket (s : State) (d k : Nat) (p : CePkt) : State × Bool :=
  let h := p.pk.hdr
  match entryOf s d k h.group.toNat with
  | none => (epochDrop s d k, true)
  | some e =>
    let n := s.ent d k e
    if !epochLive n h.epoch.toNat then (epochDrop s d k, true)
    else match opNamed n h with
      | some o => admitPacket s ⟨d, k, e, o.tag⟩ p
      | none => if tagAhead n h.tag.toNat ≤ 32767 then holdEarly s d k e p else (s, true)

/-- A packet passes a CE's ingress meter and probe (R294, R723, R727). None: the meter discards it. -/
def ceIngress (s : State) (d k : Nat) (h : Hdr) : Option State :=
  let (c, drop, s1) := meterPass (statUpdate s d (partState s d) h) d k h.vc.toNat h.len.toNat
  if drop then none else some (probeEval s1 d 5 k 0 c h)

/-- The state after a discard at the meter. -/
def meterDrop (s : State) (d k : Nat) (h : Hdr) : State :=
  (meterPass (statUpdate s d (partState s d) h) d k h.vc.toNat h.len.toNat).2.2

/-- A collective data packet or operand arrives at a CE (R112, R414). -/
def ceData (s : State) (d k : Nat) (p : Packet) (residue : Bool) : State :=
  match ceIngress s d k p.hdr with
  | none => meterDrop s d k p.hdr
  | some s1 =>
    let c := s1.ce d k
    let x : CePkt := { pk := p, bad := residue, ft := s1.now d }
    if !c.stall.isEmpty then s1.setCe d k { c with stall := c.stall ++ [x] }
    else
      let r := cePacket s1 d k x
      if r.2 then r.1 else r.1.setCe d k { r.1.ce d k with stall := [x] }

/-- The packets that wait at a CE's input are taken in order while staging can be reserved (R414). -/
def drainStall : Nat → State → Nat → Nat → State
  | 0, s, _, _ => s
  | n + 1, s, d, k =>
    match (s.ce d k).stall with
    | [] => s
    | p :: ps =>
      let r := cePacket s d k p
      if r.2 then drainStall n (r.1.setCe d k { r.1.ce d k with stall := ps }) d k else s

/-- STAGING_WAIT_END (R414). -/
def execStagingWaitEnd (d k : Nat) (s : State) : Out :=
  onUnit (ceExists s d k) (drainStall (s.ce d k).stall.length s d k)

/-! ## Resend requests (R405, R406) -/

/-- Whether a kept transfer is one that a CHUNK_NACK names (R404, R405). -/
def nacked (s : State) (d k : Nat) (h : Hdr) (x : Sent) : Bool :=
  let kind := h.inlBits 393 392
  let f := h.inlBits 371 352
  let l := h.inlBits 391 372
  let asker := (bitsOf h.src 31 19, bitsOf h.src 18 12, bitsOf h.src 11 2)
  x.key.chunk == chunkNo h &&
    (match kind with
     | 0 => 0x40 ≤ x.key.cmd && f ≤ x.key.a && x.key.b ≤ l && x.dest == ceAddr asker
     | 1 => x.key.cmd == 0x31 && x.key.a == f && x.key.b == l
     | 2 => x.key.cmd == 0x30 && x.key.a == f && (if x.result then asker == (s.pkgOf d, d, k) else x.dest == ceAddr asker)
     | _ => false)

/-- A CHUNK_NACK arrives (R112, R405, R406): the named transfers wait for the resend instant. -/
def nackArrive (s : State) (d k : Nat) (h : Hdr) : State :=
  match entryOf s d k h.group.toNat with
  | none => epochDrop s d k
  | some e =>
    let n := s.ent d k e
    if !epochLive n h.epoch.toNat then epochDrop s d k
    else match opNamed n h with
      | none => s
      | some o =>
        let trs := ft40Full (s.now d) h.ft40.toNat
        s.setOp ⟨d, k, e, o.tag⟩ { o with resend := o.resend ++ (o.sent.filter (nacked s d k h)).map (fun x => (x, trs)),
                                          progressFt := s.now d }

/-- Send one kept transfer again. -/
def resendOne (s : State) (i : OpId) (x : Sent) : State :=
  let s1 := match x.order with
    | some (p, ord) =>
      let n := s.ni i.d p
      s.setNi i.d p (takeOrders { n with bus := n.bus ++ [ord] })
    | none => sendAll s i.d (attCe i.k) x.pks
  (s1.bump i.d (cew i.k CE_RETRY_CNT) 63 32 1).raise i.d (cew i.k CE_EVENT) 2

/-- At the resend instant the transfers under retry go out again (R406). -/
def chunkResend (s : State) (i : OpId) : State :=
  match s.op i with
  | none => s
  | some o =>
    let due := o.resend.filter (fun r => r.2 ≤ s.now i.d)
    let s1 := s.setOp i { o with resend := o.resend.filter (fun r => s.now i.d < r.2), retries := o.retries + due.length,
                                 lastSend := if due.isEmpty then o.lastSend else s.now i.d }
    due.foldl (fun s r => resendOne s i r.1) s1

/-- CHUNK_RESEND (R406). -/
def execChunkResend (d k e tag : Nat) (s : State) : Out := onUnit (ceExists s d k) (chunkResend s ⟨d, k, e, tag⟩)

/-- CHUNK_NACK (R405): it reaches a CE. -/
def execChunkNack (d k : Nat) (h : Hdr) (s : State) : Out :=
  if !ceExists s d k then .fault .noSuchUnit
  else arrive s d (attCe k) 0x34 { hdr := h } (fun s =>
    match ceIngress s d k h with
    | some s1 => nackArrive s1 d k h
    | none => meterDrop s d k h)

/-! ## Timeouts (R405, R423) -/

/-- Every transfer that a CE is receiving, with its operation. -/
def ceTransfers (s : State) (d k : Nat) : List (OpId × Xfer) :=
  (List.range 64).flatMap (fun e => (s.ent d k e).ops.flatMap (fun o => o.rx.map (fun x => (⟨d, k, e, o.tag⟩, x))))

/-- CHUNK_TIMEOUT at a CE: transfer `n` of those it is receiving has been incomplete for CHUNK_TMO (R405). -/
def ceTimeout (s : State) (d k n : Nat) : State :=
  match (ceTransfers s d k)[n]? with
  | none => s
  | some (i, x) =>
    let g := s.grpOp i
    if s.now d < x.firstFt + g.tmo then s
    else
      let src := ((x.pks.head?).map (fun p => p.hdr.src)).getD 0
      let s1 := s.updOp i (fun o => { o with rx := o.rx.filter (fun y => y.key != x.key) })
      badTransfer s1 i 0 x.key src (if x.key.cmd == 0x31 then firstRank g else servedRank g)

/-- CHUNK_TIMEOUT at a tile: its send engine reports the transfer bad to the home CE (R381, R405). (DEDUCED, log 67) -/
def tileTimeout (s : State) (d p n : Nat) : State :=
  let x := s.ni d p
  match x.rx[n]? with
  | none => s
  | some t =>
    match homeCeOf s d t.key.group p with
    | none => s
    | some (k, e) =>
      if s.now d < t.firstFt + (s.grp d k e).tmo then s
      else
        let hd := ((t.pks.head?).map (fun p => p.hdr)).getD {}
        s.setNi d p { x with rx := x.rx.eraseIdx n,
                             reports := x.reports ++ [{ ce := k, kind := 4, ok := false, key := t.key, hdr := hd, p := p }] }

/-- CHUNK_TIMEOUT (R405): `att` is a tile or a CE, `n` the number of a transfer that it is receiving. -/
def execChunkTimeout (d att n : Nat) (s : State) : Out :=
  if isTile s d att then .next (tileTimeout s d att n)
  else onUnit (1024 ≤ att && ceExists s d (att - 1024)) (ceTimeout s d (att - 1024) n)

/-- CE_HANG (R423). -/
def execCeHang (d k e tag : Nat) (s : State) : Out :=
  onUnit (ceExists s d k)
    (match s.op ⟨d, k, e, tag⟩ with
     | some o => if o.progressFt + (s.grp d k e).hang ≤ s.now d then originate s ⟨d, k, e, tag⟩ 3 else s
     | none => s)

/-! ## Reports (R381, R405, R416, R417, R420) -/

/-- The local rank whose tile is NI `p`. -/
def rankOfNi (s : State) (d k : Nat) (g : Grp) (p : Nat) : Option Nat :=
  ((List.range g.m).find? (fun m => niOf s d (memberTile s d k g m) == p)).map (fun m => firstRank g + m)

/-- A transfer that a send engine has found bad (R405): the NI discards its old packets from now on. (DEDUCED, log 67) -/
def reportBad (s : State) (i : OpId) (r : Report) (rank : Nat) : State :=
  let s1 := badTransfer s i (r.p + 1) r.key r.hdr.src (if r.key.cmd == 0x31 then rank else servedRank (s.grpOp i))
  match s1.op i with
  | none => s1
  | some o =>
    let n := s1.ni i.d r.p
    s1.setNi i.d r.p { n with
      retry := (retriesOf o (r.p + 1)).filter (fun x => x.1 == r.key) ++ n.retry.filter (fun x => x.1 != r.key) }

/-- A checked transfer of a local member (R416, R420). -/
def reportOk (s : State) (i : OpId) (r : Report) (rank : Nat) : State :=
  s.updOp i (fun o =>
    if r.key.cmd == 0x31 then
      let o1 := ensurePair o rank r.key.a
      { o1 with a2a := o1.a2a.map (fun y =>
          if y.dst == rank && y.src == r.key.a && !y.chunks.contains r.key.chunk then { y with chunks := r.key.chunk :: y.chunks } else y) }
    else
      let x : Due := { rank := rank, chunk := r.key.chunk, seg := r.key.a }
      if o.landed.contains x then o else { o with landed := x :: o.landed })

/-- A report reaches its CE. Kind 4 is a transfer that timed out, whose check value is not counted. -/
def reportArrive (s : State) (d k : Nat) (r : Report) : State :=
  match entryOf s d k r.key.group with
  | none => s
  | some e =>
    let g := s.grp d k e
    let n := s.ent d k e
    match n.ops.find? (fun o => o.tag % 65536 == r.key.tag), rankOfNi s d k g r.p with
    | some o, some rank =>
      let i : OpId := ⟨d, k, e, o.tag⟩
      match r.kind with
      | 0 => settleOp (s.updOp i (fun o => { o with out := o.out.erase (rank, r.key.chunk) })) i
      | 1 => clearReported s i r.key.chunk r.key.a rank
      | 3 =>
        let src := (List.range g.n).find? (fun q =>
          let h := rankCe s d k g q
          (h.1, h.2.1) == (bitsOf r.hdr.src 31 19, bitsOf r.hdr.src 18 12) &&
            (let t := memberTile s d k g (q % max 1 g.m); t.2 * 32 + t.1 == bitsOf r.hdr.src 11 2))
        match src with
        | some q => settleOp ((s.updOp i (fun o => noteCount o rank q (r.hdr.inlBits 375 352) (r.hdr.inlBits 399 376))).updOp i
            (fun o => { o with progressFt := s.now d })) i
        | none => s
      | _ =>
        let s0 := s.updOp i (fun o => { o with progressFt := s.now d })
        if r.ok then settleOp (reportOk s0 i r rank) i
        else reportBad (if r.kind == 2 then countChk s0 d k else s0) i r rank
    | _, _ => s

/-- ORDER_REPORT (R381): the first report of NI `p` reaches its CE. -/
def execOrderReport (d p : Nat) (s : State) : Out :=
  onUnit (isTile s d p)
    (match (s.ni d p).reports with
     | [] => s
     | r :: rs => reportArrive (s.setNi d p { s.ni d p with reports := rs }) d r.ce r)

/-! ## ABORT and RELEASE (R424, R425, R427, R462) -/

/-- An ABORT reaches a CE. -/
def abortArrive (s : State) (d k : Nat) (h : Hdr) : State :=
  match entryOf s d k h.group.toNat with
  | none => epochDrop s d k
  | some e =>
    let n := s.ent d k e
    if !epochLive n h.epoch.toNat then epochDrop s d k
    else
      let s1 := (s.raise d (cew k CE_EVENT) 1).bump d (cew k CE_ABORT_CNT) 63 32 1
      let reason := h.inlBits 359 352
      let frm := (bitsOf h.src 31 19, bitsOf h.src 18 12, bitsOf h.src 11 2)
      match opNamed n h with
      | some o => abortOp s1 ⟨d, k, e, o.tag⟩ o reason h.ft40.toNat (some frm)
      | none =>
        let tag := startedCount n + tagAhead n h.tag.toNat
        if 32766 < tagAhead n h.tag.toNat || n.future.any (fun f => f.1 == tag) then s1
        else
          let s2 := floodAbort s1 d k e h.tag.toNat h.epoch.toNat reason h.ft40.toNat (some frm)
          let s3 := s2.setEnt d k e { s2.ent d k e with future := (s2.ent d k e).future ++ [(tag, h.epoch.toNat, reason)] }
          haltGroup s3 d k e h.epoch.toNat reason true

/-- ABORT (R424). -/
def execAbort (d k : Nat) (h : Hdr) (s : State) : Out :=
  if !ceExists s d k then .fault .noSuchUnit
  else arrive s d (attCe k) 0x35 { hdr := h } (fun s =>
    match ceIngress s d k h with
    | some s1 => abortArrive s1 d k h
    | none => meterDrop s d k h)

/-- A RELEASE packet (R462). -/
def releasePacket (s : State) (d k : Nat) (g : Grp) (tag epoch : Nat) (dst : Nat × Nat × Nat) : Packet :=
  let h := mkHdr 0x1E 0 (ceAddr dst) (ceSrc s d k)
  { hdr := { h with epoch := BitVec.ofNat 8 epoch, tag := BitVec.ofNat 16 tag, group := BitVec.ofNat 16 g.group } }

/-- Send RELEASE to an entry's abort list but for the sender (R462). -/
def floodRelease (s : State) (d k e tag epoch : Nat) (frm : Option (Nat × Nat × Nat)) : State :=
  let g := s.grp d k e
  sendAll s d (attCe k) (((abortList s d k g).filter (fun t => some t != frm)).map (fun t => releasePacket s d k g tag epoch t))

/-- The barrier operation numbered `tag` is released at this CE: at once when active, when it starts otherwise (R398, R462). -/
def releaseOp (s : State) (d k e tag : Nat) : State :=
  let n := s.ent d k e
  if n.ops.any (fun o => o.tag == tag) then s.updOp ⟨d, k, e, tag⟩ (fun o => { o with released := true })
  else if startedCount n ≤ tag then s.setEnt d k e { n with fired := n.fired ++ [tag] }
  else s

/-- Whether the operation numbered `tag` has been released already. -/
def isReleased (n : CeEnt) (tag : Nat) : Bool :=
  n.fired.contains tag || n.ops.any (fun o => o.tag == tag && o.released) ||
    (tag < startedCount n && n.ops.all (fun o => o.tag != tag))

/-- A RELEASE reaches a CE: the first for an operation is forwarded and ends the BARRIER (R462). -/
def releaseArrive (s : State) (d k : Nat) (h : Hdr) : State :=
  match entryOf s d k h.group.toNat with
  | none => s
  | some e =>
    let n := s.ent d k e
    let tag := match opNamed n h with
      | some o => some o.tag
      | none => if tagAhead n h.tag.toNat ≤ 32767 then some (startedCount n + tagAhead n h.tag.toNat) else none
    match tag with
    | none => s
    | some t =>
      if isReleased n t then s
      else
        let frm := (bitsOf h.src 31 19, bitsOf h.src 18 12, bitsOf h.src 11 2)
        releaseOp (floodRelease s d k e t h.epoch.toNat (some frm)) d k e t

/-- SYNC_RELEASE (R462): a RELEASE reaches CE `k`. -/
def execSyncRelease (d k : Nat) (h : Hdr) (s : State) : Out :=
  if !ceExists s d k then .fault .noSuchUnit
  else arrive s d (attCe k) 0x1E { hdr := h } (fun s =>
    match ceIngress s d k h with
    | some s1 => releaseArrive s1 d k h
    | none => meterDrop s d k h)

/-! ## Deaths (R423, R629) -/

/-- Whether an entry's place tables, member list or sync objects name a dead unit (R423, R629): `scope` 0 a die or 1 a package,
2 a tile, 3 a CE, 4 a sync store, each with its package, die and index. -/
def namesDead (s : State) (d k : Nat) (g : Grp) (scope pkg die idx : Nat) : Bool :=
  let homes := (List.range g.d).map (fun di => homeCe s d k g di)
  let pkgs := (List.range g.p).map (fun pi => pkgCe s d k g pi)
  match scope with
  | 0 => (homes ++ pkgs).any (fun a => a.1 == pkg && a.2.1 == die)
  | 1 => pkgs.any (fun a => a.1 == pkg)
  | 2 => g.mkind == 0 && pkg == s.pkgOf d && die == d &&
      (List.range g.m).any (fun m => let t := memberTile s d k g m; t.2 * 32 + t.1 == idx)
  | 3 => (homes ++ pkgs).any (fun a => a == (pkg, die, idx))
  | _ => (pkg == s.pkgOf d && syncDieOf s d k == die) || (g.barValid && pkg == (pkgCe s d k g 0).1 && g.barDie == die)

/-- Whether an operation signals to a dead sync store (R629). -/
def signalsDead (s : State) (d k : Nat) (o : CeOp) (die : Nat) : Bool :=
  syncDieOf s d k == die && (dSigEn o.desc || dDoneEn o.desc || dStage o.desc)

/-- A CE learns of a death: it originates ABORT with REASON DEAD for every active operation concerned (R423, R629). -/
def ceDead (s : State) (d k scope pkg die idx : Nat) : State :=
  (List.range 64).foldl (fun s e =>
    let g := s.grp d k e
    if !g.valid then s
    else
      (s.ent d k e).ops.foldl (fun s o =>
        if namesDead s d k g scope pkg die idx || (scope == 4 && pkg == s.pkgOf d && signalsDead s d k o die) then
          originate s ⟨d, k, e, o.tag⟩ 4 else s) s) s

end Sys2Proof.Machine
end

