-- ==== Sys2Proof/Machine/Queue.lean ====
section
/-! DEFINITION. Group queues (R386 to R390, R441, R460, R462): writes to the group table, fetching descriptors, the start of each
operation, and the commands that act on an entry. -/

namespace Sys2Proof.Machine

open Sys2Proof

/-! ## Group table writes (R386, R434, R460) -/

/-- A CE's WAIT in mode `mode` on an object (R454, R460, R462). -/
def ceWait (s : State) (d k o pkg die epoch tag mode : Nat) : State := ceSync s d k 0x19 1 o pkg die epoch tag 0 mode false

/-- Whether an entry is at work: an active operation, or a descriptor pending in its queue (R386). -/
def entryBusy (n : CeEnt) : Bool := !n.ops.isEmpty || !n.queue.isEmpty || n.head % 2 ^ 32 != n.tail

/-- An entry whose VALID has changed (R386): its live pair, HEAD and queue are gone; the records of operations that have ended are written
all the same. (DEDUCED, log 69) -/
def freshEnt (n : CeEnt) : CeEnt :=
  { recs := n.recs.map (fun r => { r with old := true }), recBusy := n.recBusy.map (fun r => { r with old := true }) }

/-- A write to a word of a group-table entry (R386, R434): word 7 is read-only; becoming valid starts the entry afresh and watches
its tail; clearing VALID discards its live pair and HEAD. -/
def gtWrite (s : State) (d k e w : Nat) (v : Word) : Out :=
  if w == 7 then .next s
  else
    let old := s.grp d k e
    if old.valid && entryBusy (s.ent d k e) then .fault (.undefinedMisuse 386)
    else
      let c := s.ce d k
      let s1 := s.setCe d k { c with gt := c.gt.set 0 (e * 8 + w) v }
      match groupMisuse s1 d k e with
      | some r => .fault (.undefinedMisuse r)
      | none =>
        let new := s1.grp d k e
        if new.valid == old.valid then .next s1
        else
          let s2 := s1.setEnt d k e (freshEnt (s.ent d k e))
          if new.valid then .next (ceWait s2 d k new.tailObj (s.pkgOf d) (syncDieOf s2 d k) 0 (tagTail e) 1)
          else .next s2

/-- CE_GT_DATA_WRITE (R386, R434): the word that CE_GT_ADDR selects. -/
def execCeGtDataWrite (d k : Nat) (v : Word) (s : State) : Out :=
  if !ceExists s d k then .fault .noSuchUnit
  else gtWrite s d k (s.fld d (cew k CE_GT_ADDR) 8 3) (s.fld d (cew k CE_GT_ADDR) 2 0) v

/-! ## Fetching (R388) -/

/-- Descriptors waiting beyond HEAD. -/
def tailGap (n : CeEnt) : Nat :=
  let g := (n.tail + 2 ^ 32 - n.head % 2 ^ 32) % 2 ^ 32
  if g < 2 ^ 31 then g else 0

/-- Whether a CE fetches and runs operations (R431). -/
def ceEnabled (s : State) (d k : Nat) : Bool := s.flag d (cew k CE_CFG) 0 && !attHalted s d (attCe k)

/-- Read up to 8 descriptors from HEAD, to the end of the ring at most (R388). -/
def fetchNow (s : State) (d k e : Nat) : State :=
  let n := s.ent d k e
  let g := s.grp d k e
  let at0 := n.head % 2 ^ g.qlog
  let m := min (min 8 (tailGap n)) (2 ^ g.qlog - at0)
  let a := g.qbase + BitVec.ofNat 64 (64 * at0)
  sendAt (s.setEnt d k e { n with fetch := some m, retryAt := none }) d (attCe k)
    { hdr := { mkHdr 0x04 2 a (ceSrc s d k) with tag := BitVec.ofNat 16 (tagFetch e), inl := BitVec.ofNat 128 m } }

/-- DESCRIPTOR_FETCH (R388). -/
def descriptorFetch (s : State) (d k e : Nat) : State :=
  let n := s.ent d k e
  if ceEnabled s d k && (s.grp d k e).valid && !n.halted && n.fetch.isNone && n.retryAt.isNone && 0 < tailGap n then
    fetchNow s d k e else s

/-- DESCRIPTOR_FETCH (R388). -/
def execDescriptorFetch (d k e : Nat) (s : State) : Out := onUnit (ceExists s d k && e < 64) (descriptorFetch s d k e)

/-- DESCRIPTOR_FETCH_RETRY (R388); a halted group fetches nothing (R425). -/
def execDescriptorFetchRetry (d k e : Nat) (s : State) : Out :=
  onUnit (ceExists s d k && e < 64)
    (match (s.ent d k e).retryAt with
     | some t =>
       if t ≤ s.now d && ceEnabled s d k && (s.grp d k e).valid && !(s.ent d k e).halted && 0 < tailGap (s.ent d k e) then
         fetchNow s d k e else s
     | none => s)

/-- The barrier watches that the package CE of package block 0 arms with its first live pair (R462). -/
def armBarrier (s : State) (d k e : Nat) : State :=
  let g := s.grp d k e
  match (s.ent d k e).live with
  | some ep =>
    if g.pi == 0 && isPkgCe g && g.barValid then
      let arm := fun (s : State) (x : Nat) => ceWait s d k g.barObj (s.pkgOf d) g.barDie x (tagBar e (x % 2)) 2
      arm (arm s ep) ((ep + 1) % 256)
    else s
  | none => s

/-- Drop held packets whose EPOCH lies outside a new live pair (R112). -/
def dropHeld (s : State) (d k e : Nat) : State :=
  let g := s.grp d k e
  let n := s.ent d k e
  let c := s.ce d k
  let bad := fun (p : CePkt) => p.pk.hdr.group.toNat == g.group && !epochLive n p.pk.hdr.epoch.toNat
  let keep := c.held.filter (fun p => !bad p)
  let s1 := (c.held.filter bad).foldl (fun s _ => epochDrop s d k) (s.setCe d k { c with held := keep })
  freeEarly s1 d k (fun x => x.group == g.group &&
    !keep.any (fun p => p.pk.hdr.group.toNat == x.group && p.pk.hdr.tag.toNat == x.tag && chunkNo p.pk.hdr == x.chunk))

/-- A half of BAR_OBJ that has released before its operation was known counts as 2^32 + half among the early releases. (DEDUCED, log 58) -/
def earlyHalf (half : Nat) : Nat := 2 ^ 32 + half

/-- Release the first unreleased BARRIER operation of a half's parity, or remember that the half has released (R462). (DEDUCED, log 58) -/
def barrierFired (s : State) (d k e half : Nat) : State :=
  let n := s.ent d k e
  let known := n.ops.map (fun o => (o.tag, o.desc)) ++ n.queue
  match known.find? (fun q => dOp q.2 == 8 && dEpoch q.2 % 2 == half && !isReleased n q.1) with
  | some q => releaseOp (floodRelease s d k e q.1 (dEpoch q.2) none) d k e q.1
  | none => s.setEnt d k e { n with fired := n.fired ++ [earlyHalf half] }

/-- Fetched BARRIER descriptors whose half has released already (R462). -/
def matchEarly (s : State) (d k e : Nat) (qs : List (Nat × BitVec 512)) : State :=
  qs.foldl (fun s q =>
    let n := s.ent d k e
    let h := earlyHalf (dEpoch q.2 % 2)
    if dOp q.2 == 8 && n.fired.contains h then
      releaseOp (floodRelease (s.setEnt d k e { n with fired := n.fired.erase h }) d k e q.1 (dEpoch q.2) none) d k e q.1
    else s) s

/-- The descriptors that a READ brings: unpredictable ones once the tail has passed HEAD + 2^QSIZE_LOG2 (R387). -/
def ringUnits (s : State) (d k e : Nat) (us : List DataUnit) : List DataUnit × State :=
  if 2 ^ (s.grp d k e).qlog < tailGap (s.ent d k e) then drawUnits s us.length else (us, s)

/-- READ_DATA of a fetch (R388, R386): HEAD advances, the descriptors get their numbers, and the first sets the live pair. -/
def fetchData (s : State) (d k e : Nat) (us : List DataUnit) : State :=
  let n := s.ent d k e
  match n.fetch with
  | none => s
  | some m =>
    let r := ringUnits s d k e (us.take m)
    let us := r.1
    let qs := (List.range us.length).map (fun j => (n.head + j, us.getD j 0))
    let first := n.live.isNone && !qs.isEmpty
    let live := if first then (qs.head?.map (fun q => dEpoch q.2)) else n.live
    let s1 := r.2.setEnt d k e { n with fetch := none, head := n.head + us.length, queue := n.queue ++ qs, live := live }
    let s2 := if first then armBarrier (dropHeld s1 d k e) d k e else s1
    matchEarly (s2.advance d k e) d k e qs

/-- A fetch answered FENCED or TIMEOUT is repeated 10 µs later (R388). (DEDUCED, log 69) -/
def fetchFailed (s : State) (d k e : Nat) : State :=
  let n := s.ent d k e
  if n.fetch.isSome then s.setEnt d k e { n with fetch := none, retryAt := some (s.now d + 10000) } else s

/-- A notification from TAIL_OBJ (R388, R460). -/
def tailNotified (s : State) (d k e result value : Nat) : State :=
  if result == 4 then s.setEnt d k e { s.ent d k e with tail := value % 2 ^ 32 } else s

/-- An ACK reaches a CE (R388, R397, R460, R462). -/
def ceAck (s : State) (d k : Nat) (h : Hdr) : State :=
  let t := h.tag.toNat
  let status := h.inlBits 359 352
  let result := h.inlBits 367 360
  let value := h.inlBits 431 368
  if t / 64 == 0x8000 / 64 then tailNotified s d k (t % 64) result value
  else if t / 128 == 0x9000 / 128 then
    (if result == 4 then barrierFired s d k (t % 128 / 2) (t % 2) else s)
  else if t / 64 == 0xA000 / 64 then fetchFailed s d k (t % 64)
  else if t / 64 == 0xB000 / 64 then recordAcked s d k (t % 64) status
  else s

/-! ## Starting (R390, R394, R412, R413) -/

/-- Operations active at a CE. -/
def activeOps (s : State) (d k : Nat) : Nat := ((s.ce d k).ents.rows.map (fun r => r.2.ops.length)).sum

/-- Whether an operation of the CE waits for a reservation (R413): an active one, or the front descriptor of another entry than `e`. -/
def ceBlocked (s : State) (d k e : Nat) : Bool :=
  (s.ce d k).ents.rows.any (fun r => (r.1 != e && r.2.wait) || r.2.ops.any (fun o => o.blocked))

/-- Bytes of one member's input (R393, R418). -/
def inputUnits (s : State) (i : OpId) (o : CeOp) (r : Nat) : Nat :=
  if isA2a o.desc then ((List.range (s.grpOp i).n).map (fun t => reqOfPair s i o r t)).sum else dUnits o.desc

/-- Whether a reservation before the start is one of operation `i` (R414). -/
def earlyOf (s : State) (i : OpId) (x : Early) : Bool := x.group == (s.grpOp i).group && x.tag == i.tag % 65536

/-- The chunks of an operation that have staging reserved before it starts (R414). -/
def earlyChunks (s : State) (i : OpId) (o : CeOp) : List Nat :=
  (((s.ce i.d i.k).early.filter (earlyOf s i)).map (·.chunk)).filter (fun c => c < nChunks (s.grpOp i) o.desc)

/-- Bytes that an operation's inputs take in staging when STAGE is 1 (R413). -/
def stagedNeed (s : State) (i : OpId) (o : CeOp) : Nat :=
  let g := s.grpOp i
  if dStage o.desc && movesData o.desc then
    64 * ((if isA2a o.desc then localRanks g else inputRanks g o).map (inputUnits s i o)).sum else 0

/-- Bytes that an operation holds when it starts: the chunks reserved before, its first chunk, and its staged inputs (R413). -/
def startNeed (s : State) (i : OpId) (o : CeOp) : Nat :=
  let g := s.grpOp i
  let cs := earlyChunks s i o
  (cs.length + (if nChunks g o.desc == 0 || cs.contains 0 then 0 else 1)) * chunkNeed g o + stagedNeed s i o

/-- Whether an operation's staging can be reserved at its start, whole (R413). -/
def startFits (s : State) (i : OpId) (o : CeOp) : Bool :=
  startNeed s i o == 0 || stageFits (freeEarly s i.d i.k (earlyOf s i)) i.d i.k (dEpoch o.desc % 2) (startNeed s i o)

/-- Whether SRC and DST of a local member overlap otherwise than R394 allows. A change of the buffers by software or other traffic while
the operation runs goes unnoticed. (DESIGN CHOICE, log 65) -/
def buffersClash (s : State) (i : OpId) (o : CeOp) : Bool :=
  let g := s.grpOp i
  let x := o.desc
  movesData x && (localRanks g).any (fun r =>
    let a := memberAddr s i.d i.k g (dSrc x) (r - firstRank g) 0
    let b := memberAddr s i.d i.k g (dDst x) (r - firstRank g) 0
    let n := if dOp x == 5 && r != dRoot x then 0 else 64 * inputUnits s i o r
    let m := if dOp x == 2 && r != dRoot x then 0 else outBytes g x
    n != 0 && m != 0 && !(dOp x == 1 && a == b) && ((b - a).toNat < n || (a - b).toNat < m))

/-- The conditions of R390 on the front descriptor, the halt and staging apart. -/
def mayStart (s : State) (d k e : Nat) (x : BitVec 512) : Bool :=
  let n := s.ent d k e
  ceEnabled s d k && n.ops.length < 4 && activeOps s d k < 8 && epochLive n (dEpoch x) && !ceBlocked s d k e &&
    (!dAfter x || n.ops.isEmpty) && (!dLaunch x || ft40Full (s.now d) (dLaunchAt x) ≤ s.now d)

/-- Complete the front descriptor without starting it (R424, R425, R441); what was held for it is discarded, and the results of an aborted
operation are unpredictable (R396). -/
def skipFront (s : State) (d k e tag : Nat) (x : BitVec 512) (status : Nat) (foreign : Bool) : State :=
  let n := s.ent d k e
  let s1 := s.setEnt d k e { n with queue := n.queue.filter (fun q => q.1 != tag), future := n.future.filter (fun f => f.1 != tag),
                                    wait := false }
  let s2 := dropPackets s1 d k (s.grp d k e).group tag
  let s3 := if status == 6 then s2 else spoilDst s2 d k (s.grp d k e) x
  addRecord (s3.advance d k e) d k e
    { tag := tag, word := recordWord (s.grp d k e) tag x status foreign none,
      done := if dDoneEn x then some (dDoneObj x) else none }

/-- Copy the members' inputs into staging and free SRC (R412, R413); `bytes` is what they take. -/
def stageInputs (s : State) (i : OpId) (bytes : Nat) : State :=
  match s.op i with
  | none => s
  | some o =>
    if !(dStage o.desc && movesData o.desc) then s
    else
      let g := s.grpOp i
      let s1 := (if isA2a o.desc then localRanks g else inputRanks g o).foldl (fun s r =>
        let us := memberUnits s i { o with staged := [] } r 0 (inputUnits s i o r)
        us.2.updOp i (fun o => { o with staged := o.staged ++ [(r, us.1.map (·.2))] })) s
      ceIncrement ((stageUse s1 i.d i.k (dEpoch o.desc % 2) bytes false).updOp i (fun o => { o with stagedBytes := bytes }))
        i.d i.k (dFreeObj o.desc)

/-- Take in the packets that were held for an operation that has just started (R112). -/
def takeHeld (s : State) (i : OpId) : State :=
  let g := s.grpOp i
  let c := s.ce i.d i.k
  let mine := fun (p : CePkt) => ofOp g.group i.tag p.pk.hdr
  let s1 := s.setCe i.d i.k { c with held := c.held.filter (fun p => !mine p) }
  (c.held.filter mine).foldl (fun s p =>
    let x := s.ce i.d i.k
    if !x.stall.isEmpty then s.setCe i.d i.k { x with stall := x.stall ++ [p] }
    else
      let r := admitPacket s i p
      if r.2 then r.1 else r.1.setCe i.d i.k { r.1.ce i.d i.k with stall := [p] }) s1

/-- The arrival of a home CE at a barrier: one ARRIVE through a guaranteed VC0 flow (R422). -/
def barrierArrive (s : State) (i : OpId) (x : BitVec 512) : State :=
  let g := s.grpOp i
  if isHome g && g.barValid then
    ceSync s i.d i.k 0x13 0 g.barObj (pkgCe s i.d i.k g 0).1 g.barDie (dEpoch x) 0 1 0 true
  else s

/-- Start the front descriptor, whose staging fits (R390, R436). -/
def startOp (s : State) (d k e tag : Nat) (x : BitVec 512) : State :=
  let n := s.ent d k e
  let i : OpId := ⟨d, k, e, tag⟩
  let o : CeOp := { tag := tag, desc := x, cfg := s.reg d (cew k CE_CFG), startFt := s.now d, progressFt := s.now d,
                    lastSend := s.now d, released := dOp x == 8 && n.fired.contains tag }
  let cs := earlyChunks s i o
  let s0 := stageUse (freeEarly s d k (earlyOf s i)) d k (dEpoch x % 2) (cs.length * chunkNeed (s.grp d k e) o) false
  let s1 := (s0.setEnt d k e { n with queue := n.queue.filter (fun q => q.1 != tag), ops := n.ops ++ [{ o with live := cs }],
                                      fired := n.fired.filter (fun t => t != tag), wait := false }).bump d (cew k CE_LAUNCH) 47 0 1
  let s2 := stageInputs s1 i (stagedNeed s i o)
  let s3 := if dOp x == 8 then barrierArrive s2 i x else s2
  let s4 := checkResidue (startChunk s3 i) i
  let s5 := settleOp (takeHeld s4 i) i
  if dOp x == 0 then endOp s5 i else s5

/-- Whether MKIND 1 names buffers outside the package's staging and memory, which R430 calls undefined. -/
def buffersLost (s : State) (d : Nat) (g : Grp) (x : BitVec 512) : Bool :=
  g.mkind == 1 && movesData x && ((spaceAt s d (dSrc x)).isNone || (spaceAt s d (dDst x)).isNone)

/-- The rule that the start of a descriptor breaks, where the spec calls the consequence undefined (R64, R394, R430, R432). (DESIGN
CHOICE, log 65) -/
def startMisuse (s : State) (i : OpId) (o : CeOp) : Option Nat :=
  if descMisuse (s.grpOp i) o.desc then some 394
  else if buffersLost s i.d (s.grpOp i) o.desc then some 430
  else if partState s i.d != .service then some 64
  else if movesData o.desc && sharesBad s i.d then some 432
  else if buffersClash s i o then some 394
  else none

/-- The front descriptor of an entry starts, when it is the operation named and the conditions of R390 hold (R394); of a halted group, or
of an operation aborted before its start, it completes then without starting (R424, R425). A reservation that fails holds up the
CE's later operations (R413). (DESIGN CHOICE, log 65) -/
def startFront (d k e op : Nat) (s : State) : Out :=
  if !(ceExists s d k && e < 64) then .fault .noSuchUnit
  else match (s.ent d k e).queue with
    | [] => .next s
    | (tag, x) :: _ =>
      let n := s.ent d k e
      if dOp x != op && !(8 < dOp x) then .next s
      else if !mayStart s d k e x then .next s
      else match n.future.find? (fun f => f.1 == tag) with
        | some f => .next (skipFront s d k e tag x f.2.2 true)
        | none =>
          if n.halted then .next (skipFront s d k e tag x 6 false)
          else
            let i : OpId := ⟨d, k, e, tag⟩
            let o : CeOp := { tag := tag, desc := x, cfg := s.reg d (cew k CE_CFG), startFt := 0, progressFt := 0 }
            match startMisuse s i o with
            | some r => .fault (.undefinedMisuse r)
            | none =>
              if startFits s i o then .next (startOp s d k e tag x)
              else .next (s.setEnt d k e { n with wait := true })

/-- NOP (R393). -/
def execNop (d k e : Nat) (s : State) : Out := startFront d k e 0 s
/-- ALL_REDUCE (R393). -/
def execAllReduce (d k e : Nat) (s : State) : Out := startFront d k e 1 s
/-- REDUCE (R393). -/
def execReduce (d k e : Nat) (s : State) : Out := startFront d k e 2 s
/-- REDUCE_SCATTER (R393). -/
def execReduceScatter (d k e : Nat) (s : State) : Out := startFront d k e 3 s
/-- ALL_GATHER (R393). -/
def execAllGather (d k e : Nat) (s : State) : Out := startFront d k e 4 s
/-- BROADCAST (R393). -/
def execBroadcast (d k e : Nat) (s : State) : Out := startFront d k e 5 s
/-- ALL_TO_ALL (R393, R419). -/
def execAllToAll (d k e : Nat) (s : State) : Out := startFront d k e 6 s
/-- ALL_TO_ALL_V (R393, R418, R419). -/
def execAllToAllV (d k e : Nat) (s : State) : Out := startFront d k e 7 s
/-- BARRIER (R393, R422). -/
def execBarrier (d k e : Nat) (s : State) : Out := startFront d k e 8 s

/-- CHUNK_START (R413). -/
def execChunkStart (d k e tag : Nat) (s : State) : Out :=
  onUnit (ceExists s d k)
    (if ceEnabled s d k then settleOp (checkResidue (startChunk s ⟨d, k, e, tag⟩) ⟨d, k, e, tag⟩) ⟨d, k, e, tag⟩ else s)

/-- OPERATION_END (R398). -/
def execOperationEnd (d k e tag : Nat) (s : State) : Out := onUnit (ceExists s d k) (endOp s ⟨d, k, e, tag⟩)

/-! ## CE_GROUP_CTL (R441, R442) -/

/-- SKIP: the fetched descriptors complete HALTED, and HEAD goes to the tail. -/
def groupSkip (s : State) (d k e : Nat) : State :=
  let n := s.ent d k e
  let s1 := n.queue.foldl (fun s q => skipFront s d k e q.1 q.2 6 false) s
  s1.setEnt d k e { s1.ent d k e with head := (s1.ent d k e).head + tailGap (s1.ent d k e), fetch := none, retryAt := none }

/-- RESUME: the halt ends. -/
def groupResume (s : State) (d k e : Nat) : State := s.setEnt d k e { s.ent d k e with halted := false }

/-- CE_GROUP_CTL_SKIP (R441). -/
def execCeGroupCtlSkip (d k e : Nat) (s : State) : Out := onUnit (ceExists s d k && e < 64) (groupSkip s d k e)

/-- CE_GROUP_CTL_RESUME (R441). -/
def execCeGroupCtlResume (d k e : Nat) (s : State) : Out := onUnit (ceExists s d k && e < 64) (groupResume s d k e)

/-- A write to CE_GROUP_CTL: SKIP acts before RESUME (R442). -/
def groupCtlWrite (s : State) (d k : Nat) (v : Word) : State :=
  let e := bitsOf v 5 0
  let s1 := if v.getLsbD 9 then groupSkip s d k e else s
  if v.getLsbD 8 then groupResume s1 d k e else s1

/-! ## Mend (R423, R681) -/

/-- A CE aborts each of its active operations (R423, R678). -/
def ceAbortAll (s : State) (d k reason : Nat) : State :=
  (List.range 64).foldl (fun s e => (s.ent d k e).ops.foldl (fun s o => originate s ⟨d, k, e, o.tag⟩ reason) s) s

end Sys2Proof.Machine
end

