-- ==== Sys2Proof/Machine/Registers.lean ====
section
/-! DEFINITION. The store side of the register map (R23 to R33): what a write leaves in a register's RW, PL and W1C fields, and the tables
that a DATA register reaches through an ADDR register. A field that acts (WO) is not stored; Csr.lean carries its action out. -/

namespace Sys2Proof.Machine

open Sys2Proof

/-- The attachments of a die that inject packets. -/
def attachments (s : State) (d : Nat) : List Nat :=
  match kindOf s d with
  | some .compute => List.range 624 ++ (List.range 8).map attCe ++ [attCtl, attSync]
  | some .port => (List.range 4).map attCe ++ [attCtl, attStitch]
  | some .memif => [attMem, attCtl]
  | some .service => [attCtl, attHost]
  | none => []

/-- Hold ORDERED packets at an attachment until its drain time has passed (R185). -/
def holdOrdered (s : State) (d code att : Nat) : State :=
  let k := d * 4096 + att
  let until' := (s.region d (attPanel s d att)).cycles + s.fld d NI_ORDER_DRAIN 15 0
  { s with orderHold := s.orderHold.set [] k (s.orderHold.get [] k ++ [(code, until')]) }

/-- A patch has changed a route: the attachments that read the entry hold (R185). -/
def holdRoute (s : State) (d code : Nat) (reads : Nat → Bool) : State :=
  ((attachments s d).filter (fun a => match attPort s d a with
    | some (_, _, t) => reads t
    | none => false)).foldl (fun s a => holdOrdered s d code a) s

/-- One 64-bit word of a 128-bit table entry replaced. -/
def putHalf (x : BitVec 128) (w : Nat) (v : Word) : BitVec 128 := setBits x (64 * w + 63) (64 * w) v.toNat

/-- A write to NI_TABLE_DATA (R201); TABLE 3 is reserved (R16), and names no table. -/
def niTableWrite (s : State) (d : Nat) (v : Word) : State :=
  let a := s.reg d NI_TABLE_ADDR
  let e := bitsOf a 13 1
  match bitsOf a 63 62 with
  | 0 =>
    let p := bitsOf a 41 32
    let k := rk d p * 128 + e % 128
    { s with routeTab := s.routeTab.set 0 k (putHalf (s.routeTab.get 0 k) (bitsOf a 0 0) v) }
  | 1 => { s with arrivalTab := s.arrivalTab.set 0 ((d * 8 + e / 1024 % 8) * 128 + e / 8 % 128) v }
  | 2 => { s with routeStore := s.routeStore.set 0 (d * 8192 + e) (BitVec.ofNat 32 v.toNat) }
  | _ => s

/-- A read of NI_TABLE_DATA (R201). TABLE 3 is reserved: what a read through it answers is free (R16). (DESIGN CHOICE, log 10) -/
def niTableRead (s : State) (d : Nat) : Word :=
  let a := s.reg d NI_TABLE_ADDR
  let e := bitsOf a 13 1
  match bitsOf a 63 62 with
  | 0 =>
    let x := s.routeTab.get 0 (rk d (bitsOf a 41 32) * 128 + e % 128)
    BitVec.ofNat 64 (bitsOf x (64 * bitsOf a 0 0 + 63) (64 * bitsOf a 0 0))
  | 1 => s.arrivalTab.get 0 ((d * 8 + e / 1024 % 8) * 128 + e / 8 % 128)
  | 2 => BitVec.ofNat 64 (s.routeStore.get 0 (d * 8192 + e)).toNat
  | _ => BitVec.ofNat 64 (bitsOf (Config.freeBits s.free) 63 0)

/-- What a patch that wrote NI_TABLE_DATA holds: where the entry that NI_TABLE_ADDR selects has changed, the ORDERED packets of every
NI that reads it and that are bound for its die (R185). A write that leaves the entry as it was holds nothing. -/
def holdChanged (s s' : State) (d : Nat) : State :=
  let a := s.reg d NI_TABLE_ADDR
  let e := bitsOf a 13 1
  if niTableRead s d == niTableRead s' d then s'
  else match bitsOf a 63 62 with
    | 0 => holdRoute s' d (if e % 128 < 100 then e % 128 else 2 ^ 15 + (e % 128 - 100)) (fun t => t == bitsOf a 41 32)
    | 1 => holdRoute s' d (2 ^ 14 + e / 8 % 128) (fun _ => true)
    | 2 => holdRoute s' d (128 + e) (fun _ => true)
    | _ => s'

/-- Key of the entry that TIM_GATE_ADDR selects (R265): the bank is the active or the pending one. -/
def gateAddrKey (s : State) (d : Nat) : Nat :=
  let a := s.reg d TIM_GATE_ADDR
  let g := bitsOf a 12 9
  let bank := ((s.gate d g).bank + bitsOf a 8 8) % 2
  (gk d g * 2 + bank) * 256 + bitsOf a 7 0

/-- A write to TIM_GATE_DATA (R265). One to the active bank leaves the gating free until the next takeover (R269). -/
def gateTabWrite (s : State) (d : Nat) (v : Word) : State :=
  let g := s.fld d TIM_GATE_ADDR 12 9
  let s1 := { s with gateTab := s.gateTab.set 0 (gateAddrKey s d) v }
  if s.flag d TIM_GATE_ADDR 8 then s1 else s1.setGate d g { s1.gate d g with lost := true }

/-- The stored bits of a register after a write (R26): RW fields, PL fields where they are open, and W1C bits, of which those in `set`,
set by hardware in the same cycle, stay set (R30). -/
def storeBits (r : RegDesc) (old v set : Word) (pl : Bool) : Word :=
  let m := if pl then Nat.lor r.rw r.pl else r.rw
  let kept := Nat.land old.toNat (2 ^ 64 - 1 - m)
  let new := Nat.lor kept (Nat.land v.toNat m)
  let clear := Nat.land (Nat.land v.toNat r.w1c) (Nat.land (2 ^ 64 - 1 - m) (2 ^ 64 - 1 - set.toNat))
  BitVec.ofNat 64 (Nat.land new (2 ^ 64 - 1 - clear))

/-- Store a register's bits, and note the RW fields that software has written in this cycle (R30, R31). (DESIGN CHOICE, log 173) -/
def storeReg (s : State) (d off : Nat) (r : RegDesc) (v : Word) (pl : Bool) : State :=
  { s.setReg d off (storeBits r (s.reg d off) v (s.setNow.get 0 (ck d off)) pl) with
    wroteNow := s.wroteNow.set 0 (ck d off) (s.wroteNow.get 0 (ck d off) ||| BitVec.ofNat 64 r.rw) }

/-- The object and half that an offset of the SYN block names (R469): true for HI. -/
def synOffset (off : Nat) : Option (Nat × Bool) :=
  if 0x100000 ≤ off && off < 0x140000 then
    (if off % 16 == 0 then some ((off - 0x100000) / 16, false)
     else if off % 16 == 8 then some ((off - 0x100000) / 16, true) else none)
  else none

/-- The router of an offset in the TRT block, and the offset of its register. -/
def trtOffset (off : Nat) : Option (Nat × Nat) :=
  if 0x40000 ≤ off && off < 0x70000 then some ((off - 0x40000) / 0x100, 0x40000 + (off - 0x40000) % 0x100) else none

/-- The CE of an offset in the CE block, and the offset of its register. -/
def ceOffset (off : Nat) : Option (Nat × Nat) :=
  if 0xC0000 ≤ off && off < 0xC8000 && (off - 0xC0000) % 0x1000 < 0xC00 then
    some ((off - 0xC0000) / 0x1000, 0xC0000 + (off - 0xC0000) % 0x1000) else none

/-- A write to a DATA register of a table, none where the offset names none: slot, tree and join tables (R191, R192, R369), NI
tables (R201), gate lists (R265). -/
def tableWrite (s : State) (d off : Nat) (v : Word) (pl : Bool) : Option State :=
  let only := fun (s' : State) => some (if pl then s' else s)
  match trtOffset off with
  | some (p, r) =>
    if r == TRT_SLOT_DATA then
      let a := s.reg d (trt p TRT_SLOT_ADDR)
      only { s with slotTab := s.slotTab.set 0 ((rk d p * 8 + bitsOf a 11 9) * 512 + bitsOf a 8 0) v }
    else if r == TRT_TREE_DATA then
      let a := s.reg d (trt p TRT_TREE_ADDR)
      let k := rk d p * 1024 + bitsOf a 9 0
      only { s with treeTab := s.treeTab.set 0 k (putHalf (s.treeTab.get 0 k) (bitsOf a 10 10) v) }
    else if r == TRT_JOIN_DATA then
      some { s with joinTab := s.joinTab.set 0 (rk d p * 32 + s.fld d (trt p TRT_JOIN_ADDR) 4 0) v }
    else none
  | none =>
    if off == NI_TABLE_DATA then only (niTableWrite s d v)
    else if off == TIM_GATE_DATA then only (gateTabWrite s d v)
    else none

/-- A read of a DATA register of a table, none where the offset names none. -/
def tableRead (s : State) (d off : Nat) : Option Word :=
  match trtOffset off with
  | some (p, r) =>
    if r == TRT_SLOT_DATA then
      let a := s.reg d (trt p TRT_SLOT_ADDR)
      some (s.slotTab.get 0 ((rk d p * 8 + bitsOf a 11 9) * 512 + bitsOf a 8 0))
    else if r == TRT_TREE_DATA then
      let a := s.reg d (trt p TRT_TREE_ADDR)
      let x := s.treeTab.get 0 (rk d p * 1024 + bitsOf a 9 0)
      some (BitVec.ofNat 64 (bitsOf x (64 * bitsOf a 10 10 + 63) (64 * bitsOf a 10 10)))
    else if r == TRT_JOIN_DATA then some (s.joinTab.get 0 (rk d p * 32 + s.fld d (trt p TRT_JOIN_ADDR) 4 0))
    else none
  | none =>
    if off == NI_TABLE_DATA then some (niTableRead s d)
    else if off == TIM_GATE_DATA then some (s.gateTab.get 0 (gateAddrKey s d))
    else none

/-- Whether a write to CE_GT_DATA is misuse (R376, R379, R386, R430), by rule. -/
def gtMisuse (s : State) (d k : Nat) (v : Word) : Option Nat :=
  match gtWrite s d k (s.fld d (cew k CE_GT_ADDR) 8 3) (s.fld d (cew k CE_GT_ADDR) 2 0) v with
  | .fault (.undefinedMisuse r) => some r
  | _ => none

/-- The sampler whose configuration lies at an offset (R310, R318). -/
def samplerAt (off : Nat) : Option SamplePoint :=
  match trtOffset off with
  | some (p, r) => if r == TRT_QSAMPLE_CFG then some (.router p) else none
  | none =>
    if 0xC0000 ≤ off && off < 0xC8000 && 0xC00 ≤ off % 0x1000 && off % 0x1000 < 0xE80 && (off % 0x1000 - 0xC00) % 0x80 == 0x40 then
      some (.shape ((off - 0xC0000) / 0x1000) ((off % 0x1000 - 0xC00) / 0x80 + 1))
    else if 0x150000 ≤ off && off < 0x150280 && (off - 0x150000) % 0x80 == 0x40 then some (.shape 8 ((off - 0x150000) / 0x80 + 1))
    else none

/-- The frequency trim that a write leaves, in units of 10^-12: clamped to 100 ppm on either side of zero (R258). (DEDUCED, log 40) -/
def clampTrim (n : Nat) : Nat := if n < 2 ^ 31 then min n 100000000 else 2 ^ 32 - min (2 ^ 32 - n) 100000000

/-- A write that does more than store its bits, none where the offset has none: sync objects (R469), tables, a governor cap
(R319), the panel clock requests (R208), the frequency trim (R258), samplers (R298), the group table (R434), CE_SLOW and CE_SLOW_MAX (R440). (DEDUCED, log 40) -/
def specialStore (s : State) (d off : Nat) (v : Word) (pl : Bool) : Option State :=
  match synOffset off with
  | some (o, hi) =>
    some (if !isKind s d .compute then s else if hi then (if pl then objHiWrite s d o v else s) else objLoWrite s d o v)
  | none =>
    match tableWrite s d off v pl with
    | some s' => some s'
    | none =>
      if off == NI_GOV_CAP then some (govCapWrite s d v)
      else if off == SEAM_PANEL then some (panelWrite s d v)
      else if off == TIM_TRIM then some (s.setReg d off (BitVec.ofNat 64 (clampTrim (bitsOf v 31 0))))
      else match samplerAt off, ceOffset off with
        | some pt, _ => some (sampleCfgWrite s d pt v)
        | none, some (k, r) =>
          if r == CE_GT_DATA then
            some (match gtWrite s d k (s.fld d (cew k CE_GT_ADDR) 8 3) (s.fld d (cew k CE_GT_ADDR) 2 0) v with
              | .next s' => s'
              | _ => s)
          else if r == CE_SLOW then some s
          else if r == CE_SLOW_MAX then some (if v == 0 then s.setReg d off 0 else s)
          else none
        | none, none => none

/-- What follows the storing of a register's bits: a gate takeover is armed (R246), a probe counts afresh (R725), the permit is 4,096
while the governor is not enabled (R304), and a fault log is full no more once TAIL has moved (R610). -/
def afterStore (s : State) (d off : Nat) : State :=
  if 0x10200 ≤ off && off < 0x10320 && (off - 0x10200) % 0x20 == 0 then gateArm s d ((off - 0x10200) / 0x20)
  else if 0x180400 ≤ off && off < 0x180800 && (off - 0x180400) % 0x40 == 0 then
    { s with prbCount := s.prbCount.set 0 (d * 16 + (off - 0x180400) / 0x40) 0 }
  else if off == HLT_FLOG_CTL && s.fld d HLT_FLOG_CTL 15 8 != s.fld d HLT_FLOG_CTL 7 0 then
    { s with flogFull := s.flogFull.set false d false }
  else if off == NI_GOV_CTL && !s.flag d NI_GOV_CTL 0 then { s with govs := s.govs.set {} d { s.gov d with permit := 4096 } }
  else s

/-- Store a value in a register (R25 to R29): `pl` says whether PL fields are open. A table or sampler exists only where its
register does. -/
def csrStore (s : State) (d off : Nat) (v : Word) (pl : Bool) : State :=
  match synOffset off, descOf s d off with
  | none, none => s
  | _, r =>
    match specialStore s d off v pl, r with
    | some s', _ => s'
    | none, some r => afterStore (storeReg s d off r v pl) d off
    | none, none => s

/-- A misaligned or narrow access leaves the contents of the register it addresses unpredictable (R24): its writable bits, the entry
behind a DATA register, or the half of a sync object. (DESIGN CHOICE, log 22) -/
def scramble (s : State) (d off : Nat) : State :=
  let a := off / 8 * 8
  let x := s.draw
  let v := BitVec.ofNat 64 (bitsOf x.1 63 0)
  match synOffset a, descOf s d a with
  | some (o, hi), _ =>
    if isKind s d .compute then
      x.2.setSobj d o (if hi then setBits (s.sobj d o) 127 64 v.toNat else setBits (s.sobj d o) 63 0 v.toNat)
    else s
  | none, none => s
  | none, some r =>
    if (tableRead s d a).isSome then csrStore x.2 d a v true
    else
      let m := Nat.lor (Nat.lor r.rw r.pl) r.w1c % 2 ^ 64
      x.2.setReg d a (BitVec.ofNat 64 (Nat.lor (Nat.land (s.reg d a).toNat (2 ^ 64 - 1 - m)) (Nat.land v.toNat m)))

end Sys2Proof.Machine
end

