-- ==== Sys2Proof/Machine/Ledger.lean ====
section
/-! DEFINITION. The ledger (R739 to R750): its backlog, chaining, tags and seals, the mirror, the ring in memory and the intake of
digest records; and the trace unit's packets, COUNT records, and the statistics' CLEAR (R725, R729, R731). -/

namespace Sys2Proof.Machine

open Sys2Proof

/-! ## The head tailor -/

/-- The secret store of a service die (R781). -/
def State.store (s : State) (d : Nat) : Store := s.stores.get {} d

/-- Change a secret store. -/
def State.setStore (s : State) (d : Nat) (x : Store) : State := { s with stores := s.stores.set {} d x }

/-- Whether secure mode is in force (R782): the active service die's store is PROVISIONED. -/
def secureMode (s : State) : Bool := (s.store s.headDie).state == 1

/-- Whether the store is erased, so that records carry DEBUG_OPENED and no seal is written (R741, R786). -/
def debugOpened (s : State) : Bool := (s.store s.headDie).state == 2

/-- Whether the head tailor runs: the active service die's boot ROM is in RUN and its pairs have not been halted (R769, R770, R777). -/
def headRuns (s : State) : Bool :=
  s.fld s.headDie TLR_BOOT_STATUS 2 0 == 4 && !s.flag s.headDie TLR_STATUS 6 && !s.flag s.headDie TLR_STATUS 7

/-! ## The backlog (R742, R744) -/

/-- TYPE of a record from its header quad (R736). -/
def recType (r : LRec) : Nat := r.quads.headD 0 / 2 ^ 120 % 256

/-- Quads of a record once it is chained: with a seal's signature and the trailer (R739, R747). -/
def recQuads (r : LRec) : Nat := r.quads.length + (if r.signs.isSome then 6 else 0) + 5

/-- Whether the backlog can take a record that is not a DIGEST (R742, R744). -/
def ledgerRoom (s : State) : Bool := s.ledger.back.length < 4096

/-- A record of the head tailor, with the header of R736. -/
def ledgerRec (s : State) (ty ft40 : Nat) (body : List Nat) (signs : Option (List (BitVec 64))) : LRec :=
  let n := body.length + 6 + (if signs.isSome then 6 else 0)
  { quads := daxadHeader ty n false false false (s.pkgOf s.headDie) s.headDie ft40 0 :: body, signs := signs }

/-- Put a record in the backlog; where it is full, the record waits for it (R742, R744). -/
def ledgerPut (s : State) (r : LRec) : State :=
  let l := s.ledger
  if l.late.isEmpty && ledgerRoom s then { s with ledger := { l with back := l.back ++ [r] } }
  else { s with ledger := { l with late := l.late ++ [r] } }

/-- Put a record of the head tailor's own in the backlog. -/
def ledgerAdd (s : State) (ty ft40 : Nat) (body : List Nat) : State := ledgerPut s (ledgerRec s ty ft40 body none)

/-- DIGEST records in the backlog. -/
def digestCount (l : Ledger) : Nat := (l.back.filter (fun r => recType r == 0x85)).length

/-- Put a DIGEST record in the backlog, or count its discard (R744). -/
def digestPut (s : State) (r : LRec) : State :=
  let l := s.ledger
  if digestCount l < 3584 && ledgerRoom s then { s with ledger := { l with back := l.back ++ [r] } }
  else
    { s with ledger := { l with gapN := l.gapN + 1, gapFt := if l.gapN == 0 then s.now s.headDie else l.gapFt } }

/-- Records that wait for the backlog enter it in order, and a GAP record follows when DIGEST space has returned (R744). -/
def ledgerRefill (s : State) : State :=
  let l := s.ledger
  let n := 4096 - l.back.length
  let s1 := { s with ledger := { l with back := l.back ++ l.late.take n, late := l.late.drop n } }
  if l.gapN != 0 && digestCount s1.ledger < 3584 && ledgerRoom s1 then
    let s2 := ledgerAdd s1 0x89 (s.now40 s.headDie) [l.gapFt % 2 ^ 64 * 2 ^ 64 + l.gapN % 2 ^ 32]
    { s2 with ledger := { s2.ledger with gapN := 0 } }
  else s1

/-! ## Chaining, tags and seals (R739 to R741) -/

/-- Bytes of quads, each little-endian (R736). -/
def quadBytes (qs : List Nat) : List Byte := qs.flatMap (bytesOfNat 16)

/-- Quads of bytes. -/
def bytesQuads (n : Nat) (bs : List Byte) : List Nat :=
  (List.range n).map (fun i => natOfBytes ((List.range 16).map (fun j => bs.getD (16 * i + j) 0)))

/-- Three quads of a 48 B digest, byte 0 at byte 0 of the first (R739). -/
def digestQuads (w : List (BitVec 64)) : List Nat := bytesQuads 3 (wordsBytes w)

/-- HMAC-SHA-384 (R739; the construction is the standard's). -/
def hmac384 (key : List Byte) (msg : List Byte) : List (BitVec 64) :=
  let pad := fun (x : Byte) => (List.range 128).map (fun i => key.getD i 0 ^^^ x)
  Config.sha384 (pad 0x5C ++ wordsBytes (Config.sha384 (pad 0x36 ++ msg)))

/-- A record's quads with the LSEQ, DEBUG_OPENED and, for a SEAL, the signature by the attestation key (R736, R739 to R741). -/
def finishQuads (s : State) (r : LRec) (lseq : Nat) : List Nat :=
  let hdr := setBits (setBits (BitVec.ofNat 128 (r.quads.headD 0)) 31 0 lseq) 107 107 (boolNat (debugOpened s))
  let qs := hdr.toNat :: r.quads.tail
  match r.signs with
  | none => qs
  | some chain =>
    let digest := Config.sha384 (quadBytes qs ++ wordsBytes chain)
    qs ++ bytesQuads 6 (Config.ecdsaSign s.free (s.store s.headDie).priv digest)

/-- Chain one record: the trailer of R739. -/
def chainRec (s : State) (r : LRec) : Chained :=
  let l := s.ledger
  let body := finishQuads s r l.next ++ [s.now s.headDie % 2 ^ 64 * 2 ^ 64 + l.next % 2 ^ 64]
  let chain := Config.sha384 (wordsBytes l.chain ++ quadBytes body)
  let tag := if debugOpened s then 0
    else (bytesQuads 1 (wordsBytes (hmac384 (wordsBytes (s.store s.headDie).chainKey) (wordsBytes chain)))).headD 0
  { lseq := l.next, quads := body ++ digestQuads chain ++ [tag], chain := chain }

/-- Quads chained that the ring does not yet hold. -/
def quadsInFlight (l : Ledger) : Nat := ((l.sent ++ l.acked).map (fun c => c.quads.length)).sum

/-- Whether the ring's memory is trained and has room for `n` more quads before TAIL (R743). (DEDUCED, log 165) -/
def ringFits (s : State) (n : Nat) : Bool :=
  (s.mode == .fit || s.mode == .service) &&
    (s.reg s.headDie OBS_LEDGER_HEAD).toNat + quadsInFlight s.ledger + n ≤
      (s.reg s.headDie OBS_LEDGER_TAIL).toNat + s.fld s.headDie OBS_LEDGER_CFG 31 0

/-- Show the chain state in the registers (R763). -/
def showChain (s : State) (c : Chained) : State :=
  (List.range 6).foldl (fun s i => s.setReg s.headDie (OBS_LEDGER_CHAIN0 + 8 * i) (c.chain.getD i 0))
    (s.setReg s.headDie OBS_LEDGER_LSEQ (BitVec.ofNat 64 c.lseq))

/-- Write the first acknowledged record to the ledger ring, one quad to a WRITE_ACK on VC2 (R742); where TAIL has been advanced past HEAD
the record in memory is free (R752). (DEDUCED, log 165) -/
def ringPump (s : State) : State :=
  let l := s.ledger
  match l.acked with
  | [] => s
  | c :: _ =>
    if l.writing != 0 then s
    else
      let d := s.headDie
      let base := s.reg d OBS_LEDGER_BASE
      let size := s.fld d OBS_LEDGER_CFG 31 0
      let head := (s.reg d OBS_LEDGER_HEAD).toNat
      let spoilt := if head < (s.reg d OBS_LEDGER_TAIL).toNat then drawUnits s c.quads.length else ([], s)
      let pk := fun (i : Nat) =>
        let a := 16 * ((head + i) % size)
        ({ hdr := { mkHdr 0x02 2 (base + BitVec.ofNat 64 (a / 64 * 64)) (ctlSrc s d) with
                    len := 1, tag := 0xE000, inl := BitVec.ofNat 128 (0xFFFF * 2 ^ (a % 64)) },
           data := [spoilt.1.getD i (BitVec.ofNat 512 (c.quads.getD i 0 * 2 ^ (8 * (a % 64))))] } : Packet)
      sendAll { spoilt.2 with ledger := { l with writing := c.quads.length, failed := false } } d attCtl ((List.range c.quads.length).map pk)

/-- A write to the ring is answered: HEAD advances when the whole record is in memory; a failed record is written again (R742). -/
def ringAck (s : State) (status : Nat) : State :=
  let l := s.ledger
  if l.writing == 0 then s
  else
    let l1 := { l with writing := l.writing - 1, failed := l.failed || status != 0 }
    let s1 := { s with ledger := l1 }
    if l1.writing != 0 then s1
    else if l1.failed then ringPump s1
    else
      let d := s.headDie
      let n := (l.acked.head?.map (fun c => c.quads.length)).getD 0
      let s2 := s1.setReg d OBS_LEDGER_HEAD (s1.reg d OBS_LEDGER_HEAD + BitVec.ofNat 64 n)
      ringPump (irq { s2 with ledger := { l1 with acked := l.acked.tail } } 4)

/-- Count a chained record toward the next seal; a SEAL itself asks for none (R740). -/
def countUnsealed (l : Ledger) (r : LRec) (now : Nat) : Ledger :=
  if r.signs.isSome then l
  else { l with unsealed := l.unsealed + 1, sealFt := if l.unsealed == 0 then now else l.sealFt }

/-- Begin to sign a seal over the last record chained (R740); none while one is being signed or the store is erased (R741, R764). (DEDUCED, log 166) -/
def sealStart (s : State) : State :=
  let l := s.ledger
  if l.signing.isSome || debugOpened s || l.next == 0 || !headRuns s then s
  else { s with ledger := { l with signing := some (l.next - 1, l.chain), unsealed := 0 } }

/-- A DEBUG_OPEN record for an open requested at `ft` (R741, R747). -/
def debugRecord (s : State) (ft : Nat) : State :=
  ledgerAdd { s with ledger := { s.ledger with openFt := none } } 0x88 (s.now40 s.headDie) [ft % 2 ^ 64 * 2 ^ 64]

/-- Pair B learns of an open request (R785): DEBUG_OPEN is written, after the seal being signed (R751). -/
def debugNotify (s : State) : State :=
  let ft := s.now s.headDie
  if !headRuns s then s
  else if s.ledger.signing.isSome then { s with ledger := { s.ledger with openFt := some ft } }
  else debugRecord s ft

/-- A SEAL follows a DEBUG_OPEN that has been chained (R741). (DEDUCED, log 149) -/
def sealOpen (s : State) (r : LRec) (lseq : Nat) : State :=
  if recType r == 0x88 then sealStart { s with ledger := { s.ledger with openSeq := some lseq } } else s

/-- LEDGER_CHAIN (R742, R743): the next backlog record is chained and copied to the mirror; without a mirror it goes on at once (R751). -/
def ledgerChain (s0 : State) : State :=
  let s := ledgerRefill s0
  match s.ledger.back with
  | [] => s
  | r :: rest =>
    if !headRuns s || !ringFits s (recQuads r) then s
    else
      let c := chainRec s r
      let l := countUnsealed s.ledger r (s.now s.headDie)
      let l1 := { l with back := rest, next := l.next + 1, chain := c.chain }
      let l2 := if l.unmirrored then { l1 with acked := l1.acked ++ [c], ackSeq := c.lseq + 1, ackChain := c.chain }
        else { l1 with sent := l1.sent ++ [c] }
      let s1 := showChain { s with ledger := l2, free := s.free + boolNat r.signs.isSome } c
      ledgerRefill (ringPump (sealOpen s1 r c.lseq))

/-- LEDGER_CHAIN (R742). -/
def execLedgerChain (s : State) : Out := .next (ledgerChain s)

/-- The mirror acknowledges the oldest record copied to it, which then goes to the ring (R742). (DEDUCED, log 168) -/
def mirrorAck (s : State) : State :=
  match s.ledger.sent with
  | [] => s
  | c :: cs =>
    ringPump { s with ledger := { s.ledger with sent := cs, acked := s.ledger.acked ++ [c], ackSeq := c.lseq + 1, ackChain := c.chain } }

/-- MIRROR_ACK (R742). -/
def execMirrorAck (s : State) : Out := .next (mirrorAck s)

/-- SEAL_N, 0 standing for 256 (R760). -/
def sealN (s : State) : Nat := if s.fld s.headDie OBS_LEDGER_CFG 47 40 == 0 then 256 else s.fld s.headDie OBS_LEDGER_CFG 47 40
/-- SEAL_US, 0 standing for 65,536 (R760). -/
def sealUs (s : State) : Nat := if s.fld s.headDie OBS_LEDGER_CFG 63 48 == 0 then 65536 else s.fld s.headDie OBS_LEDGER_CFG 63 48

/-- Whether a seal is due (R740). -/
def sealIsDue (s : State) : Bool :=
  sealN s ≤ s.ledger.unsealed || (0 < s.ledger.unsealed && s.ledger.sealFt + sealUs s * 1000 ≤ s.now s.headDie)

/-- SEAL_DUE (R740). -/
def execSealDue (s : State) : Out := .next (if sealIsDue s then sealStart s else s)

/-- SEAL_NOW (R740, R764). -/
def execSealNow (s : State) : Out := .next (sealStart s)

/-- What an open request waits for when a seal is complete (R741, R751): its DEBUG_OPEN, or the SEAL over it. -/
def sealNext (s : State) (l : Nat) : State :=
  match s.ledger.openFt, s.ledger.openSeq with
  | some ft, _ => debugRecord s ft
  | none, some n => if l < n then sealStart s else s
  | none, none => s

/-- SEAL_SIGNED (R740): the SEAL record enters the backlog. (DEDUCED, log 166) -/
def sealSigned (s : State) : State :=
  match s.ledger.signing with
  | none => s
  | some (l, chain) =>
    let s1 := { s with ledger := { s.ledger with signing := none } }
    sealNext (if debugOpened s then s1 else ledgerPut s1 (ledgerRec s 0x86 (s.now40 s.headDie) [l % 2 ^ 64] (some chain))) l

/-- SEAL_SIGNED (R740). -/
def execSealSigned (s : State) : Out := .next (sealSigned s)

/-! ## Intake (R746) -/

/-- Quad `q` of a packet's data units. -/
def packetQuad (p : Packet) (q : Nat) : Nat := bitsOf (p.data.getD (q / 4) 0) (128 * (q % 4) + 127) (128 * (q % 4))

/-- Whether a submission meets the conditions of R746. (DEDUCED, log 167) -/
def submissionOk (s : State) (p : Packet) : Bool :=
  let h := p.hdr
  let k := kindOf s h.srcDie
  let q0 := packetQuad p 0
  h.srcEng == 1 && h.srcPkg == s.pkgOf s.headDie && (k == some .compute || k == some .port) && h.len == 2 &&
    q0 / 2 ^ 120 % 256 == 0x85 && q0 / 2 ^ 116 % 16 == 1 && q0 / 2 ^ 110 % 64 == 10 && packetQuad p 6 == 0 && packetQuad p 7 == 0

/-- A ledger submission reaches the active service die (R746): the header's PKG and DIE come from SRC. -/
def ledgerIntake (s : State) (p : Packet) : State :=
  if submissionOk s p then
    let hdr := setBits (setBits (BitVec.ofNat 128 (packetQuad p 0)) 103 91 p.hdr.srcPkg) 90 84 p.hdr.srcDie
    digestPut s { quads := hdr.toNat :: (List.range 5).map (fun i => packetQuad p (i + 1)) }
  else s.bump s.headDie OBS_LEDGER_STATUS 63 32 1

/-! ## The trace unit (R725, R730, R731) -/

/-- FLUSH_US, 0 standing for 1 (R755). -/
def flushUs (s : State) (d : Nat) : Nat := if s.fld d OBS_TRACE_CFG 31 16 == 0 then 1 else s.fld d OBS_TRACE_CFG 31 16

/-- Quads padded to whole units with a PAD record (R731, R737). -/
def padUnits (hdr : Nat) (qs : List Nat) : List Nat :=
  let n := (4 - qs.length % 4) % 4
  if n == 0 then qs else qs ++ [hdr + (n - 1) * 2 ^ 110] ++ List.replicate (n - 1) 0

/-- Send one TRACE packet to the slice's ring at the sink, when 8 units are full or the flush time has passed (R731). (DEDUCED, log 163) -/
def traceFlush (s : State) (d : Nat) : State :=
  let t := s.traces.get {} d
  let due := tracePacketQuads ≤ t.quads.length || t.firstFt + flushUs s d * 1000 ≤ s.now d
  if t.quads.isEmpty || !due || attHalted s d attCtl then s
  else
    let pad := daxadHeader 0 1 false false false (s.pkgOf d) d (s.now40 d) 0
    let qs := padUnits pad (t.quads.take tracePacketQuads)
    let n := qs.length / 4
    let size := 2 ^ (10 + s.fld d OBS_TRACE_CFG 3 0)
    let wr := s.fld d OBS_TRACE_STATUS 31 0
    let at' := if wr + 64 * n ≤ size then wr else 0
    let h := { mkHdr 0x63 5 (s.reg d OBS_TRACE_SINK + BitVec.ofNat 64 (d * size + at')) (ctlSrc s d) with len := BitVec.ofNat 6 n }
    let us := (List.range n).map (fun i => BitVec.ofNat 512 (glue 128 ((qs.drop (4 * i)).take 4)))
    let s1 := (s.setFld d OBS_TRACE_STATUS 31 0 ((at' + 64 * n) % size))
    sendAt { s1 with traces := s1.traces.set {} d { t with quads := t.quads.drop tracePacketQuads, firstFt := s.now d } } d attCtl
      { hdr := h, data := us }

/-- TRACE_FLUSH (R731). -/
def execTraceFlush (d : Nat) (s : State) : Out := onUnit (dieExists s d) (traceFlush s d)

/-- The COUNT record of one probe (R725, R737). -/
def countRecord (s : State) (d n : Nat) : State :=
  if s.flag d (prw n OBS_PRB_CFG_0) 3 then
    traceRec s d 0x07 false [n * 2 ^ 124 + s.fld d (prw n OBS_PRB_UNITS_0) 47 0 * 2 ^ 48 + s.fld d (prw n OBS_PRB_PKTS_0) 47 0]
  else s

/-- COUNT_PERIOD (R725, R755): at every COUNT_PERIOD-th round boundary, while the slice is in SERVICE (R726). (DEDUCED, log 164) -/
def countPeriod (s : State) (d : Nat) : State :=
  let p := if s.fld d OBS_TRACE_CFG 39 32 == 0 then 256 else s.fld d OBS_TRACE_CFG 39 32
  if partState s d == .service && (s.keeper d).round % p == 0 then (List.range 16).foldl (fun s n => countRecord s d n) s else s

/-- COUNT_PERIOD (R725). -/
def execCountPeriod (d : Nat) (s : State) : Out := onUnit (dieExists s d) (countPeriod s d)

/-- OBS_PRB_CFG_WRITE (R725, R758): the configuration is stored, and matches are counted afresh. (DEDUCED, log 169) -/
def execObsPrbCfgWrite (d n : Nat) (v : Word) (s : State) : Out :=
  onUnit (dieExists s d && n < 16) (csrStore s d (prw n OBS_PRB_CFG_0) v s.mode.plOpen)

/-- A write to OBS_STAT_CFG: its RW fields, and with CLEAR the table (R729, R757). -/
def statCfgWrite (s : State) (d : Nat) (v : Word) : State :=
  let s1 := csrStore s d OBS_STAT_CFG v s.mode.plOpen
  if v.getLsbD 1 then { s1 with stats := s1.stats.drop (fun k => k / 128 == d) } else s1

/-- OBS_STAT_CLEAR (R729). -/
def execObsStatClear (d : Nat) (v : Word) (s : State) : Out := onUnit (dieExists s d) (statCfgWrite s d v)

end Sys2Proof.Machine
end

