-- ==== Sys2Proof/Machine/Commit.lean ====
section
/-! DEFINITION. Commit groups at the target and the recorder (R475 to R492, R495, R496, R498): staging windows, confirmation, the
writes at T, reports, and the recorder's decision. -/

namespace Sys2Proof.Machine

open Sys2Proof

/-! ## Windows (R491, R504) -/

/-- Key of a window. -/
def wk (d n : Nat) : Nat := d * 16 + n

/-- Staging window `n` of a slice. -/
def State.win (s : State) (d n : Nat) : Win := s.wins.get {} (wk d n)

/-- Change a window. -/
def State.setWin (s : State) (d n : Nat) (w : Win) : State := { s with wins := s.wins.set {} (wk d n) w }

/-- SIZE of a window in units (R504). -/
def winSize (s : State) (d n : Nat) : Nat := s.fld d (CMT_WIN_CFG_0 + 0x10 * n) 44 32

/-- Key of unit `u` of a window in the commit staging SRAM (R478, R504). -/
def winKey (s : State) (d n u : Nat) : Nat := commitKey d (64 * (s.fld d (CMT_WIN_CFG_0 + 0x10 * n) 11 0 + u))

/-- GUARD in ns; 0 is treated as 50 µs (R490, R500). -/
def guardNs (s : State) (d : Nat) : Nat := 1000 * (if s.fld d CMT_CFG 63 48 == 0 then 50 else s.fld d CMT_CFG 63 48)

/-- APPLY_FT40 of a commit packet (R485, R487). -/
def applyFt40 (h : Hdr) : Nat := h.inlBits 391 352
/-- LIST of a COMMIT_STAGE packet (R485). -/
def isList (h : Hdr) : Bool := h.inlBits 412 412 == 1

/-- Whether a window holds the group that a packet names (R477): coordinator, GROUP, and the recorder's stream or a target's. -/
def winHolds (w : Win) (src : BitVec 32) (group : Nat) (list : Bool) : Bool :=
  w.st != 0 && w.src == src && w.group == group && w.list == list

/-- The window of a key. -/
def findWin (s : State) (d : Nat) (src : BitVec 32) (group : Nat) (list : Bool) : Option Nat :=
  (List.range 16).find? (fun n => winHolds (s.win d n) src group list)

/-- Whether commit packets are accepted (R500): ENABLE is 1 and the commit unit is not fenced (R633). -/
def commitOpen (s : State) (d : Nat) : Bool := s.flag d CMT_CFG 0 && !unitFenced s d 9

/-- COMMIT_ACK to the coordinator (R486). (DEDUCED, log 73) -/
def stageAck (s : State) (d n result : Nat) (h : Hdr) : State :=
  let dst := (bitsOf h.src 31 19, bitsOf h.src 18 12, bitsOf h.src 11 2 % 8)
  let g := mkHdr 0x21 3 (ceAddr dst) (ctlSrc s d)
  sendAt s d attCtl { hdr := { g with group := h.group, tag := h.tag, inl := BitVec.ofNat 128 (result + n % 16 * 2 ^ 8) } }

/-- The units of a window's stream. -/
def winUnits (s : State) (d n : Nat) : List DataUnit :=
  (List.range (s.win d n).total).map (fun u => readUnit s.mem (winKey s d n u))

/-- Check a complete stream (R485, R486, R491). -/
def stageCheck (s : State) (d n : Nat) (h : Hdr) : State :=
  let w := s.win d n
  if w.st != 1 || w.got.length < w.total then s
  else match w.check with
    | none => s
    | some c =>
      if c == crc64 (winUnits s d n) then stageAck (s.setWin d n { w with st := 2 }) d n 0 h
      else stageAck ((s.setWin d n {}).raise d CMT_EVENT 2) d n 2 h

/-- Take a packet's units into a window (R485); units at or beyond TOTAL are misplaced and ignored. -/
def stageFill (s : State) (d n : Nat) (p : Packet) : State :=
  let w := s.win d n
  let h := p.hdr
  let at0 := h.chunk.toNat % 4096
  let ix := ((List.range p.data.length).map (fun j => at0 + j)).filter (fun u => u < w.total)
  let mem := ix.foldl (fun m u => writeUnit m (winKey s d n u) (p.data.getD (u - at0) 0)) s.mem
  let got := w.got ++ ix.filter (fun u => !w.got.contains u)
  let check := if h.last then some (hdrCheck h) else w.check
  stageCheck ({ s with mem := mem }.setWin d n { w with got := got, check := check }) d n h

/-- A stage packet at a commit unit (R491): it fills its window, or claims the lowest-numbered free window that is large enough, or
NOSPACE is sent once for its key. The recorder's stream is taken only where the slice acts as recorder (R500). (DEDUCED, log 77) -/
def stageArrive (s : State) (d : Nat) (p : Packet) : State :=
  let h := p.hdr
  let list := isList h
  let total := h.chunk.toNat / 4096 + 1
  let key := (d, h.src, h.group.toNat, applyFt40 h, list)
  match findWin s d h.src h.group.toNat list with
  | some n => if (s.win d n).st == 1 then stageFill s d n p else s
  | none =>
    if s.cmtClosed.contains key || (list && !(isKind s d .service && s.flag d CMT_CFG 1)) then s
    else match (List.range 16).find? (fun n => (s.win d n).st == 0 && total ≤ winSize s d n) with
      | some n =>
        let w : Win := { st := 1, src := h.src, group := h.group.toNat, tag := h.tag.toNat, total := total,
                         t := ft40Full (s.now d) (applyFt40 h), recPkg := h.inlBits 404 392, recDie := h.inlBits 411 405, list := list }
        stageFill (s.setWin d n w) d n p
      | none => stageAck ({ s with cmtClosed := s.cmtClosed ++ [key] }.raise d CMT_EVENT 1) d 0 1 h

/-- A commit packet reaches a commit unit, which drops it where it does not accept it. (DEDUCED, log 72) -/
def commitArrive (s : State) (d cmd : Nat) (p : Packet) (act : State → State) : Out :=
  arrive s d attCtl cmd p (fun s =>
    let s1 := statUpdate s d (partState s d) p.hdr
    if commitOpen s d then act s1 else if unitFenced s d 9 then countHemDrop s1 d (tileRouter s d 0 0) p.hdr else s1)

/-- COMMIT_STAGE (R485, R491). -/
def execCommitStage (d : Nat) (p : Packet) (s : State) : Out := commitArrive s d 0x20 p (fun s => stageArrive s d p)

/-- CONFIRM at a commit unit (R490, R491, R498). -/
def confirmArrive (s : State) (d : Nat) (h : Hdr) : State :=
  let hit := fun (n : Nat) =>
    let w := s.win d n
    w.st == 2 && w.src == h.src && w.group == h.group.toNat && w.tag == h.tag.toNat
  match (List.range 16).find? hit with
  | none => s
  | some n =>
    let w := s.win d n
    if applyFt40 h != w.t % 2 ^ 40 then (s.setWin d n { w with verdict := 3 }).raise d CMT_EVENT 3
    else if s.now d + guardNs s d < w.t then s.setWin d n { w with st := 3, confirmed := true }
    else ((s.setWin d n { w with verdict := 2 }).raise d CMT_EVENT 0).bump d CMT_LATE 47 0 1

/-- CONFIRM (R490). -/
def execConfirm (d : Nat) (h : Hdr) (s : State) : Out := commitArrive s d 0x22 { hdr := h } (fun s => confirmArrive s d h)

/-! ## The stage stream (R478 to R480) -/

/-- The records of a stream: SPACE, ADDR and the data words; the stream ends at SPACE 0 and a record that runs past its end is
ignored (R478, R479, R499). -/
def streamRecs : Nat → List Word → List (Nat × Nat × List Word)
  | 0, _ => []
  | _, [] => []
  | fuel + 1, h :: ws =>
    let space := bitsOf h 63 62
    let n := bitsOf h 61 52 + 1
    if space == 0 || ws.length < n then [] else (space, bitsOf h 43 0, ws.take n) :: streamRecs fuel (ws.drop n)

/-- The 64-bit words of data units. -/
def unitWords (us : List DataUnit) : List Word :=
  us.flatMap (fun u => (List.range 8).map (fun i => BitVec.ofNat 64 (bitsOf u (64 * i + 63) (64 * i))))

/-- The records of a window. -/
def winRecs (s : State) (d n : Nat) : List (Nat × Nat × List Word) :=
  let ws := unitWords (winUnits s d n)
  streamRecs ws.length ws

/-- Whether a register holds PL fields (R26, R469). -/
def plTarget (s : State) (d off : Nat) : Bool :=
  match synOffset off with
  | some (_, hi) => hi
  | none => ((descOf s d off).map (fun r => r.pl != 0)).getD false

/-- Whether an offset is a permit register (R591, R600). -/
def permitOff (off : Nat) : Bool := 0x20100 ≤ off && off < 0x20200

/-- Apply a CSR record (R479, R480): in secure mode without a permit, a record that writes PL fields is skipped. Answers whether it
was skipped. -/
def applyCsr (s : State) (d addr : Nat) (ws : List Word) (pl : Bool) : State × Bool :=
  let offs := (List.range ws.length).map (fun i => addr % 2 ^ 24 + 8 * i)
  if !pl && offs.any (plTarget s d) then (s, true)
  else ((List.range ws.length).foldl (fun s i =>
    let off := addr % 2 ^ 24 + 8 * i
    if permitOff off then s
    else
      let s' := csrStore s d off (ws.getD i 0) pl
      if off == NI_TABLE_DATA then holdChanged s s' d else s') s, false)

/-- Write a sync object as a SYNC record does, its watch apart (R479, R480). -/
def applySync (s : State) (d o : Nat) (v : Word) : State :=
  let x := s.sobj d o
  if !isKind s d .compute || 16384 ≤ o then s
  else if objType x == 0 || objType x == 3 then
    let (w, s1) := s.draw
    s1.setSobj d o (setBits x 63 0 w.toNat)
  else s.setSobj d o (setBits x 31 0 (bitsOf v 31 0))

/-- Apply the CSR and SYNC records of a stream in order (R492). Answers the state and whether a record was skipped. -/
def applyRecs (s : State) (d : Nat) (pl : Bool) : List (Nat × Nat × List Word) → State × Bool
  | [] => (s, false)
  | (space, addr, ws) :: rs =>
    let r :=
      if space == 1 then applyCsr s d addr ws pl
      else if space == 3 then
        ((List.range ws.length).foldl (fun s i => applySync s d (addr % 2 ^ 14 + i) (ws.getD i 0)) s, false)
      else (s, false)
    let q := applyRecs r.1 d pl rs
    (q.1, r.2 || q.2)

/-- The objects that SYNC records write. -/
def syncTargets (rs : List (Nat × Nat × List Word)) : List Nat :=
  rs.flatMap (fun r => if r.1 == 3 then (List.range r.2.2.length).map (fun i => r.2.1 % 2 ^ 14 + i) else [])

/-- One 64 B unit of a FABRIC record: its address, the bytes the record fills, and their values (R492). -/
def fabricUnits (addr : Nat) (ws : List Word) : List (Nat × Nat × Nat) :=
  let first := addr / 64
  let last := (addr + 8 * ws.length - 1) / 64
  (List.range (last + 1 - first)).map (fun j =>
    let u := first + j
    let at' := fun (i : Nat) => let a := 64 * u + 8 * i; if addr ≤ a && a < addr + 8 * ws.length then some ((a - addr) / 8) else none
    let mask := glue 8 ((List.range 8).map (fun i => if (at' i).isSome then 0xFF else 0))
    let val := glue 64 ((List.range 8).map (fun i => match at' i with
      | some k => (ws.getD k 0).toNat
      | none => 0))
    (64 * u, mask, val))

/-- Gather whole units that follow one another into runs of at most 32; a unit filled in part stands alone (R492). -/
def fabricRuns : List (Nat × Nat × Nat) → List (Nat × Nat × List Nat)
  | [] => []
  | (a, mask, v) :: us =>
    match fabricRuns us with
    | (b, m, vs) :: rs =>
      if mask == 2 ^ 64 - 1 && m == mask && vs.length < 32 && b == a + 64 then (a, m, v :: vs) :: rs
      else (a, mask, [v]) :: (b, m, vs) :: rs
    | [] => [(a, mask, [v])]

/-- The ORDERED WRITE_ACK packets of a FABRIC record (R492, R837); TAG names the window. -/
def fabricPackets (s : State) (d n addr : Nat) (ws : List Word) : List Packet :=
  (fabricRuns (fabricUnits addr ws)).map (fun r =>
    { hdr := { mkHdr 0x02 2 (BitVec.ofNat 64 (s.pkgOf d * 2 ^ 51 + d * 2 ^ 44 + r.1 % 2 ^ 44)) (ctlSrc s d) with
               flags := 4, len := BitVec.ofNat 6 r.2.2.length, tag := BitVec.ofNat 16 (0xC000 + n),
               inl := BitVec.ofNat 128 (if r.2.1 == 2 ^ 64 - 1 then 0 else r.2.1) },
      data := r.2.2.map (BitVec.ofNat 512) })

/-! ## Reports (R488, R489, R491) -/

/-- COMMIT_REPORT of a target to the coordinator and to the recorder (R488, R491). (DEDUCED, log 76) -/
def targetReport (s : State) (d n result : Nat) : State :=
  let w := s.win d n
  let coord := ceAddr (bitsOf w.src 31 19, bitsOf w.src 18 12, bitsOf w.src 11 2 % 8)
  let rec' := fabricAddr w.recPkg w.recDie 0 0 0
  let pk := fun (a : BitVec 64) =>
    ({ hdr := { mkHdr 0x23 1 a (ctlSrc s d) with
                group := BitVec.ofNat 16 w.group, tag := BitVec.ofNat 16 w.tag, inl := BitVec.ofNat 128 (result * 2 ^ 8) } } : Packet)
  let s1 := if result == 5 then s.raise d CMT_EVENT 4 else s
  sendAll s1 d attCtl [pk coord, pk rec']

/-- A window is freed by its T: its key takes no more packets (R491). -/
def closeWin (s : State) (d n : Nat) : State :=
  let w := s.win d n
  { s.setWin d n {} with cmtClosed := s.cmtClosed ++ [(d, w.src, w.group, w.t % 2 ^ 40, w.list)] }

/-- Report an applied window and free it (R491). -/
def winDone (s : State) (d n : Nat) : State :=
  let w := s.win d n
  closeWin (targetReport s d n (if w.failed then 5 else 0)) d n

/-- The answer to a FABRIC write (R491, R489): FENCED or TIMEOUT is a failure. -/
def fabricAck (s : State) (d n status : Nat) : State :=
  let w := s.win d n
  if w.st != 4 || w.left == 0 then s
  else
    let w1 := { w with left := w.left - 1, failed := w.failed || status == 1 || status == 2 }
    let s1 := s.setWin d n w1
    if w1.left == 0 then winDone s1 d n else s1

/-! ## The writes at T (R492, R498, R589) -/

/-- The words of permit `n` (R600). -/
def permitDigest (s : State) (d n : Nat) : List Word := (List.range 6).map (fun k => s.reg d (PAT_PERMIT_D_0_0 + 0x40 * n + 8 * k))

/-- Whether a valid permit covers a window (R589). -/
def hasPermit (s : State) (d n : Nat) : Bool :=
  let w := s.win d n
  let dg := Config.sha384 ((winUnits s d n).flatMap (fun u => bytesOfNat 64 u.toNat))
  (List.range 4).any (fun k =>
    s.flag d (PAT_PERMIT_CTL_0 + 0x40 * k) 40 && s.fld d (PAT_PERMIT_CTL_0 + 0x40 * k) 39 0 == w.t % 2 ^ 40 && permitDigest s d k == dg)

/-- Whether a window writes PL fields (R480, R589). -/
def winPl (s : State) (d n : Nat) : Bool := !secureMode s || hasPermit s d n

/-- Clear every permit whose T has come (R589). -/
def clearPermits (s : State) (d t40 : Nat) : State :=
  (List.range 4).foldl (fun s k =>
    if s.flag d (PAT_PERMIT_CTL_0 + 0x40 * k) 40 && s.fld d (PAT_PERMIT_CTL_0 + 0x40 * k) 39 0 == t40 then
      s.setFld d (PAT_PERMIT_CTL_0 + 0x40 * k) 40 40 0 else s) s

/-- The windows that T finds CONFIRMED, in window order. -/
def applyingWins (s : State) (d : Nat) : List Nat :=
  (List.range 16).filter (fun n => let w := s.win d n; w.st == 3 && !w.list && w.t ≤ s.now d)

/-- The windows that T finds STAGING or STAGED. -/
def discardingWins (s : State) (d : Nat) : List Nat :=
  (List.range 16).filter (fun n => let w := s.win d n; (w.st == 1 || w.st == 2) && !w.list && w.t ≤ s.now d)

/-- The recorder's windows whose T has come. -/
def collectingWins (s : State) (d : Nat) : List Nat :=
  (List.range 16).filter (fun n => let w := s.win d n; 1 ≤ w.st && w.st ≤ 3 && w.list && w.t ≤ s.now d)

/-- Begin to apply one window: its CSR and SYNC records (R492). -/
def applyWin (s : State) (d : Nat) (pl : Bool) (n : Nat) : State :=
  let r := applyRecs s d pl (winRecs s d n)
  (r.1.bump d CMT_APPLIED 47 0 1).setWin d n { s.win d n with st := 4, failed := r.2 }

/-- The words that a window writes: SPACE and address; a SYNC word counts under the offset of its object (R469, R479). -/
def winWords (s : State) (d n : Nat) : List (Nat × Nat) :=
  (winRecs s d n).flatMap (fun r => (List.range r.2.2.length).map (fun i =>
    if r.1 == 3 then (1, 0x100000 + 16 * (r.2.1 % 2 ^ 14 + i)) else (r.1, (if r.1 == 1 then r.2.1 % 2 ^ 24 else r.2.1) + 8 * i)))

/-- A register or object that an earlier window of the same T has written too: the value left is that of one of the two windows, free
which (R498); `s0` is the state between them. -/
def leaveOne (s0 s : State) (d off : Nat) : State :=
  let (w, s1) := s.draw
  if w.getLsbD 0 then s1
  else match synOffset off with
    | some (o, _) => s1.setSobj d o (setBits (s1.sobj d o) 63 0 (objValue (s0.sobj d o)))
    | none => s1.setReg d off (s0.reg d off)

/-- Apply the windows of one T in window order (R492, R498); `seen` are the words written so far. (DEDUCED, log 185) -/
def applyWins (s0 : State) (d : Nat) : List Nat → List (Nat × Nat) → State → State
  | [], _, s => s
  | n :: ns, seen, s =>
    let ws := winWords s0 d n
    let s1 := applyWin s d (winPl s0 d n) n
    let twice := (ws.filter (fun w => w.1 == 1 && seen.contains w)).eraseDups
    applyWins s0 d ns (seen ++ ws) (twice.foldl (fun t w => leaveOne s t d w.2) s1)

/-- The order in which the windows of one T send their FABRIC writes: where two write one word, free which window comes last (R498). -/
def fabricOrder (s : State) (d : Nat) (ns : List Nat) : List Nat × State :=
  let fs := fun (n : Nat) => (winWords s d n).filter (fun w => w.1 == 2)
  if ns.any (fun a => ns.any (fun b => a < b && (fs a).any ((fs b).contains ·))) then
    let (w, s1) := s.draw
    let k := w.toNat % ns.length
    (ns.drop k ++ ns.take k, s1)
  else (ns, s)

/-- Whether the FABRIC records of the windows that T finds CONFIRMED stay on the target die (R479, R499). -/
def fabricOnDie (s : State) (d : Nat) : Bool :=
  (applyingWins s d).all (fun n => (winRecs s d n).all (fun r => r.1 != 2 || r.2.1 + 8 * r.2.2.length ≤ 2 ^ 44))

/-- Send a window's FABRIC writes; with none it reports at once (R491, R492). -/
def sendFabric (s : State) (d n : Nat) : State :=
  let ps := (winRecs s d n).flatMap (fun r => if r.1 == 2 then fabricPackets s d n r.2.1 r.2.2 else [])
  let s1 := sendAll (s.setWin d n { s.win d n with left := ps.length }) d attCtl ps
  if ps.isEmpty then winDone s1 d n else s1

/-- Evaluate the watches of the objects that the windows wrote (R455, R492); `s0` is the state before T. -/
def settleObjs (s0 s : State) (d : Nat) (os : List Nat) : State :=
  os.foldl (fun s o =>
    let x := s0.sobj d o
    if objType x == 0 || objType x == 3 then s else settle s d o x (s.sobj d o) false) s

/-- A window that T finds unconfirmed discards its writes and reports (R489, R491). -/
def discardWin (s : State) (d n : Nat) : State :=
  let w := s.win d n
  closeWin (targetReport (s.bump d CMT_DISCARDED 47 0 1) d n (if w.st == 1 then 4 else w.verdict)) d n

/-- The events of T at a commit unit (R491, R492, R495, R498): the confirmed windows together, the others, and the permits of T. -/
def commitApply (s : State) (d : Nat) : State :=
  let ns := applyingWins s d
  let ts := ((List.range 16).filter (fun n => let w := s.win d n; 1 ≤ w.st && w.st ≤ 3 && w.t ≤ s.now d)).map (fun n => (s.win d n).t % 2 ^ 40)
  let s1 := applyWins s d ns [] s
  let s2 := settleObjs s s1 d (ns.flatMap (fun n => syncTargets (winRecs s d n))).eraseDups
  let fo := fabricOrder s2 d ns
  let s3 := fo.1.foldl (fun s n => sendFabric s d n) fo.2
  let s4 := (discardingWins s d).foldl (fun s n => discardWin s d n) s3
  let s5 := (collectingWins s d).foldl (fun s n => s.setWin d n { s.win d n with st := 5, verdict := (s.win d n).st }) s4
  let past := (List.range 4).filter (fun k => let c := s.reg d (PAT_PERMIT_CTL_0 + 0x40 * k)
    c.getLsbD 40 && ft40Full (s.now d) (bitsOf c 39 0) ≤ s.now d)
  (ts ++ past.map (fun k => s.fld d (PAT_PERMIT_CTL_0 + 0x40 * k) 39 0)).foldl (fun s t => clearPermits s d t) s5

/-- Entry of the slice's partition to MEND frees every window and permit without a report (R491, R593). -/
def commitMend (s : State) (d : Nat) : State :=
  let s1 := (List.range 16).foldl (fun s n => s.setWin d n {}) s
  (List.range 4).foldl (fun s k => s.setFld d (PAT_PERMIT_CTL_0 + 0x40 * k) 40 40 0) s1

/-! ## The recorder (R495, R496) -/

/-- Package and die of target `t` in a recorder's stream (R495). -/
def listTarget (s : State) (d n t : Nat) : Nat × Nat :=
  let w := natOfBytes (readBytes s.mem (winKey s d n 0 + 16 + 4 * t) 4)
  (w % 8192, w / 8192 % 128)

/-- NT of a recorder's stream (R495). -/
def listNt (s : State) (d n : Nat) : Nat := natOfBytes (readBytes s.mem (winKey s d n 0 + 8) 4)

/-- Whether a recorder's stream was whole at T: its window was STAGED or CONFIRMED (R495). (DEDUCED, log 77) -/
def listWhole (w : Win) : Bool := w.verdict != 1 || w.st == 2 || w.st == 3

/-- Whether a report belongs to a recorder's window: its GROUP and, where the stream is held, its target's entry. -/
def reportFits (s : State) (d n : Nat) (h : Hdr) : Bool :=
  let w := s.win d n
  w.st != 0 && w.list && w.group == h.group.toNat &&
    ((w.st != 5 && w.st != 2 && w.st != 3) || !listWhole w || listTarget s d n h.tag.toNat == (h.srcPkg, h.srcDie))

/-- A target's report at the recorder (R489, R495); one with no window of its group comes after the decision and is counted. (DEDUCED, log 75) -/
def reportAtRecorder (s : State) (d : Nat) (h : Hdr) : State :=
  match (List.range 16).find? (fun n => reportFits s d n h) with
  | none => s.bump d CMT_REC_LATE 47 0 1
  | some n =>
    let w := s.win d n
    if w.reports.any (fun r => r.1 == h.tag.toNat) then s
    else s.setWin d n { w with reports := w.reports ++ [(h.tag.toNat, h.srcPkg, h.srcDie, h.inlBits 367 360)] }

/-- TARGET_REPORT (R489): at a recorder's commit unit it is recorded; at the coordinator's CE it changes nothing (R493). -/
def execTargetReport (d att : Nat) (h : Hdr) (s : State) : Out :=
  headerChecked s d att { hdr := h } <|
  if h.inlBits 359 352 == 1 then .fault .wrongCommand
  else if att == attCtl then commitArrive s d 0x23 { hdr := h } (fun s => reportAtRecorder s d h)
  else if 1024 ≤ att && ceExists s d (att - 1024) then
    arrive s d att 0x23 { hdr := h } (fun s => match ceIngress s d (att - 1024) h with
      | some s1 => s1
      | none => meterDrop s d (att - 1024) h)
  else .fault .noSuchUnit

/-- What a recorder decides: OUTCOME, the three counts, and the targets that did not report APPLIED, with RESULT or 0xFF. -/
structure Decision where
  outcome : Nat
  applied : Nat
  discarded : Nat
  missing : Nat
  confirmed : Bool
  others : List (Nat × Nat × Nat)
  label : Nat
  deriving DecidableEq, Repr

/-- The decision of R495. (DEDUCED, log 76) -/
def decide' (s : State) (d n : Nat) : Decision :=
  let w := s.win d n
  let label := if w.got.contains 0 then (readWord s.mem (winKey s d n 0)).toNat else 0
  if !listWhole w then
    { outcome := 1, applied := 0, discarded := w.reports.length, missing := 0, confirmed := false,
      others := w.reports.map (fun r => (r.2.1, r.2.2.1, r.2.2.2)), label := label }
  else
    let nt := listNt s d n
    let res := (List.range nt).map (fun t => (listTarget s d n t, (w.reports.find? (fun r => r.1 == t)).map (fun r => r.2.2.2)))
    let a := res.countP (fun r => r.2 == some 0)
    let f := res.countP (fun r => r.2 == some 5)
    let m := res.countP (fun r => r.2 == none)
    let outcome := if a == nt then 0 else if a == 0 && f == 0 && (m == 0 || !w.confirmed) then 1 else 2
    { outcome := outcome, applied := a, discarded := nt - a - m, missing := m, confirmed := w.confirmed,
      others := (res.filter (fun r => r.2 != some 0)).map (fun r => (r.1.1, r.1.2, r.2.getD 0xFF)), label := label }

/-- The target words of a COMMIT record (R747). -/
def targetWords (x : Decision) : List Nat :=
  (List.range 16).map (fun j => match x.others[j]? with
    | some (p, e, r) => p % 8192 + e % 128 * 2 ^ 13 + r % 256 * 2 ^ 20
    | none => 2 ^ 32 - 1)

/-- The body of a COMMIT record (R747). -/
def commitBody (w : Win) (x : Decision) : List Nat :=
  let q2 := bitsOf w.src 31 19 * 2 ^ 115 + bitsOf w.src 18 12 * 2 ^ 108 + bitsOf w.src 11 2 % 8 * 2 ^ 105 + w.group % 65536 * 2 ^ 89 +
    x.outcome * 2 ^ 81 + x.applied % 2048 * 2 ^ 70 + x.discarded % 2048 * 2 ^ 59 + x.missing % 2048 * 2 ^ 48 + boolNat x.confirmed * 2 ^ 47
  let ws := targetWords x
  [quadOf x.label w.t, q2] ++ (List.range 4).map (fun q => glue 32 ((ws.drop (4 * q)).take 4))

/-- The outcome to the coordinator (R488, R496). -/
def sendOutcome (s : State) (d : Nat) (w : Win) (x : Decision) : State :=
  let dst := (bitsOf w.src 31 19, bitsOf w.src 18 12, bitsOf w.src 11 2 % 8)
  let inl := 1 + x.outcome * 2 ^ 8 + x.applied % 2048 * 2 ^ 16 + x.discarded % 2048 * 2 ^ 27 + x.missing % 2048 * 2 ^ 38 + boolNat x.confirmed * 2 ^ 49
  sendAt s d attCtl
    { hdr := { mkHdr 0x23 1 (ceAddr dst) (ctlSrc s d) with
               group := BitVec.ofNat 16 w.group, tag := 0x400, inl := BitVec.ofNat 128 inl } }

/-- Decide one recorder's window (R495, R496); the record must enter the backlog first (R744). -/
def recorderDecide (s : State) (d n : Nat) : State :=
  let w := s.win d n
  if !ledgerRoom s then s
  else
    let x := decide' s d n
    let s1 := ledgerAdd s 0x84 (s.now40 d) (commitBody w x)
    let s2 := if x.outcome == 2 then s1.raise d CMT_EVENT 5 else s1
    closeWin (sendOutcome s2 d w x) d n

/-- RECORDER_DECISION (R495, R496): the windows in COLLECT whose T + REPORT_WAIT has come. -/
def recorderDecision (s : State) (d : Nat) : State :=
  ((List.range 16).filter (fun n => let w := s.win d n
    w.st == 5 && w.t + 1000 * s.fld d CMT_CFG 47 32 ≤ s.now d)).foldl (fun s n => recorderDecide s d n) s

/-- RECORDER_DECISION (R495). -/
def execRecorderDecision (d : Nat) (s : State) : Out :=
  onUnit (dieExists s d) (if attHalted s d attCtl then s else recorderDecision s d)

end Sys2Proof.Machine
end

