-- ==== Sys2Proof/Machine/Coord.lean ====
section
/-! DEFINITION. Commit coordinators (R477, R481 to R487, R493, R497): requests, staging the streams, confirmation, the outcome and the
completion records. -/

namespace Sys2Proof.Machine

open Sys2Proof

/-- Coordinator `k` of a die (R475). -/
def State.coord (s : State) (d k : Nat) : Coord := s.coords.get {} (d * 8 + k)

/-- Change a coordinator. -/
def State.setCoord (s : State) (d k : Nat) (c : Coord) : State := { s with coords := s.coords.set {} (d * 8 + k) c }

/-- A coordinator's slot (R477). -/
def coSlot (s : State) (d k n : Nat) : Option CoSlot := (s.coord d k).slots.get none n

/-- Change a slot. -/
def setCoSlot (s : State) (d k n : Nat) (x : Option CoSlot) : State :=
  let c := s.coord d k
  s.setCoord d k { c with slots := c.slots.set none n x }

/-- Open commit groups (R508). -/
def openSlots (c : Coord) : Nat := (c.slots.rows.filter (fun r => r.2.isSome)).length

/-- Response tag of a slot's reads. -/
def tagSlot (n : Nat) : Nat := 0x4000 + n
/-- Response tag of a request fetch. -/
def tagReq : Nat := 0x4200
/-- Response tag of a completion record. -/
def tagCoRec : Nat := 0x4201
/-- Response tag of the tail watch. -/
def tagCoTail : Nat := 0x4202

/-! ## Requests (R481) -/

/-- USER of a request. -/
def qUser (r : BitVec 512) : Nat := bitsOf r 287 256
/-- Targets of a request. -/
def qNt (r : BitVec 512) : Nat := bitsOf r 177 168 + 1
/-- Fabric address of the target table. -/
def qList (r : BitVec 512) : BitVec 64 := BitVec.ofNat 64 (bitsOf r 63 0)
/-- The recorder: package and die. -/
def qRec (r : BitVec 512) : Nat × Nat := (bitsOf r 196 184, bitsOf r 236 230)

/-- Arm the coordinator: its queue starts afresh and its tail is watched (R460, R506, R508). -/
def coordEnable (s : State) (d k : Nat) : State :=
  let c := s.coord d k
  let s1 := s.setCoord d k { uses := c.uses, slots := c.slots }
  ceWait s1 d k (s.fld d (ccw k CMT_Q_CFG) 29 16) (s.pkgOf d) (syncDieOf s1 d k) 0 tagCoTail 1

/-- Requests beyond HEAD. -/
def coGap (c : Coord) : Nat :=
  let g := (c.tail + 2 ^ 32 - c.head % 2 ^ 32) % 2 ^ 32
  if g < 2 ^ 31 then g else 0

/-- Read up to 8 requests from HEAD, to the end of the ring at most (R388, R493). (DEDUCED, log 74) -/
def requestFetch (s : State) (d k : Nat) : State :=
  let c := s.coord d k
  let due := match c.retryAt with
    | some t => t ≤ s.now d
    | none => true
  if !s.flag d (ccw k CMT_Q_CFG) 0 || attHalted s d (attCe k) || c.fetch.isSome || coGap c == 0 || !due then s
  else
    let z := 2 ^ s.fld d (ccw k CMT_Q_CFG) 11 8
    let m := min (min 8 (coGap c)) (z - c.head % z)
    let a := s.reg d (ccw k CMT_Q_BASE) + BitVec.ofNat 64 (64 * (c.head % z))
    sendAt (s.setCoord d k { c with fetch := some m, retryAt := none }) d (attCe k)
      { hdr := { mkHdr 0x04 2 a (ceSrc s d k) with tag := BitVec.ofNat 16 tagReq, inl := BitVec.ofNat 128 m } }

/-- COMMIT_REQUEST_FETCH (R493). -/
def execCommitRequestFetch (d k : Nat) (s : State) : Out := onUnit (ceExists s d k) (requestFetch s d k)

/-! ## Completion records (R483) -/

/-- A completion record without PHASE and END_FT40 (R483). -/
def coRecWord (req : BitVec 512) (group outcome na nd nm : Nat) : BitVec 256 :=
  BitVec.ofNat 256 (qUser req * 2 ^ 192 + nm % 2048 * 2 ^ 170 + nd % 2048 * 2 ^ 159 + na % 2048 * 2 ^ 148 + bitsOf req 167 128 * 2 ^ 64 +
    outcome * 2 ^ 16 + group % 65536)

/-- The counter field of CMT_CE_OUTCOMES that an OUTCOME increments (R509). -/
def outcomeField (outcome : Nat) : Nat := if outcome == 0 then 0 else if outcome == 2 then 48 else if outcome == 4 then 32 else 16

/-- Write the next record in request order (R395, R483). -/
def pumpCoRecs (s : State) (d k : Nat) : State :=
  let c := s.coord d k
  match c.recBusy, c.recs.find? (fun r => r.order == c.nextRec) with
  | none, some r =>
    let lg := s.fld d (ccw k CMT_Q_CFG) 7 4
    let phase := if c.written / 2 ^ lg % 2 == 0 then 1 else 0
    let w := setBits (setBits r.word 143 104 (s.now40 d)) 255 255 phase
    let base := s.reg d (ccw k CMT_C_BASE) + BitVec.ofNat 64 (32 * (c.written % 2 ^ lg))
    let f := outcomeField (bitsOf r.word 23 16)
    let s1 := s.bump d (ccw k CMT_CE_OUTCOMES) (f + 15) f 1
    sendAll (s1.setCoord d k { c with recs := c.recs.filter (fun q => q.order != r.order), nextRec := c.nextRec + 1, recBusy := some r })
      d (attCe k) (recordPackets base (ceSrc s d k) tagCoRec w)
  | _, _ => s

/-- Put a record in line. -/
def addCoRec (s : State) (d k : Nat) (r : CoRec) : State :=
  let c := s.coord d k
  pumpCoRecs (s.setCoord d k { c with recs := c.recs ++ [r] }) d k

/-- The ACK of a record's PHASE word (R397, R483). -/
def coRecAcked (s : State) (d k status : Nat) : State :=
  let c := s.coord d k
  match c.recBusy with
  | none => s
  | some r =>
    let s1 := s.setCoord d k { c with recBusy := none, written := if status == 0 then c.written + 1 else c.written }
    let s2 := match r.done with
      | some o => if status == 0 then ceIncrement s1 d k o else s1
      | none => s1
    pumpCoRecs s2 d k

/-- DONE_OBJ of a request, where it is signalled. -/
def qDone (r : BitVec 512) : Option Nat := if r.getLsbD 215 then some (bitsOf r 229 216) else none

/-- Originate ABORT for every active operation of the step group (R497). -/
def stepAbort (s : State) (d k group reason : Nat) : Out :=
  match entryOf s d k group with
  | none => .fault (.undefinedMisuse 499)
  | some e => .next (((s.ent d k e).ops.map (·.tag)).foldl (fun s t => originate s ⟨d, k, e, t⟩ reason) s)

/-! ## Staging (R482, R485, R493, R495) -/

/-- Entry `t` of the target table (R482). -/
def tgtEntry (x : CoSlot) (t : Nat) : BitVec 128 := x.table.getD (t + bitsOf (qList x.req) 5 4) 0
/-- Stream length of a target in units. -/
def tgtUnits (e : BitVec 128) : Nat := bitsOf e 96 84
/-- Package and die of a target. -/
def tgtPlace (e : BitVec 128) : Nat × Nat := (bitsOf e 76 64, bitsOf e 83 77)

/-- Where the stream of TAG `t` goes: the recorder for TAG 0x400 (R477). -/
def stagePlace (x : CoSlot) (t : Nat) : Nat × Nat := if t == 0x400 then qRec x.req else tgtPlace (tgtEntry x t)

/-- One COMMIT_STAGE packet (R485). -/
def stagePacket (s : State) (d k : Nat) (x : CoSlot) (t off total : Nat) (us : List DataUnit) (check : Option Word) : Packet :=
  let p := stagePlace x t
  let r := qRec x.req
  let inl := x.t % 2 ^ 40 + r.1 * 2 ^ 40 + r.2 * 2 ^ 53 + boolNat (t == 0x400) * 2 ^ 60 + (check.map (·.toNat)).getD 0 * 2 ^ 64
  { hdr := { mkHdr 0x20 2 (fabricAddr p.1 p.2 0 0 0) (ceSrc s d k) with
             len := BitVec.ofNat 6 us.length, flags := if check.isSome then 0x18 else 0, group := BitVec.ofNat 16 x.group,
             tag := BitVec.ofNat 16 t, chunk := BitVec.ofNat 24 (off % 4096 + (total - 1) % 4096 * 4096), inl := BitVec.ofNat 128 inl },
    data := us }

/-- The recorder's stream (R495). -/
def recorderUnits (x : CoSlot) : List DataUnit :=
  let nt := qNt x.req
  let bytes := bytesOfNat 8 (bitsOf x.req 127 64) ++ bytesOfNat 4 nt ++ bytesOfNat 4 0 ++
    (List.range nt).flatMap (fun t => let p := tgtPlace (tgtEntry x t); bytesOfNat 4 (p.1 + p.2 * 2 ^ 13))
  let n := (bytes.length + 63) / 64
  (List.range n).map (fun i => BitVec.ofNat 512 (natOfBytes ((bytes.drop (64 * i)).take 64)))

/-- Send a stream that the coordinator holds whole, in packets of up to 32 units (R485). -/
def sendStream (s : State) (d k : Nat) (x : CoSlot) (t : Nat) (us : List DataUnit) : State :=
  let n := (us.length + 31) / 32
  sendAll s d (attCe k) ((List.range n).map (fun i =>
    stagePacket s d k x t (32 * i) us.length ((us.drop (32 * i)).take 32) (if i + 1 == n then some (crc64 us) else none)))

/-- Units of a slot's current read, and their address. -/
def slotRead (x : CoSlot) : Nat × BitVec 64 :=
  if x.rd == 1 then
    let a := qList x.req
    ((bitsOf a 5 0 + 16 * qNt x.req + 63) / 64, a - BitVec.ofNat 64 (bitsOf a 5 0))
  else
    let e := tgtEntry x (x.todo.headD 0)
    (tgtUnits e, BitVec.ofNat 64 (bitsOf e 63 0))

/-- Send the READ that a slot needs next. -/
def issueSlotRead (s : State) (d k n : Nat) (x : CoSlot) : State :=
  let r := slotRead x
  let m := min 32 (r.1 - x.off)
  sendAt s d (attCe k)
    { hdr := { mkHdr 0x04 2 (r.2 + BitVec.ofNat 64 (64 * x.off)) (ceSrc s d k) with
               tag := BitVec.ofNat 16 (tagSlot n), inl := BitVec.ofNat 128 m } }

/-- Go on with the streams still to send (R493): the recorder's from what the coordinator holds, each target's as it is read. -/
def slotNext : Nat → State → Nat → Nat → Nat → State
  | 0, s, _, _, _ => s
  | fuel + 1, s, d, k, n =>
    match coSlot s d k n with
    | none => s
    | some x =>
      if x.rd != 0 || x.st != 1 then s
      else match x.todo with
        | [] => s
        | t :: ts =>
          if t == 0x400 then slotNext fuel (sendStream (setCoSlot s d k n (some { x with todo := ts })) d k x t (recorderUnits x)) d k n
          else
            let y := { x with rd := 2, off := 0, again := false, crc := crc64Init }
            issueSlotRead (setCoSlot s d k n (some y)) d k n y

/-- READ_DATA for a slot: entries of the target table, or units of a stream, which go on at once as a COMMIT_STAGE packet. -/
def slotData (s : State) (d k n : Nat) (us : List DataUnit) : State :=
  match coSlot s d k n with
  | none => s
  | some x =>
    if x.st != 1 || x.rd == 0 then s
    else
      let total := (slotRead x).1
      let us := us.take (total - x.off)
      let off := x.off + us.length
      if x.rd == 1 then
        let y := { x with table := x.table ++ us.flatMap (fun u => (chop 128 4 u.toNat).map (BitVec.ofNat 128)), off := off, again := false }
        if off < total then issueSlotRead (setCoSlot s d k n (some y)) d k n y
        else slotNext 1100 (setCoSlot s d k n (some { y with rd := 0, todo := 0x400 :: List.range (qNt x.req) })) d k n
      else
        let t := x.todo.headD 0
        let crc := us.foldl crc64Unit x.crc
        let s1 := sendAt s d (attCe k) (stagePacket s d k x t x.off total us (if off < total then none else some (~~~ crc)))
        let y := { x with off := off, again := false, crc := crc }
        if off < total then issueSlotRead (setCoSlot s1 d k n (some y)) d k n y
        else slotNext 1100 (setCoSlot s1 d k n (some { y with rd := 0, todo := x.todo.tail })) d k n

/-- A slot's unsent packets of one command are taken back (R493). -/
def dropUnsent (s : State) (d k v cmd group : Nat) : State :=
  let q := ik d (attCe k) v
  { s with inj := s.inj.set [] q ((s.inj.get [] q).filter (fun x => !(x.pk.hdr.cmd.toNat == cmd && x.pk.hdr.group.toNat == group))) }

/-- A slot is abandoned: nothing more is sent (R493). -/
def abandon (s : State) (d k n : Nat) (x : CoSlot) : State :=
  setCoSlot (dropUnsent s d k 2 0x20 x.group) d k n (some { x with st := 4, rd := 0, todo := [] })

/-- An ACK other than OK to a slot's read: it is repeated once, and then the slot is abandoned (R493). (DEDUCED, log 74) -/
def slotReadFailed (s : State) (d k n : Nat) : State :=
  match coSlot s d k n with
  | none => s
  | some x =>
    if x.st != 1 || x.rd == 0 then s
    else if x.again then abandon s d k n x
    else
      let y := { x with again := true }
      issueSlotRead (setCoSlot s d k n (some y)) d k n y

/-- Whether a request is one that the head tailor has posted to apply a patch (R64, R588): USER and LABEL name a posted patch. -/
def fromTailor (s : State) (d k : Nat) (req : BitVec 512) : Bool :=
  s.patches.any (fun p => p.own && p.st == 4 && p.coord == (d, k) && p.num % 2 ^ 32 == qUser req && p.id.toNat == bitsOf req 127 64)

/-- Start the first waiting request (R493): TOO_LATE, or a slot is claimed and its target table is read. None: no slot is free. A request
of software where PART_STATE is not SERVICE is misuse (R64). -/
def startRequest (s : State) (d k : Nat) (req : BitVec 512) (rest : List (BitVec 512)) : Option Out :=
  let c := s.coord d k
  let t := ft40Full (s.now d) (bitsOf req 167 128)
  let c1 := { c with queue := rest, orders := c.orders + 1 }
  if t < s.now d + 1000 * s.fld d (ccw k CMT_CE_CFG) 63 48 then
    some (.next (addCoRec (s.setCoord d k c1) d k { order := c.orders, word := coRecWord req 0 3 0 0 0, done := qDone req }))
  else match (List.range 256).find? (fun n => (c.slots.get none n).isNone) with
    | none => none
    | some n =>
      if partState s d != .service && !fromTailor s d k req then some (.fault (.undefinedMisuse 64))
      else
        let use := c.uses.get 0 n + 1
        let x : CoSlot := { group := n + 256 * (use % 256), order := c.orders, req := req, t := t, rd := 1 }
        some (.next (issueSlotRead
          (s.setCoord d k { c1 with slots := c.slots.set none n (some x), uses := c.uses.set 0 n use }) d k n x))

/-- Start the waiting requests in order while slots are free (R493). -/
def runRequests : Nat → State → Nat → Nat → Out
  | 0, s, _, _ => .next s
  | fuel + 1, s, d, k =>
    match (s.coord d k).queue with
    | [] => .next s
    | req :: rest =>
      match startRequest s d k req rest with
      | none => .next s
      | some (.next s1) => runRequests fuel s1 d k
      | some r => r

/-- READ_DATA of a request fetch: HEAD advances by the number read (R388); past the ring's size the requests are unpredictable (R499). -/
def requestData (s : State) (d k : Nat) (us : List DataUnit) : Out :=
  let c := s.coord d k
  match c.fetch with
  | none => .next s
  | some m =>
    let us := us.take m
    let r := if 2 ^ s.fld d (ccw k CMT_Q_CFG) 11 8 < coGap c then drawUnits s us.length else (us, s)
    let q := c.queue ++ r.1
    runRequests q.length (r.2.setCoord d k { c with head := c.head + us.length, fetch := none, queue := q }) d k

/-- Whether a target table breaks R482: two entries name one slice, or a stream has not 1 to 4,096 units. -/
def tableBad (x : CoSlot) : Bool :=
  let es := (List.range (qNt x.req)).map (tgtEntry x)
  (es.map tgtPlace).eraseDups.length != es.length || es.any (fun e => tgtUnits e == 0 || 4096 < tgtUnits e)

/-- READ_DATA for a coordinator: requests, or a slot's read; a target table that breaks R482 is misuse. (DESIGN CHOICE, log 184) -/
def coordData (s : State) (d k tag : Nat) (us : List DataUnit) : Out :=
  if tag == tagReq then requestData s d k us
  else
    let n := tag - tagSlot 0
    let s1 := slotData s d k n us
    if (coSlot s d k n).any (fun x => x.rd == 1) && (coSlot s1 d k n).any (fun y => y.rd != 1 && y.st == 1 && tableBad y) then
      .fault (.undefinedMisuse 482)
    else .next s1

/-- End a slot with an outcome (R493, R497); the slot is free for a waiting request. (DEDUCED, log 75) -/
def slotDone (s : State) (d k n : Nat) (x : CoSlot) (outcome na nd nm : Nat) : Out :=
  let s1 := addCoRec (setCoSlot s d k n none) d k { order := x.order, word := coRecWord x.req x.group outcome na nd nm, done := qDone x.req }
  let r := if x.req.getLsbD 214 && (outcome == 2 || outcome == 4) then
      stepAbort s1 d k (bitsOf x.req 213 198) (if outcome == 2 then 4 else 3)
    else .next s1
  match r with
  | .next s2 => runRequests (s2.coord d k).queue.length s2 d k
  | e => e

/-- An ACK for a coordinator (R387, R460, R483, R493). -/
def coordAck (s : State) (d k : Nat) (h : Hdr) : State :=
  let t := h.tag.toNat
  let status := h.inlBits 359 352
  if t == tagReq then
    let c := s.coord d k
    (if c.fetch.isSome then s.setCoord d k { c with fetch := none, retryAt := some (s.now d + 10000) } else s)
  else if t == tagCoRec then coRecAcked s d k status
  else if t == tagCoTail then
    (if h.inlBits 367 360 == 4 then s.setCoord d k { s.coord d k with tail := h.inlBits 431 368 % 2 ^ 32 } else s)
  else slotReadFailed s d k (t - tagSlot 0)

/-! ## Confirmation and outcome (R487, R493, R497) -/

/-- D of a slot (R493). (DEDUCED, log 78) -/
def slotD (s : State) (d k : Nat) (x : CoSlot) : Nat := x.t - guardNs s d - 100 * s.fld d (ccw k CMT_CE_CFG) 47 32

/-- The CONFIRM packets, the recorder's first, then the targets' in table order (R487, R493). (DEDUCED, log 78) -/
def confirmPackets (s : State) (d k : Nat) (x : CoSlot) : List Packet :=
  (0x400 :: List.range (qNt x.req)).map (fun t =>
    let p := stagePlace x t
    { hdr := { mkHdr 0x22 0 (fabricAddr p.1 p.2 0 0 0) (ceSrc s d k) with
               group := BitVec.ofNat 16 x.group, tag := BitVec.ofNat 16 t, inl := BitVec.ofNat 128 (x.t % 2 ^ 40) } })

/-- COMMIT_ACK at a coordinator (R486, R493, R498). -/
def stageAnswer (s : State) (d k : Nat) (h : Hdr) : State :=
  let n := h.group.toNat % 256
  match coSlot s d k n with
  | none => s
  | some x =>
    if x.group != h.group.toNat || x.st != 1 then s
    else
      let t := h.tag.toNat
      let result := h.inlBits 359 352
      if result == 0 then
        let y := if x.staged.contains t then x else { x with staged := x.staged ++ [t] }
        if y.staged.length < qNt x.req + 1 then setCoSlot s d k n (some y)
        else if slotD s d k x ≤ s.now d then abandon s d k n y
        else sendAll (setCoSlot s d k n (some { y with st := 2 })) d (attCe k) (confirmPackets s d k x)
      else if result == 2 && !x.checks.contains t then
        slotNext 1100 (setCoSlot s d k n (some { x with checks := x.checks ++ [t], todo := x.todo ++ [t] })) d k n
      else abandon s d k n x

/-- A packet for a coordinator passes the meter of its CE (R294). -/
def coordArrive (s : State) (d k cmd : Nat) (h : Hdr) (act : State → Out) : Out :=
  if !ceExists s d k then .fault .noSuchUnit
  else arriveAt s d (attCe k) cmd { hdr := h } (fun s => match ceIngress s d k h with
    | some s1 => act s1
    | none => .next (meterDrop s d k h))

/-- COMMIT_ACK (R486). -/
def execCommitAck (d k : Nat) (h : Hdr) (s : State) : Out := coordArrive s d k 0x21 h (fun s => .next (stageAnswer s d k h))

/-- The recorder's outcome at a coordinator (R493, R497). -/
def outcomeArrive (s : State) (d k : Nat) (h : Hdr) : Out :=
  let n := h.group.toNat % 256
  match coSlot s d k n with
  | none => .next s
  | some x =>
    if x.group != h.group.toNat || x.st == 1 then .next s
    else slotDone s d k n x (h.inlBits 367 360) (h.inlBits 378 368) (h.inlBits 389 379) (h.inlBits 400 390)

/-- COMMIT_OUTCOME (R497). -/
def execCommitOutcome (d k : Nat) (h : Hdr) (s : State) : Out :=
  coordArrive s d k 0x23 h (fun s => if h.inlBits 359 352 == 0 then .fault .wrongCommand else outcomeArrive s d k h)

/-- CONFIRM_DEADLINE (R493): at D a slot still STAGING is abandoned, and no further CONFIRM is sent. -/
def execConfirmDeadline (d k n : Nat) (s : State) : Out :=
  onUnit (ceExists s d k)
    (match coSlot s d k n with
     | none => s
     | some x =>
       if s.now d < slotD s d k x then s
       else if x.st == 1 then abandon s d k n x
       else if x.st == 2 then setCoSlot (dropUnsent s d k 0 0x22 x.group) d k n (some { x with st := 3 })
       else s)

/-- OUTCOME_WAIT_EXPIRY (R493): without an outcome by T + REPORT_WAIT + OUTCOME_WAIT the request ends NO_RECORD. -/
def execOutcomeWaitExpiry (d k n : Nat) (s : State) : Out :=
  if !ceExists s d k then .fault .noSuchUnit
  else match coSlot s d k n with
    | none => .next s
    | some x =>
      if x.t + 1000 * s.fld d CMT_CFG 47 32 + 1000 * s.fld d (ccw k CMT_CE_CFG) 31 16 ≤ s.now d then
        slotDone s d k n x 4 0 0 0
      else .next s

/-- The coordinators of a die whose partition enters MEND lose their slots (R493). -/
def coordMend (s : State) (d : Nat) : State := { s with coords := s.coords.drop (fun q => q / 8 == d) }

end Sys2Proof.Machine
end

