-- ==== Sys2Proof/Machine/Image.lean ====
section
/-! DEFINITION. Pattern and patch images (R565 to R580, R606): the container, load records, the floor section, and the load port. -/

namespace Sys2Proof.Machine

open Sys2Proof

/-! ## The image (R565 to R569) -/

/-- Key of byte `off` of the image in the load port. -/
def loadKey (s : State) (off : Nat) : Nat := bootKey s.headDie (2 ^ 22 + off)

/-- A little-endian number of `n` bytes of the image. -/
def img (s : State) (off n : Nat) : Nat := natOfBytes (readBytes s.mem (loadKey s off) n)

/-- Bytes of the image. -/
def imgBytes (s : State) (off n : Nat) : List Byte := readBytes s.mem (loadKey s off) n

/-- SIG_OFF. -/
def imgSig (s : State) : Nat := img s 28 4
/-- IMAGE_LEN. -/
def imgLen (s : State) : Nat := img s 24 4
/-- N_SECTIONS. -/
def imgSections (s : State) : Nat := img s 32 2
/-- PATTERN_ID, or a patch's own serial number. -/
def imgId (s : State) : Nat := img s 8 8
/-- PKG of the header. -/
def imgPkg (s : State) : Nat := img s 34 2 % 8192
/-- POD_ID. -/
def imgPod (s : State) : Nat := img s 40 8

/-- An entry of the section directory (R566). -/
structure DirEntry where
  type : Nat
  purpose : Nat
  die : Nat
  all : Bool
  kinds : Nat
  spkg : Nat
  off : Nat
  len : Nat
  deriving DecidableEq, Repr

/-- Directory entry `i`. -/
def dirEntry (s : State) (i : Nat) : DirEntry :=
  let a := 128 + 16 * i
  { type := img s a 2, purpose := img s (a + 2) 1, die := img s (a + 4) 1 % 128, all := natBit (img s (a + 4) 1) 7,
    kinds := img s (a + 5) 1 % 16, spkg := img s (a + 6) 2 % 8192, off := img s (a + 8) 4, len := img s (a + 12) 4 }

/-- What is wrong with the header, as RESULT encodes it, 0 where nothing is (R565, R569, R582). -/
def headerResult (s : State) (mode : Nat) : Nat :=
  let magic := if mode == 1 then 0x48505853 else 0x54505853
  if img s 0 4 != magic || img s 4 2 != 0x0100 || img s 6 2 != 128 then 0x02
  else if imgSig s % 64 != 0 || imgLen s != imgSig s + 192 || imgSections s == 0 || 4096 < imgSections s ||
      imgSig s < 128 + 16 * imgSections s then 0x03
  else 0

/-- What is wrong with directory entry `i` in a mode (R566 to R568, R582). -/
def entryResult (s : State) (mode i : Nat) : Nat :=
  let e := dirEntry s i
  let prev := if i == 0 then 128 + 16 * imgSections s else (dirEntry s (i - 1)).off + (dirEntry s (i - 1)).len
  if e.off % 64 != 0 || e.len % 8 != 0 || e.off < prev || imgSig s < e.off + e.len then 0x03
  else if mode != 1 && i == 0 && e.type != 1 then 0x08
  else if mode != 1 && i != 0 && e.type == 1 then 0x08
  else if mode != 1 && !(e.type == 1 || e.type == 2 || e.type == 4) then 0x0A
  else if mode == 1 && !(e.type == 3 || e.type == 4) then 0x0A
  else 0

/-- The first failing directory entry. -/
def dirResult (s : State) (mode : Nat) : Option (Nat × Nat) :=
  (List.range (imgSections s)).findSome? (fun i => let r := entryResult s mode i; if r == 0 then none else some (i, r))

/-! ## States of the load port (R579, R582, R602) -/

/-- STATE of the load or submission (R602). -/
def loadState (s : State) : Nat := s.fld s.headDie PAT_LOAD_STATUS 3 0

/-- Enter a STATE; DONE and FAILED raise the LOAD interrupt (R791). -/
def setLoadState (s : State) (st : Nat) : State :=
  let s1 := s.setFld s.headDie PAT_LOAD_STATUS 3 0 st
  if st == 6 || st == 7 then irq s1 1 else s1

/-- Registers with their PL fields at the values of entry to COLD (R573, R579). -/
def clearPl (s : State) : Tbl Word :=
  s.csr.rows.foldl (fun t r =>
    let d := r.1 / 2 ^ 24
    let off := r.1 % 2 ^ 24
    let rst := csrReset s d off
    let pl := ((kindOf s d).bind (fun k => regDesc k true off)).map (·.pl)
    let v := BitVec.ofNat 64 (Nat.lor (Nat.land r.2.toNat (2 ^ 64 - 1 - pl.getD 0)) (Nat.land rst.toNat (pl.getD 0)))
    t.set rst r.1 v) {}

/-- The PL fields and tables of every slice at their state on entry to COLD (R573, R579). -/
def coldTables (s : State) : State :=
  { s with csr := clearPl s, slotTab := {}, treeTab := {}, joinTab := {}, routeTab := {}, routeStore := {}, arrivalTab := {},
           gateTab := {}, syncObj := {}, syncInit := {}, syncDone := {}, syncUsed := {}, syncLeft := {}, floor := s.physical, memOwned := {},
           plWant := {}, patRw := {} }

/-- End a load or submission in FAILED (R579, R588): a cold load returns every slice's PL state. (DEDUCED, log 92) -/
def loadFail (s : State) (result sec : Nat) : State :=
  let s0 := if s.loader.mode == 0 then coldTables s else s
  let s1 := s0.setFld s.headDie PAT_LOAD_STATUS 23 16 result
  let s2 := s1.setFld s.headDie PAT_LOAD_STATUS 63 48 sec
  setLoadState (s2.setFld s.headDie PAT_LOAD_STATUS 47 40 (dirEntry s sec).purpose) 7

/-! ## Load records (R571 to R574) -/

/-- Count words that the loader ignores (R574). -/
def ignoreWords (s : State) (d n : Nat) : State := s.bump d PAT_IGNORED 31 0 n

/-- Whether a register has RW fields with the reset value "pattern": the OBS block and the power cap (R319, R753 to R759). -/
def patternRw (off : Nat) : Bool := (0x180000 ≤ off && off < 0x190000) || off == NI_GOV_CAP

/-- One word of a CSR record; where the register has RW fields that a mend returns to their pattern values, it is kept (R751). -/
def loadCsr (s : State) (d off : Nat) (v : Word) : State :=
  match synOffset off, descOf s d off with
  | some _, _ => if isKind s d .compute then csrStore s d off v true else ignoreWords s d 1
  | none, some r =>
    if r.rw == 0 && r.pl == 0 then ignoreWords s d 1
    else
      let s1 := if patternRw off then { s with patRw := s.patRw.set 0 (d * 2 ^ 24 + off) v } else s
      csrStore s1 d off v true
  | none, none => ignoreWords s d 1

/-- A CSR record (R571). -/
def loadCsrRec (s : State) (d off stride reps : Nat) (ws : List Word) : State :=
  (List.range reps).foldl (fun s i =>
    (List.range ws.length).foldl (fun s j => loadCsr s d ((off + 8 * stride * i + 8 * j) % 2 ^ 24) (ws.getD j 0)) s) s

/-- A sync object of the pattern (R469, R572): non-zero watch fields leave the watch state unpredictable (R594). -/
def loadObject (s : State) (d o : Nat) (hi lo : Word) : State :=
  let x : BitVec 128 := hi ++ lo
  let watch := bitsOf x 113 64 != 0 || x.getLsbD 122
  let r := if watch then s.draw else (0, s)
  let y := if watch then setBits (setBits x 113 64 (bitsOf r.1 49 0)) 122 122 (bitsOf r.1 50 50) else x
  { r.2.setSobj d o y with syncInit := s.syncInit.set 0 (ok d o) (setBits (setBits x 113 64 0) 122 122 0) }

/-- Words of one entry of a table of R572; 0 for a reserved TABLE. -/
def tableWidth (t : Nat) : Nat :=
  match t with
  | 1 | 4 | 8 => 2
  | 2 | 3 | 5 | 6 | 7 => 1
  | _ => 0

/-- The instances of a table in a slice (R572). -/
def tableSubs (s : State) (d t : Nat) : List Nat :=
  match kindOf s d with
  | none => []
  | some k =>
    match t with
    | 1 => (List.range 624).filter (niExists k)
    | 2 | 3 => [0]
    | 4 => if k == .service then [] else List.range k.routers
    | 5 => (List.range (8 * k.routers)).filter (fun x => x % 8 < 6)
    | 6 => if k == .compute then List.range 624 else []
    | 7 => (List.range 18).filter (fun x => gateExists k (x / 2))
    | 8 => if k == .compute then [0] else []
    | _ => []

/-- Entries of a table (R572). -/
def tableSize (t : Nat) : Nat :=
  match t with
  | 1 => 128
  | 2 => 1024
  | 3 => 8192
  | 4 => 1024
  | 5 => 512
  | 6 => 32
  | 7 => 256
  | 8 => 16384
  | _ => 0

/-- Write one entry of a table of R572. -/
def writeEntry (s : State) (d t sub ix : Nat) (w : List Word) : State :=
  let a := w.getD 0 0
  let b := w.getD 1 0
  let both : BitVec 128 := b ++ a
  match t with
  | 1 => { s with routeTab := s.routeTab.set 0 (rk d sub * 128 + ix) both }
  | 2 => { s with arrivalTab := s.arrivalTab.set 0 (d * 1024 + ix) a }
  | 3 => { s with routeStore := s.routeStore.set 0 (d * 8192 + ix) (BitVec.ofNat 32 a.toNat) }
  | 4 => { s with treeTab := s.treeTab.set 0 (rk d sub * 1024 + ix) both }
  | 5 => { s with slotTab := s.slotTab.set 0 ((rk d (sub / 8) * 8 + sub % 8) * 512 + ix) a }
  | 6 => { s with joinTab := s.joinTab.set 0 (rk d sub * 32 + ix) a }
  | 7 => { s with gateTab := s.gateTab.set 0 ((gk d (sub / 2) * 2 + sub % 2) * 256 + ix) a }
  | 8 => loadObject s d ix a b
  | _ => s

/-- Write `n` consecutive entries of one instance, from the data words or, for FILL, from one entry (R571). -/
def loadEntries (s : State) (d t sub ix n : Nat) (ws : List Word) (fill : Bool) : State :=
  let wd := tableWidth t
  (List.range n).foldl (fun s i =>
    let w := if fill then ws.take wd else (ws.drop (wd * i)).take wd
    if ix + i < tableSize t then writeEntry s d t sub (ix + i) w else ignoreWords s d (if fill && i != 0 then 0 else wd)) s

/-- A TABLE or FILL record (R571, R574). -/
def loadTable (s : State) (d t sub ix n : Nat) (ws : List Word) (fill : Bool) : State :=
  let subs := tableSubs s d t
  if sub == 0xFFFF then subs.foldl (fun s x => loadEntries s d t x ix n ws fill) s
  else if subs.contains sub then loadEntries s d t sub ix n ws fill else ignoreWords s d ws.length

/-- Data words of a record; none for a reserved OP or TABLE (R571, R574). -/
def recWords (h : Word) : Option Nat :=
  let n := bitsOf h 59 48 + 1
  match bitsOf h 63 60 with
  | 1 => some n
  | 2 => if tableWidth (bitsOf h 47 40) == 0 then none else some (n * tableWidth (bitsOf h 47 40))
  | 3 => if tableWidth (bitsOf h 47 40) == 0 then none else some (tableWidth (bitsOf h 47 40))
  | _ => none

/-- Write one record in one slice (R571). (DEDUCED, log 91) -/
def loadRecord (s : State) (h : Word) (ws : List Word) (d : Nat) : State :=
  if bitsOf h 63 60 == 1 then loadCsrRec s d (bitsOf h 23 0) (bitsOf h 35 24) (bitsOf h 47 36 + 1) ws
  else loadTable s d (bitsOf h 47 40) (bitsOf h 15 0) (bitsOf h 39 16) (bitsOf h 59 48 + 1) ws (bitsOf h 63 60 == 3)

/-- The present slices that a section's SCOPE names (R566). -/
def scopeDies (s : State) (e : DirEntry) : List Nat :=
  if e.all then (allDies s).filter (fun d => match kindOf s d with
    | some k => natBit e.kinds k.code
    | none => false)
  else if dieExists s e.die then [e.die] else []

/-! ## The floor section (R576, R577) -/

/-- FLOOR entry of die `d`. -/
def floorEntry (s : State) (off d : Nat) : BitVec 64 := BitVec.ofNat 64 (img s (off + 8 + 8 * d) 8)

/-- A slice kind by its code (R50). -/
def kindOfCode (c : Nat) : Option Kind :=
  match c with
  | 0 => some .compute
  | 1 => some .port
  | 2 => some .memif
  | 3 => some .service
  | _ => none

/-- The kind of the slice that stands where a FLOOR entry places it, none where none stands there. -/
def builtKind (s : State) (x : BitVec 64) : Option Kind :=
  let side := bitsOf x 54 52
  if side == 0 then (if bitsOf x 48 46 < s.physical.w && bitsOf x 45 43 < s.physical.h then some .compute else none)
  else ((s.physical.others.find? (fun i => i.side == side - 1 && i.idx == bitsOf x 51 49)).map (·.kind))

/-- The floor that the section names (R576). -/
def newFloor (s : State) (off : Nat) : Floor :=
  let w := img s off 1 % 16 + 1
  let h := img s off 1 / 16 + 1
  let ent := floorEntry s off
  { w := w, h := h,
    absent := (List.range (w * h)).filter (fun d => !(ent d).getLsbD 63),
    others := (List.range 100).filterMap (fun d =>
      if d < w * h || !(ent d).getLsbD 63 then none
      else (kindOfCode (bitsOf (ent d) 62 60)).map (fun k =>
        { num := d, kind := k, side := bitsOf (ent d) 54 52 - 1, idx := bitsOf (ent d) 51 49,
          sport := if k == .port then bitsOf (ent d) 57 55 else 8 })) }

/-- What is wrong with the floor section (R51, R576, R582): it disagrees with the header, names another kind than a slice has, or a
present slice that does not answer. (DEDUCED, log 93) -/
def floorResult (s : State) (off : Nat) : Nat :=
  let ds := (List.range 100).filter (fun d => (floorEntry s off d).getLsbD 63)
  if img s off 1 != img s 36 1 then 0x08
  else if ds.any (fun d => (builtKind s (floorEntry s off d)).isNone) then 0x09
  else if ds.any (fun d => builtKind s (floorEntry s off d) != kindOfCode (bitsOf (floorEntry s off d) 62 60)) then 0x08
  else 0

/-- Write a slice's place from the floor section (R577); ROLE_NOW of a service die starts at its SERVICE_ROLE (R773, R792). -/
def placeDie (s : State) (off d : Nat) : State :=
  let x := floorEntry s off d
  let s1 := (s.setFld d SLC_PLACE 63 51 (imgPkg s)).setFld d SLC_PLACE 50 44 d
  let s2 := if isKind s d .service then (s1.setFld d SLC_PLACE 7 6 (bitsOf x 59 58)).setFld d TLR_STATUS 3 2 (bitsOf x 59 58) else s1
  let s3 := if isKind s d .compute then s2.setFld d SLC_STATE 21 16 (bitsOf x 42 37) else s2
  if isKind s d .memif && x.getLsbD 36 then { s3 with memOwned := s3.memOwned.set 0 d (bitsOf x 42 37 + 1) } else s3

/-- Whether the place of present die `d` in a floor section breaks R37 or R39: the compute array first, in row order, service dies at
corners, the others at edge positions. -/
def placeBroken (s : State) (off w h d : Nat) : Bool :=
  let x := floorEntry s off d
  let side := bitsOf x 54 52
  let ix := bitsOf x 51 49
  if d < w * h then !(kindOfCode (bitsOf x 62 60) == some .compute && side == 0 && bitsOf x 48 46 == d % w && bitsOf x 45 43 == d / w)
  else match kindOfCode (bitsOf x 62 60) with
    | some .service => !(side == 5 && ix < 4)
    | some .compute => true
    | _ => !(1 ≤ side && side ≤ 4 && ix < (if side % 2 == 1 then w else h))

/-- Whether a floor section is a die map that breaks R36 to R39, which R40 calls undefined. -/
def mapBroken (s : State) (off : Nat) : Bool :=
  let w := img s off 1 % 16 + 1
  let h := img s off 1 / 16 + 1
  let ds := (List.range 100).filter (fun d => (floorEntry s off d).getLsbD 63)
  let os := ds.filter (fun d => w * h ≤ d)
  let count := fun (k : Kind) => (os.filter (fun d => kindOfCode (bitsOf (floorEntry s off d) 62 60) == some k)).length
  let role := fun (r : Nat) => (os.filter (fun d => kindOfCode (bitsOf (floorEntry s off d) 62 60) == some .service &&
    bitsOf (floorEntry s off d) 59 58 == r)).length
  8 < w || 8 < h || ds.any (placeBroken s off w h) ||
    os.any (fun d => os.any (fun e => e < d && bitsOf (floorEntry s off e) 54 49 == bitsOf (floorEntry s off d) 54 49)) ||
    8 < count .port || count .service < 2 || role 1 != 1 || role 2 != 1

/-- Apply the floor section: the active die of the pattern must be the one that booted (R777), and a map that breaks R36 to R39 is misuse
(R40). (DEDUCED, log 93) -/
def applyFloor (s : State) (off : Nat) : Out :=
  if mapBroken s off then .fault (.undefinedMisuse 40) else
  let s1 := { s with floor := newFloor s off }
  let s2 := (allDies s1).foldl (fun s d => placeDie s off d) s1
  let role := fun (r : Nat) => (allDies s1).find? (fun d => isKind s1 d .service && bitsOf (floorEntry s off d) 59 58 == r)
  match role 1 with
  | some a => if a == s.headDie then .next { s2 with mirrorDie := (role 2).getD 128 } else .fault (.undefinedMisuse 777)
  | none => .fault (.undefinedMisuse 777)

/-! ## Loading (R578) -/

/-- Go on to the next section. (DEDUCED, log 91) -/
def nextSection (s : State) : State := { s with loader := { s.loader with sec := s.loader.sec + 1, pos := 0 } }

/-- Load every record that has arrived whole (R578). -/
def loadRun : Nat → State → Out
  | 0, s => .next s
  | fuel + 1, s =>
    let l := s.loader
    let e := dirEntry s l.sec
    let fin := e.off + e.len
    let pos := if l.pos == 0 then e.off else l.pos
    if imgSections s ≤ l.sec then .next s
    else if e.type == 1 then
      if l.len < e.off + 808 then .next s
      else
        let r := floorResult s e.off
        if r != 0 then .next (loadFail s r l.sec)
        else match applyFloor s e.off with
          | .next s1 => loadRun fuel (nextSection s1)
          | o => o
    else if e.type != 2 then (if l.len < fin then .next s else loadRun fuel (nextSection s))
    else if fin < pos + 8 then loadRun fuel (nextSection s)
    else if l.len < pos + 8 then .next s
    else
      let h := BitVec.ofNat 64 (img s pos 8)
      let rest := fun (s : State) => (scopeDies s e).foldl (fun s d => ignoreWords s d ((fin - pos) / 8)) s
      if bitsOf h 63 60 == 0 then loadRun fuel (nextSection s)
      else match recWords h with
        | none => loadRun fuel (nextSection (rest s))
        | some n =>
          if fin < pos + 8 + 8 * n then loadRun fuel (nextSection (rest s))
          else if l.len < pos + 8 + 8 * n then .next s
          else
            let ws := (List.range n).map (fun i => BitVec.ofNat 64 (img s (pos + 8 + 8 * i) 8))
            let s1 := (scopeDies s e).foldl (fun s d => loadRecord s h ws d) s
            loadRun fuel { s1 with loader := { s1.loader with pos := pos + 8 + 8 * n } }

/-- Whether a patch's T breaks R587 now: `align` is ROUND_ALIGN. -/
def leadBroken (s : State) (t : Nat) (align : Bool) : Bool :=
  let d := s.headDie
  t < s.now d + 1000 * s.fld d PAT_CFG 63 48 || (align && t % roundNs != 0)

/-- ROUND_ALIGN of a patch image. -/
def imgAlign (s : State) : Bool := natBit (img s 37 1) 0

/-- What follows the arrival of 8 B (R578): the header and the directory are checked when complete, records are loaded as they
arrive, and at IMAGE_LEN verification begins. (DESIGN CHOICE, log 90) -/
def loadProgress (s : State) : Out :=
  let l := s.loader
  let hr := if l.len == 128 then headerResult s l.mode else 0
  let dirEnd := 128 + 16 * imgSections s
  if hr != 0 then .next (loadFail s hr 0)
  else match (if l.len == dirEnd && 128 < l.len then dirResult s l.mode else none) with
    | some (i, r) => .next (loadFail s r i)
    | none =>
      let ran := if l.mode == 0 && dirEnd ≤ l.len && 128 < l.len then loadRun (l.len + 5000) s else .next s
      match ran with
      | .next s1 =>
        if loadState s1 == 1 && 128 < l.len && l.len == imgLen s1 then
          .next (setLoadState { s1 with loader := { s1.loader with late := leadBroken s1 l.t (imgAlign s1) } } 2)
        else .next s1
      | o => o

/-- A write to the load port (R578, R580, R606): ignored unless RECEIVING; one that would exceed SPACE fails the load. (DESIGN CHOICE, log 90) -/
def loadWrite (s : State) (v : Word) : Out :=
  if loadState s != 1 then .next s
  else if Config.loadBuffer < 8 then .next (loadFail s 0x04 s.loader.sec)
  else
    let l := s.loader
    loadProgress { s with mem := writeWord s.mem (loadKey s l.len) v, loader := { l with len := l.len + 8 } }

/-- LOAD_PORT_WRITE (R606). -/
def execLoadPortWrite (v : Word) (s : State) : Out := loadWrite s v

/-- Whether a load or submission is in progress (R593): then START is ignored and BUSY set. -/
def loadBusy (s : State) : Bool := !(loadState s == 0 || loadState s == 6 || loadState s == 7)

/-- The image memory of the load port as it is before the first byte. -/
def clearImage (s : State) : State :=
  { s with mem := s.mem.filter (fun c => !(loadKey s 0 ≤ c.1 && c.1 < loadKey s (2 ^ 32))) }

/-- START in a mode (R578, R586, R593, R601): `allowed` says that the package state permits it. (DEDUCED, log 92) -/
def loadStart (s : State) (mode : Nat) (allowed : Bool) : State :=
  let d := s.headDie
  if loadBusy s then s.raise d PAT_LOAD_STATUS 4
  else if !allowed then setLoadState (s.setFld d PAT_LOAD_STATUS 23 16 0x0E) 7
  else
    let s0 := clearImage s
    let s1 := if mode == 1 then s0.setReg d PAT_PATCH_ID 0 else s0
    let step := s.reg d PAT_PATCH_STEP
    let l : Loader := { mode := mode, startFt := s.now40 d, t := (s.reg d PAT_PATCH_FT).toNat,
                        step := if step.getLsbD 16 then some (bitsOf step 15 0) else none }
    let s2 := s1.setFld d PAT_LOAD_STATUS 63 40 0
    setLoadState { s2 with loader := l } 1

/-- PAT_LOAD_START_COLD (R578). -/
def execPatLoadStartCold (s : State) : Out := .next (loadStart s 0 (s.mode == .cold && headRuns s))

/-- PAT_LOAD_START_PATCH (R586). -/
def execPatLoadStartPatch (s : State) : Out := .next (loadStart s 1 (s.mode == .fit || s.mode == .service))

/-- PAT_LOAD_START_AREA (R583, R601). -/
def execPatLoadStartArea (s : State) : Out := .next (loadStart s 2 (s.mode == .fit || s.mode == .service))

/-! ## Verification (R570, R578) -/

/-- DIGEST of the signature block. -/
def imgDigest (s : State) : List Byte := imgBytes s (imgSig s + 16) 48

/-- The words of a digest's bytes. -/
def bytesWords (n : Nat) (bs : List Byte) : List Word :=
  (List.range n).map (fun i => BitVec.ofNat 64 (natOfBytes ((bs.drop (8 * i)).take 8)))

/-- The owner key's 97 bytes (R781). -/
def ownerKey (s : State) : List Byte := (wordsBytes (s.store s.headDie).owner).take 97

/-- The verification of R570, as RESULT encodes it: 0 where it passes. -/
def verifyResult (s : State) : Nat :=
  if wordsBytes (Config.sha384 (imgBytes s 0 (imgSig s))) != imgDigest s then 0x05
  else if !secureMode s then 0
  else if (wordsBytes (Config.sha384 (ownerKey s))).take 16 != imgBytes s (imgSig s) 16 then 0x06
  else if !Config.ecdsaOk (ownerKey s) (bytesWords 6 (imgDigest s)) (imgBytes s (imgSig s + 64) 96) then 0x07
  else 0

end Sys2Proof.Machine
end

