-- ==== Sys2Proof/Machine/Pattern.lean ====
section
/-! DEFINITION. The end of a load, the pattern areas, and patches from verification to their outcome (R578, R579, R583 to R593). -/

namespace Sys2Proof.Machine

open Sys2Proof

/-! ## The end of a cold load (R62, R578, R748) -/

/-- Load the slice part of the Kerex image into a slice's tailor RAM and start its core (R768). (DEDUCED, log 145) -/
def startTailor (s : State) (d : Nat) : State :=
  let off := natOfBytes (readBytes s.mem (bootKey s.headDie 40) 4)
  let n := natOfBytes (readBytes s.mem (bootKey s.headDie 44) 4)
  let s1 := if isKind s d .service then s
    else { s with mem := writeBytes s.mem (tailorKey d 0) (readBytes s.mem (bootKey s.headDie off) n) }
  { s1.raise d TLR_STATUS 1 with kickFt := s1.kickFt.set 0 d (s.now d) }

/-- The PL state of the package, as the pattern has just set it (R585). -/
def plImage (s : State) : PlImage :=
  { csr := s.csr, slotTab := s.slotTab, treeTab := s.treeTab, joinTab := s.joinTab, routeTab := s.routeTab, routeStore := s.routeStore,
    arrivalTab := s.arrivalTab, gateTab := s.gateTab, syncInit := s.syncInit }

/-- The ledger's first records: BOOT, FIRMWARE and PATTERN (R747, R748). -/
def bootRecords (s : State) : State :=
  let d := s.headDie
  let b := s.boots.get {} d
  let prev := (List.range 6).map (fun i => s.reg d (OBS_LEDGER_PREV0 + 8 * i))
  let s1 := ledgerAdd s 0x80 s.loader.startFt
    (((Config.deviceId d).toNat * 2 ^ 64 + s.pkgOf d) :: digestQuads (Config.sha384 (wordsBytes (s.store d).pub)) ++ digestQuads prev)
  let s2 := ledgerAdd s1 0x81 (s.now40 d) (digestQuads b.digest ++ [b.version])
  ledgerAdd s2 0x82 (s.now40 d)
    (quadOf (imgId s) (imgPod s) :: (bytesQuads 3 (imgDigest s) ++ bytesQuads 1 (imgBytes s (imgSig s) 16) ++ [boolNat (secureMode s)]))

/-- Show the loaded pattern in a slice (R578, R595, R596). -/
def showPattern (s : State) (d : Nat) : State :=
  let ws := bytesWords 6 (imgDigest s)
  (List.range 6).foldl (fun s i => s.setReg d (PAT_DIGEST0 + 8 * i) (ws.getD i 0))
    ((s.setReg d PAT_ID (BitVec.ofNat 64 (imgId s))).setReg d PAT_POD_ID (BitVec.ofNat 64 (imgPod s)))

/-- The end of a cold load's verification (R578, R579); `ok` says that every slice has confirmed its last record. -/
def loadVerified (s : State) (ok : Bool) : State :=
  let l := s.loader
  if loadState s != 2 || l.mode != 0 then s
  else
    let r := verifyResult s
    if r != 0 then loadFail s r 0
    else if !ok then loadFail s 0x09 0
    else
      let s1 := (allDies s).foldl (fun s d => startTailor (showPattern s d) d) s
      let s2 := setLoadState (s1.setFld s.headDie PAT_LOAD_STATUS 23 16 1) 6
      enterMode (bootRecords { s2 with plWant := plImage s2 }) .test

/-- LOAD_VERIFY_DONE (R578). -/
def execLoadVerifyDone (ok : Bool) (s : State) : Out := .next (loadVerified s ok)

/-! ## The pattern areas (R583, R599, R605) -/

/-- Whether a copy of the pattern is valid (R605): AREA_OK. -/
def areaOk (s : State) : Bool := s.flag s.headDie PAT_AREA_STATUS 0

/-- Bytes of each area. -/
def areaBytes (s : State) : Nat := s.fld s.headDie PAT_AREA_SIZE 15 0 * 2 ^ 20

/-- Base of pattern area `n`. (DEDUCED, log 95) -/
def areaBase (s : State) (n : Nat) : BitVec 64 := s.reg s.headDie (PAT_AREA0 + 8 * n)

/-- Bytes as 64 B units. -/
def bytesUnits (bs : List Byte) : List DataUnit :=
  (List.range ((bs.length + 63) / 64)).map (fun i => BitVec.ofNat 512 (natOfBytes ((bs.drop (64 * i)).take 64)))

/-- Write bytes into both pattern areas at an offset. (DEDUCED, log 95) -/
def areaWrite (s : State) (off : Nat) (bs : List Byte) : State :=
  let us := bytesUnits bs
  let put := fun (s : State) (n : Nat) =>
    spaceWrite s s.headDie (areaBase s n + BitVec.ofNat 64 off) ((List.range us.length).map (fun i => (i, us.getD i 0)))
  put (put s 0) 1

/-- The end of an area copy (R583): `ok0` and `ok1` say whether each area took the whole image. -/
def areaCopied (s : State) (ok0 ok1 : Bool) : State :=
  let d := s.headDie
  if loadState s != 2 || s.loader.mode != 2 then s
  else if wordsBytes (Config.sha384 (imgBytes s 0 (imgSig s))) != imgDigest s ||
      bytesWords 6 (imgDigest s) != (List.range 6).map (fun i => s.reg d (PAT_DIGEST0 + 8 * i)) then loadFail s 0x05 0
  else if areaBytes s < imgLen s || !(ok0 || ok1) then loadFail s 0x0D 0
  else
    let s1 := areaWrite s 0 (imgBytes s 0 (imgLen s))
    let s2 := if areaOk s then s1
      else ({ s1 with areaUsed := up64 (imgLen s), patchLog := [] }.setFld d PAT_PATCH_RESULT 63 32 0)
    let s3 := (s2.setFld d PAT_AREA_STATUS 2 0 (1 + 2 * boolNat ok0 + 4 * boolNat ok1)).setFld d PAT_LOAD_STATUS 23 16 1
    setLoadState s3 6

/-- AREA_COPY_DONE (R583). -/
def execAreaCopyDone (ok0 ok1 : Bool) (s : State) : Out := .next (areaCopied s ok0 ok1)

/-! ## Permits (R589, R591, R600) -/

/-- A write to a permit register (R591): taken only from the slice's own tailor core or the head tailor. -/
def permitWrite (s : State) (d off : Nat) (src : BitVec 32) (v : Word) : State :=
  if permitOff off && (src == ctlSrc s d || src == ctlSrc s s.headDie) then csrStore s d off v true else s

/-- PERMIT_WRITE (R591). -/
def execPermitWrite (d off : Nat) (src : BitVec 32) (v : Word) (s : State) : Out :=
  onUnit (dieExists s d && permitOff off) (permitWrite s d off src v)

/-- A CSR_WRITE packet from the head tailor to a slice of its package (R87). -/
def headCsrWrite (s : State) (d off : Nat) (v : Word) : State :=
  sendAt s s.headDie attCtl
    { hdr := { mkHdr 0x61 5 (fabricAddr (s.pkgOf s.headDie) d 0 0 off) (ctlSrc s s.headDie) with inl := BitVec.ofNat 128 v.toNat } }

/-- Write a register of a slice as the head tailor: its own directly, another's by CSR_WRITE. -/
def headWrite (s : State) (d off : Nat) (v : Word) : State :=
  if d == s.headDie then permitWrite s d off (ctlSrc s d) v else headCsrWrite s d off v

/-- The digest that a permit for a stream holds (R589). -/
def streamDigest (x : PStream) : List Word := Config.sha384 (wordsBytes x.words)

/-- The streams of a patch whose targets lie in this package. -/
def localStreams (s : State) (p : Patch) : List PStream :=
  p.streams.filter (fun x => x.pkg == s.pkgOf s.headDie && dieExists s x.die)

/-- A free permit slot of a slice that no patch has been given (R589). -/
def freePermit (s : State) (d : Nat) : Option Nat :=
  (List.range 4).find? (fun n => !s.flag d (PAT_PERMIT_CTL_0 + 0x40 * n) 40 && !s.patches.any (fun p => p.slots.contains (d, n)))

/-- Change the patch of a number. -/
def setPatch (s : State) (p : Patch) : State :=
  { s with patches := s.patches.map (fun (q : Patch) => if q.num == p.num then p else q) }

/-- Write the permit of one stream into slot `n` of its target: the digest, then VALID with T. -/
def sendPermit (s : State) (x : PStream) (n t : Nat) : State :=
  let dg := streamDigest x
  let s1 := (List.range 6).foldl (fun s k => headWrite s x.die (PAT_PERMIT_D_0_0 + 0x40 * n + 8 * k) (dg.getD k 0)) s
  headWrite s1 x.die (PAT_PERMIT_CTL_0 + 0x40 * n) (BitVec.ofNat 64 (2 ^ 40 + t % 2 ^ 40))

/-- Write a permit in every target slice that has been given none and has a free slot (R588). -/
def sendPermits (s : State) (num : Nat) : State :=
  match s.patches.find? (fun p => p.num == num) with
  | none => s
  | some p0 =>
    (localStreams s p0).foldl (fun s x =>
      match s.patches.find? (fun p => p.num == num) with
      | none => s
      | some p =>
        if p.slots.any (fun q => q.1 == x.die) then s
        else match freePermit s x.die with
          | none => s
          | some n => sendPermit (setPatch s { p with slots := p.slots ++ [(x.die, n)] }) x n p.t) s

/-- Whether every target slice of this package holds its permit (R588). -/
def permitsHeld (s : State) (p : Patch) : Bool :=
  (localStreams s p).all (fun x => p.slots.any (fun q => q.1 == x.die &&
    s.reg x.die (PAT_PERMIT_CTL_0 + 0x40 * q.2) == BitVec.ofNat 64 (2 ^ 40 + p.t % 2 ^ 40) &&
    permitDigest s x.die q.2 == streamDigest x))

/-- Clear the permits already written for a patch (R588). -/
def clearPatchPermits (s : State) (p : Patch) : State :=
  p.slots.foldl (fun s q => headWrite s q.1 (PAT_PERMIT_CTL_0 + 0x40 * q.2) 0) s

/-! ## Acceptance (R587, R588, R592) -/

/-- The PATCH record (R747): origin 0 host or 1 Kerex, and 0 accepted or 1 logged at T. -/
def patchRecord (s : State) (p : Patch) (logged : Nat) : State :=
  let base := (s.reg s.headDie PAT_ID).toNat
  ledgerAdd s 0x83 (s.now40 s.headDie)
    [quadOf p.id.toNat base, quadOf p.t (boolNat (p.kind != 0) * 2 ^ 62 + (p.streams.length - 1) % 2048 * 2 ^ 51), logged]

/-- STATE of the host's submission follows its patch. -/
def hostState (s : State) (p : Patch) (st : Nat) : State := if p.kind == 0 then setLoadState s st else s

/-- Take a patch into PERMITTING: its record, and its permits (R588). -/
def acceptPatch (s : State) (p : Patch) : State :=
  let s1 := patchRecord { s with patches := s.patches ++ [p], patchNum := s.patchNum + 1 } p 0
  sendPermits (hostState s1 p 3) p.num

/-- The STREAM sections of a patch image (R567). -/
def imgStreams (s : State) : List PStream :=
  ((List.range (imgSections s)).map (dirEntry s)).filterMap (fun e =>
    if e.type == 3 then
      some { pkg := e.spkg, die := e.die, words := (List.range (e.len / 8)).map (fun i => BitVec.ofNat 64 (img s (e.off + 8 * i) 8)) }
    else none)

/-- The first STREAM section that a patch may not hold: one with a FABRIC record, or of no whole number of units from 1 to 4,096
(R478, R582, R590). -/
def badStream (s : State) : Option (Nat × Nat) :=
  (List.range (imgSections s)).findSome? (fun i =>
    let e := dirEntry s i
    let ws := (List.range (e.len / 8)).map (fun j => BitVec.ofNat 64 (img s (e.off + 8 * j) 8))
    if e.type != 3 then none
    else if e.len == 0 || e.len % 64 != 0 || 4096 * 64 < e.len then some (i, 0x03)
    else if (streamRecs ws.length ws).any (fun r => r.1 == 2) then some (i, 0x0A) else none)

/-- What is wrong with a complete patch image (R570, R582, R586, R587), with the section where one is at fault. (DEDUCED, log 94) -/
def patchResult (s : State) : Nat × Nat :=
  let d := s.headDie
  let r := verifyResult s
  if r != 0 then (r, 0)
  else if BitVec.ofNat 64 (img s 16 8) != s.reg d PAT_ID || BitVec.ofNat 64 (imgPod s) != s.reg d PAT_POD_ID then (0x0B, 0)
  else match badStream s with
    | some (i, r) => (r, i)
    | none =>
      let n := (imgStreams s).length
      if n == 0 || 1024 < n then (0x0A, 0)
      else if s.loader.late || (s.loader.waited && leadBroken s s.loader.t (imgAlign s)) then (0x0C, 0)
      else (0, 0)

/-- The end of a patch's verification (R588, R744). -/
def patchVerified (s : State) : State :=
  let d := s.headDie
  if loadState s != 2 || s.loader.mode != 1 then s
  else
    let r := patchResult s
    if r.1 != 0 then loadFail s r.1 r.2
    else if !ledgerRoom s then { s with loader := { s.loader with waited := true } }
    else
      let id := (bytesWords 6 (imgDigest s)).getD 0 0
      let p : Patch := { num := s.patchNum, id := id, t := s.loader.t, own := imgPkg s == s.pkgOf d, streams := imgStreams s,
                         coord := (img s 38 1 % 128, img s 39 1 % 8), step := s.loader.step }
      let s1 := (s.setReg d PAT_PATCH_ID id).setReg d PAT_PATCH_OUTCOME (BitVec.ofNat 64 (p.t % 2 ^ 40))
      acceptPatch (s1.setFld d PAT_LOAD_STATUS 23 16 1) p

/-- PATCH_VERIFY_DONE (R588). -/
def execPatchVerifyDone (s : State) : Out := .next (patchVerified s)

/-- The alternative coordinating CE (R590, R598). -/
def altCoord (s : State) : Nat × Nat := (s.fld s.headDie PAT_CFG 20 14, s.fld s.headDie PAT_CFG 13 11)

/-- PATCH_ID of a Kerex patch (R592). -/
def kerexId (ss : List PStream) : Word := (Config.sha384 (wordsBytes (ss.flatMap (·.words)))).getD 0 0

/-- Whether Kerex may make a patch with T now (R587, R592, R744). -/
def kerexMay (s : State) (t : Nat) (align : Bool) : Bool :=
  headRuns s && (s.mode == .fit || s.mode == .service) && !leadBroken s t align && ledgerRoom s

/-- Pad a stream's words to whole units, as READ as END (R586). -/
def padStream (ws : List Word) : List Word := ws ++ List.replicate ((8 - ws.length % 8) % 8) 0

/-- A Kerex patch enters PERMITTING (R592). (DEDUCED, log 94) -/
def kerexPatch (s : State) (kind arg t : Nat) (ss : List PStream) (logged : Nat) : State :=
  let ss := ss.map (fun x => { x with words := padStream x.words })
  if ss.isEmpty then s
  else acceptPatch s { num := s.patchNum, id := kerexId ss, kind := kind, arg := arg, t := t, streams := ss, coord := altCoord s, logged := logged }

/-- KEREX_PATCH (R592): Kerex makes a patch of its own with the streams and T it has chosen. (DEDUCED, log 89) -/
def execKerexPatch (t : Nat) (ss : List PStream) (s : State) : Out :=
  .next (if kerexMay s t false then kerexPatch s 6 0 t ss 0 else s)

/-! ## Posting (R588, R590) -/

/-- What is appended to the patch log in the areas: the host's image, or the streams of a Kerex patch. -/
def patchBytes (s : State) (p : Patch) : List Byte :=
  if p.kind == 0 then imgBytes s 0 (imgLen s) else wordsBytes (p.streams.flatMap (·.words))

/-- Where each stream lies in those bytes. -/
def streamOffs (s : State) (p : Patch) : List Nat :=
  if p.kind == 0 then ((List.range (imgSections s)).map (dirEntry s)).filterMap (fun e => if e.type == 3 then some e.off else none)
  else (List.range p.streams.length).map (fun i => 8 * ((p.streams.take i).map (fun x => x.words.length)).sum)

/-- The target table of the commit request (R482, R590). -/
def targetTable (p : Patch) (base : BitVec 64) (offs : List Nat) : List Byte :=
  (List.range p.streams.length).flatMap (fun i =>
    match p.streams[i]? with
    | some x => bytesOfNat 16 ((base + BitVec.ofNat 64 (offs.getD i 0)).toNat + x.pkg % 8192 * 2 ^ 64 + x.die % 128 * 2 ^ 77 +
        (x.words.length / 8) % 8192 * 2 ^ 84)
    | none => [])

/-- The commit request (R481, R590); USER carries the patch's number. (DEDUCED, log 96) -/
def patchRequest (s : State) (p : Patch) (list : BitVec 64) : DataUnit :=
  BitVec.ofNat 512 (list.toNat + p.id.toNat * 2 ^ 64 + p.t % 2 ^ 40 * 2 ^ 128 + (p.streams.length - 1) % 1024 * 2 ^ 168 +
    s.pkgOf s.headDie * 2 ^ 184 + (p.step.getD 0) * 2 ^ 198 + boolNat p.step.isSome * 2 ^ 214 + s.headDie * 2 ^ 230 + p.num % 2 ^ 32 * 2 ^ 256)

/-- The CE that coordinates a patch now (R590). -/
def coordNow (s : State) (p : Patch) : Nat × Nat := if inMend s p.coord.1 then altCoord s else p.coord

/-- Post the commit request: the log and the target table into the areas, the request into the queue, and one ADD to the tail (R588). -/
def postPatch (s : State) (p : Patch) : State :=
  let c := coordNow s p
  let bs := patchBytes s p
  let base := areaBase s (if s.flag s.headDie PAT_AREA_STATUS 1 || !s.flag s.headDie PAT_AREA_STATUS 2 then 0 else 1)
  let at' := s.areaUsed
  let tab := at' + up64 bs.length
  let fin := tab + up64 (16 * p.streams.length)
  if areaBytes s < fin then
    let s1 := clearPatchPermits { s with patches := s.patches.filter (fun q => q.num != p.num) } p
    if p.kind == 0 then loadFail s1 0x0D 0 else s1
  else
    let s1 := areaWrite (areaWrite s at' bs) tab (targetTable p (base + BitVec.ofNat 64 at') (streamOffs s p))
    let o := s.fld c.1 (ccw c.2 CMT_Q_CFG) 29 16
    let ix := max (objLow (s.sobj (syncDieOf s c.1 c.2) o)) (s.posted.get 0 (c.1 * 8 + c.2))
    let a := s.reg c.1 (ccw c.2 CMT_Q_BASE) + BitVec.ofNat 64 (64 * (ix % 2 ^ s.fld c.1 (ccw c.2 CMT_Q_CFG) 11 8))
    let s2 := spaceWrite s1 s.headDie a [(0, patchRequest s p (base + BitVec.ofNat 64 tab))]
    let s3 := sendAt { s2 with areaUsed := fin, posted := s2.posted.set 0 (c.1 * 8 + c.2) (ix + 1) } s.headDie attCtl
      { hdr := { mkHdr 0x12 1 (fabricAddr (s.pkgOf s.headDie) (syncDieOf s c.1 c.2) 0 0 (o * 16)) (ctlSrc s s.headDie) with inl := 1 } }
    hostState (setPatch s3 { p with st := 4, coord := c, recIx := ix }) p 4

/-- PERMITS_WRITTEN (R588): when every target slice here holds its permit, the coordinating package posts, another waits for T. -/
def permitsWritten (s : State) (num : Nat) : State :=
  let s1 := sendPermits s num
  match s1.patches.find? (fun p => p.num == num && p.st == 3) with
  | none => s1
  | some p =>
    if !permitsHeld s1 p then s1
    else if p.own then postPatch s1 p
    else hostState (setPatch s1 { p with st := 5 }) p 5

/-- PERMITS_WRITTEN (R588). -/
def execPermitsWritten (num : Nat) (s : State) : Out := .next (permitsWritten s num)

/-! ## The outcome (R585, R588) -/

/-- Log a patch, where an area holds a complete log (R585, R593, R604). -/
def logPatch (s : State) (p : Patch) : State :=
  if areaOk s then ({ s with patchLog := s.patchLog ++ [p.streams] }).bump s.headDie PAT_PATCH_RESULT 63 32 1 else s

/-- A patch ends: it is logged when its outcome says so, and the host's submission is DONE (R585, R588). -/
def patchEnd (s : State) (p : Patch) (outcome : Nat) (log : Bool) : State :=
  let s1 := { s with patches := s.patches.filter (fun q => q.num != p.num) }
  let s2 := if log then logPatch s1 p else s1
  if p.kind == 0 then setLoadState (s2.setFld s.headDie PAT_PATCH_RESULT 7 0 outcome) 6 else s2

/-- The completion record of a posted patch in its coordinator's ring, where it has been written (R395, R483). -/
def patchOutcome (s : State) (p : Patch) : Option Nat :=
  let lg := s.fld p.coord.1 (ccw p.coord.2 CMT_Q_CFG) 7 4
  let a := s.reg p.coord.1 (ccw p.coord.2 CMT_C_BASE) + BitVec.ofNat 64 (32 * (p.recIx % 2 ^ lg))
  match spaceAt s s.headDie a with
  | none => none
  | some (die, key, _) =>
    let _ := die
    let w := natOfBytes (readBytes s.mem (key (bitsOf a 33 0)) 32)
    let phase := if p.recIx / 2 ^ lg % 2 == 0 then 1 else 0
    if w / 2 ^ 255 % 2 == phase && w / 2 ^ 192 % 2 ^ 32 == p.num % 2 ^ 32 then some (w / 2 ^ 16 % 256) else none

/-- PATCH_T_PASSED (R588): a permit-only package logs the patch when FT passes T, and says so in the ledger (R747). -/
def patchTPassed (s : State) (num : Nat) : State :=
  match s.patches.find? (fun p => p.num == num && p.st == 5) with
  | none => s
  | some p => if s.now s.headDie < p.t then s else patchEnd (patchRecord s p 1) p 0xFF true

/-- PATCH_T_PASSED (R588). -/
def execPatchTPassed (num : Nat) (s : State) : Out := .next (patchTPassed s num)

/-- ABORT of a load or submission (R579, R588). (DEDUCED, log 97) -/
def loadAbort (s : State) : State :=
  let st := loadState s
  if st == 1 || st == 2 then loadFail s 0x0F s.loader.sec
  else if st == 3 then
    match s.patches.find? (fun p => p.kind == 0 && p.st == 3) with
    | some p => loadFail (clearPatchPermits { s with patches := s.patches.filter (fun q => q.num != p.num) } p) 0x0F 0
    | none => s
  else s

/-- PAT_LOAD_ABORT (R579, R588). -/
def execPatLoadAbort (s : State) : Out := .next (loadAbort s)

end Sys2Proof.Machine
end

