-- ==== Sys2Proof/Machine/Fec.lean ====
section
/-! DEFINITION. The line coding of a stitch port (R515 to R518): a frame's bytes, the message bit stream, RS(544,514) codewords, codeword
groups and their distribution over the logical lanes. -/

namespace Sys2Proof.Machine

open Sys2Proof

/-! ## RS(544,514) over GF(2^10) (R516) -/

/-- Twice an element of GF(2^10), whose polynomial is x^10 + x^3 + 1. (PRESUMED, log 182) -/
def gfTwice (a : Nat) : Nat := if 512 ≤ a then Nat.xor (2 * a) 1033 else 2 * a

/-- The product of two elements of GF(2^10). -/
def gfMul (a b : Nat) : Nat :=
  ((List.range 10).foldl (fun (r : Nat × Nat) i => (if natBit b i then Nat.xor r.1 r.2 else r.1, gfTwice r.2)) (0, a)).1

/-- The product of a polynomial, highest coefficient first, and x + r. -/
def polyRoot (g : List Nat) (r : Nat) : List Nat := List.zipWith Nat.xor (g ++ [0]) (0 :: g.map (gfMul r))

/-- The generator polynomial of the code, highest coefficient first: its roots are the first 30 powers of 2. (PRESUMED, log 182) -/
def rsGen : List Nat := ((List.range 30).foldl (fun (r : List Nat × Nat) _ => (polyRoot r.1 r.2, gfTwice r.2)) ([1], 1)).1

/-- One message symbol through the division by the generator; `r` is the remainder, highest coefficient first. -/
def rsStep (g r : List Nat) (m : Nat) : List Nat :=
  let fb := Nat.xor m (r.headD 0)
  List.zipWith (fun a c => Nat.xor a (gfMul fb c)) (r.drop 1 ++ [0]) g

/-- The 30 parity symbols of a message. -/
def rsParity (ms : List Nat) : List Nat := ms.foldl (rsStep (rsGen.drop 1)) (List.replicate 30 0)

/-- The value of a word of symbols, first symbol highest, at an element: 0 at each root of the code for a codeword. -/
def rsEval (ws : List Nat) (a : Nat) : Nat := ws.foldl (fun r w => Nat.xor (gfMul r a) w) 0

/-! ## Codeword groups (R516) -/

/-- Message bits of a codeword group: five codewords of 514 symbols of 10 bits. -/
def lineGroupBits : Nat := 25700

/-- Codeword `j` of a group with message bits `v`: its 514 message symbols and its parity. (PRESUMED, log 182) -/
def codeword (v j : Nat) : List Nat :=
  let ms := (List.range 514).map (fun i => bitsOf (BitVec.ofNat 25700 v) (10 * (514 * j + i) + 9) (10 * (514 * j + i)))
  ms ++ rsParity ms

/-- The 2,720 symbols of a group, codeword after codeword. (DEDUCED, log 182) -/
def groupSymbols (v : Nat) : List Nat := (List.range 5).flatMap (codeword v)

/-- What logical lane `i` carries of a group's symbols: every twentieth, from the `i`-th. -/
def laneSymbols (ss : List Nat) (i : Nat) : List Nat := (List.range 136).map (fun n => ss.getD (20 * n + i) 0)

/-- The group with count `n` that carries message bits `v`. -/
def codeGroup (n v : Nat) : StGroup :=
  let ss := groupSymbols v
  { count := n, lanes := (List.range 20).map (laneSymbols ss) }

/-- The count of the group that the next message bit belongs to: every 256th group is an alignment group. (DESIGN CHOICE, log 182) -/
def groupNow (x : Stl) : Nat := if x.txGroup % 256 == 0 then x.txGroup + 1 else x.txGroup

/-- Add `n` message bits, fewer than a group has, to the stream; a group that they fill goes out, after the alignment group that is due. -/
def pushBits (x : Stl) (n v : Nat) : Stl :=
  let b := x.txBits + v % 2 ^ n * 2 ^ x.txLen
  if x.txLen + n < lineGroupBits then { x with txBits := b, txLen := x.txLen + n }
  else
    let c := groupNow x
    let a : List StGroup := if c == x.txGroup then [] else [{ count := x.txGroup, align := true }]
    { x with txBits := b / 2 ^ lineGroupBits, txLen := x.txLen + n - lineGroupBits, txGroup := (c + 1) % 65536,
             line := x.line ++ a ++ [codeGroup c (b % 2 ^ lineGroupBits)] }

/-! ## Frames (R518 to R520) -/

/-- The sideband word of a unit slot (R520). -/
def slotSide (u : StUnit) : Nat := u.type % 4 + u.vc % 8 * 2 ^ 2 + u.dl % 2 * 2 ^ 5 + u.seg % 4 * 2 ^ 6 + u.hops % 32 * 2 ^ 8

/-- A stitch frame's 276 bytes (R518 to R520), from byte 0. -/
def frameBytes (f : StFrame) : Nat :=
  let ctrl := f.ftype % 16 + f.seq % 2 ^ 12 * 2 ^ 4 + f.ack % 2 ^ 12 * 2 ^ 16 + boolNat f.ackValid * 2 ^ 28 + boolNat f.nak * 2 ^ 29 +
    f.credVc % 8 * 2 ^ 32 + f.credDl % 2 * 2 ^ 35 + f.credN % 2 ^ 12 * 2 ^ 36
  let side := (List.range 4).foldl (fun n i => n + (match f.slots[i]? with
    | some u => slotSide u * 2 ^ (16 * i)
    | none => 0)) 0
  let body := (List.range 4).foldl (fun n i => n + (match f.slots[i]? with
    | some u => u.unit.toNat * 2 ^ (512 * i)
    | none => if i == 0 && f.ftype != 1 then f.slot0.toNat else 0)) 0
  let all := ctrl + side * 2 ^ 64 + body * 2 ^ 128
  all + (crc32c 2176 all).toNat * 2 ^ 2176

/-- The free bits that fill a group up, so that a TIME frame begins at the first message bit of the next (R518). (DESIGN CHOICE, log 182) -/
def fillGroup (s : State) (x : Stl) : Stl × State :=
  if x.txLen == 0 then (x, s)
  else
    let r := drawUnits s 51
    (pushBits x (lineGroupBits - x.txLen) (glue 512 (r.1.map (·.toNat))), r.2)

/-- The transmitter encodes a frame (R516, R518): `line` lists the groups that it completes. -/
def encodeFrame (s : State) (x : Stl) (f : StFrame) : Stl × State :=
  let r := if f.ftype == 2 then fillGroup s { x with line := [] } else ({ x with line := [] }, s)
  (pushBits r.1 2208 (frameBytes f), r.2)

end Sys2Proof.Machine
end

