-- ==== Sys2Proof/Machine/Stitch.lean ====
section
/-! DEFINITION. The stitch ports (R510 to R564): frames, credits and go-back-N retry, training, lane sparing, package routes with their
datelines, fencing, and time across the link. -/

namespace Sys2Proof.Machine

open Sys2Proof

/-! ## The port (R34, R511, R553) -/

/-- The stitch port of a port die. -/
def State.stl (s : State) (d : Nat) : Stl := s.stls.get {} d

/-- Change a stitch port. -/
def State.setStl (s : State) (d : Nat) (x : Stl) : State := { s with stls := s.stls.set {} d x }

/-- The port number of a port die (R34). -/
def portNum (s : State) (d : Nat) : Nat := ((dieInfo s d).map (·.sport)).getD 8

/-- STL_STATUS.STATE (R553). -/
def stlState (s : State) (d : Nat) : Nat := s.fld d STL_STATUS 3 0

/-- Enter a state now. -/
def setStlState (s : State) (d st : Nat) : State :=
  (s.setStl d { s.stl d with sinceFt := s.now d }).setFld d STL_STATUS 3 0 st

/-- Whether a port carries frames: UP or STANDBY, enabled, and not held OFF by its ROLE (R549). (DEDUCED, log 86) -/
def portLive (s : State) (d : Nat) : Bool :=
  (stlState s d == 5 || stlState s d == 6) && s.flag d STL_CFG 0 && s.fld d STL_CFG 6 5 != 3

/-- The port dies of the package. -/
def portDies (s : State) : List Nat := (allDies s).filter (fun d => isKind s d .port)

/-- Run a command of a stitch port. -/
def onPort (s : State) (d : Nat) (s' : State) : Out := onUnit (isKind s d .port) s'

/-- Milliseconds in ns. -/
def ms (n : Nat) : Nat := n * 1000000

/-! ## Fencing and failure (R529, R541, R542, R627, R633) -/

/-- The package in which the health root sits, where it is not this one (R627): no register names it. (DEDUCED, log 87) -/
def rootPkg (s : State) : Nat := if actsAsRoot s s.headDie then s.pkgOf s.headDie else Config.healthRoot s.headDie

/-- The header of a HEARTBEAT from the health logic of `d` (R621). -/
def hbHdr (s : State) (d kind : Nat) (dest : BitVec 64) : Hdr :=
  ((mkHdr 0x50 0 dest (ctlSrc s d)).setInl 359 352 kind).setInl 395 395 (boolNat (s.keeper d).lock)

/-- A suspect notice from a port die about its neighbour (R627): VPKG names it, and FAULTS carries the REASON received from it. (DEDUCED, log 122) -/
def suspectNotice (s : State) (d : Nat) : State :=
  let q := s.fld d STL_PEER 12 0
  let dest := fabricAddr (rootPkg s) s.headDie 0 0 0
  sendAt s d attCtl { hdr := ((hbHdr s d 3 dest).setInl 408 396 q).setInl 391 376 ((s.stl d).fenceIn.getD 0) }

/-- Units that a port's queues and buffers hold are lost; packets of the egress are dropped at the hem (R541). -/
def discardPort (s : State) (d : Nat) : State :=
  let x := s.stl d
  let n := (x.eg.rows.map (fun r => r.2.length)).sum + (if x.cur.isSome then 1 else 0)
  (s.setStl d { ({} : Stl) with sinceFt := x.sinceFt, fenceIn := x.fenceIn, fenceOut := x.fenceOut, goodFt := x.goodFt, arb := x.arb }).bump
    d STL_HEM_DROP 47 0 n

/-- The port enters FENCED (R530, R541): a PORT record, and FENCE frames for 1 µs where the link still carries them; with a REASON other
than 0 a suspect notice follows (R627). (DEDUCED, log 84) -/
def portFence (s : State) (d reason : Nat) (announce : Bool) : State :=
  let s1 := (setStlState (discardPort s d) d 8).raise d STL_EVENT 0
  let s2 := s1.setStl d { s1.stl d with fenceOut := if announce then some (reason, s.now d + 1000) else none }
  let s3 := noteFence (faultRec s2 d 0x0C (portNum s d) reason 5) d
  if reason == 0 then s3 else suspectNotice s3 d

/-- The port enters FAILED (R530). -/
def portFail (s : State) (d : Nat) : State :=
  let s1 := (setStlState (discardPort s d) d 9).raise d STL_EVENT 2
  noteFence (faultRec s1 d 0x0C (portNum s d) 2 5) d

/-- The port enters RETRAIN (R527, R530): the egress stops and its buffers are kept (R529). (DEDUCED, log 86) -/
def portRetrain (s : State) (d : Nat) : State :=
  let s1 := (setStlState s d 7).raise d STL_EVENT 1
  (s1.setStl d { s1.stl d with resume := true, retrainFt := s.now d, tries := 0 }).setFld d STL_STATUS 8 8 0

/-- Start training from DETECT (R530): the PMA's reset is released and the buffers are empty. -/
def portDetect (s : State) (d : Nat) : State :=
  let x := s.stl d
  let s1 := (setStlState s d 1).setStl d { ({} : Stl) with fenceIn := x.fenceIn, arb := x.arb, sinceFt := s.now d }
  ((s1.setFld d STL_LANE_STATE 31 27 31).setFld d STL_LANE_STATE 26 22 31).setFld d STL_LANE_STATE 21 0 0

/-- A port with ENABLE set, and a role, trains when the package is in TRAIN (R530, R549). -/
def portStart (s : State) (d : Nat) : State :=
  if s.flag d STL_CFG 0 && s.fld d STL_CFG 6 5 != 3 && stlState s d == 0 then portDetect s d else s

/-- STL_CTL_FENCE (R555). -/
def execStlCtlFence (d : Nat) (s : State) : Out :=
  onPort s d (if portLive s d then portFence s d 0 true else s)

/-- A write of RETRAIN (R555). -/
def portRetrainCtl (s : State) (d : Nat) : State :=
  if stlState s d == 8 || stlState s d == 9 then portDetect s d else s

/-- STL_CTL_RETRAIN (R555). -/
def execStlCtlRetrain (d : Nat) (s : State) : Out := onPort s d (portRetrainCtl s d)

/-- PORT_RETRAIN_RETRY (R694): every 100 ms for a port fenced by REASON 1, or failed after such a fence. -/
def execPortRetrainRetry (d : Nat) (s : State) : Out :=
  let x := s.stl d
  onPort s d (if x.fenceIn == some 1 && x.sinceFt + ms 100 ≤ s.now d then portRetrainCtl s d else s)

/-! ## Training (R530) -/

/-- Lanes of a 22-bit mask. -/
def laneList (m : Nat) : List Nat := (List.range 22).filter (natBit m)

/-- PMA_SIGNAL_DETECT (R530): the lanes with signal. -/
def execPmaSignalDetect (d lanes : Nat) (s : State) : Out :=
  onPort s d (if stlState s d == 1 && 20 ≤ (laneList lanes).length then setStlState s d 2 else s)

/-- The spare physical lanes that carry no logical lane and have not failed (R531). -/
def freeLanes (s : State) (d : Nat) : List Nat :=
  let x := s.stl d
  (List.range 22).filter (fun l => !x.rxLanes.contains l && !natBit (s.fld d STL_LANE_STATE 21 0) l && !x.rxMoves.any (fun m => m.physical == l))

/-- Ask the other end to move a logical lane onto a spare (R531); with none left the port retrains (R533). -/
def spareLane (s : State) (d logical : Nat) : State :=
  let x := s.stl d
  if x.rxMoves.any (fun m => m.logical == logical) then s
  else match freeLanes s d with
    | [] => portRetrain (faultRec (s.raise d STL_EVENT 5) d 0x0D logical 0 0) d
    | l :: _ =>
      let g := (x.group + 1024) % 65536
      s.setStl d { x with rxMoves := x.rxMoves ++ [⟨logical, l, g, false⟩],
                          ctl := x.ctl ++ [(4, BitVec.ofNat 512 (logical + l * 2 ^ 5 + g * 2 ^ 10))] }

/-- SPARE0_FOR and SPARE1_FOR: the logical lanes that physical lanes 20 and 21 carry, 31 where they carry none (R557). -/
def showSpares (s : State) (d : Nat) : State :=
  let on := fun (l : Nat) => ((List.range 20).find? (fun i => (s.stl d).rxLanes.getD i 31 == l)).getD 31
  (s.setFld d STL_LANE_STATE 26 22 (on 20)).setFld d STL_LANE_STATE 31 27 (on 21)

/-- The PMA's lock changes (R530, R531). (DEDUCED, log 86) -/
def pmaLock (s : State) (d lanes : Nat) : State :=
  let st := stlState s d
  let ls := laneList lanes
  if st == 2 || st == 7 then
    if ls.length < 20 then s
    else
      let x := s.stl d
      let s1 := (setStlState s d 3).setStl d { x with rxLanes := ls.take 20, txLanes := ls.take 20, rxMoves := [], txMoves := [], sinceFt := s.now d }
      showSpares (s1.setFld d STL_LANE_STATE 21 0 (2 ^ 22 - 1 - lanes % 2 ^ 22)) d
  else if st == 5 || st == 6 then
    (List.range 20).foldl (fun s i =>
      let x := s.stl d
      if natBit lanes (x.rxLanes.getD i 0) || !(stlState s d == 5 || stlState s d == 6) then s else spareLane s d i) s
  else s

/-- PMA_LOCK (R530). -/
def execPmaLock (d lanes : Nat) (s : State) : Out := onPort s d (pmaLock s d lanes)

/-- ALIGNMENT_LOCK (R530), with the group count locked on. -/
def execAlignmentLock (d group : Nat) (s : State) : Out :=
  onPort s d (if stlState s d != 3 then s
    else
      let s1 := setStlState s d 4
      (s1.setStl d { s1.stl d with group := group % 65536, tries := 0 }).setFld d STL_STATUS 8 8 1)

/-- DETECT_TIMEOUT (R530). -/
def execDetectTimeout (d : Nat) (s : State) : Out :=
  onPort s d (if stlState s d == 1 && (s.stl d).sinceFt + ms 10 ≤ s.now d then portFail s d else s)

/-- EQUALISE_TIMEOUT (R530, R533). -/
def execEqualiseTimeout (d : Nat) (s : State) : Out :=
  onPort s d (if (stlState s d == 2 || stlState s d == 7) && (s.stl d).sinceFt + ms 50 ≤ s.now d then portFail s d else s)

/-- ALIGN_TIMEOUT (R530). -/
def execAlignTimeout (d : Nat) (s : State) : Out :=
  let x := s.stl d
  onPort s d (if stlState s d != 3 || s.now d < x.sinceFt + ms 1 then s
    else if 3 ≤ x.tries then portFail s d
    else (setStlState s d 2).setStl d { x with tries := x.tries + 1, sinceFt := s.now d })

/-- RETRAIN_TIMEOUT (R530). -/
def execRetrainTimeout (d : Nat) (s : State) : Out :=
  let x := s.stl d
  let st := stlState s d
  onPort s d (if x.resume && (st == 7 || (2 ≤ st && st ≤ 4)) && x.retrainFt + ms 400 ≤ s.now d then portFence s d 3 true else s)

/-- FEC_LOCK_LOSS (R527). -/
def execFecLockLoss (d : Nat) (s : State) : Out := onPort s d (if portLive s d then portRetrain s d else s)

/-- NO_FRAME_TIMEOUT (R530): no good frame for 2 µs. (DEDUCED, log 85) -/
def execNoFrameTimeout (d : Nat) (s : State) : Out :=
  onPort s d (if (stlState s d == 5 || stlState s d == 6) && (s.stl d).goodFt + 2000 ≤ s.now d then portFence s d 2 false else s)

/-! ## Credits and acknowledgement (R519, R524 to R527) -/

/-- The number of a class (VC, DL). -/
def cls (vc dl : Nat) : Nat := vc * 2 + dl

/-- A class's share of the ingress buffer (R524, R560). -/
def classShare (s : State) (d vc : Nat) : Nat := s.fld d STL_RX_SPLIT (8 * vc + 7) (8 * vc) * 4

/-- How far sequence number `a` is past `b`, mod 4,096. -/
def seqPast (a b : Nat) : Nat := (a + 4096 - b % 4096) % 4096

/-- Take an ACK (R525). -/
def takeAck (x : Stl) (a : Nat) : Stl :=
  let n := seqPast a x.acked
  if n == 0 || x.retry.length < n then x
  else { x with acked := a, retry := x.retry.drop n, replays := 0,
                resend := x.resend.filter (fun f => seqPast f.seq a - 1 < 2048 && seqPast f.seq a != 0) }

/-- Take a NAK (R526): every held frame is sent again in order. -/
def takeNak (s : State) (d : Nat) : State :=
  let x := s.stl d
  if x.retry.isEmpty then s
  else
    let s1 := (s.setStl d { x with resend := x.retry.map (·.2), replays := x.replays + 1 }).bump d STL_REPLAY 47 0 1
    if 16 ≤ x.replays + 1 then portRetrain s1 d else s1

/-- What every received frame does first (R517, R519, R524): the codes are counted; a good frame's CTRL is taken. Answers whether the
frame is good. -/
def frameTake (s : State) (d : Nat) (r : StRx) : State × Bool :=
  let s1 := (s.bump d STL_FEC_CORR 47 0 r.corrected).bump d STL_LCRC_ERR 47 0 (boolNat (!r.lcrcOk))
  let s2 := if r.uncorr then (s1.bump d STL_FEC_UNCORR 47 0 1).raise d STL_EVENT 6 else s1
  let s3 := r.syms.foldl (fun s l =>
    let x := s.stl d
    if l.1 < 22 then
      (s.bumpSat d (STL_LANE_SYM_0 + 8 * l.1) 31 0 l.2).setStl d { x with laneSyms := x.laneSyms.set 0 l.1 (x.laneSyms.get 0 l.1 + l.2) }
    else s) s2
  let ok := r.lcrcOk && !r.uncorr
  if !ok then (s3, false)
  else
    let f := r.frame
    let x := s3.stl d
    let c := cls f.credVc f.credDl
    let x1 := { x with goodFt := s.now d, group := r.group % 65536, credit := x.credit.set 0 c (x.credit.get 0 c + f.credN) }
    let s4 := s3.setStl d (if f.ackValid then takeAck x1 f.ack else x1)
    (if f.nak then takeNak s4 d else s4, true)

/-- A frame at a port that accepts it: UP or STANDBY, and not halted (R541, R544). -/
def frameAt (s : State) (d : Nat) (r : StRx) (act : State → State) : Out :=
  onPort s d
    (if !portLive s d || isHalted s d 12 then s
     else
       let t := frameTake s d r
       if t.2 && portLive t.1 d then act t.1 else t.1)

/-- IDLE_FRAME (R519, R523). -/
def execIdleFrame (d : Nat) (f : StRx) (s : State) : Out := frameAt s d f (fun s => s)

/-! ## DATA frames (R511, R520, R526) -/

/-- One unit of an accepted frame enters the ingress buffer's packet (R511). -/
def ingressUnit (x : Stl) (u : StUnit) : Stl :=
  if u.type == 1 then
    let h := Hdr.unpack u.unit
    let p : StPk := { pk := { hdr := h }, dl := u.dl, pos := ⟨u.seg, u.hops⟩ }
    if h.len == 0 then { x with inBuf := x.inBuf ++ [p], rx := none } else { x with rx := some p, rxLeft := h.len.toNat }
  else if u.type == 0 then x
  else match x.rx with
    | none => x
    | some p =>
      let q := { p with pk := { p.pk with data := p.pk.data ++ [u.unit] } }
      if x.rxLeft ≤ 1 then { x with inBuf := x.inBuf ++ [q], rx := none, rxLeft := 0 }
      else { x with rx := some q, rxLeft := x.rxLeft - 1 }

/-- A DATA frame: accepted in sequence, or discarded with one NAK until the right frame comes (R526). -/
def dataFrame (s : State) (d : Nat) (r : StRx) : State :=
  let t := frameTake s d r
  if !portLive t.1 d then t.1
  else
    let x := t.1.stl d
    if t.2 && r.frame.seq == (x.rxSeq + 1) % 4096 then
      t.1.setStl d { r.frame.slots.foldl ingressUnit x with rxSeq := r.frame.seq, discarding := false }
    else t.1.setStl d { x with nak := x.nak || !x.discarding, discarding := true }

/-- DATA_FRAME (R526). -/
def execDataFrame (d : Nat) (f : StRx) (s : State) : Out :=
  onPort s d (if stlState s d != 5 || isHalted s d 12 then s else dataFrame s d f)

/-! ## Control frames (R522, R530, R531, R548) -/

/-- FENCE_FRAME (R530). -/
def execFenceFrame (d : Nat) (f : StRx) (s : State) : Out :=
  frameAt s d f (fun s =>
    let reason := bitsOf f.frame.slot0 7 0
    let s1 := s.setStl d { s.stl d with fenceIn := some reason }
    portFence s1 d reason false)

/-- LANE_REQUEST (R531): the transmitter agrees to move a lane. -/
def execLaneRequest (d : Nat) (f : StRx) (s : State) : Out :=
  frameAt s d f (fun s =>
    let v := f.frame.slot0
    let m : LaneMove := ⟨bitsOf v 4 0, bitsOf v 9 5, bitsOf v 25 10, true⟩
    let x := s.stl d
    s.setStl d { x with txMoves := x.txMoves ++ [m], ctl := x.ctl ++ [(4, v ||| BitVec.ofNat 512 (2 ^ 26))] })

/-- LANE_ACK (R531). -/
def execLaneAck (d : Nat) (f : StRx) (s : State) : Out :=
  frameAt s d f (fun s =>
    let v := f.frame.slot0
    let x := s.stl d
    s.setStl d { x with rxMoves := x.rxMoves.map (fun (m : LaneMove) =>
      if m.logical == bitsOf v 4 0 && m.physical == bitsOf v 9 5 && m.group == bitsOf v 25 10 then { m with agreed := true } else m) })

/-- Whether a group count has been reached. -/
def groupReached (now g : Nat) : Bool := (now + 65536 - g % 65536) % 65536 < 32768

/-- Carry a logical lane on its spare from SWITCH_GROUP on (R531, R557). -/
def moveLane (s : State) (d : Nat) (m : LaneMove) : State :=
  let x := s.stl d
  let old := x.rxLanes.getD m.logical 0
  let s1 := (s.setStl d { x with rxLanes := setAt x.rxLanes m.logical m.physical }).raise d STL_EVENT 4
  showSpares (s1.setFld d STL_LANE_STATE old old 1) d

/-- SWITCH_GROUP_REACHED (R531, R532), at a group count. -/
def switchGroup (s : State) (d group : Nat) : State :=
  let x := s.stl d
  if !portLive s d then s
  else
    let due := x.rxMoves.filter (fun m => groupReached group m.group)
    let tx := x.txMoves.filter (fun m => groupReached group m.group)
    let s1 := s.setStl d { x with group := group % 65536, rxMoves := x.rxMoves.filter (fun m => !groupReached group m.group),
                                  txMoves := x.txMoves.filter (fun m => !groupReached group m.group),
                                  txLanes := tx.foldl (fun l (m : LaneMove) => setAt l m.logical m.physical) x.txLanes }
    let s2 := (due.filter (·.agreed)).foldl (fun s m => moveLane s d m) s1
    if due.any (fun m => !m.agreed) then portRetrain s2 d else s2

/-- SWITCH_GROUP_REACHED (R532). -/
def execSwitchGroupReached (d group : Nat) (s : State) : Out := onPort s d (switchGroup s d group)

/-- LANE_ERROR_WINDOW (R531): the end of a window of codeword groups. -/
def laneWindow (s : State) (d : Nat) : State :=
  let x := s.stl d
  let bad := (List.range 20).filter (fun i => s.fld d STL_LANE_CFG 15 0 < x.laneSyms.get 0 (x.rxLanes.getD i 0))
  let s1 := s.setStl d { x with laneSyms := {} }
  if s.flag d STL_LANE_CFG 20 then bad.foldl (fun s i => if portLive s d then spareLane s d i else s) s1 else s1

/-- LANE_ERROR_WINDOW (R531). -/
def execLaneErrorWindow (d : Nat) (s : State) : Out := onPort s d (if portLive s d then laneWindow s d else s)

/-- STL_PEER after an INIT: PKG, PORT, DIR and VALID (R522, R552). -/
def setPeer (s : State) (d : Nat) (v : BitVec 512) : State := s.setReg d STL_PEER (BitVec.ofNat 64 (bitsOf v 18 0 + 2 ^ 19))

/-- A port comes UP or STANDBY from INIT (R529, R530). (DESIGN CHOICE, log 79; DESIGN CHOICE, log 80) -/
def portUp (s : State) (d : Nat) (v : BitVec 512) : State :=
  let x := s.stl d
  let rtt := s.draw
  let s1 := setPeer rtt.2 d v
  let s2 := s1.setReg d STL_RTT (BitVec.ofNat 64 (bitsOf rtt.1 15 0))
  let s3 := setStlState s2 d (if s.fld d STL_CFG 6 5 == 2 then 6 else 5)
  let share := (List.range 12).foldl (fun (t : Tbl Nat) c => t.set 0 c (classShare s d (c / 2))) {}
  let y : Stl :=
    if x.resume && v.getLsbD 47 then
      let k := seqPast (bitsOf v 46 35) x.acked
      let held := if k ≤ x.retry.length then x.retry.drop k else x.retry
      { x with acked := if k ≤ x.retry.length then bitsOf v 46 35 else x.acked, retry := held, resend := held.map (·.2), resume := false,
               replays := 0, discarding := false, nak := false }
    else { x with txSeq := 0, rxSeq := 4095, acked := 4095, retry := [], resend := [], credit := {}, owed := share, resume := false,
                  replays := 0, discarding := false, nak := false, rx := none, rxLeft := 0, inBuf := [] }
  { s3.setStl d { y with sinceFt := s.now d, goodFt := s.now d, fenceIn := none } with hbs := s3.hbs.set {} (d * 128 + 127) {} }

/-- Whether the ingress shares of a port sum to more than the buffer holds, which R561 makes misuse. -/
def splitBad (s : State) (d : Nat) : Bool :=
  192 < ((List.range 6).map (fun v => s.fld d STL_RX_SPLIT (8 * v + 7) (8 * v))).sum

/-- INIT_FRAME (R530): STL_PEER holds the identity that the last INIT named, whether it is the one expected or not (R552). (DESIGN CHOICE, log 79;
DESIGN CHOICE, log 80) -/
def initFrame (s : State) (d : Nat) (r : StRx) : State :=
  let t := frameTake s d r
  if !t.2 then t.1
  else
    let v := r.frame.slot0
    if bitsOf v 15 0 == s.fld d STL_PEER_EXP 15 0 then portUp t.1 d v
    else portFail ((setPeer t.1 d v).raise d STL_EVENT 3) d

/-- INIT_FRAME (R530); a port that would grant more credit than its ingress buffer holds is misused (R561). -/
def execInitFrame (d : Nat) (f : StRx) (s : State) : Out :=
  if isKind s d .port && stlState s d == 4 && splitBad s d then .fault (.undefinedMisuse 561)
  else onPort s d (if stlState s d == 4 && !isHalted s d 12 then initFrame s d f else s)

/-- A corrected stamp (R545, R562): `lo` is the lowest bit of the correction in STL_TS_ADJ. -/
def adjStamp (s : State) (d lo stamp : Nat) : Nat :=
  (((stamp : Int) + signedOf 32 (s.fld d STL_TS_ADJ (lo + 31) lo)) % 2 ^ 44).toNat

/-- STITCH_TIME_REQUEST (R548): the response goes out in the first frame after; its departure stamp is filled in then. -/
def execStitchTimeRequest (d : Nat) (f : StRx) (s : State) : Out :=
  frameAt s d f (fun s =>
    let v := f.frame.slot0
    let t2 := adjStamp s d 32 f.stamp
    let k := s.keeper d
    let w := 1 + bitsOf v 7 4 * 2 ^ 4 + boolNat k.lock * 2 ^ 8 + boolNat k.holdover * 2 ^ 9 + bitsOf v 51 12 * 2 ^ 56 +
      bitsOf v 55 52 * 2 ^ 96 + t2 / 16 * 2 ^ 100 + t2 % 16 * 2 ^ 140
    let x := s.stl d
    s.setStl d { x with ctl := x.ctl ++ [(2, BitVec.ofNat 512 w)] })

/-- The time master whose request a port carries, if any (R221, R225, R548): TIM_CFG of the master names the port. -/
def masterOf (s : State) (d : Nat) : Option Nat :=
  (allDies s).find? (fun m => s.fld m TIM_CFG 1 0 == 1 &&
    (if (s.keeper m).alt then s.fld m TIM_CFG 7 5 else s.fld m TIM_CFG 4 2) == portNum s d)

/-- STITCH_TIME_RESPONSE (R548). -/
def execStitchTimeResponse (d : Nat) (f : StRx) (s : State) : Out :=
  frameAt s d f (fun s =>
    let v := f.frame.slot0
    if (s.stl d).timeSeq != some (bitsOf v 7 4) then s
    else
      let t1 := bitsOf v 95 56 * 16 + bitsOf v 99 96
      let t2 := bitsOf v 139 100 * 16 + bitsOf v 143 140
      let t3 := bitsOf v 51 12 * 16 + bitsOf v 55 52
      let r := thetaDelay t1 t2 t3 (adjStamp s d 32 f.stamp)
      let s1 := (s.setStl d { s.stl d with timeSeq := none }).setReg d STL_TIME
        (BitVec.ofNat 64 (twosOf 32 r.2 * 2 ^ 32 + twosOf 32 r.1))
      match masterOf s d with
      | some m => if (s.keeper m).waiting && (s.keeper m).seq % 16 == bitsOf v 7 4 then applyExchange s1 m r.1 r.2 (v.getLsbD 8) else s1
      | none => s1)

/-! ## Package routes (R84, R534 to R538) -/

/-- Hop count, dimension and sign of a segment of ROUTE_PKG (R84). -/
def pkgSeg (h : Hdr) (i : Nat) : Nat × Nat × Nat :=
  (bitsOf h.routePkg (8 * i + 4) (8 * i), bitsOf h.routePkg (8 * i + 7) (8 * i + 6), bitsOf h.routePkg (8 * i + 5) (8 * i + 5))

/-- The direction of a segment (R534). -/
def segDir (h : Hdr) (i : Nat) : Nat := 2 * (pkgSeg h i).2.1 + (pkgSeg h i).2.2

/-- The port that carries a direction, none where the map holds none (R550). -/
def dirPort (s : State) (d dir : Nat) : Option Nat :=
  let q := s.fld d STL_DIR_MAP (4 * dir + 3) (4 * dir)
  if q < 8 then some q else none

/-- Ring size and coordinate of a dimension (R551); dimension 3 is the second Z ring. -/
def ringOf (s : State) (d dim : Nat) : Nat × Nat :=
  match dim with
  | 0 => (s.fld d STL_COORD 28 24 + 1, s.fld d STL_COORD 4 0)
  | 1 => (s.fld d STL_COORD 36 32 + 1, s.fld d STL_COORD 12 8)
  | _ => (s.fld d STL_COORD 44 40 + 1, s.fld d STL_COORD 20 16)

/-- DL of a packet on this link (the datelines), where `hops` is the HOPS value sent. -/
def datelineOf (s : State) (d : Nat) (h : Hdr) (pos : PkgStep) : Nat :=
  let (hc, dim, sign) := pkgSeg h pos.seg
  let (k, c) := ringOf s d dim
  let n := hc - 1 - pos.hops
  if sign == 0 then boolNat (k ≤ (c + k * 32 - n) % k + n + 1) else boolNat ((c + n) % k < n + 1)

/-! ## Egress (R511, R512, R523 to R525, R537) -/

/-- Take whole packets off the wire behind router 12's LOCAL output, oldest first. -/
def wirePackets : List Flit → List (Hdr × Flit × List DataUnit) × List Flit
  | [] => ([], [])
  | f :: fs =>
    match f.hdr with
    | none => wirePackets fs
    | some h =>
      let n := h.len.toNat
      if fs.length < n then ([], f :: fs)
      else
        let r := wirePackets fs
        ((h, f, (fs.take n).map (·.data)) :: r.1, r.2)

/-- The package-route step with which a packet leaves here (R537): its first link's, or the one the ingress set for a transit. -/
def egressStep (s : State) (d : Nat) (h : Hdr) (f : Flit) : PkgStep × State :=
  if f.phase == 3 then
    let l := s.transitPos.get [] d
    match l.find? (fun x => x.1 == h) with
    | some x => (x.2, { s with transitPos := s.transitPos.set [] d (l.erase x) })
    | none => (⟨0, (pkgSeg h 0).1 - 1⟩, s)
  else (⟨0, (pkgSeg h 0).1 - 1⟩, s)

/-- The rule that a packet's current segment breaks at an egress: another direction than the port's (R126, R538), no hop (R126), or more hops
than its ring has (R538). -/
def egressMisuse (s : State) (d : Nat) (h : Hdr) (pos : PkgStep) : Option Nat :=
  let (hc, dim, _) := pkgSeg h pos.seg
  if segDir h pos.seg != s.fld d STL_CFG 9 7 || hc == 0 then some 126
  else if (ringOf s d dim).1 ≤ hc then some 538 else none

/-- A packet reaches the egress (R124, R511, R538, R541). -/
def egressTake (s : State) (d : Nat) (h : Hdr) (f : Flit) (data : List DataUnit) : Out :=
  let r := egressStep s d h f
  let st := stlState s d
  if !h.crcOk then .next (hcrcFault r.2 d 12 h.vc.toNat h.tag.toNat)
  else if st == 8 || st == 9 || st == 0 then .next (r.2.bump d STL_HEM_DROP 47 0 1)
  else match egressMisuse s d h r.1 with
  | some e => .fault (.undefinedMisuse e)
  | none =>
    let x := r.2.stl d
    let dl := datelineOf s d h r.1
    let c := cls h.vc.toNat dl
    .next (r.2.setStl d { x with eg := x.eg.set [] c (x.eg.get [] c ++
      [{ pk := { hdr := h, data := data }, dl := dl, pos := r.1, stamp := (s.region d 0).cycles }]) })

/-- Run over packets while each goes on. -/
def foldOut {α : Type} (f : State → α → Out) : State → List α → Out
  | s, [] => .next s
  | s, a :: as =>
    match f s a with
    | .next s' => foldOut f s' as
    | o => o

/-- Every whole packet that has reached the egress enters its queue (R511). -/
def egressFill (s : State) (d : Nat) : Out :=
  let k := rk d 12 * 8 + portLocal
  let r := wirePackets (s.wires.get [] k)
  foldOut (fun s x => egressTake s d x.1 x.2.1 x.2.2) { s with wires := s.wires.set [] k r.2 } r.1

/-- The first packet of a class that may start now (R270, R524): the gate entry, of which only GATE holds VC0 (R512), the shaper, and
credit for the whole packet. -/
def classHead (s : State) (d c : Nat) : Option StPk :=
  match (s.stl d).eg.get [] c with
  | [] => none
  | p :: _ =>
    let v := c / 2
    let n := 1 + p.pk.data.length
    if gatePermits s d 8 v (if v == 0 then 0 else n * 4522) && (v == 0 || shaperOk s d 8 v) && n ≤ (s.stl d).credit.get 0 c then some p else none

/-- The class of a VC that goes first: the DLs take turns (R274). -/
def vcHead (s : State) (d v : Nat) : Option (Nat × StPk) :=
  let r := (s.stl d).arb.rot.getD v 0 % 2
  match classHead s d (cls v r) with
  | some p => some (cls v r, p)
  | none => (classHead s d (cls v (1 - r))).map (fun p => (cls v (1 - r), p))

/-- The deficits of VC1 to VC4 as an arbitration of the egress begins: 0 for a VC with no request (R276). -/
def egressDeficits (s : State) (d : Nat) : List Nat :=
  let x := s.stl d
  let idle := fun (v : Nat) => (x.eg.get [] (cls v 0)).isEmpty && (x.eg.get [] (cls v 1)).isEmpty
  [1, 2, 3, 4].map (fun v => if idle v then 0 else x.arb.deficit.getD (v - 1) 0)

/-- The egress's choice (R272, R276, R512): VC0, then VC5 within its share, then VC1 to VC4 by deficit, then VC5. (DEDUCED, log 83) -/
def egressChoose (s : State) (d : Nat) : Option (Nat × StPk × List Nat) :=
  let x := s.stl d
  let keep := egressDeficits s d
  let size := fun (v : Nat) => (vcHead s d v).map (fun r => 1 + r.2.pk.data.length)
  match vcHead s d 0 with
  | some r => some (r.1, r.2, keep)
  | none =>
    match (if x.arb.masked5 then none else vcHead s d 5) with
    | some r => some (r.1, r.2, keep)
    | none =>
      let bulk := if [1, 2, 3, 4].all (fun v => (size v).isNone) then none
        else drrLoop size (vcWeight s d 12) 300 x.arb.turn keep
      match bulk with
      | some (v, df) => (vcHead s d v).map (fun r => (r.1, r.2, df))
      | none => (vcHead s d 5).map (fun r => (r.1, r.2, keep))

/-- Whether the burst of a class keeps the egress's grant (R286): it still requests, neither its gate entry nor its shaper
ends it, and VC5 has grants left in the quota window (R281). (DEDUCED, log 83) -/
def burstKeeps (s : State) (d c : Nat) : Bool :=
  match (s.stl d).eg.get [] c with
  | [] => false
  | p :: _ => gatePermits s d 8 (c / 2) ((1 + p.pk.data.length) * 4522) && shaperOk s d 8 (c / 2) &&
      !(c / 2 == 5 && (s.stl d).arb.masked5)

/-- The packet that goes next: one of the burst that holds the grant, or, when none does, the one that the egress chooses; a packet of VC0
comes before either (R286, R512). A burst whose next packet lacks credit keeps the grant. (DEDUCED, log 83) -/
def egressPick (s : State) (d : Nat) : Option (Nat × StPk × List Nat) :=
  match (s.stl d).burst.filter (burstKeeps s d) with
  | none => egressChoose s d
  | some c =>
    let df := (s.stl d).arb.deficit
    match vcHead s d 0 with
    | some r => some (r.1, r.2, df)
    | none => (classHead s d c).map (fun p => (c, p, df))

/-- The burst that holds the grant after a packet of class `c` (R286): a queue that drops its request ends it. -/
def burstAfter (x : Stl) (c : Nat) : Option Nat :=
  if c / 2 == 0 then x.burst else if (x.eg.get [] c).length ≤ 1 then none else some c

/-- Start the packet that the egress has chosen (R286, R290, R524, R723); an arbitration that grants nothing still clears the deficits of
the VCs without a request (R276). -/
def egressStart (s : State) (d : Nat) : State :=
  match egressPick s d with
  | none =>
    let x := s.stl d
    if ((s.stl d).burst.filter (burstKeeps s d)).isSome then s
    else s.setStl d { x with burst := none, arb := { x.arb with deficit := egressDeficits s d } }
  | some (c, p, df) =>
    let x := s.stl d
    let n := 1 + p.pk.data.length
    let x1 := { x with eg := x.eg.set [] c ((x.eg.get [] c).drop 1), burst := burstAfter x c, cur := some p, left := p.pk.hdr.pack :: p.pk.data,
                       credit := x.credit.set 0 c (x.credit.get 0 c - n), arb := afterGrant false 0 (c % 2) (c / 2) df x.arb }
    probeEval (shaperCharge (s.setStl d x1) d 8 (c / 2) p.pk.hdr.len.toNat) d 6 0 0 0 p.pk.hdr

/-- The next units of the egress stream, at most `n` (R520, R523). (DEDUCED, log 88) -/
def egressUnits : Nat → State → Nat → List StUnit × State
  | 0, s, _ => ([], s)
  | n + 1, s0, d =>
    let s := if (s0.stl d).cur.isSome then s0 else egressStart s0 d
    let x := s.stl d
    match x.cur, x.left with
    | some p, u :: us =>
      let whole := us.length == p.pk.data.length
      let w : StUnit := { type := if whole then 1 else if us.isEmpty then 3 else 2, vc := p.pk.hdr.vc.toNat, dl := p.dl, seg := p.pos.seg,
                          hops := p.pos.hops, unit := u }
      let r := egressUnits n (s.setStl d { x with cur := if us.isEmpty then none else some p, left := us }) d
      (w :: r.1, r.2)
    | _, _ => ([], s)

/-- CTRL of the next frame (R519): a class's owed credit, the last DATA frame received, and NAK once. -/
def frameCtrl (x : Stl) (f : StFrame) : StFrame × Stl :=
  match x.owed.rows with
  | [] => ({ f with nak := x.nak, ackValid := true, ack := x.rxSeq }, { x with nak := false })
  | (c, n) :: _ =>
    let k := min n 4095
    ({ f with nak := x.nak, ackValid := true, ack := x.rxSeq, credVc := c / 2, credDl := c % 2, credN := k },
     { x with nak := false, owed := x.owed.set 0 c (n - k) })

/-- Send a frame: its CTRL is filled in, it is kept as the last frame sent, and it is encoded onto the lanes (R516). -/
def putFrame (s : State) (d : Nat) (f : StFrame) : State :=
  let r := frameCtrl (s.stl d) f
  let e := encodeFrame s { r.2 with sent := some r.1 } r.1
  e.2.setStl d e.1

/-- A TIME frame with its departure stamp (R546, R547). -/
def timeFrame (s : State) (d : Nat) (v : BitVec 512) : StFrame :=
  let t := adjStamp s d 0 (s.ft16 d)
  { ftype := 2, slot0 := setBits (setBits v 51 12 (t / 16)) 55 52 (t % 16) }

/-- A control frame that waits, if any: LANE, TIME response or TIME request (R531, R548). (DEDUCED, log 84) -/
def ctlFrame (s : State) (d : Nat) : Option State :=
  let x := s.stl d
  match x.ctl with
  | (ty, v) :: rest =>
    let f := if ty == 2 then timeFrame s d v else { ftype := ty, slot0 := v }
    some (putFrame (s.setStl d { x with ctl := rest }) d f)
  | [] =>
    match masterOf s d with
    | some m =>
      if s.timeReq.get false m then
        let q := (s.keeper m).seq % 16
        let s1 := { s.setStl d { x with timeSeq := some q } with timeReq := s.timeReq.set false m false }
        some (putFrame s1 d (timeFrame s d (BitVec.ofNat 512 (q * 16))))
      else none
    | none => none

/-- A DATA frame with new units, kept for retry (R523, R525). -/
def dataFrameOut (s : State) (d : Nat) : State :=
  let r := egressUnits 4 s d
  if r.1.isEmpty then putFrame r.2 d { ftype := 0 }
  else
    let x := r.2.stl d
    let f : StFrame := { ftype := 1, seq := x.txSeq, slots := r.1 }
    putFrame (r.2.setStl d { x with txSeq := (x.txSeq + 1) % 4096, retry := x.retry ++ [(x.txSeq, f)] }) d f

/-- The frame that the egress sends now (R523, R525, R526, R530, R544). -/
def frameOut (s : State) (d : Nat) : State :=
  let x := s.stl d
  let st := stlState s d
  match x.fenceOut with
  | some (reason, till) =>
    if s.now d < till then putFrame s d { ftype := 3, slot0 := BitVec.ofNat 512 reason } else s.setStl d { x with fenceOut := none }
  | none =>
    if st == 4 then
      let v := s.pkgOf d + portNum s d % 8 * 2 ^ 13 + s.fld d STL_CFG 9 7 * 2 ^ 16 + groupNow x % 65536 * 2 ^ 19 + x.rxSeq * 2 ^ 35 +
        boolNat x.resume * 2 ^ 47
      putFrame s d { ftype := 5, slot0 := BitVec.ofNat 512 v }
    else if !portLive s d then s
    else match ctlFrame s d with
      | some s1 => s1
      | none =>
        match x.resend with
        | f :: fs => if isHalted s d 12 then s else putFrame (s.setStl d { x with resend := fs }) d f
        | [] =>
          if st == 5 && x.retry.length < 237 && !isHalted s d 12 then dataFrameOut s d else putFrame s d { ftype := 0 }

/-- FRAME_TRANSMIT (R523). -/
def execFrameTransmit (d : Nat) (s : State) : Out :=
  if !isKind s d .port then .fault .noSuchUnit
  else match egressFill s d with
    | .next s1 => .next (frameOut s1 d)
    | o => o

/-! ## Ingress (R514, R537) -/

/-- Hand a packet to router 12 with the phase and transit route it starts with (R152, R514). -/
def ingressQueue (s : State) (d : Nat) (p : Packet) (phase : Nat) (transit : BitVec 48) : State :=
  s.enqueue d attStitch { pk := p, stamp := (s.region d 0).cycles, phase := phase, transit := transit }

/-- Hand a packet to the port path of CE `k`: it stands on the wire behind the CE's router output (R510). (DEDUCED, log 81) -/
def cePath (s : State) (d k : Nat) (p : Packet) : State :=
  let w := rk d (3 + 6 * k) * 8 + portLocal
  { s with wires := s.wires.set [] w (s.wires.get [] w ++ packetFlits p) }

/-- A packet goes on to the egress of port `q` (R537). (DEDUCED, log 81) -/
def transitTo (s : State) (d q : Nat) (p : Packet) (pos : PkgStep) : State :=
  let e := s.routeTab.get 0 (rk d 3 * 128 + 100 + q)
  if !e.getLsbD 48 then s.bump d (niw 3 NI_NOROUTE) 47 0 1
  else
    let t := (portDie s q).getD d
    let s1 := { s with transitPos := s.transitPos.set [] t (s.transitPos.get [] t ++ [(p.hdr, pos)]) }
    ingressQueue s1 d p 3 (routeSel e)

/-- A packet has arrived at its destination package (R537). -/
def ingressArrive (s : State) (d : Nat) (p : Packet) : Out :=
  let h := p.hdr
  let ce := h.destOff / 2 ^ 30 % 8
  if h.destPkg != s.pkgOf d then .fault (.undefinedMisuse 126)
  else if h.destDie == d && natBit h.destOff 33 && ce < 4 && boundOn s .port d h == .ce ce then .next (cePath s d ce p)
  else if s.flag d STL_CFG 1 then
    let a := s.arrivalTab.get 0 ((d * 8 + portNum s d) * 128 + h.destDie)
    if a.getLsbD 48 then .next (ingressQueue s d p 3 (BitVec.ofNat 48 (bitsOf a 47 0)))
    else .next (s.bump d (niw 3 NI_NOROUTE) 47 0 1)
  else .next (ingressQueue s d p 2 0)

/-- Where a packet goes from an ingress (R537). -/
def ingressRoute (s : State) (d : Nat) (x : StPk) : Out :=
  let h := x.pk.hdr
  let go := fun (seg hops : Nat) =>
    match dirPort s d (segDir h seg) with
    | some q => Host.Outcome.next (transitTo s d q x.pk ⟨seg, hops - 1⟩)
    | none => .fault (.undefinedMisuse 126)
  if 0 < x.pos.hops then go x.pos.seg x.pos.hops
  else
    let seg := x.pos.seg + 1
    if seg == 3 || (pkgSeg h seg).1 == 0 then ingressArrive s d x.pk else go seg (pkgSeg h seg).1

/-- INGRESS_FORWARD (R514): the oldest packet of the ingress buffer is checked, marked and forwarded; its credit goes back. -/
def ingressForward (s : State) (d : Nat) : Out :=
  let x := s.stl d
  match x.inBuf with
  | [] => .next s
  | p :: ps =>
    let h := p.pk.hdr
    let c := cls h.vc.toNat p.dl
    let s1 := s.setStl d { x with inBuf := ps, owed := x.owed.set 0 c (x.owed.get 0 c + 1 + p.pk.data.length) }
    if !h.crcOk then .next (hcrcFault s1 d 12 h.vc.toNat h.tag.toNat)
    else
      let (colour, drop, s2) := meterPass s1 d 8 h.vc.toNat h.len.toNat
      let s3 := probeEval s2 d 7 0 0 colour h
      if drop then .next s3 else ingressRoute s3 d p

/-- INGRESS_FORWARD (R514). -/
def execIngressForward (d : Nat) (s : State) : Out :=
  if !isKind s d .port then .fault .noSuchUnit else if isHalted s d 12 then .next s else ingressForward s d

/-! ## What a patch does to a port (R530, R540) -/

/-- A spare whose ROLE a patch has set to torus takes over (R540). (DEDUCED, log 89) -/
def spareTakeover (s : State) (d : Nat) : State :=
  if isKind s d .port && stlState s d == 6 && s.fld d STL_CFG 6 5 != 2 then (setStlState s d 5).raise d STL_EVENT 7 else s

end Sys2Proof.Machine
end

