-- ==== Sys2Proof/Machine/Verdict.lean ====
section
/-! DEFINITION. Verdicts of the failure detector within the package and in the pod (R627 to R632, R695), the entry of partitions to MEND
(R672, R677, R678, R693), and the takeover of the head tailor by its mirror (R745, R773, R774). -/

namespace Sys2Proof.Machine

open Sys2Proof

/-! ## Partitions and entry to MEND (R672, R677, R678, R693) -/

/-- The dies of a partition (R672). -/
def partDies (s : State) (q : Nat) : List Nat := (allDies s).filter (fun d => partitionOf s d == some q)

/-- The partitions of the package. -/
def partitions (s : State) : List Nat := (List.range 64).filter (fun q => !(partDies s q).isEmpty)

/-- Every CE of a partition aborts its active operations with REASON MEND (R678). -/
def abortPart (s : State) (q : Nat) : State :=
  (partDies s q).foldl (fun s d => (List.range 8).foldl (fun s k => if ceExists s d k then ceAbortAll s d k 5 else s) s) s

/-- A partition in SERVICE enters MEND (R677, R678): STEP ISOLATE, the cause, MEND_SEQ counted, RESTARTS and DUMP_DONE clear. (DEDUCED, log 134) -/
def mendEnter (s : State) (q cause : Nat) : State :=
  if s.mode != .service || (partDies s q).isEmpty || partStep s q != 0 then s
  else
    let h := s.headDie
    let seq := (s.fld h (partReg q) 15 8 + 1) % 256
    let v := s.now40 h * 2 ^ 24 + seq * 2 ^ 8 + cause % 8 * 2 ^ 4 + 1
    abortPart (noteState (s.setReg h (partReg q) (BitVec.ofNat 64 v)) .mend (partDies s q)) q

/-- A cause of mend for a slice: its partition enters MEND, and one that is there already has a further fault (R677, R682). -/
def mendCause (s : State) (d cause : Nat) : State :=
  match partitionOf s d with
  | some q => if partStep s q == 0 then mendEnter s q cause else mendFurther s q
  | none => s

/-- A package mend (R693): every partition from ISOLATE with CAUSE PACKAGE, and every stitch port fenced with REASON 1; the shared
dies are reset with the partitions. (DEDUCED, log 135) -/
def packageMend (s : State) : State :=
  if s.mode != .service then s
  else
    let s1 := (partitions s).foldl (fun s q =>
      if partStep s q == 0 then mendEnter s q 5
      else (s.setFld s.headDie (partReg q) 6 4 5).setFld s.headDie (partReg q) 3 0 1) s
    { (portDies s).foldl (fun s d => if portLive s d then portFence s d 1 true else s) s1 with pkgMend := 1 }

/-! ## Verdict messages (R621, R622, R629) -/

/-- The header of a verdict of the head tailor with number `vseq`: scope, unit, die and package named, and STATE. -/
def verdictHdr (s : State) (scope unit die pkg state : Nat) : Hdr :=
  ((((((hbHdr s s.headDie 2 0).setInl 437 430 s.vseq).setInl 429 426 scope).setInl 425 416 unit).setInl 415 409 die).setInl
    408 396 pkg).setInl 394 392 state

/-- The collective engines of the package. -/
def allCes (s : State) : List (Nat × Nat) :=
  (allDies s).flatMap (fun d => ((List.range 8).filter (fun k => ceExists s d k)).map (fun k => (d, k)))

/-- Send a verdict to every CE of the package (R629). -/
def tellCes (s : State) (h : Hdr) : State :=
  sendAll s s.headDie attCtl ((allCes s).map (fun c =>
    { hdr := { h with src := ctlSrc s s.headDie, dest := ceAddr (s.pkgOf s.headDie, c.1, c.2) } }))

/-- The health logic of the neighbour's port die across a port (R626). -/
def neighbourDest (s : State) (d : Nat) : BitVec 64 :=
  fabricAddr (s.fld d STL_PEER 12 0) ((portDie s (s.fld d STL_PEER 15 13)).getD d) 0 0 0

/-- Send a message of the head tailor across every port that is UP or STANDBY (R626, R629). (DEDUCED, log 120) -/
def floodPorts (s : State) (h : Hdr) : State :=
  (portDies s).foldl (fun s d =>
    if portLive s d then sendAt s s.headDie attCtl { hdr := { h with dest := neighbourDest s d } } else s) s

/-- Count a verdict made or received (R662, R799). -/
def countVerdict (s : State) : State := irq (s.bump s.headDie HLT_HB_STATUS 63 48 1) 3

/-- The next verdict number (R621). (DEDUCED, log 121) -/
def nextVseq (s : State) : State := { s with vseq := (s.vseq + 1) % 256 }

/-! ## Verdicts within the package (R630, R631, R663) -/

/-- Set or clear a die's bit of HLT_DEAD (R663). -/
def setDead (s : State) (d : Nat) (v : Bool) : State :=
  if d < 64 then s.setFld s.headDie HLT_DEAD0 d d (boolNat v) else s.setFld s.headDie HLT_DEAD1 (d - 64) (d - 64) (boolNat v)

/-- Whether a die is under a verdict. -/
def dieDead (s : State) (d : Nat) : Bool :=
  if d < 64 then s.flag s.headDie HLT_DEAD0 d else s.flag s.headDie HLT_DEAD1 (d - 64)

/-- The package has no mirror any more (R774). -/
def mirrorLost (s : State) : State :=
  { s.raise s.headDie HLT_STATUS 1 with mirrorDie := 128, ledger := { s.ledger with unmirrored := true } }

/-- The locks that a dead die owns in the other stores of the package break (R465, R631). -/
def breakDie (s : State) (d : Nat) : State :=
  let v := BitVec.ofNat 64 (s.pkgOf d + d * 2 ^ 13)
  (allDies s).foldl (fun s x => if x != d && isKind s x .compute then breakStart s x v else s) s

/-- What a die verdict does (R631). -/
def dieActions (s : State) (d : Nat) : State :=
  let s1 := fenceDie (setDead s d true) d
  match kindOf s d with
  | some .compute => mendCause (breakDie s1 d) d 1
  | some .memif => mendCause s1 d 1
  | some .service => if d == s.mirrorDie then mirrorLost s1 else s1
  | _ => s1

/-- The fence and the mend that follow a verdict on a tile, a CE or a sync store (R630, R682). -/
def unitActions (s : State) (scope d unit : Nat) : State :=
  let s1 :=
    if !isKind s d .compute then s
    else if scope == 0 then fenceTile s d (tileRouter s d (unit % 32) (unit / 32))
    else fenceUnit s d (if scope == 3 then unit else 8)
  furtherFault s1 d

/-- A verdict of the head tailor on a tile (scope 0, unit y × 32 + x), a die (1), a CE (3) or a sync store (4) of its package: it is
made once, sent to every CE, and acted on (R629 to R631). -/
def verdict (s : State) (scope die unit : Nat) : State :=
  if s.deadUnits.contains (scope, die, unit) then s
  else
    let s1 := nextVseq { s with deadUnits := s.deadUnits ++ [(scope, die, unit)] }
    let s2 := (countVerdict s1).raise die HLT_EVENT 4
    let s3 := tellCes s2 (verdictHdr s2 scope unit die (s.pkgOf s.headDie) 0)
    if scope == 1 then dieActions s3 die else unitActions s3 scope die unit

/-! ## Takeover (R745, R773, R774) -/

/-- Whether a register is effective on the active service die only (R27, R573). -/
def headOnly (off : Nat) : Bool := (regDesc .service true off).isSome && (regDesc .service false off).isNone

/-- The registers of the active service die pass to the new one (R773). (DEDUCED, log 123) -/
def moveHeadRegs (s : State) (old new : Nat) : State :=
  (s.csr.rows.filter (fun r => r.1 / 2 ^ 24 == old && headOnly (r.1 % 2 ^ 24))).foldl
    (fun s r => s.setReg new (r.1 % 2 ^ 24) r.2) s

/-- A memory space of one die, from key `a`, copied to that of another, from key `b`. -/
def copySpace (m : List Host.Cell) (a b : Nat) : List Host.Cell :=
  (m.filter (fun c => a ≤ c.1 && c.1 < a + 2 ^ 44)).foldl (fun m c => writeByte m (c.1 - a + b) c.2) m

/-- The recorder's windows and what they stage pass to the new active die (R496, R773). -/
def moveWindows (s : State) (old new : Nat) : State :=
  ((List.range 16).filter (fun n => (s.win old n).st != 0 && (s.win old n).list)).foldl (fun s n =>
    match (List.range 16).find? (fun k => (s.win new k).st == 0) with
    | none => s
    | some k =>
      let us := winUnits s old n
      let mem := (List.range us.length).foldl (fun m u => writeUnit m (winKey s new k u) (us.getD u 0)) s.mem
      { s with mem := mem }.setWin new k (s.win old n)) s

/-- The ledger goes on from the last record that the mirror acknowledged (R745): TAKEOVER, the ring writes due, a DEBUG_OPEN
that the ledger does not hold yet (R788), and a SEAL. (DEDUCED, log 124) -/
def ledgerTakeover (s : State) (old : Nat) : State :=
  let l := s.ledger
  let last := if l.ackSeq == 0 then s.draw else (BitVec.ofNat 512 (l.ackSeq - 1), s)
  let kept := l.openSeq.filter (fun n => n < l.ackSeq)
  let l0 : Ledger := { l with back := [], late := [], next := l.ackSeq, chain := l.ackChain, sent := [], writing := 0 }
  let l1 : Ledger := { l0 with openFt := none, openSeq := kept }
  let s1 := { last.2 with ledger := { l1 with failed := false, signing := none, unmirrored := true, gapN := 0 } }
  let s2 := ledgerAdd s1 0x87 (s.now40 s.headDie) [quadOf (bitsOf last.1 63 0) (s.headDie % 128 * 2 ^ 8 + old % 128)]
  let s3 := if s2.fld s2.headDie SEC_DEBUG_STATUS 2 0 == 1 && kept.isNone then debugRecord s2 (s2.now s2.headDie) else s2
  sealStart (ledgerChain (ringPump s3))

/-- The new active die becomes time master where the old one was; at the pod root it starts in holdover (R773). -/
def timeTakeover (s : State) (old new : Nat) : State :=
  let role := s.fld old TIM_CFG 1 0
  if role == 0 then s
  else
    let k := s.keeper new
    (s.setReg new TIM_CFG (s.reg old TIM_CFG)).setKeeper new
      { k with root := (s.keeper old).root, holdover := k.holdover || 2 ≤ role, alt := (s.keeper old).alt }

/-- Every mend in progress starts again from ISOLATE, without a restart counted (R683, R773). -/
def rerunMends (s : State) : State :=
  (partitions s).foldl (fun s q =>
    if 1 ≤ partStep s q && partStep s q ≤ 9 then s.setFld s.headDie (partReg q) 3 0 1 else s) s

/-- The mirror takes over from the active service die (R773). (DEDUCED, log 123) -/
def takeover (s : State) : State :=
  let old := s.headDie
  let new := s.mirrorDie
  let cause := if s.flag old TLR_STATUS 6 || s.flag old TLR_STATUS 7 then 2 else 1
  let s1 := moveWindows (timeTakeover (moveHeadRegs s old new) old new) old new
  let s2 := { s1 with headDie := new, mem := copySpace s1.mem (bootKey old 0) (bootKey new 0),
                      hbFrom := (allDies s1).foldl (fun t d => t.set 0 d (s.now new + 20000)) s1.hbFrom }
  let s3 := irq ((s2.setFld new TLR_STATUS 3 2 1).setFld new TLR_STATUS 11 8 cause) 7
  let s4 := mirrorLost (verdict s3 1 old 0)
  rerunMends (ledgerTakeover s4 old)

/-- A die is declared dead (R625, R631, R773): the active service die by its mirror, every other by the head tailor. -/
def declareDie (s : State) (d : Nat) : State :=
  if d != s.headDie then verdict s 1 d 0
  else if isKind s s.mirrorDie .service then takeover s else s

/-! ## Package verdicts (R219, R628, R629, R632, R695) -/

/-- Act on a verdict about package `q`, or on its clearing (R219, R632, R695). -/
def pkgActions (s : State) (q : Nat) (alive : Bool) : State :=
  let own := q == s.pkgOf s.headDie
  if alive then { s with deadPkgs := s.deadPkgs.filter (fun p => p != q), selfDead := s.selfDead && !own }
  else
    let s1 := { s with deadPkgs := if s.deadPkgs.contains q then s.deadPkgs else s.deadPkgs ++ [q] }
    let s2 := (portDies s).foldl (fun s d =>
      if portLive s d && s.fld d STL_PEER 12 0 == q then portFence s d 0 true else s) s1
    let k := s2.keeper s.headDie
    let s3 := if s.fld s.headDie TIM_CFG 1 0 == 3 && q == rootPkg s then s2.setKeeper s.headDie { k with takeover := true } else s2
    if own && !s3.selfDead then
      packageMend ((allDies s).foldl (fun s d => s.raise d HLT_EVENT 4) { s3 with selfDead := true })
    else s3

/-- A package verdict made or received by the head tailor: counted, sent to every CE and acted on (R629). -/
def pkgVerdict (s : State) (h : Hdr) : State :=
  pkgActions (tellCes (countVerdict s) h) (h.inlBits 408 396) (h.inlBits 394 392 == 4)

/-- The health root declares a package dead, or clears its verdict (R628, R695). -/
def declarePkg (s : State) (q : Nat) (alive : Bool) : State :=
  let s1 := nextVseq s
  let h := verdictHdr s1 2 0 0 q (if alive then 4 else 0)
  let s2 := { s1 with verdictsSeen := s1.verdictsSeen ++ [(s.pkgOf s.headDie, s1.vseq)] }
  pkgVerdict (floodPorts s2 h) h

/-- Whether a flooded verdict has been taken before; numbers half the range back are forgotten, since VSEQ wraps. (DEDUCED, log 121) -/
def noteSeen (l : List (Nat × Nat)) (o v : Nat) : List (Nat × Nat) :=
  l.filter (fun x => x.1 != o || (v + 256 - x.2) % 256 < 128) ++ [(o, v)]

/-- A flooded package verdict reaches the head tailor, which forwards it once (R629). -/
def pkgVerdictTake (s : State) (h : Hdr) : State :=
  let key := (h.srcPkg, h.inlBits 437 430)
  if s.verdictsSeen.contains key then s
  else pkgVerdict (floodPorts { s with verdictsSeen := noteSeen s.verdictsSeen key.1 key.2 } h) h

/-- A message for the head tailor that has reached a port die goes on to it (R629). (DEDUCED, log 120) -/
def toHead (s : State) (d : Nat) (h : Hdr) : State :=
  sendAt s d attCtl { hdr := { h with dest := fabricAddr (s.pkgOf d) s.headDie 0 0 0 } }

/-- The scope of a verdict as a CE's tables know it (R423, R629). -/
def ceScope (vscope : Nat) : Nat := if vscope == 0 then 2 else if vscope == 1 then 0 else if vscope == 2 then 1 else vscope

/-- A verdict reaches a CE (R423, R629). -/
def ceVerdict (s : State) (d k : Nat) (h : Hdr) : State :=
  if h.inlBits 429 426 == 2 && h.inlBits 394 392 == 4 then s
  else ceDead s d k (ceScope (h.inlBits 429 426)) (h.inlBits 408 396) (h.inlBits 415 409)
    (if h.inlBits 429 426 == 3 then h.inlBits 418 416 else h.inlBits 425 416)

/-- VERDICT (R629): at a CE, at the health logic of a port die, or at the head tailor. -/
def execVerdict (d att : Nat) (h : Hdr) (s : State) : Out :=
  headerChecked s d att { hdr := h } <|
  if h.inlBits 359 352 != 2 && h.inlBits 359 352 < 4 then .fault .wrongCommand
  else if 1024 ≤ att && ceExists s d (att - 1024) then
    arrive s d att 0x50 { hdr := h } (fun s => match ceIngress s d (att - 1024) h with
      | some s1 => ceVerdict s1 d (att - 1024) h
      | none => meterDrop s d (att - 1024) h)
  else if att == attCtl then
    arrive s d att 0x50 { hdr := h } (fun s =>
      if d == s.headDie then (if headRuns s && h.inlBits 429 426 == 2 then pkgVerdictTake s h else s)
      else if isKind s d .port then toHead s d h else s)
  else .fault .noSuchUnit

/-! ## Suspects (R627, R628) -/

/-- A suspect notice at the health root (R628): a second package within 1 ms, or FENCE REASON 1, makes a verdict. -/
def suspectTake (s : State) (h : Hdr) : State :=
  let q := h.inlBits 408 396
  let now := s.now s.headDie
  let s1 := { s with suspects := s.suspects.filter (fun x => now ≤ x.2.2 + 1000000) ++ [(q, h.srcPkg, now)] }
  if s.deadPkgs.contains q then s1
  else if h.inlBits 391 376 == 1 || s1.suspects.any (fun x => x.1 == q && x.2.1 != h.srcPkg) then declarePkg s1 q false
  else s1

/-- SUSPECT (R628). -/
def execSuspect (d att : Nat) (h : Hdr) (s : State) : Out :=
  headerChecked s d att { hdr := h } <|
  if h.inlBits 359 352 != 3 && h.inlBits 359 352 < 4 then .fault .wrongCommand
  else if att != attCtl then .fault .noSuchUnit
  else arrive s d att 0x50 { hdr := h } (fun s =>
    if d == s.headDie && headRuns s && (actsAsRoot s d) then suspectTake s h else s)

end Sys2Proof.Machine
end

