-- ==== Sys2Proof/Machine/Darn.lean ====
section
/-! DEFINITION. Darning (R640 to R647, R653, R665, R666): the darn engine of a die, the patches A and B, the shift of a segment, and the PL
state that the pattern and the patch log give (R585). -/

namespace Sys2Proof.Machine

open Sys2Proof

/-! ## Moving a tile's tables and PL fields (R644) -/

/-- The rows of unit `b` of a table, each unit having `n` rows, replaced by those of unit `a`. -/
def copyBlock {α : Type} [DecidableEq α] (t : Tbl α) (d : α) (n a b : Nat) : Tbl α :=
  (t.rows.filter (fun r => r.1 / n == a)).foldl (fun t r => t.set d (b * n + r.1 % n) r.2) (t.drop (fun k => k / n == b))

/-- The registers of a router that hold PL fields and move with a shift: TRT_CFG does not (R644). -/
def movedRegs : List Nat :=
  ((regsTrtAny ++ regsTrtCompute).filter (fun r => r.pl != 0 && r.off != 0 && r.off != 0x28 && r.off != 0x38)).map (·.off)

/-- The tables and PL fields of router and NI `a` come to `b`. -/
def moveTile (s : State) (d a b : Nat) : State :=
  let s1 := { s with slotTab := copyBlock s.slotTab 0 4096 (rk d a) (rk d b), treeTab := copyBlock s.treeTab 0 1024 (rk d a) (rk d b),
                     joinTab := copyBlock s.joinTab 0 32 (rk d a) (rk d b), routeTab := copyBlock s.routeTab 0 128 (rk d a) (rk d b) }
  let s2 := movedRegs.foldl (fun s o => s.setReg d (0x40000 + 0x100 * b + o) (s.reg d (0x40000 + 0x100 * a + o))) s1
  s2.setFld d (niw b NI_CFG) 0 0 (s2.fld d (niw a NI_CFG) 0 0)

/-- Every table and PL field of router and NI `b` becomes zero. -/
def clearTile (s : State) (d b : Nat) : State :=
  let s1 := { s with slotTab := s.slotTab.drop (fun k => k / 4096 == rk d b), treeTab := s.treeTab.drop (fun k => k / 1024 == rk d b),
                     joinTab := s.joinTab.drop (fun k => k / 32 == rk d b), routeTab := s.routeTab.drop (fun k => k / 128 == rk d b) }
  let s2 := movedRegs.foldl (fun s o => s.setReg d (0x40000 + 0x100 * b + o) 0) s1
  s2.setFld d (niw b NI_CFG) 0 0 0

/-- Set LX and LY of a position from the darn map (R128, R644, R812). -/
def setLogical (s : State) (d p : Nat) : State :=
  match logCol s d (p / 26) (p % 26) with
  | none => s
  | some x =>
    let v := p / 26 * 2 ^ 8 + x
    (((s.setFld d (trt p TRT_CFG) 28 24 x).setFld d (trt p TRT_CFG) 36 32 (p / 26)).setFld d (niw p NI_CFG) 12 8 (v % 2 ^ 8)).setFld d
      (niw p NI_CFG) 20 16 (v / 2 ^ 8)

/-- The first router of a row segment's panel (R127, R131). -/
def segBase (row panel : Nat) : Nat := 26 * row + 13 * panel

/-- Routers of a segment from panel column `c` to the spare (R643). -/
def segmentFrom (row panel c : Nat) : List Nat := (List.range (13 - c)).map (fun i => segBase row panel + c + i)

/-- The shift of a segment whose failed panel column is `c` (R644): each position east of the next takes the state from its west; the
one after the failed column keeps nothing. -/
def shiftTables (s : State) (d row panel c : Nat) : State :=
  let b := segBase row panel
  let s1 := (List.range (11 - c)).foldl (fun s i => moveTile s d (b + 11 - i) (b + 12 - i)) s
  (segmentFrom row panel (c + 1)).foldl (fun s p => setLogical s d p) (clearTile s1 d (b + c + 1))

/-- Scratchpad `a` of a die copied to position `b`. -/
def moveScratch (m : List Host.Cell) (d a b : Nat) : List Host.Cell :=
  let src := m.filter (fun c => c.1 / 2 ^ 34 == scratchKey d a 0 / 2 ^ 34)
  src.foldl (fun m c => writeByte m (scratchKey d b (c.1 % 2 ^ 34)) c.2) (m.filter (fun c => c.1 / 2 ^ 34 != scratchKey d b 0 / 2 ^ 34))

/-- A scratchpad whose contents are unpredictable (R644, R646). (DEDUCED, log 112) -/
def freeScratch (s : State) (d p : Nat) : State :=
  (List.range (scratchBytes / 64)).foldl (fun s i =>
    let r := s.draw
    { r.2 with mem := writeUnit r.2.mem (scratchKey d p (64 * i)) r.1 }) s

/-- The scratchpads of a segment shifted (R644). (DEDUCED, log 112) -/
def shiftScratch (s : State) (d row panel c : Nat) : State :=
  let b := segBase row panel
  let mem := (List.range (11 - c)).foldl (fun m i => moveScratch m d (b + 11 - i) (b + 12 - i)) s.mem
  freeScratch { s with mem := mem } d (b + c + 1)

/-! ## The PL state of the pattern and the patch log (R585) -/

/-- A state whose PL state is an image's. -/
def withImage (s : State) (im : PlImage) : State :=
  { s with csr := im.csr, slotTab := im.slotTab, treeTab := im.treeTab, joinTab := im.joinTab, routeTab := im.routeTab,
           routeStore := im.routeStore, arrivalTab := im.arrivalTab, gateTab := im.gateTab, syncInit := im.syncInit }

/-- One logged stream applied; a shift that it starts is carried out (R585, R644). -/
def replayStream (s : State) (x : PStream) : State :=
  let s1 := (applyRecs s x.die true (streamRecs x.words.length x.words)).1
  if isKind s1 x.die .compute && s1.flag x.die HLT_DARN_CTL 6 then
    let row := s1.fld x.die HLT_DARN_CTL 4 0
    let panel := s1.fld x.die HLT_DARN_CTL 5 5
    (shiftTables s1 x.die row panel (darnStart s1 x.die row panel)).setFld x.die HLT_DARN_CTL 6 6 0
  else s1

/-- The state that the pattern and the patch log, applied in order, give the PL fields and tables (R585). -/
def replayLog (s : State) : State :=
  s.patchLog.foldl (fun t ss => (ss.filter (fun x => x.pkg == s.pkgOf s.headDie)).foldl replayStream t) (withImage s s.plWant)

/-! ## Stream records (R478, R479) -/

/-- A CSR record. -/
def csrRec (off : Nat) (ws : List Word) : List Word :=
  BitVec.ofNat 64 (2 ^ 62 + (ws.length - 1) * 2 ^ 52 + off) :: ws

/-- A CSR record of numbers. -/
def csrRecN (off : Nat) (ws : List Nat) : List Word := csrRec off (ws.map (BitVec.ofNat 64))

/-- Records that write a 128-bit tree entry of a router. -/
def treeRecs (p t : Nat) (v : BitVec 128) : List Word :=
  csrRecN (trt p TRT_TREE_ADDR) [t, bitsOf v 63 0] ++ csrRecN (trt p TRT_TREE_ADDR) [t + 1024, bitsOf v 127 64]

/-- Records that write a route-table entry of an NI (R201). -/
def routeRecs (p e : Nat) (v : BitVec 128) : List Word :=
  csrRecN NI_TABLE_ADDR [p * 2 ^ 32 + e * 2, bitsOf v 63 0] ++ csrRecN NI_TABLE_ADDR [p * 2 ^ 32 + e * 2 + 1, bitsOf v 127 64]

/-- The records that give position `n` the tables and PL fields that position `p` has in state `r` (R645). -/
def tileRecs (r : State) (d p n x : Nat) : List Word :=
  csrRecN (trt n TRT_CFG) [p / 26 * 2 ^ 32 + x * 2 ^ 24 + 1] ++
  movedRegs.flatMap (fun o => csrRec (0x40000 + 0x100 * n + o) [r.reg d (0x40000 + 0x100 * p + o)]) ++
  csrRecN (niw n NI_CFG) [p / 26 * 2 ^ 16 + x * 2 ^ 8 + r.fld d (niw p NI_CFG) 0 0] ++
  (r.slotTab.rowsWhere (fun k => k / 4096 == rk d p)).flatMap (fun e =>
    csrRec (trt n TRT_SLOT_ADDR) [BitVec.ofNat 64 (e.1 % 4096), e.2]) ++
  (r.treeTab.rowsWhere (fun k => k / 1024 == rk d p)).flatMap (fun e => treeRecs n (e.1 % 1024) e.2) ++
  (r.joinTab.rowsWhere (fun k => k / 32 == rk d p)).flatMap (fun e => csrRec (trt n TRT_JOIN_ADDR) [BitVec.ofNat 64 (e.1 % 32), e.2]) ++
  (r.routeTab.rowsWhere (fun k => k / 128 == rk d p)).flatMap (fun e => routeRecs n (e.1 % 128) e.2)

/-! ## Hems of a segment (R637, R643, R645) -/

/-- The hem bits of some tiles that no other fenced tile of the die needs. -/
def segmentHem (s : State) (d : Nat) (seg keep : List Nat) : List (Nat × Nat × Nat) :=
  let other := (List.range 624).filter (fun p => tileFenced s d p && !seg.contains p)
  let stay := (keep ++ other).flatMap (tileHem s d)
  (seg.flatMap (tileHem s d)).filter (fun x => !stay.contains x)

/-- Kerex lifts the widened hem, except around `keep` (R643, R653). (DEDUCED, log 114) -/
def liftHem (s : State) (d : Nat) (seg keep : List Nat) : State :=
  (segmentHem s d seg keep).foldl (fun s x => s.setFld x.1 x.2.1 x.2.2 x.2.2 0) s

/-- The records of one die that clear some hem bits, one register each. -/
def hemRecs (s : State) (d : Nat) (bits : List (Nat × Nat × Nat)) : List Word :=
  let mine := bits.filter (fun x => x.1 == d)
  ((mine.map (·.2.1)).eraseDups).flatMap (fun off =>
    csrRec off [mine.foldl (fun v x => if x.2.1 == off then setBits v x.2.2 x.2.2 0 else v) (s.reg d off)])

/-! ## The darn engine (R643) -/

/-- The darn engine of a die. -/
def State.darn (s : State) (d : Nat) : Darn := s.darns.get {} d

/-- Change a darn engine. -/
def State.setDarn (s : State) (d : Nat) (x : Darn) : State := { s with darns := s.darns.set {} d x }

/-- HLT_DARN_STATUS.STATE (R666). -/
def darnState (s : State) (d : Nat) : Nat := s.fld d HLT_DARN_STATUS 2 0

/-- Set HLT_DARN_STATUS.STATE. -/
def setDarnState (s : State) (d st : Nat) : State := s.setFld d HLT_DARN_STATUS 2 0 st

/-- The segment of a darn. -/
def segOf' (j : DarnJob) : List Nat := segmentFrom j.row j.panel j.col

/-- The tiles of a darn's segment run again or stay fenced by themselves: their verdicts end, but for those of `keep`. -/
def segRevive (s : State) (d : Nat) (j : DarnJob) (keep : List Nat) : State :=
  let us := ((segOf' j).filter (fun p => !keep.contains p)).filterMap (fun p => (logCol s d j.row (p % 26)).map (fun x => j.row * 32 + x))
  { s with deadUnits := s.deadUnits.filter (fun u => !(u.1 == 0 && u.2.1 == d && us.contains u.2.2)) }

/-- A darn reaches IDLE with a result (R643, R656, R666). -/
def darnEnd (s : State) (d result : Nat) : State :=
  ((setDarnState (s.setDarn d { s.darn d with job := none }) d 0).setFld d HLT_DARN_STATUS 7 4 result).raise d HLT_EVENT 3

/-- A darn is given up: the widened hem is lifted except around `keep` (R643, R653). (DEDUCED, log 113) -/
def darnGiveUp (s : State) (d : Nat) (j : DarnJob) (keep : List Nat) (result : Nat) : State :=
  darnEnd (segRevive (liftHem s d (segOf' j) keep) d j keep) d result

/-- The stream of patch A (R640, R644). -/
def patchA (s : State) (d : Nat) (j : DarnJob) : PStream :=
  let reg := TRT_DARN0 + 8 * (j.row / 8)
  let lo := 8 * (j.row % 8) + 4 * j.panel
  let spare := segBase j.row j.panel + 12
  let pl := fun (p : Nat) => s.reg d (trt p TRT_CFG)
  { pkg := s.pkgOf d, die := d, words :=
      csrRec reg [setBits (s.reg d reg) (lo + 3) lo j.col] ++
      csrRec (trt j.p TRT_CFG) [setBits (pl j.p) 1 1 1] ++
      csrRec (trt spare TRT_CFG) [setBits (pl spare) 1 0 1] ++
      csrRecN HLT_DARN_CTL [64 + 32 * j.panel + j.row] }

/-- The streams of patch B (R645): the failed tile's tables and PL fields for its new position, and the widened hem cleared except at the
bypassed router. (DEDUCED, log 114) -/
def patchB (s : State) (d : Nat) (j : DarnJob) : List PStream :=
  let r := replayLog s
  let bits := (segmentHem s d (segOf' j) []).filter (fun x => !(x.1 == d && x.2.1 == HLT_HEM_0 + 8 * j.p))
  let x := (logCol s d j.row (j.p % 26)).getD 0
  let own : PStream := { pkg := s.pkgOf d, die := d, words := tileRecs r d j.p (j.p + 1) x ++ hemRecs s d bits }
  own :: (((bits.map (·.1)).filter (fun e => e != d)).eraseDups).map (fun e =>
    ({ pkg := s.pkgOf d, die := e, words := hemRecs s e bits } : PStream))

/-- T of a Kerex patch: the first round boundary PATCH_LEAD ahead (R587, R592). (DEDUCED, log 111) -/
def kerexT (s : State) : Nat := boundaryAt (s.now s.headDie + 1000 * s.fld s.headDie PAT_CFG 63 48)

/-- HOLD or TWIN_READ to POSTED: both patches are posted (R643, R645). -/
def darnPost (s : State) (d : Nat) (j : DarnJob) : State :=
  if !headRuns s then s
  else
    let t1 := kerexT s
    let s1 := kerexPatch s 3 d t1 [patchA s d j] 0
    let s2 := kerexPatch s1 4 d (boundaryAt (t1 + 100000)) (patchB s d j) 0
    let j1 : DarnJob := { j with patchA := some s.patchNum, patchB := some s1.patchNum }
    setDarnState (s2.setDarn d { s2.darn d with job := some j1 }) d 3

/-- The CE whose staging takes the twin image: that of HLT_DARN_CFG, or the next in order that is not fenced (R643, R653). (DEDUCED, log 117) -/
def darnCe (s : State) (d : Nat) : Option Nat :=
  let k := s.fld d HLT_DARN_CFG 2 0
  ((List.range 8).map (fun i => (k + i) % 8)).find? (fun k => !unitFenced s d k)

/-- Whether a twin's partner cannot give the image (R643, R650). -/
def partnerBad (s : State) (d : Nat) (j : DarnJob) (q : Nat) : Bool :=
  tileFenced s d q || (segOf' j).contains q || q / 26 == j.row

/-- From HOLD: to TWIN_READ where the failed tile has an enabled twin, else to POSTED (R643). -/
def darnGo (s : State) (d : Nat) (j : DarnJob) : State :=
  match j.twin with
  | none => darnPost s d j
  | some (q, _) =>
    match darnCe s d with
    | none => darnGiveUp s d j [j.p] 4
    | some k =>
      if partnerBad s d j q then darnGiveUp s d j [j.p] 4
      else setDarnState (s.setDarn d { s.darn d with job := some { j with ce := k } }) d 2

/-- A tile's twin partner and HLT_TWIN word, where it has one enabled (R648). -/
def darnTwin (s : State) (d p : Nat) : Option (Nat × Word) :=
  (twinOf s d p).map (fun w => (tileRouter s d (bitsOf w 36 32) (bitsOf w 44 40), w))

/-- The hem is widened to the whole segment, and a tile verdict goes out for each of its tiles (R643). -/
def darnHold (s : State) (d p : Nat) : State :=
  let j : DarnJob := { p := p, row := p / 26, panel := p % 26 / 13, col := p % 13, twin := darnTwin s d p }
  let s1 := setDarnState ((s.setDarn d { s.darn d with job := some j }).setFld d HLT_DARN_STATUS 7 4 0) d 1
  let s2 := (segOf' j).foldl (fun s r => fenceTile s d r) s1
  let s3 := (segOf' j).foldl (fun s r => match logCol s d j.row (r % 26) with
    | some x => verdict s 0 d (j.row * 32 + x)
    | none => s) s2
  darnGo s3 d j

/-- Whether R642 leaves a failed tile without a spare. (DEDUCED, log 113) -/
def noSpare (s : State) (d p : Nat) : Bool :=
  p % 26 % 13 == 12 || darnStart s d (p / 26) (p % 26 / 13) != 15 || tileFenced s d (segBase (p / 26) (p % 26 / 13) + 12)

/-- The darn engine takes a failed tile (R642, R643). -/
def darnTake (s : State) (d p : Nat) : State :=
  if noSpare s d p then darnEnd s d 2
  else if !areaOk s then darnEnd s d 3
  else darnHold s d p

/-- An idle darn engine takes the tiles that wait for it, while the die's partition is not in MEND; `fuel` bounds them. -/
def darnNext : Nat → State → Nat → State
  | 0, s, _ => s
  | n + 1, s, d =>
    let x := s.darn d
    match x.job, x.waiting with
    | none, p :: ps =>
      if inMend s d || !(s.mode == .fit || s.mode == .service) then s
      else darnNext n (darnTake (s.setDarn d { x with waiting := ps }) d p) d
    | _, _ => s

/-- Let the darn engine go on. (DEDUCED, log 118) -/
def darnRun (s : State) (d : Nat) : State := darnNext (s.darn d).waiting.length s d

/-- What a further failed tile does to the darn in progress (R643, R653): none where it lies elsewhere. -/
def darnMeets (s : State) (d p : Nat) : State :=
  match (s.darn d).job with
  | none => s
  | some j =>
    let st := darnState s d
    if (segOf' j).contains p && p != j.p then
      (if st == 4 then mendCause (darnEnd s d 4) d 6
       else if st == 5 then s
       else darnGiveUp s d j [j.p, p] 2)
    else if st == 2 && j.twin.map (·.1) == some p then darnGiveUp s d j [j.p] 4
    else s

/-- A tile has failed (R617, R629, R643): it is fenced, its verdict goes out, and it waits for a darn. -/
def tileFail (s : State) (d p : Nat) : State :=
  let s1 := fenceTile s d p
  let s2 := match logCol s1 d (p / 26) (p % 26) with
    | some x => verdict s1 0 d (p / 26 * 32 + x)
    | none => s1
  let s3 := darnMeets s2 d p
  if inMend s3 d then s3 else darnRun (s3.setDarn d { s3.darn d with waiting := (s3.darn d).waiting ++ [p] }) d

/-! ## The twin read, the shift and its end (R643 to R645) -/

/-- Copy the twin window from the partner into the staging of the darn's CE (R643). -/
def twinCopy (s : State) (d k q : Nat) (w : Word) : State :=
  let r := getUnits s (scratchKey d q) scratchBytes (bitsOf w 31 24 * 4096) (bitsOf w 23 16 * 64)
  { r.2 with mem := (List.range r.1.length).foldl (fun m i => writeUnit m (stageAt s d k (64 * i)) (r.1.getD i 0)) r.2.mem }

/-- TWIN_READ_COMPLETE (R643, R649): `ok` says that no access answered FENCED or TIMEOUT. (DEDUCED, log 117) -/
def twinReadComplete (s : State) (d : Nat) (ok : Bool) : State :=
  match (s.darn d).job with
  | none => s
  | some j =>
    if darnState s d != 2 then s
    else match j.twin with
      | none => s
      | some (q, w) =>
        if !ok || partnerBad s d j q then darnRun (darnGiveUp s d j [j.p] 4) d
        else if unitFenced s d j.ce then darnRun (darnGo s d j) d
        else
          let recv := s.fld d (HLT_TWIN_CNT_0 + 8 * q) 63 32
          darnPost ((twinCopy s d j.ce q w).setFld d HLT_DARN_STATUS 39 8 recv) d j

/-- TWIN_READ_COMPLETE (R643). -/
def execTwinReadComplete (d : Nat) (ok : Bool) (s : State) : Out := onUnit (isKind s d .compute) (twinReadComplete s d ok)

/-- Patch A has applied: the shift starts, and each shifted tile presents its new logical coordinates (R643, R646, R812). -/
def shiftStart (s : State) (d : Nat) (j : DarnJob) : State :=
  setDarnState ((segmentFrom j.row j.panel (j.col + 1)).foldl (fun s p => setLogical s d p) s) d 4

/-- The twin image goes from staging into the failed tile's new position (R644). -/
def twinWrite (s : State) (d : Nat) (j : DarnJob) : State :=
  match j.twin with
  | none => s
  | some (_, w) =>
    let us := (List.range (bitsOf w 23 16 * 64)).map (fun i => readUnit s.mem (stageAt s d j.ce (64 * i)))
    { s with mem := putUnits s.mem (scratchKey d (j.p + 1)) scratchBytes (bitsOf w 15 8 * 4096) (2 ^ 64 - 1) us }

/-- SHIFT_COMPLETE (R644, R665). -/
def shiftComplete (s : State) (d : Nat) : State :=
  match (s.darn d).job with
  | none => s
  | some j =>
    if darnState s d != 4 then s
    else
      let s1 := shiftScratch (shiftTables s d j.row j.panel j.col) d j.row j.panel j.col
      setDarnState ((twinWrite s1 d j).setFld d HLT_DARN_CTL 6 6 0) d 5

/-- SHIFT_COMPLETE (R644). -/
def execShiftComplete (d : Nat) (s : State) : Out := onUnit (isKind s d .compute) (shiftComplete s d)

/-- Whether a patch's window applies at a commit unit now. -/
def patchApplies (s : State) (d : Nat) (num : Option Nat) : Bool :=
  match s.patches.find? (fun p => some p.num == num) with
  | some p => (applyingWins s d).any (fun n => (s.win d n).t == p.t)
  | none => false

/-- What a patch that has just applied does to the die's darn (R643); `s0` is the state before T. -/
def darnApplied (s0 s : State) (d : Nat) : State :=
  match (s.darn d).job with
  | none => s
  | some j =>
    let st := darnState s d
    if st == 3 && s.flag d HLT_DARN_CTL 6 && patchApplies s0 d j.patchA then shiftStart s d j
    else if st == 5 && patchApplies s0 d j.patchB then darnRun (darnEnd (segRevive s d j []) d 1) d
    else s

/-- The writes due at a slice (R492, R498, R540, R643), unless its control unit is halted or fenced. -/
def applyDue (s : State) (d : Nat) : State :=
  if attHalted s d attCtl || unitFenced s d 9 then s else spareTakeover (darnApplied s (commitApply s d) d) d

/-- COMMIT_APPLY (R492, R498, R540, R643): the events of T at a slice; a FABRIC record that leaves the target die is misuse (R499). -/
def execCommitApply (d : Nat) (s : State) : Out :=
  if dieExists s d && !attHalted s d attCtl && !unitFenced s d 9 && !fabricOnDie s d then .fault (.undefinedMisuse 499)
  else onUnit (dieExists s d) (applyDue s d)

/-- A darn patch A that ends other than APPLIED (R643). -/
def darnPatchEnded (s : State) (num outcome : Nat) : State :=
  (allDies s).foldl (fun s d =>
    match (s.darn d).job with
    | some j =>
      if j.patchA == some num && outcome != 0 && darnState s d == 3 then darnRun (darnGiveUp s d j [j.p] 5) d else s
    | none => s) s

/-- The partition of a die enters MEND: its darn state is discarded (R643). -/
def darnDiscard (s : State) (d : Nat) : State := setDarnState (s.setDarn d {}) d 0

/-- A new active service die resumes the darns that had not been posted (R653, R773). -/
def darnResume (s : State) : State :=
  (allDies s).foldl (fun s d =>
    match (s.darn d).job with
    | some j => if darnState s d == 1 then darnRun (darnGo s d j) d else s
    | none => s) s

end Sys2Proof.Machine
end

