-- ==== Sys2Proof/Machine/Health.lean ====
section
/-! DEFINITION. The health logic (R612 to R626, R638, R639, R828): error windows, probes, scrubbing, wear rotation, telemetry,
heartbeats and their judgement, interim route patches, and a clock fault. -/

namespace Sys2Proof.Machine

open Sys2Proof

/-! ## Error windows (R612, R657) -/

/-- SEC_WINDOW_LOG2 as it acts (R657). -/
def secLog (s : State) (d : Nat) : Nat := min 40 (max 16 (s.fld d HLT_THRESH 39 32))

/-- The end of an input's error window (R612): above SEC_LIMIT its link is fenced, and both counts start again. -/
def secWindowEnd (s : State) (d p i : Nat) : State :=
  let w := (s.regionOf d p).cycles / 2 ^ secLog s d
  if w ≤ s.secWindow.get 0 (ek d p i) then s
  else
    let n := s.secCount.get 0 (ek d p i)
    let s1 := { s with secWindow := s.secWindow.set 0 (ek d p i) w, secCount := s.secCount.set 0 (ek d p i) 0,
                       dedCount := s.dedCount.set 0 (ek d p i) 0 }
    if s.fld d HLT_THRESH 31 16 < n then faultLink s1 d 0x01 p i (faultDetail i 0 0) (i < 4) else s1

/-- LINK_SEC_WINDOW_END (R612). -/
def execLinkSecWindowEnd (d p i : Nat) (s : State) : Out := onUnit (routerExists s d p && i < 6) (secWindowEnd s d p i)

/-! ## Probes (R613 to R618) -/

/-- One step of the probe generator, a 64-bit linear feedback shift register (R614); DEDUCED: the polynomial's terms are taken from
the top of a register that shifts up. (DEDUCED, log 100) -/
def lfsrStep (w : Word) : Word :=
  let b := w.getLsbD 63 != (w.getLsbD 62 != (w.getLsbD 60 != w.getLsbD 59))
  w <<< 1 ||| (if b then 1 else 0)

/-- The generator's next 512 bits, lowest first, and its state after them. (DEDUCED, log 100) -/
def lfsrUnit (w : Word) : DataUnit × Word :=
  (List.range 512).foldl (fun (x : DataUnit × Word) i =>
    (if x.2.getLsbD 63 then x.1 ||| (1 <<< i) else x.1, lfsrStep x.2)) (0, w)

/-- The data units of a probe (R614). -/
def probeData : Nat → Word → List DataUnit
  | 0, _ => []
  | n + 1, w => (lfsrUnit w).1 :: probeData n (lfsrUnit w).2

/-- A probe of output `o` of a router, with `n` data units (R614). DEST is stated nowhere: a free value. (DESIGN CHOICE, log 102) -/
def probePacket (s : State) (d o n : Nat) (seed : Word) : Packet × State :=
  let r := s.draw
  let h := mkHdr 0x52 5 (BitVec.ofNat 64 (bitsOf r.1 63 0)) (ctlSrc s d)
  let h1 := ((h.setInl 415 352 seed.toNat).setInl 418 416 o)
  ({ hdr := { h1 with len := BitVec.ofNat 6 n }.seal, data := probeData n seed }, r.2)

/-- The probe sequencer of a router. -/
def State.probeSeq (s : State) (d p : Nat) : ProbeSeq := s.probeSeqs.get {} (rk d p)

/-- Change a probe sequencer. -/
def State.setProbeSeq (s : State) (d p : Nat) (x : ProbeSeq) : State := { s with probeSeqs := s.probeSeqs.set {} (rk d p) x }

/-- Whether a router has an output to test (R613): a mesh or seam link that is not hemmed, a tile, or an attachment. -/
def probed (s : State) (d p o : Nat) : Bool :=
  if o < 4 then !outAbsent s d p o && !inputFenced s d p o &&
    (match linkOf s d p o with
     | .seam i => !seamHem s d i && (s.seam d i).link != 4
     | _ => true)
  else if o == portLocal && isKind s d .compute then !tileFenced s d p
  else (attachments s d).any (fun a => sinkPort s d a == some (p, o))

/-- The output that a router's sequencer tests next. -/
def nextProbe (s : State) (d p : Nat) : Option Nat :=
  ((List.range 6).map (fun i => ((s.probeSeq d p).next + i) % 6)).find? (probed s d p)

/-- Whether an output has a cycle that nothing else uses (R615). -/
def probeFree (s : State) (d p o n : Nat) : Bool :=
  ((s.router d p).held.get none o).isNone && guardOk s d p o n && !(reqsAt s d p o).any (eligible s d p o)

/-- The probe budget of an output in a cycle: one unit every 200 fc up to 33 (R615). (DEDUCED, log 101) -/
def probeBudget (x : ProbeSeq) (o cycle : Nat) : Nat := min 33 (x.budget.get 33 o + (cycle - x.budgetAt.get 0 o) / 200)

/-- Spend probe budget. -/
def spendProbe (x : ProbeSeq) (o cycle n : Nat) : ProbeSeq :=
  let since := if probeBudget x o cycle == 33 then cycle else x.budgetAt.get 0 o + (cycle - x.budgetAt.get 0 o) / 200 * 200
  { x with budget := x.budget.set 33 o (probeBudget x o cycle - n), budgetAt := x.budgetAt.set 0 o since }

/-- Key of a probe wire. -/
def pwk (d p o : Nat) : Nat := rk d p * 8 + o

/-- Put a probe on a wire. -/
def putProbe (s : State) (k : Nat) (pk : Packet) : State :=
  { s with probeWires := s.probeWires.set [] k (s.probeWires.get [] k ++ [pk]) }

/-- Whether probes run at a router (R613, R705). -/
def probesRun (s : State) (d p : Nat) : Bool := s.mode == .service && s.flag d HLT_CFG 1 && routerRuns s d p

/-- Send the next probe (R613 to R615); an output that stayed busy for a whole PERIOD is skipped and counted (R618). -/
def probeSend (s : State) (d p len : Nat) (seed : Word) : State :=
  let x := s.probeSeq d p
  if !probesRun s d p || x.job.isSome then s
  else match nextProbe s d p with
    | none => s
    | some o =>
      let cycle := (s.regionOf d p).cycles
      let n := min 32 len
      if probeFree s d p o n && n + 1 ≤ probeBudget x o cycle then
        let r := probePacket s d o n seed
        let y := spendProbe x o cycle (n + 1)
        putProbe (r.2.setProbeSeq d p { y with next := (o + 1) % 6, job := some { out := o, pk := r.1, sentFt := s.now d },
                                               lastFt := y.lastFt.set 0 o (s.now d) }) (pwk d p o) r.1
      else if x.lastFt.get 0 o + 1000 * s.fld d HLT_PROBE_CFG 15 0 ≤ s.now d then
        (s.setProbeSeq d p { x with next := (o + 1) % 6, lastFt := x.lastFt.set 0 o (s.now d) }).bump d HLT_PROBE_STATUS 63 32 1
      else s

/-- PROBE_SEND (R613 to R615, R618), with the LEN and the seed that the sequencer takes. -/
def execProbeSend (d p len : Nat) (seed : Word) (s : State) : Out := onUnit (routerExists s d p) (probeSend s d p len seed)

/-- A second failure (R616, R617, R653): the link or the tile is fenced, unless a link code has fenced it already. -/
def probeSecond (s : State) (d p o : Nat) : State :=
  let x := s.probeSeq d p
  let now := s.now d
  let recent := x.fails.filter (fun f => now ≤ f.2 + 1000 * s.fld d HLT_PROBE_CFG 15 0)
  let tile := isKind s d .compute && (4 ≤ o || recent.any (fun f => f.1 != o))
  let s1 := s.setProbeSeq d p { x with job := none, fails := recent ++ [(o, now)] }
  if !probed s d p o then s1
  else if !s.flag d HLT_CFG 0 then faultRec s1 d 0x05 p (faultDetail o 5 0) 0
  else if tile then tileFail (faultRec s1 d 0x05 p (faultDetail o 5 0) 2) d p
  else if o < 4 then fenceLink (faultRec s1 d 0x05 p (faultDetail o 5 0) 1) d p o
  else faultRec s1 d 0x05 p (faultDetail o 5 0) 0

/-- A probe fails (R616, R658). (DEDUCED, log 104) -/
def probeFail (s : State) (d p : Nat) : State :=
  let x := s.probeSeq d p
  match x.job with
  | none => s
  | some j =>
    let s1 := s.bumpSat d HLT_PROBE_STATUS 31 16 1
    if j.again then probeSecond s1 d p j.out
    else s1.setProbeSeq d p { x with job := some { j with failed := true, sentFt := s.now d } }

/-- The wire on which a probe reaches input `i` of a router from its neighbour. -/
def probeSource (s : State) (d p i : Nat) : Option Nat :=
  match linkOf s d p i with
  | .router q o => some (pwk d q o)
  | .seam a => match seamPeer s d a with
    | some (d', a') => (seamRouter s d' a').map (fun r => pwk d' r.1 r.2)
    | none => none
  | .none => none

/-- A probe that arrives with RETURN clear goes straight back (R614). (DEDUCED, log 103) -/
def probeBack (s : State) (k : Nat) (pk : Packet) : State :=
  let h := pk.hdr.setInl 419 419 1
  putProbe s k { pk with hdr := if pk.hdr.crcOk then h.seal else h }

/-- A probe comes back to its router: it passes when its header and data are those sent (R616). (DEDUCED, log 103) -/
def probeReturn (s : State) (d p i : Nat) (pk : Packet) : State :=
  let x := s.probeSeq d p
  match x.job with
  | none => s
  | some j =>
    if j.failed || j.out != i then s
    else if pk.hdr.crcOk && pk.hdr == (j.pk.hdr.setInl 419 419 1).seal && pk.data == j.pk.data then s.setProbeSeq d p { x with job := none }
    else probeFail s d p

/-- PROBE (R614, R616): a probe reaches input `i` of a router; with RETURN clear on input 4 or 5, the NI or the port logic of the
attachment there. -/
def execProbe (d p i : Nat) (pk : Packet) (s : State) : Out :=
  if !(routerExists s d p && i < 6) then .fault .noSuchUnit
  else if pk.hdr.cmd.toNat != 0x52 then .fault .wrongCommand
  else
    let back := pk.hdr.inlBits 419 419 == 1
    let src := if i < 4 then probeSource s d p i else some (pwk d p (if back then i + 2 else i))
    match src with
    | none => .next s
    | some k =>
      if (s.probeWires.get [] k).isEmpty || isHalted s d p then .next s
      else
        let s1 := { s with probeWires := s.probeWires.set [] k ((s.probeWires.get [] k).drop 1) }
        if inputFenced s d p i || !routerRuns s d p then .next s1
        else if back then .next (probeReturn s1 d p i pk)
        else .next (probeBack s1 (pwk d p (if i < 4 then i else i + 2)) pk)

/-- PROBE_TIMEOUT (R616): the probe has not come back within TIMEOUT fc of its router's panel, 0.625 ns each or 1.25 ns where the panel
is clocked down (R20). -/
def execProbeTimeout (d p : Nat) (s : State) : Out :=
  onUnit (routerExists s d p)
    (match (s.probeSeq d p).job with
     | some j => if !j.failed && s.fld d HLT_PROBE_CFG 43 32 * (if (s.regionOf d p).down then 10 else 5) ≤ (s.now d - j.sentFt) * 8 then probeFail s d p else s
     | none => s)

/-- PROBE_REPEAT (R616): the same probe again, 1 µs after its failure. (DEDUCED, log 101) -/
def execProbeRepeat (d p : Nat) (s : State) : Out :=
  let x := s.probeSeq d p
  onUnit (routerExists s d p)
    (match x.job with
     | some j =>
       if j.failed && j.sentFt + 1000 ≤ s.now d && probesRun s d p && probeFree s d p j.out j.pk.data.length then
         putProbe (s.setProbeSeq d p { x with job := some { j with failed := false, again := true, sentFt := s.now d } })
           (pwk d p j.out) j.pk
       else s
     | none => s)

/-! ## Scrubbing (R619) -/

/-- INDEX of a scrub record (R607). -/
def scrubIndex : ScrubAt → Nat
  | .table t sub _ => if t == 5 then sub / 8 else sub
  | .object o => o
  | .group k _ => k
  | .staging k _ _ _ => k
  | .window n => n

/-- Whether a slice has the word. -/
def scrubExists (s : State) (d : Nat) : ScrubAt → Bool
  | .table t sub ix => t != 8 && (tableSubs s d t).contains sub && ix < tableSize t
  | .object o => isKind s d .compute && o < 16384
  | .group k e => ceExists s d k && e < 64
  | .staging k _ _ _ => ceExists s d k
  | .window n => dieExists s d && n < 16

/-- Stream records that write one table entry as a state holds it (R479, R572). -/
def entryRecs (r : State) (d t sub ix : Nat) : List Word :=
  match t with
  | 1 => routeRecs sub ix (r.routeTab.get 0 (rk d sub * 128 + ix))
  | 2 => csrRec NI_TABLE_ADDR [BitVec.ofNat 64 (2 ^ 62 + ix * 16), r.arrivalTab.get 0 (d * 1024 + ix)]
  | 3 => csrRecN NI_TABLE_ADDR [2 ^ 63 + ix * 2, (r.routeStore.get 0 (d * 8192 + ix)).toNat]
  | 4 => treeRecs sub ix (r.treeTab.get 0 (rk d sub * 1024 + ix))
  | 5 => csrRec (trt (sub / 8) TRT_SLOT_ADDR)
      [BitVec.ofNat 64 (sub % 8 * 512 + ix), r.slotTab.get 0 ((rk d (sub / 8) * 8 + sub % 8) * 512 + ix)]
  | 6 => csrRec (trt sub TRT_JOIN_ADDR) [BitVec.ofNat 64 ix, r.joinTab.get 0 (rk d sub * 32 + ix)]
  | 7 => csrRec TIM_GATE_ADDR
      [BitVec.ofNat 64 (sub / 2 * 512 + (sub % 2 + (r.gate d (sub / 2)).bank) % 2 * 256 + ix),
       r.gateTab.get 0 ((gk d (sub / 2) * 2 + sub % 2) * 256 + ix)]
  | _ => []

/-- Stream records that restore the pattern's allocation of an object (R469, R619). -/
def objectRecs (s : State) (d o : Nat) : List Word :=
  let y := s.syncInit.get 0 (ok d o)
  let lo := if objType y == 3 then freeLock y true else y
  csrRecN (0x100000 + 16 * o) [bitsOf lo 63 0, bitsOf y 127 64]

/-- Kerex makes a restore patch with some records for one slice, while the pattern areas are good (R592, R619). -/
def restoreEntry (s : State) (d : Nat) (ws : List Word) : State :=
  if areaOk s && kerexMay s (kerexT s) false then
    kerexPatch s 6 d (kerexT s) [{ pkg := s.pkgOf d, die := d, words := ws }] 0
  else s

/-- A word with an uncorrectable error (R619). (DEDUCED, log 73; DEDUCED, log 105) -/
def scrubDouble (s : State) (d : Nat) : ScrubAt → State
  | .table t sub ix => restoreEntry (writeEntry s d t sub ix [0, 0]) d (entryRecs (replayLog s) d t sub ix)
  | .object o =>
    let x := s.sobj d o
    let s1 := if objWatched x then notify s d x 1 7 0 else s
    restoreEntry (s1.setSobj d o 0) d (objectRecs s d o)
  | .group k e => s.setEnt d k e { s.ent d k e with halted := true }
  | .staging k e tag n =>
    match s.op ⟨d, k, e, tag⟩ with
    | none => s
    | some o => match o.rx[n]? with
      | none => s
      | some x =>
        let src := ((x.pks.head?).map (fun p => p.hdr.src)).getD 0
        let g := s.grp d k e
        let s1 := countChk (s.updOp ⟨d, k, e, tag⟩ (fun o => { o with rx := o.rx.filter (fun y => y.key != x.key) })) d k
        badTransfer s1 ⟨d, k, e, tag⟩ 0 x.key src (if x.key.cmd == 0x31 then firstRank g else servedRank g)
  | .window n =>
    let w := s.win d n
    if 1 ≤ w.st && w.st ≤ 3 then
      stageAck ((s.setWin d n {}).raise d CMT_EVENT 2) d n 2
        { src := w.src, group := BitVec.ofNat 16 w.group, tag := BitVec.ofNat 16 w.tag }
    else s

/-- SCRUB_WORD (R619): the scrubber visits a word and finds `err`. -/
def execScrubWord (d : Nat) (at' : ScrubAt) (err : WordErr) (s : State) : Out :=
  onUnit (scrubExists s d at')
    (if s.mode != .service || !s.flag d HLT_CFG 2 || (s.halted.get none (d * 2)).isSome then s
     else match err with
       | .clean => s
       | .single => faultRec s d 0x06 (scrubIndex at') 0 0
       | .double => scrubDouble (faultRec s d 0x07 (scrubIndex at') 0 0) d at')

/-! ## Wear rotation and interim routes (R620, R638, R639) -/

/-- The NIs of a die that hold a route table (R42, R144). -/
def tableNis (s : State) (d : Nat) : List Nat :=
  match kindOf s d with
  | some k => (List.range 624).filter (niExists k)
  | none => []

/-- Route-table entries of a die that satisfy a test: NI, entry, value. -/
def routesWhere (s : State) (d : Nat) (f : Nat → Nat → BitVec 128 → Bool) : List (Nat × Nat × BitVec 128) :=
  (tableNis s d).flatMap (fun p => ((s.routeTab.rowsWhere (fun k => k / 128 == rk d p)).filter (fun r => f p (r.1 % 128) r.2)).map
    (fun r => (p, r.1 % 128, r.2)))

/-- The stream that inverts USE_ALT in some entries of a die. -/
def altStream (s : State) (d : Nat) (es : List (Nat × Nat × BitVec 128)) : List PStream :=
  if es.isEmpty then []
  else [{ pkg := s.pkgOf d, die := d, words := es.flatMap (fun e =>
    csrRecN NI_TABLE_ADDR [e.1 * 2 ^ 32 + e.2.1 * 2 + 1, bitsOf (setBits e.2.2 113 113 (1 - bitsOf e.2.2 113 113)) 127 64]) }]

/-- WEAR_ROTATION (R620, R661): USE_ALT inverted in every entry of the die whose ALT_VALID is 1. -/
def execWearRotation (d : Nat) (s : State) : Out :=
  let period := s.fld d HLT_WEAR_CFG 15 0
  let es := routesWhere s d (fun _ _ v => v.getLsbD 112)
  onUnit (dieExists s d)
    (if s.mode == .service && s.flag d HLT_CFG 3 && period != 0 && s.wearFt.get 0 d + 1000000000 * period ≤ s.now d &&
        !s.flag d HLT_STATUS 0 && (s.darn d).job.isNone && kerexMay s (kerexT s) true then
       { kerexPatch s 1 d (kerexT s) (altStream s d es) 0 with wearFt := s.wearFt.set 0 d (s.now d) }
     else s)

/-- Routers that a darn will repair: its segment, and the tiles that wait (R638). -/
def underDarn (s : State) (d p : Nat) : Bool :=
  (s.darn d).waiting.contains p || (match (s.darn d).job with
    | some j => (segOf' j).contains p
    | none => false)

/-- Whether an output is hemmed by a fence that no darn will repair (R633, R638). -/
def fencedOut (s : State) (d p o : Nat) : Bool :=
  match linkOf s d p o with
  | .seam i => seamHem s d i || (s.seam d i).link == 4
  | .router q _ => outHem s d p o && !(isKind s d .compute && underDarn s d q)
  | .none => false

/-- The outputs that a route takes from router `p`: die, router, output. `fuel` bounds the hops. -/
def routePath : Nat → State → Nat → Nat → Nat → Hdr → Flit → List (Nat × Nat × Nat)
  | 0, _, _, _, _, _, _ => []
  | n + 1, s, d, p, inp, h, f =>
    if 6 ≤ (advance h f).seg then []
    else match outsOf s d p inp h f with
      | some ([o], g) => (d, p, o) :: (match linkOf s d p o with
        | .router q i => routePath n s d q i h g
        | .seam i => match seamPeer s d i with
          | some (d', i') => match seamRouter s d' i' with
            | some (q, j) => routePath n s d' q j h g
            | none => []
          | none => []
        | .none => [])
      | _ => []

/-- Whether a route from an NI crosses a fenced unit. -/
def crosses (s : State) (d p : Nat) (route : Nat) : Bool :=
  let h : Hdr := { routeLocal := BitVec.ofNat 48 route }
  (routePath 512 s d p portLocal h (startPhase h 0 {})).any (fun x => fencedOut s x.1 x.2.1 x.2.2)

/-- The route that an entry selects, or the other one (R144). -/
def entryRoute (v : BitVec 128) (alt : Bool) : Nat := if v.getLsbD 113 != alt then bitsOf v 111 64 else bitsOf v 47 0

/-- Entries whose selected route crosses a fenced unit. -/
def cutRoutes (s : State) (d : Nat) : List (Nat × Nat × BitVec 128) :=
  routesWhere s d (fun p _ v => v.getLsbD 48 && crosses s d p (entryRoute v false))

/-- Whether the other route of an entry avoids every fenced unit (R638). -/
def mayTurn (s : State) (d : Nat) (e : Nat × Nat × BitVec 128) : Bool :=
  e.2.2.getLsbD 112 && !crosses s d e.1 (entryRoute e.2.2 true)

/-- A fault record that names a die no route reaches any more (R639); its CLASS is stated nowhere: a free value. (DEDUCED, log 106) -/
def lostRec (s : State) (d e : Nat) : State :=
  let r := s.draw
  faultRec r.2 d (bitsOf r.1 7 0) e 0 0

/-- INTERIM_ROUTE_PATCH (R638, R639): Kerex turns the entries of a die that a fence has cut to their other route; ROUTE_LOST and a record
for each die that stays cut off. (DEDUCED, log 107) -/
def execInterimRoutePatch (d : Nat) (s : State) : Out :=
  let cut := cutRoutes s d
  let turn := cut.filter (mayTurn s d)
  let lost := ((cut.filter (fun e => !mayTurn s d e)).map (fun e => e.2.1)).eraseDups
  let t := kerexT s
  onUnit (dieExists s d)
    (let s1 := if turn.isEmpty || !kerexMay s t true then s
               else (kerexPatch s 2 d t (altStream s d turn) 0).raise d HLT_STATUS 0
     if lost.isEmpty then s1 else lost.foldl (fun s e => lostRec s d e) (s1.raise d HLT_EVENT 2))

/-! ## Telemetry (R661, R800) -/

/-- TELEMETRY_SEND: the die's temperature, its governor average and its fault total reach the head tailor's table. (DESIGN CHOICE, log 108) -/
def execTelemetrySend (d temp : Nat) (s : State) : Out :=
  let w0 := s.now40 d * 2 ^ 24 + temp % 2 ^ 16
  let avg := (s.gov d).avg.toNat
  let w1 := avg % 2 ^ 32 * 2 ^ 32 + s.fld d HLT_FLOG_CTL 47 32
  onUnit (dieExists s d)
    (if s.mode == .service && s.telemFt.get 0 d + 1000 * s.fld d HLT_WEAR_CFG 31 16 ≤ s.now d then
       { s with telem := (s.telem.set 0 (2 * d) (BitVec.ofNat 64 w0)).set 0 (2 * d + 1) (BitVec.ofNat 64 w1),
                telemFt := s.telemFt.set 0 d (s.now d) }
     else s)

/-! ## Die heartbeats (R623 to R625) -/

/-- Whether a slice's tailor core runs, so that its heartbeats go out (R623, R675, R770). -/
def tailorRuns (s : State) (d : Nat) : Bool :=
  s.flag d TLR_STATUS 1 && !s.flag d TLR_STATUS 6 && !s.flag d TLR_STATUS 7

/-- The service dies that the pattern names active and mirror (R623). -/
def hbTargets (s : State) (d : Nat) : List Nat :=
  (allDies s).filter (fun x => isKind s x .service && x != d && (s.fld x SLC_PLACE 7 6 == 1 || s.fld x SLC_PLACE 7 6 == 2))

/-- A die heartbeat (R621). -/
def dieHeartbeat (s : State) (d k dst : Nat) : Packet :=
  let h := hbHdr s d 0 (fabricAddr (s.pkgOf d) dst 0 0 0)
  { hdr := ((h.setInl 394 392 (partState s d).code).setInl 391 376 (s.fld d HLT_FLOG_CTL 47 32)).setInl 375 360 k }

/-- HEARTBEAT_SEND (R623). -/
def execHeartbeatSend (d : Nat) (s : State) : Out :=
  let k := s.now d / 10000
  onUnit (dieExists s d)
    (if (s.keeper d).roundsOn && s.mode != .stop && tailorRuns s d && s.hbSent.get 0 d ≤ k then
       { sendAll s d attCtl ((hbTargets s d).map (dieHeartbeat s d k)) with hbSent := s.hbSent.set 0 d (k + 1) }
     else s)

/-- The heartbeat number that a SEQ stands for, near `now`. -/
def seqNear (now seq : Nat) : Nat :=
  let b := (now + 65536 - seq % 65536) % 65536
  if b < 32768 then now - b else now + (65536 - b)

/-- Record a heartbeat of subject `x` at receiver `d`. -/
def hbTake (s : State) (d x now seq : Nat) : State :=
  let e := s.hbs.get {} (d * 128 + x)
  let first := if e.last == 0 then seqNear now seq else e.next
  { s with hbs := s.hbs.set {} (d * 128 + x) { e with last := max e.last (seqNear now seq + 1), next := if x == 127 then first else e.next } }

/-- DIE_HEARTBEAT (R623, R630): recorded at a service die's health logic; one from a dead unit is ignored. -/
def execDieHeartbeat (d att : Nat) (h : Hdr) (s : State) : Out :=
  headerChecked s d att { hdr := h } <|
  if h.inlBits 359 352 != 0 && h.inlBits 359 352 < 4 then .fault .wrongCommand
  else if att != attCtl then .fault .noSuchUnit
  else arrive s d att 0x50 { hdr := h } (fun s =>
    if isKind s d .service && h.srcPkg == s.pkgOf d && !dieDead s h.srcDie then
      hbTake s d h.srcDie (s.now d / 10000) (h.inlBits 375 360)
    else s)

/-- Whether service die `d` judges the heartbeats of die `x` now (R623, R680, R773). -/
def judges (s : State) (d x : Nat) : Bool :=
  ((d == s.headDie && headRuns s) || (d == s.mirrorDie && x == s.headDie && tailorRuns s d)) && x != d &&
    (s.mode == .fit || (s.mode == .service && !inMend s x)) && !dieDead s x

/-- A heartbeat is judged missed (R623, R625, R662): the third declares the slice dead, after which a new head tailor resumes the darns. (DEDUCED, log 109) -/
def hbMissed (s : State) (d x miss : Nat) : State :=
  let s1 := if d == s.headDie then (s.setFld d HLT_HB_STATUS 14 8 x).setFld d HLT_HB_STATUS 1 0 (min 3 miss) else s
  if miss < 3 then s1
  else
    let s2 := declareDie (if d == s.headDie then faultRec s1 d 0x0E x 0 0 else s1) x
    if s2.headDie == s.headDie then s2 else darnResume s2

/-- HEARTBEAT_MISS (R623, R625): service die `d` judges the next heartbeat of die `x`. -/
def execHeartbeatMiss (d x : Nat) (s : State) : Out :=
  let e := s.hbs.get {} (d * 128 + x)
  let k := max e.next ((s.hbFrom.get 0 x + 9999) / 10000)
  onUnit (isKind s d .service && dieExists s x)
    (if !judges s d x || s.now d < 10000 * k + 10 * s.fld d HLT_HB_CFG 15 0 then s
     else if k < e.last then { s with hbs := s.hbs.set {} (d * 128 + x) { e with next := k + 1, miss := 0 } }
     else hbMissed { s with hbs := s.hbs.set {} (d * 128 + x) { e with next := k + 1, miss := e.miss + 1 } } d x (e.miss + 1))

/-! ## Package heartbeats (R626, R627, R695) -/

/-- PACKAGE_HEARTBEAT_SEND (R626). -/
def execPackageHeartbeatSend (s : State) : Out :=
  let k := s.now s.headDie / 100000
  let h := ((hbHdr s s.headDie 1 0).setInl 394 392 s.mode.code).setInl 375 360 k
  .next (if headRuns s && s.mode != .stop && s.pkgHbSent ≤ k then { floodPorts s h with pkgHbSent := k + 1 } else s)

/-- A heartbeat of a package under a verdict goes on to the health root (R695). -/
def toRoot (s : State) (d : Nat) (h : Hdr) : State :=
  sendAt s d attCtl { hdr := { h with dest := fabricAddr (rootPkg s) s.headDie 0 0 0 } }

/-- PACKAGE_HEARTBEAT (R626, R695): recorded at a port die; from a package under a verdict it goes on to the health root, which clears
the verdict. -/
def execPackageHeartbeat (d att : Nat) (h : Hdr) (s : State) : Out :=
  headerChecked s d att { hdr := h } <|
  if h.inlBits 359 352 != 1 && h.inlBits 359 352 < 4 then .fault .wrongCommand
  else if att != attCtl then .fault .noSuchUnit
  else arrive s d att 0x50 { hdr := h } (fun s =>
    let dead := s.deadPkgs.contains h.srcPkg
    if isKind s d .port then
      let s1 := hbTake s d 127 (s.now d / 100000) (h.inlBits 375 360)
      if dead then toRoot s1 d h else s1
    else if d == s.headDie && headRuns s && actsAsRoot s d && dead then declarePkg s h.srcPkg true
    else s)

/-- PACKAGE_HEARTBEAT_MISS (R626, R627): a port die judges the next package heartbeat of its neighbour; the third miss fences the port,
with a suspect notice. (DEDUCED, log 85) -/
def execPackageHeartbeatMiss (d : Nat) (s : State) : Out :=
  let e := s.hbs.get {} (d * 128 + 127)
  let put := fun (x : Hb) => { s with hbs := s.hbs.set {} (d * 128 + 127) x }
  onPort s d
    (if !(s.mode == .fit || s.mode == .service) || !portLive s d || e.last == 0 ||
        s.now d < 100000 * e.next + 100 * s.fld d HLT_HB_CFG 31 16 then s
     else if e.next < e.last then put { e with next := e.next + 1, miss := 0 }
     else if e.miss < 2 then put { e with next := e.next + 1, miss := e.miss + 1 }
     else portFence (put { e with next := e.next + 1, miss := 3 }) d 2 true)

/-! ## A clock fault (R828) -/

/-- Fence a panel (R633, R828): every tile, spare columns included, and the engines placed there (R133). (DEDUCED, log 119) -/
def fencePanel (s : State) (d panel : Nat) : State :=
  let s1 := ((List.range 624).filter (fun p => p % 26 / 13 == panel)).foldl (fun s p => fenceTile s d p) s
  let units := (List.range 8).filter (fun k => attPanel s d (attCe k) == panel) ++ (if panel == 1 then [8] else [9])
  units.foldl (fun s b => fenceUnit s d b) s1

/-- CLK_FAULT (R631, R828): the record, the fences, and the failure detector's verdict on the die. (DEDUCED, log 119) -/
def execClkFault (d panel : Nat) (s : State) : Out :=
  let s1 := faultRec s d 0x10 panel 0 6
  let s2 := if isKind s d .compute then fencePanel s1 d panel else fenceDie s1 d
  let s3 := if headRuns s2 || d == s2.headDie then declareDie s2 d else s2
  onUnit (dieExists s d && (if isKind s d .compute then panel < 2 else panel == 0))
    (if s3.headDie == s.headDie then s3 else darnResume s3)

end Sys2Proof.Machine
end

