-- ==== Sys2Proof/Machine/Mend.lean ====
section
/-! DEFINITION. Watchdogs, stalls and the mend of a partition (R672 to R695, R719 to R722): its steps, the dump of the sample list, the
restore patch, and the reading of a patch's completion record. -/

namespace Sys2Proof.Machine

open Sys2Proof

/-! ## Stalls (R674, R676) -/

/-- The outputs that a packet from an input uses. -/
def outsFrom (s : State) (d p i : Nat) (h : Hdr) (f : Flit) : List Nat := ((outsOf s d p i h f).map (·.1)).getD []

/-- Whether input `i` has output `o` for the packet on its VC4. -/
def holdsOut (s : State) (d p o i : Nat) : Bool :=
  match (s.router d p).held.get none o with
  | some g => g.input == i && g.vc == 4
  | none => false

/-- The outputs that a join's output uses, the left child's (R341), for the child whose unit `f` is at the head of an input. -/
def joinOuts (s : State) (d p i : Nat) (f : Flit) : List Nat :=
  match f.hdr, (s.router d p).joinIn.get .idle i with
  | some h, _ => outsFrom s d p i h f
  | none, .out c own fl _ => match ctxAt (s.router d p) c with
    | some x => match x.heldPk, x.heldFl with
      | q :: _, qf :: _ => if x.side then outsFrom s d p i own fl else outsFrom s d p x.heldIn q.hdr qf
      | _, _ => []
    | none => []
  | none, .stream _ _ => (List.range 6).filter (fun o => holdsOut s d p o i)
  | none, _ => []

/-- Whether an input of a router is stalled in a join whose output uses output `o`: its head waits for the reduction unit, or the sum that
has taken its place waits for a credit (R348, R349). -/
def joinStalled (s : State) (d p o i : Nat) : Bool :=
  match (s.router d p).buf i 4 with
  | [] => false
  | f :: _ =>
    if f.scan then (operandStep s d p i).isNone && (joinOuts s d p i f).contains o
    else match (s.router d p).joinIn.get .idle i, (s.router d p).held.get none o with
      | .stream _ _, some g => g.input == i && g.vc == 4 && !canPush s d p g.outs g.hdr g.vc
      | _, _ => false

/-- Whether an NI holds a packet under R118. -/
def genStalled (s : State) (d p : Nat) : Bool :=
  (List.range 6).any (fun v => match (s.ni d p).ej.get [] v with
    | f :: _ => (match f.hdr with
      | some h => genHeld s d p h
      | none => false)
    | [] => false)

/-- Whether a tile has a delivery or a read that its port has not taken (R674). -/
def tileStalled (s : State) (d p : Nat) : Bool :=
  (List.range 6).any (fun v => match (s.ni d p).ej.get [] v with
    | f :: _ => (match f.hdr with
      | some h => !genHeld s d p h
      | none => true)
    | [] => false) || (s.ni d p).rd.any (fun r => !r.tags.isEmpty)

/-- Whether the condition of a stall kind holds now (R674). (DESIGN CHOICE, log 125) -/
def stallHolds (s : State) (d kind unit port : Nat) : Bool :=
  let held := (s.router d unit).held.get none port
  match kind with
  | 0 => match held with
    | some g => g.outs.length == 1 && !canPush s d unit g.outs g.hdr g.vc
    | none => false
  | 1 => (match held with
    | some g => 1 < g.outs.length && !canPush s d unit g.outs g.hdr g.vc
    | none => false) || (reqsAt s d unit port).any (fun q => 1 < q.outs.length)
  | 2 => (List.range 6).any (joinStalled s d unit port)
  | 3 => genStalled s d unit
  | 4 => tileStalled s d unit
  | 5 => !(s.ni d unit).orders.isEmpty || !(s.ni d unit).bus.isEmpty
  | 6 => match sinkPort s d attSync with
    | some (p, o) => !(s.wires.get [] (rk d p * 8 + o)).isEmpty
    | none => false
  | _ => false

/-- Whether a slice has the unit of a stall. -/
def stallUnit (s : State) (d kind unit port : Nat) : Bool :=
  if kind ≤ 2 then routerExists s d unit && port < 6
  else if kind ≤ 5 then isTile s d unit && port == 0
  else kind == 6 && isKind s d .compute && unit == 0 && port == 0

/-- The bit of MND_STALL of a stall kind (R710). -/
def stallBit (kind : Nat) : Nat := kind - 2

/-- Whether two stalls are of one unit and kind. -/
def sameStall (kind unit port : Nat) (x : Stall) : Bool := x.kind == kind && x.unit == unit && x.port == port

/-- A stall reaches the hang threshold (R674): its flag, its record, and a further fault of a partition in mend (R682). -/
def stallThreshold (s : State) (d kind unit port : Nat) : State :=
  let x : Stall := { kind := kind, unit := unit, port := port, ft := s.now d }
  let s1 := { s with stalls := s.stalls.set [] d ((s.stalls.get [] d).filter (fun y => !sameStall kind unit port y) ++ [x]) }
  let s2 := if kind ≤ 2 then s1.raise d (trt unit TRT_STALL) port else s1.raise d MND_STALL (stallBit kind)
  furtherFault (faultRec s2 d 0x0F unit (kind * 2 ^ 9 + port) 0) d

/-- STALL_THRESHOLD (R674): a stall has lasted STALL µs. (DEDUCED, log 8; DESIGN CHOICE, log 125) -/
def execStallThreshold (d kind unit port : Nat) (s : State) : Out :=
  onUnit (stallUnit s d kind unit port)
    (if s.mode == .stop || !stallHolds s d kind unit port then s else stallThreshold s d kind unit port)

/-- A stall that still holds ESCALATE µs after the threshold (R676). -/
def stallEscalate (s : State) (d : Nat) (x : Stall) : State :=
  let l := (s.stalls.get [] d).map (fun y => if y == x then { y with escalated := true } else y)
  let s1 := ({ s with stalls := s.stalls.set [] d l }).raise d MND_STALL 0
  let s2 := faultRec s1 d 0x0F x.unit (x.kind * 2 ^ 9 + 2 ^ 8 + x.port) 0
  if s.flag s.headDie MND_CFG 0 && headRuns s then mendCause s2 d 2 else s2

/-- STALL_ESCALATE (R676); a stall that has ended is forgotten. -/
def execStallEscalate (d kind unit port : Nat) (s : State) : Out :=
  onUnit (stallUnit s d kind unit port)
    (match (s.stalls.get [] d).find? (sameStall kind unit port) with
     | none => s
     | some x =>
       if s.mode == .stop then s
       else if !stallHolds s d kind unit port then
         { s with stalls := s.stalls.set [] d ((s.stalls.get [] d).filter (fun y => y != x)) }
       else if x.escalated || s.now d < x.ft + 1000 * s.fld d MND_HANG_CFG 31 16 then s
       else stallEscalate s d x)

/-! ## The tailor watchdog (R675, R711) -/

/-- TAILOR_WATCHDOG (R675): a window has passed without a kick. (DEDUCED, log 126) -/
def execTailorWatchdog (d : Nat) (s : State) : Out :=
  onUnit (dieExists s d)
    (if s.mode == .stop || !s.flag d TLR_STATUS 1 || s.now d < s.kickFt.get 0 d + 1000 * s.fld d MND_HANG_CFG 47 32 then s
     else (s.raise d MND_STALL 5).setFld d TLR_STATUS 1 1 0)

/-- MND_TAILOR_KICK (R711). -/
def execMndTailorKick (d : Nat) (s : State) : Out := onUnit (dieExists s d) { s with kickFt := s.kickFt.set 0 d (s.now d) }

/-! ## Requests for a mend (R677, R681, R682, R693) -/

/-- A write of MEND for a partition (R681, R682, R720). -/
def partMend (s : State) (q : Nat) : State :=
  if s.mode != .service then s
  else if partStep s q == 15 then (s.setFld s.headDie (partReg q) 23 16 0).setFld s.headDie (partReg q) 3 0 1
  else if partStep s q == 0 then mendEnter s q 3
  else mendFurther s q

/-- MND_PART_CTL_MEND (R720). -/
def execMndPartCtlMend (q : Nat) (s : State) : Out := onUnit (q < 64) (partMend s q)

/-- MND_PART_CTL_ALL (R693, R720). -/
def execMndPartCtlAll (s : State) : Out := .next (packageMend s)

/-- Set the step of a partition. -/
def setStep (s : State) (q n : Nat) : State := s.setFld s.headDie (partReg q) 3 0 n

/-! ## ISOLATE (R465, R466, R491, R643, R681) -/

/-- Whether the engine that SRC names lies outside a partition. -/
def outside (s : State) (q : Nat) (src : BitVec 32) : Bool :=
  bitsOf src 31 19 != s.pkgOf s.headDie || partitionOf s (bitsOf src 18 12) != some q

/-- What ISOLATE does to one die of the partition. (DEDUCED, log 130) -/
def isolateDie (s : State) (q d : Nat) : State :=
  let s1 := darnDiscard (coordMend (commitMend s d) d) d
  if isKind s d .compute then syncReinit s1 d (outside s q) else s1

/-- Break the locks that a partition's dies hold in the stores of the package outside it (R465). -/
def breakPart (s : State) (q : Nat) : State :=
  let stores := (allDies s).filter (fun x => isKind s x .compute && partitionOf s x != some q)
  (partDies s q).foldl (fun s d =>
    let v := BitVec.ofNat 64 (s.pkgOf d + d * 2 ^ 13)
    stores.foldl (fun s x => breakStart s x v) s) s

/-- MEND_ISOLATE (R681). -/
def execMendIsolate (q : Nat) (s : State) : Out :=
  onUnit (q < 64)
    (if partStep s q != 1 then s
     else setStep (breakPart ((partDies s q).foldl (fun s d => isolateDie s q d) s) q) q 2)

/-! ## FLUSH (R681, R713) -/

/-- Units that one router holds. -/
def routerUnits (r : Router) : Nat :=
  (r.bufs.rows.map (fun x => x.2.length)).sum + (r.freed.rows.map (fun x => x.2.length)).sum +
    (r.catchReg.rows.map (fun x => x.2.length)).sum +
    (r.ctxs.map (fun c => match c with
      | some x => (x.heldPk.map (fun p => 1 + p.data.length)).sum
      | none => 0)).sum +
    (r.joinIn.rows.map (fun x => match x.2 with
      | .out _ _ _ us => 1 + us.length
      | _ => 0)).sum

/-- Units that one NI holds. -/
def niUnits (n : Ni) : Nat :=
  (n.part.rows.map (fun x => x.2.length)).sum + (n.ej.rows.map (fun x => x.2.length)).sum +
    (n.cur.rows.map (fun x => match x.2 with
      | some v => 1 + v.got.length
      | none => 0)).sum

/-- Units of packets. -/
def packetUnits (ps : List Packet) : Nat := (ps.map (fun p => 1 + p.data.length)).sum

/-- The units that FLUSH discards in a die (R681, R713). -/
def dieUnits (s : State) (d : Nat) : Nat :=
  ((s.routers.rowsWhere (fun k => k / 1024 == d)).map (fun x => routerUnits x.2)).sum +
    ((s.wires.rowsWhere (fun k => k / 8192 == d)).map (fun x => x.2.length)).sum +
    ((s.stream.rowsWhere (fun k => k / 65536 == d)).map (fun x => x.2.length)).sum +
    ((s.seams.rowsWhere (fun k => k / 256 == d)).map (fun x => x.2.txWait.length + x.2.rx.length + x.2.replay.length)).sum +
    ((s.nis.rowsWhere (fun k => k / 1024 == d)).map (fun x => niUnits x.2)).sum +
    ((s.inj.rowsWhere (fun k => k / 32768 == d)).map (fun x => packetUnits (x.2.map (·.pk)))).sum +
    ((s.ces.rowsWhere (fun k => k / 8 == d)).map (fun x => packetUnits ((x.2.held ++ x.2.stall).map (·.pk)))).sum

/-- A group entry whose operations, fetches and records under way are gone. (DEDUCED, log 128) -/
def emptyEnt (n : CeEnt) : CeEnt := { n with ops := [], recs := [], recBusy := none, fetch := none, retryAt := none, fired := [], wait := false }

/-- A CE emptied: its group table and the standing of its entries stay (R681, R692). (DEDUCED, log 128) -/
def emptyCe (c : Ce) : Ce :=
  { gt := c.gt, ents := { rows := (c.ents.rows.map (fun r => (r.1, emptyEnt r.2))).filter (fun r => r.2 != {}) } }

/-- A seam adapter whose buffers are empty; the link stays as it is. -/
def emptySeam (a : Seam) : Seam :=
  { link := a.link, latency := a.latency, calTemp := a.calTemp, txSeq := a.txSeq, rxSeq := a.rxSeq }

/-- A table with every row of some keys changed by `f`, kept canonical. -/
def mapRows {α : Type} [DecidableEq α] (t : Tbl α) (z : α) (p : Nat → Bool) (f : α → α) : Tbl α :=
  { rows := (t.rows.map (fun r => if p r.1 then (r.1, f r.2) else r)).filter (fun r => r.2 != z) }

/-- Every buffer, link, context and queue of a die emptied (R681). -/
def emptyDie (s : State) (d : Nat) : State :=
  { s with
    routers := s.routers.drop (fun k => k / 1024 == d), wires := s.wires.drop (fun k => k / 8192 == d),
    credWires := s.credWires.drop (fun k => k / 8192 == d), stream := s.stream.drop (fun k => k / 65536 == d),
    seams := mapRows s.seams {} (fun k => k / 256 == d) emptySeam,
    nis := mapRows s.nis {} (fun k => k / 1024 == d) (fun n => { gen := n.gen, msg := n.msg }),
    inj := s.inj.drop (fun k => k / 32768 == d), orderHold := s.orderHold.drop (fun k => k / 4096 == d),
    ces := mapRows s.ces {} (fun k => k / 8 == d) emptyCe, memports := s.memports.drop (fun k => k == d),
    probeWires := s.probeWires.drop (fun k => k / 8192 == d), probeSeqs := s.probeSeqs.drop (fun k => k / 1024 == d) }

/-- FLUSH of one die (R681, R713). -/
def flushDie (s : State) (d : Nat) : State :=
  let n := dieUnits s d
  (emptyDie s d).bump d MND_FLUSH_CNT 47 0 n

/-! ## The dump (R685 to R689) -/

/-- Entry `e` of the sample list (R685). -/
def sampleEntry (s : State) (e : Nat) : BitVec 128 :=
  let a := s.reg s.headDie MND_SAMPLE_BASE + BitVec.ofNat 64 (16 * e / 64 * 64)
  let u := (spaceRead s s.headDie a 1).1.getD 0 0
  BitVec.ofNat 128 (bitsOf u (128 * (e % 4) + 127) (128 * (e % 4)))

/-- Entries of the sample list (R712). -/
def sampleN (s : State) : Nat := s.fld s.headDie MND_SAMPLE_N 15 0

/-- DIE of an entry. -/
def seDie (x : BitVec 128) : Nat := bitsOf x 50 44
/-- The router of an entry's tile. -/
def seTile (s : State) (x : BitVec 128) : Nat := tileRouter s (seDie x) (bitsOf x 38 34) (bitsOf x 43 39)
/-- Units of an entry. -/
def seUnits (x : BitVec 128) : Nat := bitsOf x 74 64 + 1
/-- Whether an entry names a compute die of a partition. -/
def seIn (s : State) (q : Nat) (x : BitVec 128) : Bool := isKind s (seDie x) .compute && partitionOf s (seDie x) == some q

/-- The dump of a partition. -/
def State.dump (s : State) (q : Nat) : Dump := s.dumps.get {} q

/-- Change the dump of a partition. -/
def State.setDump (s : State) (q : Nat) (x : Dump) : State := { s with dumps := s.dumps.set {} q x }

/-- Base of a partition's dump region, and its bytes (R686, R712). -/
def dumpBase (s : State) (q : Nat) : BitVec 64 :=
  s.reg s.headDie MND_DUMP_BASE + BitVec.ofNat 64 (q * s.fld s.headDie MND_DUMP_SIZE 15 0 * 2 ^ 20)
/-- Bytes of a dump region. -/
def dumpBytes (s : State) : Nat := s.fld s.headDie MND_DUMP_SIZE 15 0 * 2 ^ 20

/-- Offset of an entry's data in the region (R686). -/
def dumpOff (s : State) (q e : Nat) : Nat :=
  0x40 + up64 (sampleN s) +
    64 * (((List.range e).map (sampleEntry s)).filter (seIn s q)).foldl (fun n x => n + seUnits x) 0

/-- Header word 0 of a dump (R686). -/
def dumpWord0 (s : State) (q : Nat) (complete : Bool) : Nat :=
  let p := s.reg s.headDie (partReg q)
  bitsOf p 63 24 * 2 ^ 24 + bitsOf p 15 8 * 2 ^ 16 + bitsOf p 6 4 * 2 ^ 8 + boolNat complete * 2 ^ 7 + q % 64

/-- Write a dump's header (R686). -/
def dumpHeader (s : State) (q : Nat) (complete : Bool) : State :=
  let st := (s.dump q).status
  let mine := st.filter (fun x => x != 6)
  let bad := (mine.filter (fun x => x != 0)).length
  let ft := if complete then s.now40 s.headDie else 0
  let u := dumpWord0 s q complete + (bad * 2 ^ 32 + mine.length) * 2 ^ 64 + ft * 2 ^ 128
  spaceWrite s s.headDie (dumpBase s q) [(0, BitVec.ofNat 512 u)]

/-- Write the status bytes of a dump to its region (R686). (DEDUCED, log 131) -/
def dumpStatus (s : State) (q : Nat) : State :=
  let st := (s.dump q).status
  let us := (List.range ((st.length + 63) / 64)).map (fun i =>
    (i, BitVec.ofNat 512 (natOfBytes (((st.drop (64 * i)).take 64).map (BitVec.ofNat 8)))))
  spaceWrite s s.headDie (dumpBase s q + 0x40) us

/-- Complete a dump when every engine has reported (R688). -/
def dumpFinish (s : State) (q : Nat) : State :=
  let x := s.dump q
  if x.on && !x.status.contains 0xFF && x.jobs.rows.all (fun r => r.2.isNone) then
    (dumpHeader (s.setDump q { x with on := false }) q true).setFld s.headDie (partReg q) 7 7 1
  else s

/-- Give an entry its status (R687). -/
def setStatus (s : State) (q e n : Nat) : State :=
  let x := s.dump q
  dumpFinish (dumpStatus (s.setDump q { x with status := setAt x.status e n }) q) q

/-- Whether the region already holds the complete dump of this MEND_SEQ (R689). -/
def dumpHeld (s : State) (q : Nat) : Bool :=
  let w := bitsOf ((spaceRead s s.headDie (dumpBase s q) 1).1.getD 0 0) 63 0
  s.flag s.headDie (partReg q) 7 || (natBit w 7 && w / 2 ^ 16 % 256 == s.fld s.headDie (partReg q) 15 8)

/-- Step 1 of the dump (R688). -/
def dumpStart (s : State) (q : Nat) : State :=
  if dumpHeld s q then s.setFld s.headDie (partReg q) 7 7 1
  else
    let st := (List.range (sampleN s)).map (fun e =>
      let x := sampleEntry s e
      if !seIn s q x then 6
      else if dieDead s (seDie x) || tileFenced s (seDie x) (seTile s x) then 3 else 0xFF)
    let s1 := s.setDump q { on := true, startFt := s.now s.headDie, status := st }
    dumpFinish (dumpHeader (dumpStatus s1 q) q false) q

/-- MEND_FLUSH (R681): the step's work, and the start of DUMP. -/
def execMendFlush (q : Nat) (s : State) : Out :=
  onUnit (q < 64)
    (if partStep s q != 2 then s
     else dumpStart (setStep ((partDies s q).foldl (fun s d => flushDie s d) s) q 3) q)

/-- The next entry of a die's dump engine (R688). -/
def nextEntry (s : State) (q d : Nat) : Option Nat :=
  (List.range (s.dump q).status.length).find? (fun e =>
    (s.dump q).status.getD e 0 == 0xFF && seDie (sampleEntry s e) == d)

/-- Whether an entry takes its tile past 64 KiB, or passes the region's end (R687). -/
def entryOver (s : State) (q e : Nat) : Bool :=
  let x := sampleEntry s e
  let tile := fun (y : BitVec 128) => bitsOf y 50 34
  let before := (((List.range e).map (sampleEntry s)).filter (fun y => seIn s q y && tile y == tile x)).foldl (fun n y => n + seUnits y) 0
  1024 < before + seUnits x || dumpBytes s < dumpOff s q e + 64 * seUnits x

/-- The dump write of a job: up to 32 units from unit `i` (R688). (DEDUCED, log 131) -/
def dumpPacket (s : State) (q d : Nat) (j : DumpJob) (i : Nat) : Packet :=
  let us := (j.data.drop i).take 32
  let a := dumpBase s q + BitVec.ofNat 64 (dumpOff s q j.entry + 64 * i)
  { hdr := { mkHdr 0x02 2 a (ctlSrc s d) with
             len := BitVec.ofNat 6 us.length, tag := BitVec.ofNat 16 (0xD000 + q), inl := BitVec.ofNat 128 (2 ^ 64 - 1) }, data := us }

/-- Change the job of a dump engine. -/
def setJob (s : State) (q d : Nat) (j : Option DumpJob) : State :=
  let x := s.dump q
  s.setDump q { x with jobs := x.jobs.set none d j }

/-- Send the write of a job that starts at unit `i`. -/
def dumpWrite (s : State) (q d : Nat) (j : DumpJob) (i : Nat) (again : Bool) : State :=
  let j1 : DumpJob := { j with readFt := none, write := some i, writeFt := s.now d, again := again }
  sendAt (setJob s q d (some j1)) d attCtl (dumpPacket s q d j i)

/-- The engine starts on its next entry, or its read through the tile port is answered and the write goes out (R688). (DEDUCED, log 132) -/
def dumpStep (s : State) (q d : Nat) : State :=
  match (s.dump q).jobs.get none d with
  | some j =>
    if j.readFt.isNone then s
    else
      let x := sampleEntry s j.entry
      let r := tileUnits s d (seTile s x) (bitsOf x 19 6 * 64) 0 (seUnits x)
      dumpWrite r.2 q d { j with data := r.1.map (·.2) } 0 false
  | none =>
    match nextEntry s q d with
    | none => s
    | some e =>
      let x := sampleEntry s e
      if entryOver s q e then setStatus s q e 4
      else if (s.dump q).missed.contains (d, seTile s x) then setStatus s q e 2
      else setJob s q d (some { entry := e, readFt := some (s.now d) })

/-- The partition in whose dump a die's engine works, while it is in DUMP. -/
def dumping (s : State) (d : Nat) : Option Nat := (partitionOf s d).filter (fun q => partStep s q == 3 && (s.dump q).on)

/-- Act on the dump of a die's partition. -/
def onDump (s : State) (d : Nat) (f : Nat → State) : Out :=
  onUnit (isKind s d .compute) (match dumping s d with
    | some q => f q
    | none => s)

/-- DUMP_ENTRY (R688). -/
def execDumpEntry (d : Nat) (s : State) : Out := onDump s d (fun q => dumpStep s q d)

/-- DUMP_READ_TIMEOUT (R687, R688): the entry is MISSING, and its tile is not read again. -/
def execDumpReadTimeout (d : Nat) (s : State) : Out :=
  onDump s d (fun q =>
    match (s.dump q).jobs.get none d with
    | some j => match j.readFt with
      | some t =>
        if s.now d < t + 10000 then s
        else
          let s1 := setJob s q d none
          let x := s1.dump q
          setStatus (s1.setDump q { x with missed := x.missed ++ [(d, seTile s (sampleEntry s j.entry))] }) q j.entry 1
      | none => s
    | none => s)

/-- A dump write has failed (R688): once more, or NOWRITE. -/
def dumpFailed (s : State) (q d : Nat) (j : DumpJob) : State :=
  if j.again then setStatus (setJob s q d none) q j.entry 5
  else match j.write with
    | some i => dumpWrite s q d j i true
    | none => s

/-- DUMP_WRITE_TIMEOUT (R688). -/
def execDumpWriteTimeout (d : Nat) (s : State) : Out :=
  onDump s d (fun q =>
    match (s.dump q).jobs.get none d with
    | some j => if j.write.isSome && j.writeFt + 10000 ≤ s.now d then dumpFailed s q d j else s
    | none => s)

/-- A dump write is answered (R688): the next write, or the entry is OK. -/
def dumpAck (s : State) (d : Nat) (h : Hdr) : State :=
  match dumping s d with
  | none => s
  | some q =>
    match (s.dump q).jobs.get none d with
    | none => s
    | some j =>
      match j.write with
      | none => s
      | some i =>
        if h.inlBits 359 352 != 0 then dumpFailed s q d j
        else if i + 32 < j.data.length then dumpWrite s q d j (i + 32) false
        else setStatus (setJob s q d none) q j.entry 0

/-- DUMP_ENGINE_TIMEOUT (R688): 200 ms after DUMP began, entries not yet reported are MISSING. -/
def execDumpEngineTimeout (q : Nat) (s : State) : Out :=
  let x := s.dump q
  onUnit (q < 64)
    (if partStep s q != 3 || !x.on || s.now s.headDie < x.startFt + 200000000 then s
     else
       let y : Dump := { x with status := x.status.map (fun n => if n == 0xFF then 1 else n), jobs := {} }
       dumpFinish (dumpStatus (s.setDump q y) q) q)

/-- MEND_DUMP (R681): the dump is complete. -/
def execMendDump (q : Nat) (s : State) : Out :=
  onUnit (q < 64) (if partStep s q == 3 && s.flag s.headDie (partReg q) 7 then setStep s q 4 else s)

/-! ## RESET (R584, R681, R693, R813) -/

/-- Whether a register keeps its whole value through a slice reset in a mend: the place and state of the slice, the pattern it shows, the
fences and the fault log, and the MND block (R584, R637, R681). -/
def keptReg (off : Nat) : Bool :=
  off < 0x10000 || (0x20000 ≤ off && off < 0x30000) || off == HLT_FLOG_CTL || off == HLT_UNIT_HEM ||
    (HLT_HEM_0 ≤ off && off < HLT_TWIN_0) || off == HLT_SEAM_HEM0 || off == HLT_SEAM_HEM1 || (0x170000 ≤ off && off < 0x180000)

/-- A register of a slice after its reset: PL fields stay, RW fields of the OBS block return to their pattern values (R751), and the others
take their reset values. (DEDUCED, log 129) -/
def resetReg (s : State) (d off : Nat) : State :=
  if keptReg off then s
  else match descOf s d off with
    | none => s
    | some r =>
      let m := r.pl % 2 ^ 64
      let v := Nat.lor (csrReset s d off).toNat (Nat.land (s.patRw.get 0 (d * 2 ^ 24 + off)).toNat r.rw)
      s.setReg d off (BitVec.ofNat 64 (Nat.lor (Nat.land (s.reg d off).toNat m) (Nat.land v (2 ^ 64 - 1 - m))))

/-- The registers of a slice after its reset. -/
def resetRegs (s : State) (d : Nat) : State :=
  let keys := (s.csr.rowsWhere (fun k => k / 2 ^ 24 == d)).map (·.1) ++ (s.patRw.rowsWhere (fun k => k / 2 ^ 24 == d)).map (·.1)
  keys.foldl (fun s k => resetReg s d (k % 2 ^ 24)) s

/-- An adapter after a reset: in training where it may run (R41, R171, R203). -/
def freshSeam (s : State) (d i : Nat) : Seam := { link := boolNat (seamMayRun s d i) }

/-- Both adapters of every seam of a die start to train again (R168, R681). -/
def resetSeams (s : State) (d : Nat) : State :=
  (List.range 98).foldl (fun s i =>
    match seamPeer s d i with
    | some (d', i') =>
      if hasSeam s d i then (s.setSeam d i (freshSeam s d i)).setSeam d' i' (freshSeam s d' i') else s
    | none => s) s

/-- The reset of a die in a mend (R681): its slice logic, with its time keeper out of lock, which steps on its first exchange (R223, R251),
and its tailor core's restart. A panel that is clocked down stays so, and a request to change its clock that waits still acts (R174,
R208). (DEDUCED, log 129; DEDUCED, log 130; DESIGN CHOICE, log 129) -/
def resetDie (s : State) (d : Nat) : State :=
  let s1 := resetSeams (resetRegs (emptyDie s d) d) d
  let k := s1.keeper d
  let s2 := s1.setKeeper d { k with lock := false, roundsOn := false, holdover := false, good := 0, bad := 0, slew := 0, waiting := false,
                                    noResp := 0, stepped := false }
  let s3 := { s2 with
    nis := s2.nis.drop (fun n => n / 1024 == d), injCount := s2.injCount.drop (fun n => n / 4096 == d),
    secCount := s2.secCount.drop (fun n => n / 8192 == d), dedCount := s2.dedCount.drop (fun n => n / 8192 == d),
    traces := s2.traces.set {} d {}, shapers := s2.shapers.drop (fun n => n / 128 == d), govs := s2.govs.set {} d {},
    sampleFrom := s2.sampleFrom.drop (fun n => n / 2 ^ 24 == d), prbCount := s2.prbCount.drop (fun n => n / 16 == d),
    wins := s2.wins.drop (fun n => n / 16 == d), cmtClosed := s2.cmtClosed.filter (fun x => x.1 != d),
    stalls := s2.stalls.set [] d [], mpTrained := s2.mpTrained.set false d false, darns := s2.darns.set {} d {} }
  let s4 := if isKind s d .compute then syncReinit s3 d (fun _ => false) else s3
  startTailor (if isKind s d .port then { s4 with stls := s4.stls.set {} d {}, transitPos := s4.transitPos.set [] d [] } else s4) d

/-- The shared dies that a package mend resets: port dies and memory-interface dies without an owner (R693). -/
def sharedDies (s : State) : List Nat :=
  (allDies s).filter (fun d => isKind s d .port || (isKind s d .memif && (partitionOf s d).isNone))

/-- A port die starts to train in the RETRAIN of a package mend (R693). -/
def restartPort (s : State) (d : Nat) : State := if isKind s d .port then portStart (setStlState s d 0) d else s

/-- MEND_RESET (R681, R693). (DEDUCED, log 135) -/
def execMendReset (q : Nat) (s : State) : Out :=
  onUnit (q < 64)
    (if partStep s q != 4 then s
     else
       let s1 := (partDies s q).foldl (fun s d => resetDie s d) { s with tileReset := s.tileReset.set false q true }
       let s2 := if s1.pkgMend == 1 then
           (sharedDies s1).foldl (fun s d => restartPort (resetDie s d) d) { s1 with pkgMend := 2 }
         else s1
       setStep s2 q 5)

/-! ## RETRAIN and TEST (R681) -/

/-- Whether every seam of a die has finished its training, one way or the other. -/
def seamsTrained (s : State) (d : Nat) : Bool :=
  (List.range 98).all (fun i => !hasSeam s d i || (seamPeer s d i).isNone || s.flag d (smw i SEAM_CFG) 1 ||
    !s.flag d (smw i SEAM_CFG) 0 || 2 ≤ (s.seam d i).link)

/-- Whether a die is trained: its seams, and the memory stack that it serves. -/
def dieTrained (s : State) (d : Nat) : Bool := seamsTrained s d && (!isKind s d .memif || s.mpTrained.get false d)

/-- MEND_RETRAIN (R681, R693). -/
def execMendRetrain (q : Nat) (s : State) : Out :=
  let dies := partDies s q ++ (if s.pkgMend == 2 then (sharedDies s).filter (fun d => isKind s d .memif) else [])
  onUnit (q < 64) (if partStep s q == 5 && dies.all (dieTrained s) then setStep s q 6 else s)

/-- The die that a test failure names. -/
def failDie : TestFail → Nat
  | .tile d _ => d
  | .seam d _ => d
  | .unit d _ => d
  | .die d => d

/-- Fence what a test found to have failed (R62, R681). -/
def fenceFail (s : State) : TestFail → State
  | .tile d p => if isKind s d .compute && p < 624 then fenceTile s d p else s
  | .seam d i => if hasSeam s d i then fenceSeam s d i else s
  | .unit d n => if isKind s d .compute && n < 10 then fenceUnit s d n else s
  | .die d => fenceDie s d

/-- MEND_TEST (R681): the tests end with the failures named; a whole die that fails leaves the partition FAILED. -/
def execMendTest (q : Nat) (fails : List TestFail) (s : State) : Out :=
  let mine := fails.filter (fun f => (partDies s q).contains (failDie f))
  onUnit (q < 64)
    (if partStep s q != 6 then s
     else
       let s1 := mine.foldl fenceFail { s with testFails := s.testFails.set [] q mine }
       setStep s1 q (if mine.any (fun f => match f with
         | .die _ => true
         | _ => false) then 15 else 7))

/-! ## RELOCK and RESTORE (R585, R630, R681) -/

/-- A darn with no shift of the segment's scratchpads (R681): the tables of the segment move east in the wanted state. (DEDUCED, log 118) -/
def darnStill (r : State) (d p : Nat) : State :=
  let row := p / 26
  let panel := p % 26 / 13
  let c := p % 26 % 13
  let b := segBase row panel
  let reg := TRT_DARN0 + 8 * (row / 8)
  let lo := 8 * (row % 8) + 4 * panel
  let r1 := clearTile ((List.range (12 - c)).foldl (fun r i => moveTile r d (b + 11 - i) (b + 12 - i)) r) d p
  let r2 := ((r1.setFld d reg (lo + 3) lo c).setFld d (trt p TRT_CFG) 1 1 1).setFld d (trt (b + 12) TRT_CFG) 1 0 1
  (segmentFrom row panel (c + 1)).foldl (fun r x => setLogical r d x) r2

/-- The PL state that the dies of a partition are to have (R585, R681): the pattern with the patch log, and a darn for each failed tile
that has a spare. -/
def restoreWant (s : State) (q : Nat) : State :=
  let fails := s.testFails.get [] q
  fails.foldl (fun r f => match f with
    | .tile d p =>
      if noSpare r d p || fails.contains (.tile d (segBase (p / 26) (p % 26 / 13) + 12)) then r else darnStill r d p
    | _ => r) (replayLog s)

/-- Indexes at which a table of one die differs between two states: `n` is the block of keys of a die. -/
def diffKeys {α : Type} [DecidableEq α] (a b : Tbl α) (z : α) (mine : Nat → Bool) : List Nat :=
  (((a.rows.map (·.1)) ++ (b.rows.map (·.1))).filter mine).eraseDups.filter (fun k => a.get z k != b.get z k)

/-- CSR records that give a die's PL fields the values of `r`. (DEDUCED, log 133) -/
def plDiff (r s : State) (d : Nat) : List Word :=
  let offs := (((r.csr.rows ++ s.csr.rows).filter (fun x => x.1 / 2 ^ 24 == d)).map (fun x => x.1 % 2 ^ 24)).eraseDups
  offs.flatMap (fun off => match descOf s d off with
    | none => []
    | some x =>
      let m := x.pl % 2 ^ 64
      let want := Nat.land (r.reg d off).toNat m
      if want == Nat.land (s.reg d off).toNat m then []
      else csrRecN off [Nat.lor want (Nat.land (s.reg d off).toNat (2 ^ 64 - 1 - m))])

/-- Records that give a die's tables the entries of `r` (R572). (DEDUCED, log 136) -/
def tableDiff (r s : State) (d : Nat) : List Word :=
  (diffKeys r.routeTab s.routeTab 0 (fun k => k / 131072 == d)).flatMap (fun k => entryRecs r d 1 (k / 128 % 1024) (k % 128)) ++
  (diffKeys r.arrivalTab s.arrivalTab 0 (fun k => k / 1024 == d)).flatMap (fun k => entryRecs r d 2 0 (k % 1024)) ++
  (diffKeys r.routeStore s.routeStore 0 (fun k => k / 8192 == d)).flatMap (fun k => entryRecs r d 3 0 (k % 8192)) ++
  (diffKeys r.treeTab s.treeTab 0 (fun k => k / 1048576 == d)).flatMap (fun k => entryRecs r d 4 (k / 1024 % 1024) (k % 1024)) ++
  (diffKeys r.slotTab s.slotTab 0 (fun k => k / 4194304 == d)).flatMap (fun k => entryRecs r d 5 (k / 512 % 8192) (k % 512)) ++
  (diffKeys r.joinTab s.joinTab 0 (fun k => k / 32768 == d)).flatMap (fun k => entryRecs r d 6 (k / 32 % 1024) (k % 32)) ++
  (diffKeys r.gateTab s.gateTab 0 (fun k => k / 8192 == d)).flatMap (fun k => entryRecs r d 7 (k / 256 % 32) (k % 256)) ++
  (diffKeys r.syncInit s.syncInit 0 (fun k => k / 16384 == d)).flatMap (fun k =>
    csrRecN (0x100000 + 16 * (k % 16384) + 8) [bitsOf (r.syncInit.get 0 k) 127 64])

/-- The streams of a partition's restore patch (R585): one for each die that differs. -/
def restoreStreams (s : State) (q : Nat) : List PStream :=
  let r := restoreWant s q
  ((partDies s q).map (fun d => ({ pkg := s.pkgOf d, die := d, words := plDiff r s d ++ tableDiff r s d } : PStream))).filter
    (fun x => !x.words.isEmpty)

/-- PAT_PATCH_RESULT.LOGGED (R604). -/
def loggedNow (s : State) : Nat := s.fld s.headDie PAT_PATCH_RESULT 63 32

/-- Build the restore patch of a partition (R585, R681). (DEDUCED, log 133) -/
def buildRestore (s : State) (q : Nat) : State :=
  if kerexMay s (kerexT s) false then kerexPatch s 5 q (kerexT s) (restoreStreams s q) (loggedNow s) else s

/-- The restore patch of a partition now under way: the last that was built. -/
def restorePatch (s : State) (q : Nat) : Option Patch := (s.patches.filter (fun p => p.kind == 5 && p.arg == q)).getLast?

/-- MEND_RELOCK (R681). -/
def execMendRelock (q : Nat) (s : State) : Out :=
  onUnit (q < 64)
    (if partStep s q == 7 && (partDies s q).all (fun d => (s.keeper d).lock) then
       (if areaOk s then buildRestore (setStep s q 8) q else setStep s q 8)
     else s)

/-- The verdicts on a partition's units are cleared (R630, R681). (DEDUCED, log 116) -/
def clearVerdicts (s : State) (q : Nat) : State :=
  let ds := partDies s q
  ds.foldl (fun s d => setDead s d false) { s with deadUnits := s.deadUnits.filter (fun u => !ds.contains u.2.1) }

/-- RESTORE ends: REJOIN at the next round boundary (R681). -/
def restoreDone (s : State) (q : Nat) : State :=
  setStep { clearVerdicts s q with rejoinFt := s.rejoinFt.set 0 q (boundaryAt (s.now s.headDie + 1)) } q 9

/-- MEND_RESTORE (R585, R681): the restore patch has been applied with the log unchanged; a longer log has it built again. -/
def mendRestore (s : State) (q : Nat) : State :=
  if partStep s q != 8 then s
  else if !areaOk s then restoreDone (s.raise s.headDie PAT_AREA_STATUS 3) q
  else match restorePatch s q with
    | none => if (restoreStreams s q).isEmpty then restoreDone s q else buildRestore s q
    | some p =>
      if p.st != 6 then s
      else if loggedNow s == p.logged then restoreDone (patchEnd s p 0 true) q
      else buildRestore (patchEnd s p 0 true) q

/-- MEND_RESTORE (R681). -/
def execMendRestore (q : Nat) (s : State) : Out := onUnit (q < 64) (mendRestore s q)

/-- The completion record of a posted patch is read (R588): OUTCOME, the log (R585), and what a darn or a mend makes of it. (DEDUCED, log 96) -/
def patchCompletion (s : State) (num : Nat) : State :=
  match s.patches.find? (fun p => p.num == num && p.st == 4) with
  | none => s
  | some p =>
    match patchOutcome s p with
    | none => s
    | some o =>
      if p.kind == 5 && restorePatch s p.arg == some p && partStep s p.arg == 8 then
        (if o == 0 then setPatch s { p with st := 6 } else mendFurther (patchEnd s p o (o == 2)) p.arg)
      else darnPatchEnded (patchEnd s p o (o == 0 || o == 2)) num o

/-- PATCH_COMPLETION_READ (R585, R588). -/
def execPatchCompletionRead (num : Nat) (s : State) : Out := .next (patchCompletion s num)

/-! ## REJOIN (R61, R637, R680, R681) -/

/-- Every fence of a die lifted, on both sides of its seams (R637). (DEDUCED, log 116) -/
def liftDie (s0 : State) (d : Nat) : State :=
  let s := { s0 with edgeHem := s0.edgeHem.drop (fun k => k / 8192 == d) }
  let s1 := (List.range 98).foldl (fun s i => match seamPeer s d i with
    | some (d', i') =>
      if hasSeam s d i then
        let h := seamHemAt d' i'
        s.setFld h.1 h.2.1 h.2.2 h.2.2 0
      else s
    | none => s) ((s.setReg d HLT_SEAM_HEM0 0).setReg d HLT_SEAM_HEM1 0)
  if isKind s d .compute then
    (List.range 624).foldl (fun s p => s.setReg d (HLT_HEM_0 + 8 * p) 0) (s1.setReg d HLT_UNIT_HEM 0)
  else s1

/-- A die of the partition returns: its fences are lifted, its coordinators start disabled, its heartbeats count from now (R680, R681). -/
def rejoinDie (s : State) (d : Nat) : State :=
  let s1 := (List.range 8).foldl (fun s k => if ceExists s d k then s.setFld d (ccw k CMT_Q_CFG) 0 0 0 else s) (liftDie s d)
  { s1.setFld d HLT_STATUS 0 0 0 with hbFrom := s1.hbFrom.set 0 d (s.now s.headDie + 1) }

/-- The partition returns to SERVICE (R681), with its shapers and meters full (R292, R294). (DEDUCED, log 107; DEDUCED, log 134) -/
def rejoin (s : State) (q : Nat) : State :=
  let ds := partDies s q
  let s1 := ds.foldl (fun s d => rejoinDie s d) s
  let s2 := (s.testFails.get [] q).foldl fenceFail s1
  let s3 := (setStep s2 q 0).setFld s.headDie (partReg q) 6 4 0
  let s4 := ds.foldl fillShapers
    (noteState { s3 with tileReset := s3.tileReset.set false q false, testFails := s3.testFails.set [] q [] } .service ds)
  { s4 with pkgMend := if (partitions s4).any (fun x => partStep s4 x != 0) then s4.pkgMend else 0 }

/-- MEND_REJOIN (R681): at a round boundary, with ROUNDS_ON set in every slice of the partition (R251). -/
def execMendRejoin (q : Nat) (s : State) : Out :=
  onUnit (q < 64)
    (if partStep s q == 9 && s.rejoinFt.get 0 q ≤ s.now s.headDie && (partDies s q).all (fun d => (s.keeper d).roundsOn) then
       rejoin s q else s)

end Sys2Proof.Machine
end

