-- ==== Sys2Proof/Machine/Stop.lean ====
section
/-! DEFINITION. The global stop and its capture (R696 to R708, R714 to R718). -/

namespace Sys2Proof.Machine

open Sys2Proof

/-! ## Arming (R696, R699, R707, R708) -/

/-- Whether a slice is armed (R716). -/
def armed (s : State) (d : Nat) : Bool := s.flag d MND_STOP_STATUS 0

/-- The stop instant of a slice (R714). -/
def stopFt (s : State) (d : Nat) : Nat := (s.reg d MND_STOP_FT).toNat

/-- Whether every region of a slice has halted. -/
def sliceHalted (s : State) (d : Nat) : Bool := (panelsOf s d).all (fun p => (s.halted.get none (d * 2 + p)).isSome)

/-- One region halts (R701). -/
def haltRegion (s : State) (d panel : Nat) : State :=
  if (s.halted.get none (d * 2 + panel)).isSome then s
  else { s with halted := s.halted.set none (d * 2 + panel) (some (s.region d panel).cycles) }

/-- When every slice of the package has halted, PKG_STATE becomes STOP (R705): CUT_OK when none was late (R699), and mend state is
discarded (R681). (DEDUCED, log 137) -/
def packageStopped (s : State) : State :=
  if s.mode == .stop || !(allDies s).all (sliceHalted s) then s
  else
    let ok := (allDies s).all (fun d => !s.flag d MND_STOP_STATUS 2)
    let s1 := (enterMode s .stop).setFld s.headDie MND_STOP_STATUS 3 3 (boolNat ok)
    let s2 := (List.range 64).foldl (fun s q => setStep s q 0) s1
    { s2 with dumps := {}, testFails := {}, rejoinFt := {}, pkgMend := 0 }

/-- Arm one slice at T; a slice armed at or after T halts at once (R696, R699). (DEDUCED, log 137) -/
def armSlice (s : State) (d : Nat) (t : Word) : State :=
  let s1 := ({ s with stopNext := s.stopNext.set none d none }.setReg d MND_STOP_FT t).raise d MND_STOP_STATUS 0
  if t.toNat ≤ s.now d then (panelsOf s d).foldl (fun s p => haltRegion s d p) (s1.raise d MND_STOP_STATUS 2)
  else s1.setFld d MND_STOP_STATUS 2 2 0

/-- The stop instant that an ARM takes: a value written while armed, or that of MND_STOP_FT (R714). -/
def armFt (s : State) (d : Nat) : Word := (s.stopNext.get none d).getD (s.reg d MND_STOP_FT)

/-- A CSR packet on VC5 from the active service die to a slice (R696). -/
def stopPacket (s : State) (cmd x off tag : Nat) (v : Word) : Packet :=
  { hdr := ({ mkHdr cmd 5 (fabricAddr (s.pkgOf s.headDie) x 0 0 off) (ctlSrc s s.headDie) with tag := BitVec.ofNat 16 tag }).setInl 415 352 v.toNat }

/-- TAG of a read-back: of MND_STOP_FT where `k` is 0, of ARMED where it is 1. -/
def armTag (x k : Nat) : Nat := 0xE200 + 2 * x + k

/-- The packets that arm one slice: MND_STOP_FT and ARM are written, and both are read back (R696, R708). -/
def armPackets (s : State) (t : Word) (x : Nat) : List Packet :=
  [stopPacket s 0x61 x MND_STOP_FT 0 t, stopPacket s 0x61 x MND_STOP_CTL 0 1,
   stopPacket s 0x60 x MND_STOP_FT (armTag x 0) 0, stopPacket s 0x60 x MND_STOP_STATUS (armTag x 1) 0]

/-- The slices of the package other than the active service die's. -/
def otherSlices (s : State) : List Nat := (allDies s).filter (fun x => x != s.headDie)

/-- Arm every slice of the package (R696): the active service die's own at once, and the others by CSR packets on VC5; where the mesh carries
none, over the set-up path. (DEDUCED, log 137) -/
def armAll (s : State) (t : Word) : State :=
  let h := s.headDie
  let s1 := s.setFld h MND_STOP_STATUS 4 3 0
  if s.mode == .cold || s.mode == .stop then
    let s2 := (allDies s).foldl (fun s x => armSlice s x t) s1
    irq (packageStopped (s2.raise h MND_STOP_STATUS 4)) 5
  else
    let s2 := { armSlice s1 h t with armWait := (otherSlices s).flatMap (fun x => [(x, 0), (x, 1)]) }
    sendAll s2 h attCtl ((otherSlices s).flatMap (armPackets s t))

/-- A write of ARM (R696): at the active service die it arms the package, at another slice that slice. -/
def stopArm (s : State) (d : Nat) : State :=
  if d == s.headDie then armAll s (armFt s d) else packageStopped (armSlice s d (armFt s d))

/-- A read-back of an arming comes (R696, R708): it counts when it shows T, or ARMED; after the last one ARMED_ALL is set. -/
def armBack (s : State) (h : Hdr) : State :=
  let k := h.tag.toNat % 2
  let good := if k == 0 then h.inlBits 415 352 == stopFt s s.headDie else h.inlBits 352 352 == 1
  if !good || !s.armWait.contains (h.srcDie, k) then s
  else
    let left := s.armWait.filter (fun x => x != (h.srcDie, k))
    let s1 := { s with armWait := left }
    if left.isEmpty then irq (s1.raise s.headDie MND_STOP_STATUS 4) 5 else s1

/-- MND_STOP_ARM (R696, R708). -/
def execMndStopArm (d : Nat) (s : State) : Out := onUnit (dieExists s d) (stopArm s d)

/-- Disarm one slice. -/
def disarm (s : State) (d : Nat) : State :=
  { s.setFld d MND_STOP_STATUS 0 0 0 with stopNext := s.stopNext.set none d none }

/-- CANCEL at the active service die (R707): every slice is disarmed, and a CANCEL follows each ARM that has not been read back. (DEDUCED, log 137) -/
def cancelAll (s : State) : State :=
  let s1 := ((allDies s).foldl disarm { s with armWait := [] }).setFld s.headDie MND_STOP_STATUS 4 4 0
  sendAll s1 s.headDie attCtl (((s.armWait.map (·.1)).eraseDups).map (fun x => stopPacket s 0x61 x MND_STOP_CTL 0 4))

/-- A write of CANCEL (R707), ignored at or after T. -/
def stopCancel (s : State) (d : Nat) : State :=
  if !armed s d || stopFt s d ≤ s.now d then s
  else if d == s.headDie then cancelAll s
  else (disarm s d).setFld s.headDie MND_STOP_STATUS 4 4 0

/-- MND_STOP_CANCEL (R707). -/
def execMndStopCancel (d : Nat) (s : State) : Out := onUnit (dieExists s d) (stopCancel s d)

/-! ## Halting (R701, R702, R705) -/

/-- What is due at a slice in the cycle of T before a stop (R55): the writes whose apply time is T, the gate-list takeovers named for T,
the start of a round. -/
def dueBefore (s : State) (d : Nat) : State :=
  let s1 := applyDue s d
  let s2 := (List.range 9).foldl (fun s g => if hasGate s d g then gateTake s d g else s) s1
  if boundaryDue s2 d then roundBoundary s2 d else s2

/-- STOP_HALT (R701): the halt cycle of a region of an armed slice, in which the events of T come first (R55). -/
def execStopHalt (d panel : Nat) (s : State) : Out :=
  onUnit (dieExists s d && (panelsOf s d).contains panel)
    (if armed s d && stopFt s d ≤ s.now d then packageStopped (haltRegion (dueBefore s d) d panel) else s)

/-- CATCH_WINDOW_END (R702): 8 fc after the halt cycle. -/
def execCatchWindowEnd (d panel : Nat) (s : State) : Out :=
  onUnit (dieExists s d && (panelsOf s d).contains panel)
    (match s.halted.get none (d * 2 + panel) with
     | some c => if c + 8 ≤ (s.region d panel).cycles then { s with catchShut := s.catchShut.set false (d * 2 + panel) true } else s
     | none => s)

/-! ## Release (R62, R250, R706) -/

/-- A stitch port resumes as after a retrain (R529, R706). (DEDUCED, log 139) -/
def resumePort (s : State) (d : Nat) : State :=
  if portLive s d then (setStlState s d 4).setStl d { (setStlState s d 4).stl d with resume := true } else s

/-- A slice is no longer armed; its regions resume at the next round boundary (R250), and its heartbeats count from now (R623). (DEDUCED, log 139) -/
def releaseSlice (s : State) (d : Nat) : State :=
  let s1 := (panelsOf s d).foldl (fun s p => s.setRegion d p { s.region d p with resume := true }) s
  { (disarm s1 d).setFld d MND_STOP_STATUS 4 2 0 with hbFrom := s1.hbFrom.set 0 d (s.now s.headDie + 1) }

/-- A write of RELEASE (R706): the package returns to SERVICE, its shapers and meters full (R292, R294), with every partition in MEND with
CAUSE STOP. -/
def stopRelease (s : State) : State :=
  if s.mode != .stop then s
  else
    let s0 := (allDies s).foldl fillShapers (enterMode { s with armWait := [] } .service)
    let s1 := (portDies s).foldl resumePort ((allDies s).foldl releaseSlice s0)
    (partitions s1).foldl (fun s q => mendEnter s q 4) s1

/-- MND_STOP_RELEASE (R706). -/
def execMndStopRelease (s : State) : Out := .next (stopRelease s)

/-! ## The capture (R717, R718) -/

/-- The sideband of R135 packed from bit 0, as far as a word holds it. (DESIGN CHOICE, log 138) -/
def sideWord (f : Flit) : Nat :=
  let ty := if f.hdr.isSome then 1 else if f.last then 3 else 2
  (ty + f.vc % 8 * 2 ^ 2 + f.laOut % 8 * 2 ^ 5 + f.phase % 4 * 2 ^ 8 + f.seg % 8 * 2 ^ 10 + f.hops % 64 * 2 ^ 13 +
    f.transit.toNat * 2 ^ 19) % 2 ^ 64

/-- The 64 B of a unit. -/
def flitUnit (f : Flit) : DataUnit :=
  match f.hdr with
  | some h => h.pack
  | none => f.data

/-- Word `w` of a list of captured units, 9 words each; empty entries read as zero (R717). -/
def unitsWord (l : List Flit) (w : Nat) : Nat :=
  match l[w / 9]? with
  | none => 0
  | some f => if w % 9 == 8 then sideWord f else bitsOf (flitUnit f) (64 * (w % 9) + 63) (64 * (w % 9))

/-- The units of a packet. -/
def unitFlits (p : Packet) : List Flit :=
  { vc := p.hdr.vc.toNat, hdr := some p.hdr, last := p.data.isEmpty } ::
    (List.range p.data.length).map (fun i => { vc := p.hdr.vc.toNat, data := p.data.getD i 0, last := i + 1 == p.data.length })

/-- A sent seam frame with the fields of R166. -/
def SeamTx.frame (x : SeamTx) : SeamRx :=
  let f : Flit := x.unit.getD {}
  let ty := if x.unit.isNone then 0 else if f.hdr.isSome then 1 else if f.last then 3 else 2
  SeamRx.seal
    { body := { type := ty, vc := f.vc, laOut := f.laOut, phase := f.phase, seg := f.seg, hops := f.hops, transit := f.transit,
                unit := flitUnit f },
      credVc := x.credVc, credN := x.credN, seq := x.seq, ack := x.ack, nak := x.nak }

/-- Word `w` of a replay frame, from byte 0 with its FCRC (R166, R718). -/
def replayWord (x : SeamTx) (w : Nat) : Nat :=
  let f := x.frame
  (f.bits + f.fcrc.toNat * 2 ^ (if f.long then 640 else 576)) / 2 ^ (64 * w) % 2 ^ 64

/-- Word `w` of the SEAM area (R718). -/
def seamWord (a : Seam) (w : Nat) : Nat :=
  if w < 1296 then unitsWord (a.rx.filter (fun f => f.vc == w / 216)) (w % 216)
  else match a.replay[(w - 1296) / 11]? with
    | some x => replayWord x ((w - 1296) % 11)
    | none => 0

/-- The link across the panel seam of a row (R173): west to east from the last running router of the west panel, or back. -/
def panelLink (s : State) (d i : Nat) : List Flit :=
  let row := i / 2
  if i % 2 == 0 then
    match nextWest s d row 13 with
    | some c => s.wires.get [] (rk d (26 * row + c) * 8 + portE)
    | none => []
  else match nextEast s d row 12 with
    | some c => s.wires.get [] (rk d (26 * row + c) * 8 + portW)
    | none => []

/-- The units in an NI's queue of one VC (R718): injection or ejection. -/
def niFlits (s : State) (d p q v : Nat) : List Flit :=
  if q == 0 then ((s.inj.get [] (ik d p v)).flatMap (fun x => unitFlits x.pk)).take 33 else ((s.ni d p).ej.get [] v).take 8

/-- Word `w` of a reduction context (R718). -/
def ctxWord (x : Ctx) (w : Nat) : Nat :=
  let us := x.heldPk.flatMap (·.data)
  if w < 256 then bitsOf (us.getD (w / 8) 0) (64 * (w % 8) + 63) (64 * (w % 8))
  else if w == 256 then x.key.group % 2 ^ 16 + x.key.tag % 2 ^ 16 * 2 ^ 16 + x.key.chunkNo % 2 ^ 15 * 2 ^ 32 +
    x.key.epoch % 2 ^ 8 * 2 ^ 48 + x.key.entry % 32 * 2 ^ 56
  else if w == 257 then x.crcL.toNat
  else if w == 258 then x.crcR.toNat
  else if w == 259 then x.crcOut.toNat
  else 0

/-- Word `w` of the STITCH area (R718). -/
def stitchWord (s : State) (d ix w : Nat) : Nat :=
  let x := s.stl d
  if ix == 0 then match x.retry[w / 35]? with
    | some f => frameBytes f.2 / 2 ^ (64 * (w % 35)) % 2 ^ 64
    | none => 0
  else unitsWord (x.inBuf.flatMap (fun p => unitFlits p.pk)) w

/-- Word `w` of the CE area (R718). -/
def ceWord (s : State) (d k w : Nat) : Nat :=
  let ops := (List.range 64).flatMap (fun e => (s.ent d k e).ops.map (fun o => (e, o)))
  match ops[w / 16]? with
  | none => 0
  | some (e, o) =>
    if w % 16 < 8 then bitsOf o.desc (64 * (w % 16) + 63) (64 * (w % 16))
    else if w % 16 == 8 then (s.grp d k e).group % 2 ^ 16 + o.tag % 2 ^ 16 * 2 ^ 16
    else if w % 16 == 9 then o.next - o.live.length
    else 0

/-- MND_CAP_DATA (R717, R718). -/
def capRead (s : State) (d : Nat) : Word :=
  if s.mode != .stop then 0
  else
    let a := s.reg d MND_CAP_ADDR
    let ix := bitsOf a 47 16
    let w := bitsOf a 15 0
    let num := fun (n : Nat) => BitVec.ofNat 64 n
    match bitsOf a 63 60 with
    | 0 => num (unitsWord ((s.router d (ix / 64)).buf (ix / 8 % 8) (ix % 8)) w)
    | 1 => num (unitsWord ((s.router d (ix / 8)).catchReg.get [] (ix % 8)) w)
    | 2 => num (seamWord (s.seam d ix) w)
    | 3 => num (unitsWord (panelLink s d ix) w)
    | 4 => num (unitsWord (niFlits s d (ix / 16) (ix / 8 % 2) (ix % 8)) w)
    | 5 => num (match ctxAt (s.router d (ix / 4)) (ix % 4) with
      | some x => ctxWord x w
      | none => 0)
    | 6 => num (if isKind s d .port then stitchWord s d ix w else 0)
    | 7 => num (if ceExists s d ix then ceWord s d ix w else 0)
    | _ => num 0

end Sys2Proof.Machine
end

