-- ==== Sys2Proof/Machine/Boot.lean ====
section
/-! DEFINITION. Cold reset, the boot ROM, tests and training up to FIT, the request for SERVICE, the secret store, the debug path, the
lock-step and the mirror fence (R62, R227, R573, R770, R772, R775 to R788, R818, R829). -/

namespace Sys2Proof.Machine

open Sys2Proof

/-! ## Service dies -/

/-- The service dies of the package. -/
def serviceDies (s : State) : List Nat := (allDies s).filter (fun d => isKind s d .service)

/-- Run a command at a service die. -/
def onService (s : State) (d : Nat) (s' : State) : Out := onUnit (isKind s d .service) s'

/-- State of a die's boot ROM (R777, R794): 0 RESET, 1 LINK, 2 WAIT, 3 VERIFY, 4 RUN. -/
def bootState (s : State) (d : Nat) : Nat := s.fld d TLR_BOOT_STATUS 2 0

/-- Set the state of a boot ROM. -/
def setBoot (s : State) (d n : Nat) : State := s.setFld d TLR_BOOT_STATUS 2 0 n

/-! ## Cold reset (R62, R573, R777, R785, R829) -/

/-- A store across a reset: the material being provisioned is lost, and ERASING is kept (R783, R787). (DEDUCED, log 141) -/
def coldStore (s : State) (x : Store) : Store :=
  if x.state == 4 then { x with state := (s.provision.map (·.state)).getD 0 } else x

/-- The owner key of a store in a service die's registers (R802). (DEDUCED, log 142) -/
def showOwner (s : State) (d : Nat) : State :=
  (List.range 13).foldl (fun s i => s.setReg d (SEC_OWNER_KEY0 + 8 * i) ((s.store d).owner.getD i 0)) s

/-- Every slice reset (R62, R829): the state at reset, with what survives every reset (R781) and what has left the package. (DEDUCED, log 140) -/
def coldReset (s : State) : State :=
  let s1 : State := { State.reset with
    pending := s.pending, free := s.free, physical := s.physical, floor := s.physical, mem := s.mem, msix := s.msix, hostOut := s.hostOut,
    stores := { rows := (s.stores.rows.map (fun r => (r.1, coldStore s r.2))).filter (fun r => r.2 != {}) } }
  (serviceDies s1).foldl (fun s d => showOwner s d) s1

/-- COLD_RESET (R829). -/
def execColdReset (d : Nat) (s : State) : Out := onUnit (dieExists s d) (coldReset s)

/-! ## The boot ROM (R775 to R778) -/

/-- A store whose contents are zero (R785): the fuses stay. -/
def zeroStore (x : Store) : Store := { state := 2, svn := x.svn, draws := x.draws }

/-- Zeroise one store (R785): its items, and the owner key that the registers show. -/
def zeroise (s : State) (d : Nat) : State := showOwner (s.setStore d (zeroStore (s.store d))) d

/-- The boot window of a service die cleared (R777). -/
def clearWindow (s : State) (d : Nat) : State := { s with mem := s.mem.filter (fun c => c.1 / 2 ^ 44 != bootKey d 0 / 2 ^ 44) }

/-- BOOT_RESET_RELEASE (R777, R787): `primary` is the BOOT_PRIMARY input. (DESIGN CHOICE, log 143) -/
def execBootResetRelease (d : Nat) (primary : Bool) (s : State) : Out :=
  onService s d
    (if bootState s d != 0 then s
     else
       let s1 := if (s.store d).state == 3 then irqAt (zeroise s d) d 6 else s
       let s2 := setBoot (clearWindow s1 d) d (if primary then 1 else 2)
       if primary then { s2 with headDie := d } else s2)

/-- PCIE_LINK_UP (R777). -/
def execPcieLinkUp (d : Nat) (s : State) : Out := onService s d (if bootState s d == 1 then setBoot s d 2 else s)

/-- GO (R777, R788). -/
def bootGo (s : State) (d : Nat) : State := if bootState s d == 2 then setBoot s d 3 else s

/-- BOOT_GO (R777). -/
def execBootGo (d : Nat) (s : State) : Out := onService s d (bootGo s d)

/-- Bytes of the image in a service die's boot window. -/
def winBytes (s : State) (d off n : Nat) : List Byte := readBytes s.mem (bootKey d off) n

/-- A little-endian field of the image header (R775). -/
def winNat (s : State) (d off n : Nat) : Nat := natOfBytes (winBytes s d off n)

/-- SIG_OFF of the image (R775). -/
def bootSig (s : State) (d : Nat) : Nat := winNat s d 24 4

/-- Whether MAGIC, FORMAT and HDR_LEN are right (R775): "KRXI", 0x0100, 256. -/
def bootFormat (s : State) (d : Nat) : Bool :=
  winNat s d 0 4 == 0x4958524B && winNat s d 4 2 == 0x0100 && winNat s d 6 2 == 256

/-- Whether offsets and lengths are consistent, with the parts before SIG_OFF (R775, R776). -/
def bootLengths (s : State) (d : Nat) : Bool :=
  let sig := bootSig s d
  winNat s d 20 4 == sig + 256 && sig + 256 ≤ 2 ^ 21 && sig % 64 == 0 && winNat s d 32 4 ≤ 2 ^ 20 && winNat s d 44 4 ≤ 192 * 1024 &&
    winNat s d 28 4 + winNat s d 32 4 ≤ sig && winNat s d 40 4 + winNat s d 44 4 ≤ sig

/-- RESULT of a verification (R776, R778): 1 where the image is accepted. (DEDUCED, log 144) -/
def bootResult (s : State) (d : Nat) : Nat :=
  let sig := bootSig s d
  let key := winBytes s d (sig + 144) 97
  let digest := winBytes s d sig 48
  if !bootFormat s d then 2
  else if !bootLengths s d then 3
  else if Config.sha384 key != (List.range 6).map (Config.fwKeyHash d) then 4
  else if wordsBytes (Config.sha384 (winBytes s d 0 sig)) != digest then 5
  else if !Config.ecdsaOk key (bytesWords 6 digest) (winBytes s d (sig + 48) 96) then 6
  else if winNat s d 16 1 < (s.store d).svn then 7
  else 1

/-- The head part copied to the code region of both pairs (R769, R777). -/
def loadHead (s : State) (d : Nat) : State :=
  let bs := winBytes s d (winNat s d 28 4) (winNat s d 32 4)
  { s with mem := writeBytes (writeBytes s.mem (headRamKey d 0) bs) (headRamKey d (2 ^ 21)) bs }

/-- Verification ends (R62, R776 to R778): RUN, or WAIT with the image counted as rejected. (DEDUCED, log 144; DEDUCED, log 145) -/
def bootVerified (s : State) (d : Nat) : State :=
  let r := bootResult s d
  let s1 := irqAt (s.setFld d TLR_BOOT_STATUS 15 8 r) d 0
  if r == 1 then
    let b : Boot := { digest := Config.sha384 (winBytes s d 0 (winNat s d 20 4)), version := winNat s d 8 8, svn := winNat s d 16 1 }
    startTailor (setBoot { loadHead s1 d with boots := s.boots.set {} d b } d 4) d
  else (setBoot s1 d 2).bump d TLR_BOOT_STATUS 63 32 1

/-- BOOT_VERIFY_DONE (R776). -/
def execBootVerifyDone (d : Nat) (s : State) : Out := onService s d (if bootState s d == 3 then bootVerified s d else s)

/-- Burn fuses up to the running image's SVN (R779). (DEDUCED, log 146) -/
def svnAdvance (s : State) (d : Nat) : State :=
  let x := s.store d
  if bootState s d != 4 || x.state == 2 || x.state == 3 then s
  else s.setStore d { x with svn := max x.svn (min 64 (s.boots.get {} d).svn) }

/-- SVN_ADVANCE (R779). -/
def execSvnAdvance (d : Nat) (s : State) : Out := onService s d (svnAdvance s d)

/-! ## Tests and training (R62, R227, R530, R540, R818) -/

/-- Whether a failed unit is covered by a spare (R62, R128, R642): a tile whose panel row segment has one left. -/
def failCovered (s : State) (fails : List TestFail) : TestFail → Bool
  | .tile d p => isKind s d .compute && p < 624 && p % 13 != 12 && !noSpare s d p && !fails.contains (.tile d (segBase (p / 26) (p % 26 / 13) + 12))
  | .seam _ _ => false
  | .unit _ _ => false
  | .die _ => false

/-- A spare-column router that fails where its segment needs no spare: nothing runs on it. -/
def failIdle (s : State) : TestFail → Bool
  | .tile d p => isKind s d .compute && p < 624 && p % 13 == 12 && isBypassed s d p
  | _ => false

/-- Fence a failed unit and apply its spare (R62). (DEDUCED, log 150) -/
def coverFail (s : State) (f : TestFail) : State :=
  match f with
  | .tile d p => fenceTile (if p % 13 == 12 then s else darnStill s d p) d p
  | _ => fenceFail s f

/-- The seam adapters of the package start to train (R168, R821). -/
def startSeams (s : State) : State :=
  (allDies s).foldl (fun s d => (List.range 98).foldl (fun s i =>
    if hasSeam s d i && (s.seam d i).link == 0 && seamMayRun s d i then s.setSeam d i { s.seam d i with link := 1 } else s) s) s

/-- A register that a return from TEST to COLD leaves as it is: those of the tailor, the secret store and, for the next load, PREV. (DEDUCED, log 140; DEDUCED, log 151) -/
def keptCold (off : Nat) : Bool := 0x1C0000 ≤ off || (OBS_LEDGER_PREV0 ≤ off && off < OBS_LEDGER_PREV0 + 48)

/-- TEST to COLD (R62, R573): every slice returns to its state on entry to COLD, with the boot ROMs and secrets as they are; tailor
cores other than those of service dies are held in reset (R768). (DEDUCED, log 150; DEDUCED, log 151) -/
def testFailed (s : State) : State :=
  let c := coldReset s
  let c1 : State := { c with csr := { rows := s.csr.rows.filter (fun r => keptCold (r.1 % 2 ^ 24)) }, headDie := s.headDie, boots := s.boots,
                             stores := s.stores, provision := s.provision, debugFt := s.debugFt, debugWait := s.debugWait, eraseOnly := s.eraseOnly,
                             keepers := s.keepers, kickFt := s.kickFt, mode := .test, testReport := s.testReport }
  enterMode ((allDies c1).foldl (fun s d => if isKind s d .service then s else s.setFld d TLR_STATUS 1 1 0) c1) .cold

/-- The built-in tests end (R62): the host receives a report of the units that failed. (DESIGN CHOICE, log 150) -/
def testsDone (s0 : State) (fails : List TestFail) : State :=
  let s := { s0 with testReport := some fails }
  if s0.mode != .test then s0
  else if fails.all (fun f => failCovered s fails f || failIdle s f) then
    let s1 := startSeams (enterMode (fails.foldl coverFail s) .train)
    (portDies s1).foldl (fun s d => portStart s d) s1
  else testFailed s

/-- BUILTIN_TEST_COMPLETE (R62). -/
def execBuiltinTestComplete (fails : TestFails) (s : State) : Out := .next (testsDone s fails)

/-- MP_TRAIN_DONE (R818). -/
def execMpTrainDone (d : Nat) (s : State) : Out := onUnit (isKind s d .memif) { s with mpTrained := s.mpTrained.set false d true }

/-- Whether a stitch port has finished its training (R530). -/
def portTrained (s : State) (d : Nat) : Bool :=
  !s.flag d STL_CFG 0 || s.fld d STL_CFG 6 5 == 3 || [5, 6, 8, 9].contains (stlState s d)

/-- Whether the package may leave TRAIN (R62, R227, R530). -/
def trained (s : State) : Bool :=
  (allDies s).all (fun d => seamsTrained s d && (s.keeper d).lock &&
    (!isKind s d .port || portTrained s d) && ((partitionOf s d).isNone || !isKind s d .memif || s.mpTrained.get false d))

/-- The spare that covers a port: in STANDBY with the same direction (R535). (DEDUCED, log 152) -/
def spareFor (s : State) (d : Nat) : Option Nat :=
  (portDies s).find? (fun t => s.fld t STL_CFG 6 5 == 2 && stlState s t == 6 && s.fld t STL_CFG 9 7 == s.fld d STL_CFG 9 7)

/-- A spare takes over from a port before SERVICE (R62, R540): its role, the direction map of every port die, and route-table entries
100 + p of every NI. (DEDUCED, log 152) -/
def trainSpare (s : State) (d : Nat) : State :=
  match spareFor s d with
  | none => s
  | some t =>
    let p := portNum s d
    let q := portNum s t
    let dir := s.fld d STL_CFG 9 7
    let s1 := (s.setFld t STL_CFG 6 5 0).setFld t STL_CFG 1 1 1
    let s2 := (portDies s1).foldl (fun s x => s.setFld x STL_DIR_MAP (4 * dir + 3) (4 * dir) q) s1
    let tab := (s2.routeTab.rowsWhere (fun k => k % 128 == 100 + p || k % 128 == 100 + q)).foldl
      (fun r x => r.set 0 (x.1 / 128 * 128 + 100 + p) (s2.routeTab.get 0 (x.1 / 128 * 128 + 100 + q))) s2.routeTab
    (setStlState { s2 with routeTab := tab } t 5).raise t STL_EVENT 7

/-- TRAIN to FIT (R62, R623). -/
def trainDone (s : State) : State :=
  if s.mode != .train || !trained s then s
  else
    let bad := (portDies s).filter (fun d => s.flag d STL_CFG 0 && s.fld d STL_CFG 6 5 == 0 && (stlState s d == 8 || stlState s d == 9))
    let s1 := enterMode (bad.foldl trainSpare s) .fit
    { s1 with hbFrom := (allDies s1).foldl (fun t d => t.set 0 d (s1.now s1.headDie + 1)) s1.hbFrom }

/-- TRAIN_COMPLETE (R227). -/
def execTrainComplete (s : State) : Out := .next (trainDone s)

/-- A request for SERVICE (R780, R796). (DEDUCED, log 160) -/
def svcRequest (s : State) : State :=
  let d := s.headDie
  let result := fun (n : Nat) => s.setFld d TLR_SVC_STATUS 2 0 n
  if s.mode != .fit then result 3
  else if !areaOk s then result 4
  else { result 1 with svcAt := some (s.reg d TLR_SVC_FT).toNat }

/-- SVC_REQUEST (R780): TLR_SVC_CTL acts at the active service die. -/
def execSvcRequest (s : State) : Out := .next (svcRequest s)

/-! ## The secret store (R781 to R784) -/

/-- The STATE of a service die's store changes (R799). -/
def setSecState (s : State) (d n : Nat) : State :=
  if (s.store d).state == n then s else irqAt (s.setStore d { s.store d with state := n }) d 6

/-- RESULT of SEC_STATUS (R801). -/
def secResult (s : State) (d n : Nat) : State := s.setFld d SEC_STATUS 15 8 n

/-- SEC_DEBUG_STATUS.STEP (R785). -/
def debugStep (s : State) : Nat := s.fld s.headDie SEC_DEBUG_STATUS 2 0

/-- The owner key that software has written: 97 bytes (R802). -/
def ownerBytes (s : State) (d : Nat) : List Byte :=
  (wordsBytes ((List.range 13).map (fun i => s.reg d (SEC_OWNER_KEY0 + 8 * i)))).take 97

/-- A big-endian number. -/
def bigNat (bs : List Byte) : Nat := bs.foldl (fun n b => n * 256 + b.toNat) 0

/-- The prime of P-384. (PRESUMED, log 13) -/
def p384 : Nat := 2 ^ 384 - 2 ^ 128 - 2 ^ 96 + 2 ^ 32 - 1

/-- The coefficient b of P-384. (PRESUMED, log 13) -/
def p384b : Nat := 0xB3312FA7E23EE7E4988E056BE3F82D19181D9C6EFE8141120314088F5013875AC656398D8A2ED19D2A85C8EDD3EC2AEF

/-- Whether (x, y) lies on P-384: y² = x³ − 3x + b. -/
def onP384 (x y : Nat) : Bool :=
  x < p384 && y < p384 && (y * y) % p384 == (x * x * x + (p384 - 3) * x + p384b) % p384

/-- Whether a key is 0x04 ‖ X ‖ Y of a point on P-384 (R783). -/
def keyOk (bs : List Byte) : Bool :=
  bs.headD 0 == 4 && onP384 (bigNat ((bs.drop 1).take 48)) (bigNat ((bs.drop 49).take 48))

/-- Whether provisioning is permitted (R783, R788). (DEDUCED, log 147) -/
def provisionMay (s : State) (d : Nat) : Bool :=
  s.mode == .cold && bootState s d == 4 && ((s.store d).state == 0 || (s.store d).state == 2) && (debugStep s == 0 || debugStep s == 3)

/-- The key material drawn for a store (R783); `state` is the STATE to which a failed provisioning returns. -/
def drawStore (s : State) (d : Nat) : Store :=
  let x := s.store d
  let w := fun (i : Nat) => Config.randomWord d x.draws i
  let priv := (List.range 6).map w
  { state := x.state, priv := priv, pub := Config.attestPub priv, owner := (List.range 13).map (fun i => s.reg d (SEC_OWNER_KEY0 + 8 * i)),
    chainKey := (List.range 4).map (fun i => w (6 + i)) }

/-- A write of PROVISION (R783). (DEDUCED, log 147) -/
def provision (s : State) (d : Nat) : State :=
  if !keyOk (ownerBytes s d) then secResult s d 3
  else if !provisionMay s d then secResult s d 2
  else
    let x := s.store d
    setSecState ({ s with provision := some (drawStore s d) }.setStore d { x with draws := x.draws + 1 }) d 4

/-- PROVISION (R783). -/
def execProvision (d : Nat) (s : State) : Out := onService s d (provision s d)

/-- The contents of provisioning reach one store. -/
def takeStore (s : State) (p : Store) (d : Nat) : State :=
  let x := s.store d
  let s1 := s.setStore d { x with priv := p.priv, pub := p.pub, owner := p.owner, chainKey := p.chainKey }
  setSecState (showOwner s1 d) d 1

/-! ## Opening the debug path (R785 to R788) -/

/-- STEP on every service die (R785, R799). -/
def setDebugStep (s : State) (n : Nat) : State :=
  (serviceDies s).foldl (fun s d =>
    if s.fld d SEC_DEBUG_STATUS 2 0 == n then s else irqAt (s.setFld d SEC_DEBUG_STATUS 2 0 n) d 6) s

/-- A request to open the debug path (R785, R788); `src` is 0 for the host, 1 for the TAP. (DEDUCED, log 149) -/
def openRequest (s0 : State) (src : Nat) : State :=
  let s := (serviceDies s0).foldl (fun s d => s.setFld d SEC_DEBUG_STATUS 3 3 src) s0
  if (serviceDies s).any (fun d => (s.store d).state == 4) then { s with debugWait := some (src == 1) }
  else if debugStep s != 0 then s
  else if debugOpened s then debugNotify (setDebugStep s 3)
  else debugNotify { setDebugStep s 1 with debugFt := s.now s.headDie }

/-- DEBUG_OPEN (R785). -/
def execDebugOpen (d : Nat) (s : State) : Out := onService s d (openRequest s 0)

/-- DBG_OPEN_REQ (R785). -/
def execDbgOpenReq (d : Nat) (s : State) : Out := onService s d (openRequest s 1)

/-- Provisioning ends (R783, R788); `ok` says that every present service die answered. -/
def provisionDone (s : State) (d : Nat) (ok : Bool) : State :=
  match s.provision with
  | none => s
  | some p =>
    if (s.store d).state != 4 then s
    else
      let s1 := if ok then secResult ((serviceDies s).foldl (fun s x => takeStore s p x) s) d 1
        else secResult (setSecState s d p.state) d 4
      let s2 := { s1 with provision := none, debugWait := none }
      match s.debugWait with
      | some t => openRequest s2 (boolNat t)
      | none => s2

/-- PROVISION_DONE (R783). -/
def execProvisionDone (d : Nat) (ok : Bool) (s : State) : Out := onService s d (provisionDone s d ok)

/-- Zeroisation starts: STATE is ERASING on every service die (R785). -/
def erasing (s : State) : State := (serviceDies s).foldl (fun s d => setSecState s d 3) { s with provision := none }

/-- A write of ERASE (R784). (DEDUCED, log 148) -/
def erase (s : State) : State := if debugStep s == 2 || s.eraseOnly then s else { erasing s with eraseOnly := true }

/-- ERASE (R784). -/
def execErase (d : Nat) (s : State) : Out := onService s d (erase s)

/-- LEDGER to ZEROISE (R785). -/
def toZeroise (s : State) : State := if debugStep s == 1 then erasing (setDebugStep s 2) else s

/-- LEDGER_DONE (R785). -/
def execLedgerDone (d : Nat) (s : State) : Out := onService s d (toZeroise s)

/-- DEBUG_LEDGER_TIMEOUT (R785): 50 ms in LEDGER. -/
def execDebugLedgerTimeout (s : State) : Out := .next (if s.debugFt + 50000000 ≤ s.now s.headDie then toZeroise s else s)

/-- Whether a zeroisation runs. -/
def zeroising (s : State) : Bool := debugStep s == 2 || s.eraseOnly

/-- ZEROISE_DONE (R785): every store reads back as zeros. -/
def zeroiseDone (s : State) : State :=
  if !zeroising s then s
  else
    let s1 := (serviceDies s).foldl (fun s d => irqAt (zeroise s d) d 6) { s with eraseOnly := false }
    if debugStep s == 2 then setDebugStep s1 3 else s1

/-- ZEROISE_DONE (R785). -/
def execZeroiseDone (s : State) : Out := .next (zeroiseDone s)

/-- ZEROISE_RETRY (R785): a store has failed read-back three times. -/
def execZeroiseRetry (s : State) : Out :=
  .next (if zeroising s then (serviceDies s).foldl (fun s d => s.raise d SEC_STATUS 4) s else s)

/-! ## Lock-step and the mirror fence (R770, R772) -/

/-- LOCKSTEP_MISMATCH (R770): pair A or B disagrees; both halt, and the die's heartbeats stop with its tailor. -/
def execLockstepMismatch (d : Nat) (pairB : Bool) (s : State) : Out :=
  onService s d (s.raise d TLR_STATUS (if pairB then 7 else 6))

/-- A mirror fence starts (R772); with no mirror nothing waits. (DEDUCED, log 153) -/
def mirrorFence (s : State) (d : Nat) : State :=
  if d == s.headDie && isKind s s.mirrorDie .service && !s.ledger.unmirrored then s.raise d TLR_STATUS 5 else s

/-- TLR_MIRROR_FENCE (R772). -/
def execTlrMirrorFence (d : Nat) (s : State) : Out := onService s d (mirrorFence s d)

/-- MIRROR_FENCE_COMPLETE (R772, R788): it does not complete in a head tailor that has halted. -/
def execMirrorFenceComplete (s : State) : Out :=
  .next (if headRuns s then s.setFld s.headDie TLR_STATUS 5 5 0 else s)

end Sys2Proof.Machine
end

