-- ==== Sys2Proof/Machine/Flags.lean ====
section
/-! DEFINITION. Reads of the register map (R23 to R32): the status fields that the machine computes from its state, the fields of fuses and
of the secret store, the tables behind DATA registers, and the windows that lie in a block. -/

namespace Sys2Proof.Machine

open Sys2Proof

/-- A word whose bit `i` says whether `f i` holds, for i below `n`. -/
def bitWord (n : Nat) (f : Nat → Bool) : Nat := ((List.range n).map (fun i => boolNat (f i) * 2 ^ i)).sum

/-- A word made of fields of `w` bits, field i holding `f i`. -/
def fieldWord (w n : Nat) (f : Nat → Nat) : Nat := ((List.range n).map (fun i => f i % 2 ^ w * 2 ^ (w * i))).sum

/-- A stored register with the bits of `mask` computed. -/
def withBits (s : State) (d off mask v : Nat) : Word :=
  BitVec.ofNat 64 (Nat.lor (Nat.land (s.reg d off).toNat (2 ^ 64 - 1 - mask)) (Nat.land v mask))

/-! ## SLC (R48 to R53) -/

/-- SLC_CAP of a slice kind (R42, R52). -/
def capWord : Kind → Nat
  | .compute => 16384 * 2 ^ 48 + 624 * 2 ^ 32 + 2 * 2 ^ 24 + 8 * 2 ^ 20 + 1
  | .port => 24 * 2 ^ 32 + 4 * 2 ^ 20 + 2
  | .memif => 24 * 2 ^ 32 + 4
  | .service => 2 * 2 ^ 32 + 0xF8

/-- A read of a register of the SLC block that is not stored as it reads. -/
def readSlc (s : State) (d off : Nat) (k : Kind) : Option Word :=
  if off == SLC_ID then some (BitVec.ofNat 64 (0x0B7A * 2 ^ 48 + 0x08B0 * 2 ^ 32 + (Config.designStep d).toNat * 2 ^ 16))
  else if off == SLC_PLACE then some (withBits s d off 7 k.code)
  else if off == SLC_CAP then some (BitVec.ofNat 64 (capWord k))
  else if off == SLC_STATE then some (withBits s d off 0x707 ((partState s d).code * 2 ^ 8 + s.mode.code))
  else none

/-! ## TIM (R252 to R268) -/

/-- ROLE_ACTIVE (R254): a backup that acts as root reads as one. -/
def roleActive (s : State) (d : Nat) : Nat :=
  if actsAsRoot s d then 2 else if s.fld d TIM_CFG 1 0 == 1 then 1 else 0

/-- TIM_STATUS (R254). -/
def timStatus (s : State) (d : Nat) : Nat :=
  let k := s.keeper d
  boolNat (s.region d 1).lastStretch * 2 ^ 7 + boolNat (s.region d 0).lastStretch * 2 ^ 6 + roleActive s d * 2 ^ 4 +
    boolNat k.roundsOn * 2 ^ 3 + boolNat (k.slew != 0) * 2 ^ 2 + boolNat k.holdover * 2 + boolNat k.lock

/-- TIM_GATE_STATUS of gate point `g` (R268). -/
def gateStatus (s : State) (d g : Nat) : Nat :=
  let x := s.gate d g
  x.cur % 256 * 2 ^ 8 + boolNat x.openAll * 2 ^ 3 + boolNat x.late * 2 ^ 2 + boolNat x.armedAt.isSome * 2 + x.bank % 2

/-- A read of a register of the TIM block that is not stored as it reads. -/
def readTim (s : State) (d off : Nat) : Option Word :=
  if off == TIM_STATUS then some (BitVec.ofNat 64 (timStatus s d))
  else if off == TIM_PTP_STATUS then some (withBits s d off 1 (boolNat (s.keeper d).tod.isSome))
  else if off == TIM_ROUND then some (BitVec.ofNat 64 (s.now d / roundNs))
  else if TIM_GATE_STATUS ≤ off && off < TIM_GATE_STATUS + 0x120 && (off - TIM_GATE_STATUS) % 0x20 == 0 then
    some (BitVec.ofNat 64 (gateStatus s d ((off - TIM_GATE_STATUS) / 0x20)))
  else none

/-! ## TRT and NI (R186, R187, R199, R308, R322, R370) -/

/-- TRT_STATUS (R187). -/
def trtStatus (s : State) (d p : Nat) : Nat :=
  let r := s.router d p
  bitWord 6 (fun o => (r.held.get none o).isSome) + 2 ^ 16 * bitWord 36 (fun i => !(r.buf (i / 6) (i % 6)).isEmpty)

/-- TRT_ARB_STATE (R308). -/
def arbWord (s : State) (d p : Nat) : Nat :=
  fieldWord 8 6 (fun o =>
    let a := (s.router d p).out o
    boolNat a.masked5 * 2 ^ 6 + bitWord 6 (fun i => a.masked.getD i false))

/-- One context of TRT_RED_CTX (R370). -/
def ctxStatus (x : Ctx) : Nat :=
  2 ^ 15 + boolNat x.side * 2 ^ 14 + boolNat x.begun * 2 ^ 13 + x.key.entry % 32 * 2 ^ 8 + min 32 (ctxUnits x)

/-- TRT_RED_CTX (R370). -/
def ctxWordAll (s : State) (d p : Nat) : Nat :=
  fieldWord 16 4 (fun c => match ctxAt (s.router d p) c with
    | some x => ctxStatus x
    | none => 0)

/-- A read of a router's register that is not stored as it reads. The routers of an edge die stand in one line: PX is the position in
it, and PY, which the spec gives no value there, reads 0. (DESIGN CHOICE, log 180) -/
def readTrt (s : State) (d off : Nat) : Option Word :=
  match trtOffset off with
  | none => none
  | some (p, r) =>
    if r == TRT_CFG then
      some (if isKind s d .compute then withBits s d off 0x1F1F04 (p / 26 * 2 ^ 16 + p % 26 * 2 ^ 8 + panelOf s d p * 4)
        else withBits s d off 0x1F1F04 (p * 2 ^ 8))
    else if r == TRT_STATUS then some (BitVec.ofNat 64 (trtStatus s d p))
    else if r == TRT_ARB_STATE then some (BitVec.ofNat 64 (arbWord s d p))
    else if r == TRT_RED_CTX then some (BitVec.ofNat 64 (ctxWordAll s d p))
    else none

/-- Whether an NI holds an ORDERED injection on a VC under R185. -/
def niOrderHold (s : State) (d p v : Nat) : Bool :=
  (attachments s d).any (fun a => match attPort s d a, s.inj.get [] (ik d a v) with
    | some (_, _, t), q :: _ => t == p && drainHolds s d a q.pk.hdr
    | _, _ => false)

/-- Whether an NI holds an ejection on a VC under R118. -/
def niGenHold (s : State) (d p v : Nat) : Bool :=
  match (s.ni d p).ej.get [] v with
  | f :: _ => (match f.hdr with
    | some h => isTile s d p && genHeld s d p h
    | none => false)
  | [] => false

/-- NI_STATUS (R199). -/
def niStatus (s : State) (d p : Nat) : Nat :=
  bitWord 6 (niOrderHold s d p) * 2 ^ 10 + bitWord 6 (niGenHold s d p) * 2 ^ 4 + (s.ni d p).gen % 16

/-- NI_GOV_STATUS (R322). -/
def govStatus (s : State) (d : Nat) : Nat :=
  let g := s.gov d
  (g.avg / 10000).toNat % 2 ^ 32 * 2 ^ 32 + govPermit s d % 2 ^ 13 * 2 ^ 16 + boolNat (govPermit s d < 4096)

/-- A read of a register of the NI blocks that is not stored as it reads. -/
def readNi (s : State) (d off : Nat) : Option Word :=
  if NI_STATUS ≤ off && off < 0x90000 && (off - NI_STATUS) % 0x40 == 0 then some (BitVec.ofNat 64 (niStatus s d ((off - NI_STATUS) / 0x40)))
  else if off == NI_GOV_STATUS then some (BitVec.ofNat 64 (govStatus s d))
  else none

/-! ## SEAM (R203 to R207) -/

/-- A read of a register of the SEAM block that is not stored as it reads. EAST_IS_DOWN and WEST_IS_DOWN show the rate in effect since
the boundary of R174, acknowledged or not. (DESIGN CHOICE, log 180) -/
def readSeam (s : State) (d off : Nat) : Option Word :=
  if off == SEAM_PANEL then
    some (withBits s d off 0x300 (boolNat (s.region d 1).down * 2 ^ 9 + boolNat (s.region d 0).down * 2 ^ 8))
  else if 0xA0000 ≤ off && off < 0xA8000 then
    let i := (off - 0xA0000) / 0x100
    let a := s.seam d i
    let r := off - 0x100 * i
    if r == SEAM_CFG then some (withBits s d off 4 (boolNat (!isKind s d .compute && 24 ≤ i) * 4))
    else if r == SEAM_STATUS then some (BitVec.ofNat 64 (a.latency % 256 * 2 ^ 16 + a.txSeq % 256 * 2 ^ 8 + a.link % 8))
    else if r == SEAM_CREDIT then some (BitVec.ofNat 64 (fieldWord 8 6 (fun v => a.farCred.getD v 0)))
    else none
  else none

/-! ## CE and shaping (R313, R316, R383, R433, R434) -/

/-- The gate point, VC and register of an offset in a shaping window (R312). -/
def shapeOffset (off : Nat) : Option (Nat × Nat × Nat) :=
  if 0xC0000 ≤ off && off < 0xC8000 && 0xC00 ≤ off % 0x1000 && off % 0x1000 < 0xE80 then
    some ((off - 0xC0000) / 0x1000, (off % 0x1000 - 0xC00) / 0x80 + 1, (off % 0x1000 - 0xC00) % 0x80)
  else if 0x150000 ≤ off && off < 0x150280 then some (8, (off - 0x150000) / 0x80 + 1, (off - 0x150000) % 0x80)
  else none

/-- The word that CE_GT_ADDR selects (R383, R434). (DEDUCED, log 71) -/
def gtRead (s : State) (d k : Nat) : Word :=
  let e := s.fld d (cew k CE_GT_ADDR) 8 3
  let w := s.fld d (cew k CE_GT_ADDR) 2 0
  let n := s.ent d k e
  if w == 7 then
    BitVec.ofNat 64 (boolNat n.halted * 2 ^ 44 + n.ops.length % 16 * 2 ^ 40 + (n.live.getD 0) % 256 * 2 ^ 32 + n.head % 2 ^ 32)
  else (s.ce d k).gt.get 0 (e * 8 + w)

/-- CE_STATUS (R433). -/
def ceStatus (s : State) (d k : Nat) : Nat :=
  let c := s.ce d k
  let groups := ((List.range 64).filter (fun e => (s.grp d k e).valid)).length
  let fetched := (c.ents.rows.map (fun r => r.2.queue.length)).sum
  (c.used.get 0 0 + c.used.get 0 1) / 2 % 2 ^ 27 * 2 ^ 37 + fetched % 2 ^ 16 * 2 ^ 16 + activeOps s d k % 16 * 2 ^ 8 + groups

/-- A read of a register of a CE or a shaping window that is not stored as it reads. -/
def readCe (s : State) (d off : Nat) : Option Word :=
  match shapeOffset off with
  | some (g, v, r) =>
    let x := s.shp d g v
    if r == 0x08 then some (BitVec.ofNat 64 (twosOf 32 x.tokens))
    else if r == 0x20 then some (BitVec.ofNat 64 (x.tp % 2 ^ 24 * 2 ^ 32 + x.tc % 2 ^ 24))
    else none
  | none =>
    match ceOffset off with
    | some (k, r) =>
      if r == CE_STATUS then some (BitVec.ofNat 64 (ceStatus s d k)) else if r == CE_GT_DATA then some (gtRead s d k) else none
    | none => none

/-! ## CMT and SYN (R469, R471, R501, R504, R508) -/

/-- A half of a sync object (R469). -/
def synRead (s : State) (d o : Nat) (hi : Bool) : Word :=
  BitVec.ofNat 64 (if hi then bitsOf (s.sobj d o) 127 64 else bitsOf (s.sobj d o) 63 0)

/-- A read of a register of the CMT block that is not stored as it reads. -/
def readCmt (s : State) (d off : Nat) : Option Word :=
  if off == SYN_STATUS then
    let held := ((lockObjects s d).filter (fun o => lockHeld (s.sobj d o))).length
    some (BitVec.ofNat 64 (held % 2 ^ 15 * 2 ^ 16 + boolNat (!(s.syncBreak.get [] d).isEmpty)))
  else if off == CMT_STATUS then
    some (BitVec.ofNat 64 (bitWord 16 (fun n => (s.win d n).st == 3 || (s.win d n).st == 4) * 2 ^ 16 + bitWord 16 (fun n => (s.win d n).st != 0)))
  else if CMT_WIN_STATE_0 ≤ off && off < CMT_WIN_STATE_0 + 0x100 && (off - CMT_WIN_STATE_0) % 0x10 == 0 then
    let w := s.win d ((off - CMT_WIN_STATE_0) / 0x10)
    some (BitVec.ofNat 64 (w.t % 2 ^ 40 * 2 ^ 24 + w.group % 2 ^ 16 * 2 ^ 8 + w.st % 8))
  else if CMT_CE_STATUS ≤ off && off < CMT_CE_STATUS + 0x800 && (off - CMT_CE_STATUS) % 0x100 == 0 then
    let c := s.coord d ((off - CMT_CE_STATUS) / 0x100)
    some (BitVec.ofNat 64 (c.head % 2 ^ 32 * 2 ^ 32 + openSlots c % 2 ^ 9))
  else none

/-! ## STL, PAT, HLT and MND (R553, R559, R602, R664, R716, R721) -/

/-- A read of a register of the STL block that is not stored as it reads. -/
def readStl (s : State) (d off : Nat) : Option Word :=
  let x := s.stl d
  if off == STL_STATUS then some (withBits s d off 0x200 (boolNat (!x.resend.isEmpty) * 2 ^ 9))
  else if off == STL_RETRY then
    some (BitVec.ofNat 64 (x.retry.length % 256 * 2 ^ 48 + x.rxSeq % 4096 * 2 ^ 32 + x.acked % 4096 * 2 ^ 16 + x.txSeq % 4096))
  else none

/-- A read of a register of the HLT or MND block that is not stored as it reads. -/
def readMnd (s : State) (d off : Nat) : Option Word :=
  if 0x161000 ≤ off && off < 0x162000 then
    let x := s.flog.get 0 (d * 256 + (off - 0x161000) / 0x10)
    some (BitVec.ofNat 64 (if off % 16 == 0 then bitsOf x 63 0 else bitsOf x 127 64))
  else if off == MND_STOP_STATUS then some (withBits s d off 2 (boolNat (sliceHalted s d) * 2))
  else if off == MND_IN_MEND then some (BitVec.ofNat 64 (bitWord 64 (fun q => partStep s q != 0)))
  else none

/-! ## OBS (R757, R762) -/

/-- The word that OBS_STAT_ADDR selects (R757). -/
def statRead (s : State) (d : Nat) : Word :=
  let x := s.stats.get {} (d * 128 + s.fld d OBS_STAT_ADDR 8 2)
  BitVec.ofNat 64 (match s.fld d OBS_STAT_ADDR 1 0 with
    | 0 => x.pkts
    | 1 => x.units
    | 2 => x.latSum
    | _ => x.latMax % 2 ^ 32 * 2 ^ 32 + (if x.pkts == 0 then 2 ^ 32 - 1 else x.latMin % 2 ^ 32))

/-- A read of a register of the OBS block that is not stored as it reads. -/
def readObs (s : State) (d off : Nat) : Option Word :=
  let l := s.ledger
  if off == OBS_STAT_DATA then some (statRead s d)
  else if off == OBS_LEDGER_STATUS then
    some (withBits s d off 0xFFFF0007 (l.back.length % 2 ^ 16 * 2 ^ 16 + boolNat l.unmirrored * 4 + boolNat l.signing.isSome * 2 +
      boolNat (debugOpened s)))
  else none

/-! ## SEC and TLR (R800 to R803) -/

/-- A read of a register of the SEC block of a service die that is not stored as it reads. -/
def readSec (s : State) (d off : Nat) : Option Word :=
  let x := s.store d
  if off == SEC_STATUS then some (withBits s d off 0xF (boolNat (x.state == 1) * 2 ^ 3 + x.state % 8))
  else if SEC_ATTEST_PUB0 ≤ off && off < SEC_ATTEST_PUB0 + 0x60 && off % 8 == 0 then
    some (if x.state == 1 then x.pub.getD ((off - SEC_ATTEST_PUB0) / 8) 0 else 0)
  else if off == SEC_DEVICE_ID then some (Config.deviceId d)
  else if SEC_FW_KEY_HASH0 ≤ off && off < SEC_FW_KEY_HASH0 + 0x30 && off % 8 == 0 then
    some (Config.fwKeyHash d ((off - SEC_FW_KEY_HASH0) / 8))
  else if off == SEC_SVN then some (BitVec.ofNat 64 (x.svn % 128))
  else none

/-- A read of a register of the TLR block that is not stored as it reads, and of the boot window (R777, R800). -/
def readTlr (s : State) (d off : Nat) : Option Word :=
  if off == TLR_TELEM_DATA then some (s.telem.get 0 (s.fld d TLR_TELEM_ADDR 7 1 * 2 + s.fld d TLR_TELEM_ADDR 0 0))
  else if 0x3D0000 ≤ off && off < 0x5D0000 then some (readWord s.mem (bootKey d ((off - 0x3D0000) / 8 * 8)))
  else none

/-! ## One read -/

/-- The first value that one of some readings gives. -/
def firstWord : List (Option Word) → Option Word
  | [] => none
  | some v :: _ => some v
  | none :: xs => firstWord xs

/-- The value of a register that exists: computed, or as it is stored. -/
def regRead (s : State) (d off : Nat) (k : Kind) : Word :=
  let blk := off / 0x10000
  let v :=
    if blk == 0 then readSlc s d off k
    else if blk == 1 then readTim s d off
    else if blk < 7 then readTrt s d off
    else if blk < 0xA then readNi s d off
    else if blk == 0xA then readSeam s d off
    else if blk == 0xC || blk == 0x15 then readCe s d off
    else if blk == 0xD || blk == 0xF then readCmt s d off
    else if blk == 0x14 then readStl s d off
    else if blk == 0x16 || blk == 0x17 then readMnd s d off
    else if blk == 0x18 then readObs s d off
    else if blk == 0x1C then readSec s d off
    else readTlr s d off
  (firstWord [v, tableRead s d off]).getD (s.reg d off)

/-- A 64-bit read of a slice's CSR window (R23 to R32), and the state after it: reads of TIM_FT and of the capture do more than
answer (R252, R717), a misaligned read answers an unpredictable value and leaves the register's contents unpredictable (R24), and an absent register reads as zero (R25). (DESIGN CHOICE, log 22) -/
def csrRead (s : State) (d off : Nat) : Word × State :=
  match kindOf s d with
  | none => (0, s)
  | some k =>
    if off % 8 != 0 then (BitVec.ofNat 64 (bitsOf s.draw.1 63 0), scramble s.draw.2 d off)
    else match synOffset off, descOf s d off with
      | some (o, hi), _ => if k == .compute then (synRead s d o hi, s) else (0, s)
      | none, some _ =>
        if off == TIM_FT then readFt s d
        else if off == MND_CAP_DATA then (capRead s d, s)
        else if off == PAT_LOAD_STATUS then
          (withBits s d off 0xFFFF000000 (Config.loadBuffer / 8 * 8 % 2 ^ 16 * 2 ^ 24), s)
        else (regRead s d off k, s)
      | none, none =>
        if 0x161000 ≤ off && off < 0x162000 then (regRead s d off k, s)
        else if k == .service && 0x3D0000 ≤ off && off < 0x5D0000 then (regRead s d off k, s)
        else (0, s)

end Sys2Proof.Machine
end

