-- ==== Sys2Proof/Machine/Csr.lean ====
section
/-! DEFINITION. Writes of the register map (R23 to R32): a register that acts, with what each of its WO fields does, and the access of the
host to another slice's CSR (R790, R797); and the tailor's send port (R766). -/

namespace Sys2Proof.Machine

open Sys2Proof

/-! ## The send port (R766, R793) -/

/-- The packet in the send buffer of a slice, with the SRC of its tailor core (R766). -/
def sendBuffer (s : State) (d : Nat) : Packet :=
  let h := Hdr.unpack (readUnit s.mem (sendKey d 0))
  { hdr := { h with src := ctlSrc s d },
    data := (List.range (min 32 h.len.toNat)).map (fun i => readUnit s.mem (sendKey d (64 + 64 * i))) }

/-- A write of SEND (R766): the packet is injected at the control attachment; a header of undefined misuse stops the model. (DESIGN CHOICE, log 154) -/
def tlrSend (s : State) (d : Nat) : Out :=
  match packetMisuse (sendBuffer s d) with
  | some r => .fault (.undefinedMisuse r)
  | none => .next (sendAt s d attCtl (sendBuffer s d))

/-- The tailor core has built a packet in its send buffer (R765). (DESIGN CHOICE, log 154) -/
def fillSend (s : State) (d : Nat) (p : Packet) : State :=
  let m := writeUnit s.mem (sendKey d 0) (p.hdr.pack)
  { s with mem := (List.range (min 32 p.data.length)).foldl (fun m i => writeUnit m (sendKey d (64 + 64 * i)) (p.data.getD i 0)) m }

/-- TLR_SEND (R766): the tailor core builds a packet and writes SEND. -/
def execTlrSend (d : Nat) (p : Packet) (s : State) : Out :=
  if dieExists s d then tlrSend (fillSend s d p) d else .fault .noSuchUnit

/-! ## Registers that act -/

/-- Act one after the other. -/
def andThen (o : Out) (f : State → Out) : Out :=
  match o with
  | .next s => f s
  | x => x

/-- Do something where a bit of the value written is 1. -/
def onBit (v : Word) (b : Nat) (f : State → State) (s : State) : State := if v.getLsbD b then f s else s

/-- A write to PAT_LOAD_CTL (R579, R601): ABORT, then START in MODE; MODE 3 is reserved (R16). (DEDUCED, log 98) -/
def loadCtlWrite (s : State) (v : Word) : Out :=
  let s1 := onBit v 1 loadAbort s
  if !v.getLsbD 0 then .next s1
  else match bitsOf v 3 2 with
    | 0 => execPatLoadStartCold s1
    | 1 => execPatLoadStartPatch s1
    | 2 => execPatLoadStartArea s1
    | _ => .fault (.undefinedMisuse 16)

/-- A write to STL_CTL (R555): one of the two acts, by the port's state. (DEDUCED, log 160) -/
def stlCtlWrite (s : State) (d : Nat) (v : Word) : State :=
  if portLive s d then onBit v 0 (fun s => portFence s d 0 true) s else onBit v 1 (fun s => portRetrainCtl s d) s

/-- A write to MND_STOP_CTL (R696, R706, R707): RELEASE at the active service die only. -/
def stopCtlWrite (s : State) (d : Nat) (v : Word) : State :=
  onBit v 0 (fun s => stopArm s d)
    (onBit v 1 (fun s => if d == s.headDie then stopRelease s else s) (onBit v 2 (fun s => stopCancel s d) s))

/-- A write to MND_PART_CTL (R693, R720). -/
def partCtlWrite (s : State) (v : Word) : State :=
  if !v.getLsbD 8 then s else if v.getLsbD 9 then packageMend s else partMend s (bitsOf v 5 0)

/-- A write to SEC_CTL (R779, R783 to R785, R801); LEDGER_DONE is pair B's, so it acts only where a tailor core writes it. (DEDUCED, log 149) -/
def secCtlWrite (s : State) (d : Nat) (v : Word) (src : BitVec 32) : State :=
  onBit v 0 (fun s => provision s d) (onBit v 1 (fun s => openRequest s 0) (onBit v 2 erase (onBit v 3 (fun s => svnAdvance s d)
    (onBit v 4 (fun s => if bitsOf src 1 0 == 2 then toZeroise s else s) s))))

/-- A write to CMT_Q_CFG of CE `k` (R506): setting ENABLE starts the queue afresh. -/
def queueCfgWrite (s : State) (d k : Nat) (v : Word) : State :=
  let s1 := csrStore s d (ccw k CMT_Q_CFG) v s.mode.plOpen
  if v.getLsbD 0 && !s.flag d (ccw k CMT_Q_CFG) 0 then coordEnable s1 d k else s1

/-- Writes to the TIM, CE, CMT and SEAM blocks that act (R207, R261, R386, R441, R465, R506), and one through the reserved TABLE 3 of
NI_TABLE_ADDR (R16, R201). -/
def actFabric (s : State) (d off : Nat) (v : Word) : Option Out :=
  if off == TIM_PTP_CMD then some (.next (onBit v 0 (fun s => ptpSubmit s d) s))
  else if off == SEAM_PANEL then some (.next (panelWrite s d v))
  else if off == NI_TABLE_DATA && s.mode.plOpen && s.fld d NI_TABLE_ADDR 63 62 == 3 then some (.fault (.undefinedMisuse 16))
  else if off == SYN_BREAK then some (.next (breakStart s d v))
  else if CMT_Q_CFG ≤ off && off < CMT_Q_CFG + 0x800 && (off - CMT_Q_CFG) % 0x100 == 0 then
    some (.next (queueCfgWrite s d ((off - CMT_Q_CFG) / 0x100) v))
  else match ceOffset off with
    | some (k, r) =>
      if r == CE_GROUP_CTL then some (.next (groupCtlWrite s d k v))
      else if r == CE_GT_DATA then some (gtWrite s d k (s.fld d (cew k CE_GT_ADDR) 8 3) (s.fld d (cew k CE_GT_ADDR) 2 0) v)
      else none
    | none => none

/-- Writes to the PAT, STL, MND and OBS blocks that act (R555, R601, R711, R714, R715, R720, R729, R757, R763, R764). -/
def actHealth (s : State) (d off : Nat) (v : Word) : Option Out :=
  if off == PAT_LOAD_CTL then some (loadCtlWrite s v)
  else if off == STL_CTL then some (.next (stlCtlWrite s d v))
  else if off == MND_TAILOR_KICK then some (.next (onBit v 0 (fun s => { s with kickFt := s.kickFt.set 0 d (s.now d) }) s))
  else if off == MND_STOP_FT then
    some (.next (if armed s d then { s with stopNext := s.stopNext.set none d (some v) } else csrStore s d off v s.mode.plOpen))
  else if off == MND_STOP_CTL then some (.next (stopCtlWrite s d v))
  else if off == MND_PART_CTL then some (.next (partCtlWrite s v))
  else if off == OBS_STAT_CFG then some (.next (statCfgWrite s d v))
  else if off == OBS_LEDGER_CTL then some (.next (onBit v 0 sealStart s))
  else if OBS_LEDGER_PREV0 ≤ off && off < OBS_LEDGER_PREV0 + 0x30 then
    some (.next (if s.mode == .cold then csrStore s d off v true else s))
  else none

/-- Writes to the TLR and SEC blocks that act (R766, R772, R777, R780, R794 to R796, R801, R802). -/
def actTailor (s : State) (d off : Nat) (v : Word) (src : BitVec 32) : Option Out :=
  if off == TLR_TX_CTL then some (if v.getLsbD 0 then tlrSend s d else .next s)
  else if off == TLR_BOOT_CTL then some (.next (onBit v 0 (fun s => bootGo s d) s))
  else if off == TLR_MIRROR_FENCE then some (.next (onBit v 0 (fun s => mirrorFence s d) s))
  else if off == TLR_SVC_CTL then some (.next (if d == s.headDie then onBit v 0 svcRequest s else s))
  else if off == SEC_CTL then some (.next (secCtlWrite s d v src))
  else if SEC_OWNER_KEY0 ≤ off && off < SEC_OWNER_KEY0 + 0x68 then
    some (.next (if s.mode == .cold && ((s.store d).state == 0 || (s.store d).state == 2) then csrStore s d off v true else s))
  else none

/-- The fields that draw a hem (R637, R667, R668, R671). (DESIGN CHOICE, log 159) -/
def hemReg (off : Nat) : Bool :=
  off == HLT_UNIT_HEM || (HLT_HEM_0 ≤ off && off < HLT_HEM_0 + 0x1380) || off == HLT_SEAM_HEM0 || off == HLT_SEAM_HEM1

/-- A write to a register that exists; SRC names its writer. -/
def regWrite (s : State) (d off : Nat) (v : Word) (src : BitVec 32) : Out :=
  if hemReg off && bitsOf src 1 0 != 2 then .fault (.undefinedMisuse 637)
  else if permitOff off then .next (permitWrite s d off src v)
  else match actFabric s d off v with
    | some o => o
    | none =>
      match actHealth s d off v with
      | some o => o
      | none =>
        match actTailor s d off v src with
        | some o => o
        | none => .next (csrStore s d off v s.mode.plOpen)

/-- The windows that lie in a block (R606, R777): the load port of the active service die, and the boot window in WAIT. -/
def windowWrite (s : State) (d off : Nat) (v : Word) : Out :=
  if d == s.headDie && 0x30000 ≤ off && off < 0x40000 then loadWrite s v
  else if isKind s d .service && 0x3D0000 ≤ off && off < 0x5D0000 && bootState s d == 2 then
    .next { s with mem := writeWord s.mem (bootKey d (off - 0x3D0000)) v }
  else .next s

/-- A write to a slice's CSR window by the engine that SRC names, TLR_RCSR_CTL apart. (DESIGN CHOICE, log 159) -/
def plainWrite (s : State) (d off : Nat) (v : Word) (src : BitVec 32) : Out :=
  if !dieExists s d then .next s
  else if off % 8 != 0 then .next (scramble s d off)
  else if (synOffset off).isSome then .next (csrStore s d off v s.mode.plOpen)
  else if (descOf s d off).isSome then regWrite s d off v src
  else windowWrite s d off v

/-! ## The host's access to another slice's CSR (R790, R797) -/

/-- An access ends with a STATUS of R89, and a read with its value (R790, R791). -/
def rcsrEnd (s : State) (d status : Nat) (v : Option Word) : State :=
  let s1 := match v with
    | some x => s.setReg d TLR_RCSR_DATA x
    | none => s
  irqAt ({ (s1.setFld d TLR_RCSR_CTL 23 16 status).setFld d TLR_RCSR_CTL 8 8 0 with rcsr := s1.rcsr.set none d none }) d 8

/-- TAG of an access begun at an instant: a read that timed out has another than the next one (R88). -/
def rcsrTag (startFt : Nat) : Nat := 0xF000 + startFt / 100000 % 256

/-- The access that GO starts travels as a packet (R790); a CSR_WRITE has no answer to wait for. -/
def rcsrPacket (s : State) (d : Nat) (write : Bool) : State :=
  let a := s.reg d TLR_RCSR_ADDR
  let h0 := { mkHdr (if write then 0x61 else 0x60) 5 (fabricAddr (bitsOf a 63 51) (bitsOf a 50 44) 0 0 (bitsOf a 23 0)) (portSrc s d) with
              tag := BitVec.ofNat 16 (rcsrTag (s.now d)) }
  let s1 := sendAt s d attHost { hdr := if write then h0.setInl 415 352 (s.reg d TLR_RCSR_DATA).toNat else h0 }
  if write then rcsrEnd s1 d 0 none else s1

/-- The access that GO starts in COLD and STOP: the set-up path, within the package (R790). (DEDUCED, log 156) -/
def rcsrSetup (wr : State → Nat → Nat → Word → BitVec 32 → Out) (s : State) (d : Nat) (write : Bool) : Out :=
  let a := s.reg d TLR_RCSR_ADDR
  let x := bitsOf a 50 44
  if bitsOf a 63 51 != s.pkgOf d || !dieExists s x then .next s
  else if write then andThen (wr s x (bitsOf a 23 0) (s.reg d TLR_RCSR_DATA) (portSrc s d)) (fun s => .next (rcsrEnd s d 0 none))
  else
    let r := csrRead s x (bitsOf a 23 0)
    .next (rcsrEnd r.2 d 0 (some r.1))

/-- GO (R790): ignored while an access is in progress (R797). (DEDUCED, log 156) -/
def rcsrGo (wr : State → Nat → Nat → Word → BitVec 32 → Out) (s : State) (d : Nat) (write : Bool) : Out :=
  if s.flag d TLR_RCSR_CTL 8 then .next s
  else
    let j : HostJob := { kind := if write then 2 else 1, addr := (s.reg d TLR_RCSR_ADDR).toNat, startFt := s.now d }
    let s1 := { s.raise d TLR_RCSR_CTL 8 with rcsr := s.rcsr.set none d (some j) }
    if s.mode == .cold || s.mode == .stop then rcsrSetup wr s1 d write else .next (rcsrPacket s1 d write)

/-- A write to a slice's CSR window; an access over the set-up path to another TLR_RCSR_CTL starts one there, each service die's own
being busy meanwhile. -/
def csrWriteN : Nat → State → Nat → Nat → Word → BitVec 32 → Out
  | 0, s, d, off, v, src => plainWrite s d off v src
  | n + 1, s, d, off, v, src =>
    if off == TLR_RCSR_CTL && isKind s d .service then (if v.getLsbD 0 then rcsrGo (csrWriteN n) s d (v.getLsbD 1) else .next s)
    else plainWrite s d off v src

/-- A 64-bit write to a slice's CSR window (R23 to R32), by the engine that SRC names. -/
def csrWrite (s : State) (d off : Nat) (v : Word) (src : BitVec 32) : Out := csrWriteN 128 s d off v src

/-- CSR_REGISTER_WRITE (R26): by the host through BAR0 of a service die, or by the slice's tailor core through its own window;
an access narrower than 64 bits leaves free contents (R24). -/
def execCsrRegisterWrite (d off : Nat) (a : RegAccess) (v : Word) (s : State) : Out :=
  if !dieExists s d || (a.host && !isKind s d .service) then .fault .noSuchUnit
  else if a.narrow then .next (scramble s d off)
  else csrWrite s d off v (if a.host then portSrc s d else ctlSrc s d)

/-- RCSR_READ (R790): GO without WRITE at service die `d`. -/
def execRcsrRead (d : Nat) (s : State) : Out :=
  if isKind s d .service then rcsrGo (csrWriteN 127) s d false else .fault .noSuchUnit

/-- RCSR_WRITE (R790): GO with WRITE. -/
def execRcsrWrite (d : Nat) (s : State) : Out :=
  if isKind s d .service then rcsrGo (csrWriteN 127) s d true else .fault .noSuchUnit

/-- RCSR_TIMEOUT (R790): no answer within 100 µs. -/
def execRcsrTimeout (d : Nat) (s : State) : Out :=
  onUnit (isKind s d .service)
    (match s.rcsr.get none d with
     | some j => if j.startFt + 100000 ≤ s.now d then rcsrEnd s d 2 none else s
     | none => s)

/-- A CSR_DATA answers the host's read (R89, R790). -/
def rcsrData (s : State) (d : Nat) (h : Hdr) : State :=
  match s.rcsr.get none d with
  | some j =>
    if j.kind == 1 && h.tag.toNat == rcsrTag j.startFt then
      rcsrEnd s d (h.inlBits 423 416) (some (BitVec.ofNat 64 (h.inlBits 415 352)))
    else s
  | none => s

end Sys2Proof.Machine
end

