-- ==== Sys2Proof/Machine/Host.lean ====
section
/-! DEFINITION. The host's accesses through BAR2 and its apertures (R789, R798). -/

namespace Sys2Proof.Machine

open Sys2Proof

/-- Bytes of BAR2 (R789). -/
def bar2Bytes : Nat := 2 ^ 28

/-- The fabric address of a BAR2 offset (R789). -/
def aperture (s : State) (d o : Nat) : BitVec 64 := s.reg d (TLR_APER_BASE0 + 8 * (o / 2 ^ 26 % 4)) + BitVec.ofNat 64 (o % 2 ^ 26)

/-- Whether the apertures carry accesses (R789). (DEDUCED, log 158) -/
def aperturesOpen (s : State) : Bool := s.mode != .cold && s.mode != .stop

/-! ## Writes -/

/-- The WRITE of one whole unit (R789): ORDERED, on VC2. -/
def hostUnit (s : State) (d o : Nat) (bs : List Byte) : Packet :=
  { hdr := { mkHdr 0x01 2 (aperture s d o) (portSrc s d) with len := 1, flags := 4 }, data := [BitVec.ofNat 512 (natOfBytes (bs.take 64))] }

/-- The WRITE8 of the bytes of one 8 B word (R87, R789): `lo` bytes of it come before the first one written. -/
def hostWord (s : State) (d o lo : Nat) (bs : List Byte) : Packet :=
  let n := min bs.length (8 - lo)
  let h := mkHdr 0x03 2 (aperture s d o) (portSrc s d)
  { hdr := (h.setInl 415 352 (natOfBytes (bs.take n) * 2 ^ (8 * lo))).setInl 423 416 ((2 ^ n - 1) * 2 ^ lo) }

/-- The packets of a write of bytes from offset `o` on: each whole aligned unit in a WRITE, the other bytes by words (R789). (DEDUCED, log 157) -/
def hostPackets (s : State) (d : Nat) : Nat → Nat → List Byte → List Packet
  | 0, _, _ => []
  | n + 1, o, bs =>
    if bs.isEmpty then []
    else if o % 64 == 0 && 64 ≤ bs.length then hostUnit s d o bs :: hostPackets s d n (o + 64) (bs.drop 64)
    else hostWord s d (o / 8 * 8) (o % 8) bs :: hostPackets s d n (o / 8 * 8 + 8) (bs.drop (8 - o % 8))

/-- BAR2_WRITE (R789). -/
def execBar2Write (d off : Nat) (bs : Bytes) (s : State) : Out :=
  onUnit (isKind s d .service && off + bs.length ≤ bar2Bytes)
    (if aperturesOpen s then sendAll s d attHost (hostPackets s d bs.length off bs) else s)

/-! ## Reads -/

/-- Key of a host read by service die and slot. -/
def hk (d n : Nat) : Nat := d * 4096 + n

/-- Slots of host reads, each with a TAG of its own (R88). -/
def hostSlots : Nat := 3840

/-- TAG of a slot. -/
def hostTag (n : Nat) : Nat := 0xF100 + n

/-- A slot whose TAG no outstanding read has. -/
def hostSlot (s : State) (d : Nat) : Nat := ((List.range hostSlots).find? (fun n => (s.barJobs.get none (hk d n)).isNone)).getD 0

/-- The host receives bytes for a read at an offset. -/
def hostGets (s : State) (off : Nat) (bs : List Byte) : State := { s with hostOut := s.hostOut ++ [(off, bs)] }

/-- Issue one READ of up to 32 units for bytes [off, off + n) of BAR2 (R789). -/
def hostRead (s : State) (d off n : Nat) : State :=
  let k := hostSlot s d
  let units := (off + n - 1) / 64 + 1 - off / 64
  let j : HostJob := { kind := 0, addr := off, len := n, units := units, startFt := s.now d }
  let h := { mkHdr 0x04 2 (aperture s d (off / 64 * 64)) (portSrc s d) with tag := BitVec.ofNat 16 (hostTag k) }
  sendAt { s with barJobs := s.barJobs.set none (hk d k) (some j) } d attHost { hdr := h.setInl 357 352 units }

/-- The READs of a host read: each ends where 32 units from its first do, or at the end of its aperture. (DEDUCED, log 157) -/
def hostReads (d : Nat) : Nat → Nat → Nat → State → State
  | 0, _, _, s => s
  | f + 1, off, n, s =>
    if n == 0 then s
    else
      let m := min n (min ((off / 64 + 32) * 64) ((off / 2 ^ 26 + 1) * 2 ^ 26) - off)
      hostReads d f (off + m) (n - m) (hostRead s d off m)

/-- BAR2_READ (R789). -/
def execBar2Read (d off n : Nat) (s : State) : Out :=
  onUnit (isKind s d .service && 0 < n && off + n ≤ bar2Bytes)
    (if aperturesOpen s then hostReads d (n / 64 + 2) off n s else hostGets s off (List.replicate n 0xFF))

/-- A read fails (R789, R798): all ones, TLR_HOST_ERR, and its interrupt. -/
def hostFail (s : State) (d : Nat) (j : HostJob) : State :=
  irqAt ((hostGets s j.addr (List.replicate j.len 0xFF)).setReg d TLR_HOST_ERR (BitVec.ofNat 64 (j.addr / 64))) d 9

/-- BAR2_READ_TIMEOUT (R789): 50 µs without an answer; the TAG stays in use until a late answer comes. -/
def execBar2ReadTimeout (d slot : Nat) (s : State) : Out :=
  onUnit (isKind s d .service && slot < hostSlots)
    (match s.barJobs.get none (hk d slot) with
     | some j =>
       if j.kind == 0 && j.startFt + 50000 ≤ s.now d then
         hostFail { s with barJobs := s.barJobs.set none (hk d slot) (some { j with kind := 3 }) } d j
       else s
     | none => s)

/-- An answer to a host read: its data, or none for an ACK with status other than OK (R789). -/
def hostAnswer (s : State) (d tag : Nat) (us : Option (List DataUnit)) : State :=
  let n := tag - 0xF100
  match s.barJobs.get none (hk d n) with
  | none => s
  | some j =>
    let s1 := { s with barJobs := s.barJobs.set none (hk d n) none }
    if j.kind != 0 then s1
    else match us with
      | some us => hostGets s1 j.addr (((us.flatMap (fun u => bytesOfNat 64 u.toNat)).drop (j.addr % 64)).take j.len)
      | none => hostFail s1 d j

end Sys2Proof.Machine
end

