-- ==== Sys2Proof/Machine/Packets.lean ====
section
/-! DEFINITION. The packet commands: what each does at the attachment that it reaches (R68, R69, R87, R89, R151, R153, R403, R732,
R746, R767, R771, R838, R839). -/

namespace Sys2Proof.Machine

open Sys2Proof

/-- Whether attachment `att` is a CE of die `d`. -/
def isCeAtt (s : State) (d att : Nat) : Bool := 1024 ≤ att && ceExists s d (att - 1024)

/-- Whether attachment `att` is the memory port of die `d`. -/
def isMemAtt (s : State) (d att : Nat) : Bool := isKind s d .memif && att == attMem

/-- Whether attachment `att` is the attachment of a service die's tailor cores and host port. -/
def isHeadAtt (s : State) (d att : Nat) : Bool := isKind s d .service && (att == attCtl || att == attHost)

/-- Whether a packet names staging or head-tailor RAM: DEST.OFFSET[33] (R68). -/
def offTop (h : Hdr) : Bool := natBit h.destOff 33

/-- Where a packet that a shared die does not take goes (R68): misuse at a port or service die, no such unit elsewhere. (DEDUCED, log 21) -/
def notTaken (s : State) (d : Nat) : Out :=
  if isKind s d .port || isKind s d .service then .fault (.undefinedMisuse 68) else .fault .noSuchUnit

/-- A packet at a tile or at a memory port (R69, R118, R838); elsewhere `other` says what becomes of it. A packet whose header check fails
is discarded whatever it names (R12, R125). -/
def nodeArrive (s : State) (d att cmd : Nat) (p : Packet) (other : Out) : Out :=
  headerChecked s d att p <|
  if isTile s d att then arrive s d att cmd p (fun s => tileArrive s d att p)
  else if isMemAtt s d att then
    (if mpActs cmd then arrive s d att cmd p (fun s => mpArrive s d p) else .fault (.undefinedMisuse 838))
  else other

/-! ## Reads and writes (R69, R87, R771, R839) -/

/-- An access to the staging of a CE (R839). -/
def stageAccess (s : State) (d k : Nat) (p : Packet) : State :=
  let h := p.hdr
  let key := stageAt s d k
  let off := h.destOff % 2 ^ 26
  let put := stageTouched { s with mem := putPacket s.mem key (stageSize s d k) off p } d k
  match h.cmd.toNat with
  | 0x01 => put
  | 0x02 => sendAt put d (attCe k) (ackFor h (ceSrc s d k) 0 0)
  | 0x03 => stageTouched { s with mem := putInline s.mem key (stageSize s d k) off h } d k
  | _ =>
    let r := getUnits s key (stageSize s d k) (off / 64 * 64) (readLen h)
    sendAt r.2 d (attCe k) (readData h (ceSrc s d k) r.1)

/-- An access reaches a CE: its meter may discard it (R294). -/
def stageIngress (s : State) (d k : Nat) (p : Packet) : State :=
  match ceIngress s d k p.hdr with
  | some s1 => stageAccess s1 d k p
  | none => meterDrop s d k p.hdr

/-- Whether a service die accepts a write into its head-tailor RAM (R771, R773): a mirror only from the active service die, and an
active die none from a service die declared dead. (DESIGN CHOICE, log 20) -/
def headRamFrom (s : State) (d : Nat) (h : Hdr) : Bool :=
  if d == s.mirrorDie then h.srcPkg == s.pkgOf d && h.srcDie == s.headDie
  else !(h.srcPkg == s.pkgOf d && isKind s h.srcDie .service && dieDead s h.srcDie)

/-- A write into head-tailor RAM (R771); one that is not accepted is discarded, without an answer. (DESIGN CHOICE, log 20) -/
def headRamWrite (s : State) (d att : Nat) (p : Packet) : State :=
  let h := p.hdr
  let base := (if natBit h.destOff 21 then 2 ^ 21 else 0)
  if headRamFrom s d h then
    let s1 := { s with mem := putPacket s.mem (fun o => headRamKey d (base + o)) (2 ^ 21) (h.destOff % 2 ^ 21) p }
    if h.cmd == 0x02 then sendAt s1 d att (ackFor h (ctlSrc s d) 0 0) else s1
  else s

/-- WRITE, WRITE_ACK, WRITE8 and READ at the place that R68 gives them. -/
def accessArrive (s : State) (d att cmd : Nat) (p : Packet) : Out :=
  nodeArrive s d att cmd p
    (if isCeAtt s d att && offTop p.hdr then
       arriveAt s d att cmd p (fun s =>
         if sharesBad s d then .fault (.undefinedMisuse 432) else .next (stageIngress s d (att - 1024) p))
     else if isHeadAtt s d att && offTop p.hdr && (cmd == 0x01 || cmd == 0x02) then
       arrive s d att cmd p (fun s => headRamWrite s d att p)
     else notTaken s d)

/-- WRITE (R69, R771, R838, R839). -/
def execWrite (d att : Nat) (p : Packet) (s : State) : Out := accessArrive s d att 0x01 p
/-- WRITE_ACK (R69, R771, R837, R838, R839). -/
def execWriteAck (d att : Nat) (p : Packet) (s : State) : Out := accessArrive s d att 0x02 p
/-- WRITE8 (R69, R87, R838, R839). -/
def execWrite8 (d att : Nat) (p : Packet) (s : State) : Out := accessArrive s d att 0x03 p
/-- READ (R70, R87, R815, R839). -/
def execRead (d att : Nat) (p : Packet) (s : State) : Out := accessArrive s d att 0x04 p

/-! ## Collective data (R403, R404, R420, R421, R329, R367) -/

/-- Collective data or an operand at a CE, where DEST.OFFSET[33] is 1, or at a node (R403). -/
def collArrive (s : State) (d att cmd : Nat) (p : Packet) (residue : Bool) : Out :=
  nodeArrive s d att cmd p
    (if isCeAtt s d att && offTop p.hdr then arrive s d att cmd p (fun s => ceData s d (att - 1024) p residue) else notTaken s d)

/-- COLL_DATA (R404). -/
def execCollData (d att : Nat) (p : Packet) (s : State) : Out := collArrive s d att 0x30 p false
/-- A2A_DATA (R421). -/
def execA2aData (d att : Nat) (p : Packet) (s : State) : Out := collArrive s d att 0x31 p false
/-- A2A_COUNT (R420). -/
def execA2aCount (d att : Nat) (p : Packet) (s : State) : Out := collArrive s d att 0x32 p false
/-- POUR (R367): it reaches tiles only, through their routers' LOCAL. (DEDUCED, log 21) -/
def execPour (d att : Nat) (p : Packet) (s : State) : Out := nodeArrive s d att 0x33 p (notTaken s d)
/-- RED_SUM (R329); `residue` says whether the CE's residue check of this operand fails. -/
def execRedSum (d att : Nat) (p : Packet) (residue : Bool) (s : State) : Out := collArrive s d att 0x40 p residue
/-- RED_MAX (R329). -/
def execRedMax (d att : Nat) (p : Packet) (residue : Bool) (s : State) : Out := collArrive s d att 0x41 p residue
/-- RED_MIN (R329). -/
def execRedMin (d att : Nat) (p : Packet) (residue : Bool) (s : State) : Out := collArrive s d att 0x42 p residue
/-- RED_PROD (R329). -/
def execRedProd (d att : Nat) (p : Packet) (residue : Bool) (s : State) : Out := collArrive s d att 0x43 p residue
/-- RED_AND (R329). -/
def execRedAnd (d att : Nat) (p : Packet) (residue : Bool) (s : State) : Out := collArrive s d att 0x44 p residue
/-- RED_OR (R329). -/
def execRedOr (d att : Nat) (p : Packet) (residue : Bool) (s : State) : Out := collArrive s d att 0x45 p residue
/-- RED_XOR (R329). -/
def execRedXor (d att : Nat) (p : Packet) (residue : Bool) (s : State) : Out := collArrive s d att 0x46 p residue

/-! ## The tailor core's receive ring (R767) -/

/-- Units of the ring (R767, R793). (DEDUCED, log 155) -/
def ringSize (s : State) (d : Nat) : Nat := 2 ^ min 12 (s.fld d TLR_RX_CFG 15 12)

/-- Units of the ring that are in use. (DEDUCED, log 155) -/
def ringUsed (s : State) (d : Nat) : Nat :=
  (s.fld d TLR_RX_PTR 11 0 + ringSize s d - s.fld d TLR_RX_PTR 27 16 % ringSize s d) % ringSize s d

/-- Put units into the ring from index `i` on; local RAM ends at 256 KiB (R765). -/
def ringPut (s : State) (d i : Nat) : List DataUnit → List Host.Cell → List Host.Cell
  | [], m => m
  | u :: us, m =>
    ringPut s d (i + 1) us (putUnit m (tailorKey d) (2 ^ 18) (64 * (s.fld d TLR_RX_CFG 11 0 + i % ringSize s d)) (2 ^ 64 - 1) u)

/-- A packet goes whole into the receive ring, or is discarded and counted (R767); one unit of the ring stays free. -/
def ringTake (s : State) (d : Nat) (p : Packet) : State :=
  let us := p.hdr.pack :: p.data
  let i := s.fld d TLR_RX_PTR 11 0
  if ringUsed s d + us.length < ringSize s d then
    { s with mem := ringPut s d i us s.mem }.setFld d TLR_RX_PTR 11 0 ((i + us.length) % ringSize s d)
  else s.bumpSat d TLR_RX_PTR 63 48 1

/-! ## Responses (R82, R88, R89, R153) -/

/-- Whether a slice has the engine that a response selects (R153). -/
def hasEngine (s : State) (d : Nat) (h : Hdr) : Bool :=
  match h.destOff % 4 with
  | 0 => isKind s d .compute
  | 1 => isKind s d .compute || isKind s d .port
  | 2 => true
  | _ => !isKind s d .compute

/-- Whether an attachment is an engine of the kind that a response selects (R153). -/
def isEngine (s : State) (d att : Nat) (h : Hdr) : Bool :=
  match h.destOff % 4 with
  | 0 => isTile s d att
  | 1 => isCeAtt s d att
  | 2 => att == attCtl
  | _ => att == attMem || att == attHost || att == attStitch

/-- A response for a CE: a fetch's data, or what a coordinator has asked for (R388, R483). -/
def ceResponse (s : State) (d k : Nat) (p : Packet) : Out :=
  let h := p.hdr
  let t := h.tag.toNat
  match ceIngress s d k h with
  | none => .next (meterDrop s d k h)
  | some s1 =>
    if 0x4000 ≤ t && t < 0x4300 then
      (if h.cmd == 0x05 then coordData s1 d k t p.data else .next (if h.cmd == 0x06 then coordAck s1 d k h else s1))
    else .next (if h.cmd == 0x05 then (if t / 64 == 0xA000 / 64 then fetchData s1 d k (t % 64) p.data else s1)
      else if h.cmd == 0x06 then ceAck s1 d k h
      else s1)

/-- A response for a slice's control attachment: the commit unit, a dump engine or the ledger takes the answer to a write of its own, the
head tailor the read-backs of an arming, and every other goes to the tailor core (R492, R687, R696, R745, R767). -/
def ctlResponse (s : State) (d : Nat) (p : Packet) : State :=
  let h := p.hdr
  let t := h.tag.toNat
  let status := h.inlBits 359 352
  if h.cmd == 0x06 && t / 16 == 0xC00 then fabricAck s d (t % 16) status
  else if h.cmd == 0x06 && t / 256 == 0xD0 then dumpAck s d h
  else if h.cmd == 0x06 && t == 0xE000 && d == s.headDie then ringAck s status
  else if h.cmd == 0x06 && t / 256 == 0xE1 then s
  else if h.cmd == 0x62 && t / 256 == 0xE2 && d == s.headDie then armBack s h
  else
    let r := takeTag s d attCtl p
    ringTake r.2 d r.1

/-- A response for a port engine: the host port takes the answers to its own requests (R789, R790). -/
def portResponse (s : State) (d att : Nat) (p : Packet) : State :=
  let h := p.hdr
  let t := h.tag.toNat
  if att != attHost then s
  else if h.cmd == 0x62 then rcsrData s d h
  else if t < 0xF100 then s
  else if h.cmd == 0x05 then hostAnswer s d t (some p.data)
  else if h.inlBits 359 352 == 0 then s
  else hostAnswer s d t none

/-- A response reaches the engine that it selects (R153): a tile takes it as a message (R808). -/
def respond (s : State) (d att : Nat) (p : Packet) : Out :=
  match p.hdr.destOff % 4 with
  | 0 => .next (tileArrive s d att p)
  | 1 => ceResponse s d (att - 1024) p
  | 2 => .next (ctlResponse s d p)
  | _ => .next (portResponse s d att p)

/-- A response command (R153); at a memory port it is misuse (R838). -/
def respArrive (s : State) (d att cmd : Nat) (p : Packet) : Out :=
  headerChecked s d att p <|
  if !hasEngine s d p.hdr then .fault (.undefinedMisuse 153)
  else if !isEngine s d att p.hdr then .fault .noSuchUnit
  else if isMemAtt s d att then .fault (.undefinedMisuse 838)
  else arriveAt s d att cmd p (fun s => respond s d att p)

/-- READ_DATA (R87). -/
def execReadData (d att : Nat) (p : Packet) (s : State) : Out := respArrive s d att 0x05 p
/-- ACK (R89). -/
def execAck (d att : Nat) (p : Packet) (s : State) : Out := respArrive s d att 0x06 p
/-- CSR_DATA (R89). -/
def execCsrData (d att : Nat) (p : Packet) (s : State) : Out := respArrive s d att 0x62 p

/-! ## Fabric time (R221 to R223) -/

/-- A packet that only the control attachment takes. -/
def ctlArrive (s : State) (d att cmd : Nat) (p : Packet) (act : State → Out) : Out :=
  if att == attCtl then arriveAt s d att cmd p act else .fault .noSuchUnit

/-- TIME_XFER with KIND 0 (R221, R222). (DEDUCED, log 161) -/
def execTimeXferRequest (d att : Nat) (p : Packet) (s : State) : Out :=
  headerChecked s d att p <|
  if p.hdr.inlBits 355 352 == 1 then .fault .wrongCommand
  else ctlArrive s d att 0x51 p (fun s => .next (sendAt s d attCtl (xferResponse s d p.hdr)))

/-- TIME_XFER with KIND 1 (R222, R223). -/
def execTimeXferResponse (d att : Nat) (p : Packet) (s : State) : Out :=
  headerChecked s d att p <|
  if p.hdr.inlBits 355 352 == 0 then .fault .wrongCommand
  else ctlArrive s d att 0x51 p (fun s => .next (xferTake s d p.hdr))

/-! ## CSR access (R25, R68, R87) -/

/-- The answer to a CSR_READ (R82, R87, R88, R89). -/
def csrAnswer (s : State) (d : Nat) (h : Hdr) (v : Word) : Packet :=
  { hdr := ({ mkHdr 0x62 5 (respDest h.src) (ctlSrc s d) with tag := h.tag }).setInl 415 352 v.toNat }

/-- CSR_READ (R25, R87). -/
def execCsrRead (d att : Nat) (p : Packet) (s : State) : Out :=
  ctlArrive s d att 0x60 p (fun s =>
    let r := csrRead s d (p.hdr.destOff % 2 ^ 24)
    .next (sendAt r.2 d attCtl (csrAnswer r.2 d p.hdr r.1)))

/-- CSR_WRITE (R25, R87). -/
def execCsrWrite (d att : Nat) (p : Packet) (s : State) : Out :=
  ctlArrive s d att 0x61 p (fun s => csrWrite s d (p.hdr.destOff % 2 ^ 24) (BitVec.ofNat 64 (p.hdr.inlBits 415 352)) p.hdr.src)

/-! ## TRACE (R732, R746) -/

/-- A ledger submission goes to the active service die (R746); another service die discards it. (DEDUCED, log 167) -/
def ledgerTake (s : State) (d : Nat) (p : Packet) : State := if d == s.headDie then ledgerIntake s p else s

/-- TRACE (R732, R746). -/
def execTrace (d att : Nat) (p : Packet) (s : State) : Out :=
  nodeArrive s d att 0x63 p
    (if isHeadAtt s d att && offTop p.hdr then arrive s d att 0x63 p (fun s => ledgerTake s d p) else notTaken s d)

end Sys2Proof.Machine
end

