-- ==== Sys2Proof/Machine/Dispatch.lean ====
section
/-! DEFINITION. The effect of each command on everything but the queue: one arm per command. -/

namespace Sys2Proof.Machine

/-- The effect of one command. (DESIGN CHOICE, log 171) -/
def exec (i : Instr) (s : State) : Host.Outcome State Fault Refusal :=
  match i with
  | .coldReset d => Sys2Proof.Machine.execColdReset d s
  | .timeKeeperTick d w e => Sys2Proof.Machine.execTimeKeeperTick d w e s
  | .roundBoundary d => Sys2Proof.Machine.execRoundBoundary d s
  | .reservedSlotStart d p o => Sys2Proof.Machine.execReservedSlotStart d p o s
  | .outputArbitration d p o => Sys2Proof.Machine.execOutputArbitration d p o s
  | .routerHeaderArrival d p j => Sys2Proof.Machine.execRouterHeaderArrival d p j s
  | .linkUnitArrival d p j u => Sys2Proof.Machine.execLinkUnitArrival d p j u s
  | .contextCeiling d p c => Sys2Proof.Machine.execContextCeiling d p c s
  | .tpInjectUnit d p v last u => Sys2Proof.Machine.execTpInjectUnit d p v last u s
  | .niInject d att v => Sys2Proof.Machine.execNiInject d att v s
  | .orderedDrainEnd d att => Sys2Proof.Machine.execOrderedDrainEnd d att s
  | .tpDeliver d p v => Sys2Proof.Machine.execTpDeliver d p v s
  | .tpGenLoaded d p gen => Sys2Proof.Machine.execTpGenLoaded d p gen s
  | .tpReadData d p tag => Sys2Proof.Machine.execTpReadData d p tag s
  | .twinNotice d p addr be u => Sys2Proof.Machine.execTwinNotice d p addr be u s
  | .write d att p => Sys2Proof.Machine.execWrite d att p s
  | .writeAck d att p => Sys2Proof.Machine.execWriteAck d att p s
  | .write8 d att p => Sys2Proof.Machine.execWrite8 d att p s
  | .read d att p => Sys2Proof.Machine.execRead d att p s
  | .readData d att p => Sys2Proof.Machine.execReadData d att p s
  | .ack d att p => Sys2Proof.Machine.execAck d att p s
  | .syncRead d h => Sys2Proof.Machine.execSyncRead d h s
  | .syncInit d h => Sys2Proof.Machine.execSyncInit d h s
  | .syncAdd d h => Sys2Proof.Machine.execSyncAdd d h s
  | .syncArrive d h => Sys2Proof.Machine.execSyncArrive d h s
  | .syncTake d h => Sys2Proof.Machine.execSyncTake d h s
  | .syncAcquire d h => Sys2Proof.Machine.execSyncAcquire d h s
  | .syncUnlock d h => Sys2Proof.Machine.execSyncUnlock d h s
  | .syncSet d h => Sys2Proof.Machine.execSyncSet d h s
  | .syncSetMax d h => Sys2Proof.Machine.execSyncSetMax d h s
  | .syncWait d h => Sys2Proof.Machine.execSyncWait d h s
  | .syncCancel d h => Sys2Proof.Machine.execSyncCancel d h s
  | .syncRelease d k h => Sys2Proof.Machine.execSyncRelease d k h s
  | .commitStage d p => Sys2Proof.Machine.execCommitStage d p s
  | .commitAck d k h => Sys2Proof.Machine.execCommitAck d k h s
  | .confirm d h => Sys2Proof.Machine.execConfirm d h s
  | .targetReport d att h => Sys2Proof.Machine.execTargetReport d att h s
  | .commitOutcome d k h => Sys2Proof.Machine.execCommitOutcome d k h s
  | .collData d att p => Sys2Proof.Machine.execCollData d att p s
  | .a2aData d att p => Sys2Proof.Machine.execA2aData d att p s
  | .a2aCount d att p => Sys2Proof.Machine.execA2aCount d att p s
  | .pour d att p => Sys2Proof.Machine.execPour d att p s
  | .chunkNack d k h => Sys2Proof.Machine.execChunkNack d k h s
  | .abort d k h => Sys2Proof.Machine.execAbort d k h s
  | .redSum d att p residue => Sys2Proof.Machine.execRedSum d att p residue s
  | .redMax d att p residue => Sys2Proof.Machine.execRedMax d att p residue s
  | .redMin d att p residue => Sys2Proof.Machine.execRedMin d att p residue s
  | .redProd d att p residue => Sys2Proof.Machine.execRedProd d att p residue s
  | .redAnd d att p residue => Sys2Proof.Machine.execRedAnd d att p residue s
  | .redOr d att p residue => Sys2Proof.Machine.execRedOr d att p residue s
  | .redXor d att p residue => Sys2Proof.Machine.execRedXor d att p residue s
  | .dieHeartbeat d att h => Sys2Proof.Machine.execDieHeartbeat d att h s
  | .packageHeartbeat d att h => Sys2Proof.Machine.execPackageHeartbeat d att h s
  | .verdict d att h => Sys2Proof.Machine.execVerdict d att h s
  | .suspect d att h => Sys2Proof.Machine.execSuspect d att h s
  | .timeXferRequest d att p => Sys2Proof.Machine.execTimeXferRequest d att p s
  | .timeXferResponse d att p => Sys2Proof.Machine.execTimeXferResponse d att p s
  | .probe d p j pk => Sys2Proof.Machine.execProbe d p j pk s
  | .genToken d p h => Sys2Proof.Machine.execGenToken d p h s
  | .csrRead d att p => Sys2Proof.Machine.execCsrRead d att p s
  | .csrWrite d att p => Sys2Proof.Machine.execCsrWrite d att p s
  | .csrData d att p => Sys2Proof.Machine.execCsrData d att p s
  | .trace d att p => Sys2Proof.Machine.execTrace d att p s
  | .descriptorFetch d k e => Sys2Proof.Machine.execDescriptorFetch d k e s
  | .descriptorFetchRetry d k e => Sys2Proof.Machine.execDescriptorFetchRetry d k e s
  | .nop d k e => Sys2Proof.Machine.execNop d k e s
  | .allReduce d k e => Sys2Proof.Machine.execAllReduce d k e s
  | .reduce d k e => Sys2Proof.Machine.execReduce d k e s
  | .reduceScatter d k e => Sys2Proof.Machine.execReduceScatter d k e s
  | .allGather d k e => Sys2Proof.Machine.execAllGather d k e s
  | .broadcast d k e => Sys2Proof.Machine.execBroadcast d k e s
  | .allToAll d k e => Sys2Proof.Machine.execAllToAll d k e s
  | .allToAllV d k e => Sys2Proof.Machine.execAllToAllV d k e s
  | .barrier d k e => Sys2Proof.Machine.execBarrier d k e s
  | .chunkStart d k e tag => Sys2Proof.Machine.execChunkStart d k e tag s
  | .stagingWaitEnd d k => Sys2Proof.Machine.execStagingWaitEnd d k s
  | .orderSend d p => Sys2Proof.Machine.execOrderSend d p s
  | .orderClear d p => Sys2Proof.Machine.execOrderClear d p s
  | .orderCancel d p => Sys2Proof.Machine.execOrderCancel d p s
  | .orderReport d p => Sys2Proof.Machine.execOrderReport d p s
  | .chunkTimeout d att n => Sys2Proof.Machine.execChunkTimeout d att n s
  | .chunkResend d k e tag => Sys2Proof.Machine.execChunkResend d k e tag s
  | .ceHang d k e tag => Sys2Proof.Machine.execCeHang d k e tag s
  | .operationEnd d k e tag => Sys2Proof.Machine.execOperationEnd d k e tag s
  | .ceGroupCtlSkip d k e => Sys2Proof.Machine.execCeGroupCtlSkip d k e s
  | .ceGroupCtlResume d k e => Sys2Proof.Machine.execCeGroupCtlResume d k e s
  | .ceGtDataWrite d k v => Sys2Proof.Machine.execCeGtDataWrite d k v s
  | .lockCeilingExamine d => Sys2Proof.Machine.execLockCeilingExamine d s
  | .synBreak d v => Sys2Proof.Machine.execSynBreak d v s
  | .synObjLoWrite d o v => Sys2Proof.Machine.execSynObjLoWrite d o v s
  | .commitRequestFetch d k => Sys2Proof.Machine.execCommitRequestFetch d k s
  | .confirmDeadline d k n => Sys2Proof.Machine.execConfirmDeadline d k n s
  | .outcomeWaitExpiry d k n => Sys2Proof.Machine.execOutcomeWaitExpiry d k n s
  | .commitApply d => Sys2Proof.Machine.execCommitApply d s
  | .recorderDecision d => Sys2Proof.Machine.execRecorderDecision d s
  | .frameTransmit d => Sys2Proof.Machine.execFrameTransmit d s
  | .idleFrame d f => Sys2Proof.Machine.execIdleFrame d f s
  | .dataFrame d f => Sys2Proof.Machine.execDataFrame d f s
  | .ingressForward d => Sys2Proof.Machine.execIngressForward d s
  | .stitchTimeRequest d f => Sys2Proof.Machine.execStitchTimeRequest d f s
  | .stitchTimeResponse d f => Sys2Proof.Machine.execStitchTimeResponse d f s
  | .fenceFrame d f => Sys2Proof.Machine.execFenceFrame d f s
  | .laneRequest d f => Sys2Proof.Machine.execLaneRequest d f s
  | .laneAck d f => Sys2Proof.Machine.execLaneAck d f s
  | .initFrame d f => Sys2Proof.Machine.execInitFrame d f s
  | .fecLockLoss d => Sys2Proof.Machine.execFecLockLoss d s
  | .noFrameTimeout d => Sys2Proof.Machine.execNoFrameTimeout d s
  | .pmaSignalDetect d lanes => Sys2Proof.Machine.execPmaSignalDetect d lanes s
  | .pmaLock d lanes => Sys2Proof.Machine.execPmaLock d lanes s
  | .alignmentLock d group => Sys2Proof.Machine.execAlignmentLock d group s
  | .detectTimeout d => Sys2Proof.Machine.execDetectTimeout d s
  | .equaliseTimeout d => Sys2Proof.Machine.execEqualiseTimeout d s
  | .alignTimeout d => Sys2Proof.Machine.execAlignTimeout d s
  | .retrainTimeout d => Sys2Proof.Machine.execRetrainTimeout d s
  | .laneErrorWindow d => Sys2Proof.Machine.execLaneErrorWindow d s
  | .switchGroupReached d group => Sys2Proof.Machine.execSwitchGroupReached d group s
  | .stlCtlFence d => Sys2Proof.Machine.execStlCtlFence d s
  | .stlCtlRetrain d => Sys2Proof.Machine.execStlCtlRetrain d s
  | .portRetrainRetry d => Sys2Proof.Machine.execPortRetrainRetry d s
  | .seamFrame d j f => Sys2Proof.Machine.execSeamFrame d j f s
  | .ucieStateChange d j active fullRate extra => Sys2Proof.Machine.execUcieStateChange d j active fullRate extra s
  | .seamPanelWrite d v => Sys2Proof.Machine.execSeamPanelWrite d v s
  | .gateEntryEnd d g => Sys2Proof.Machine.execGateEntryEnd d g s
  | .gateTakeover d g => Sys2Proof.Machine.execGateTakeover d g s
  | .shaperRefill d g v => Sys2Proof.Machine.execShaperRefill d g v s
  | .meterRefill d g v => Sys2Proof.Machine.execMeterRefill d g v s
  | .queueSample d pt => Sys2Proof.Machine.execQueueSample d pt s
  | .qsampleClear d pt v => Sys2Proof.Machine.execQsampleClear d pt v s
  | .ppsEdge d => Sys2Proof.Machine.execPpsEdge d s
  | .ppsMissing d => Sys2Proof.Machine.execPpsMissing d s
  | .ptpSubmit d => Sys2Proof.Machine.execPtpSubmit d s
  | .timeXferPeriod d => Sys2Proof.Machine.execTimeXferPeriod d s
  | .parentLost d => Sys2Proof.Machine.execParentLost d s
  | .timFtRead d => Sys2Proof.Machine.execTimFtRead d s
  | .niGovCapWrite d v => Sys2Proof.Machine.execNiGovCapWrite d v s
  | .linkSecWindowEnd d p j => Sys2Proof.Machine.execLinkSecWindowEnd d p j s
  | .probeSend d p len seed => Sys2Proof.Machine.execProbeSend d p len seed s
  | .probeTimeout d p => Sys2Proof.Machine.execProbeTimeout d p s
  | .probeRepeat d p => Sys2Proof.Machine.execProbeRepeat d p s
  | .scrubWord d w err => Sys2Proof.Machine.execScrubWord d w err s
  | .wearRotation d => Sys2Proof.Machine.execWearRotation d s
  | .telemetrySend d temp => Sys2Proof.Machine.execTelemetrySend d temp s
  | .heartbeatSend d => Sys2Proof.Machine.execHeartbeatSend d s
  | .heartbeatMiss d x => Sys2Proof.Machine.execHeartbeatMiss d x s
  | .packageHeartbeatSend => Sys2Proof.Machine.execPackageHeartbeatSend s
  | .packageHeartbeatMiss d => Sys2Proof.Machine.execPackageHeartbeatMiss d s
  | .interimRoutePatch d => Sys2Proof.Machine.execInterimRoutePatch d s
  | .kerexPatch t ss => Sys2Proof.Machine.execKerexPatch t ss s
  | .twinReadComplete d ok => Sys2Proof.Machine.execTwinReadComplete d ok s
  | .shiftComplete d => Sys2Proof.Machine.execShiftComplete d s
  | .clkFault d panel => Sys2Proof.Machine.execClkFault d panel s
  | .pnlDownAck d panel => Sys2Proof.Machine.execPnlDownAck d panel s
  | .pnlAckTimeout d panel => Sys2Proof.Machine.execPnlAckTimeout d panel s
  | .stallThreshold d kind unit port => Sys2Proof.Machine.execStallThreshold d kind unit port s
  | .stallEscalate d kind unit port => Sys2Proof.Machine.execStallEscalate d kind unit port s
  | .tailorWatchdog d => Sys2Proof.Machine.execTailorWatchdog d s
  | .mndTailorKick d => Sys2Proof.Machine.execMndTailorKick d s
  | .mndPartCtlMend q => Sys2Proof.Machine.execMndPartCtlMend q s
  | .mndPartCtlAll => Sys2Proof.Machine.execMndPartCtlAll s
  | .mendIsolate q => Sys2Proof.Machine.execMendIsolate q s
  | .mendFlush q => Sys2Proof.Machine.execMendFlush q s
  | .mendDump q => Sys2Proof.Machine.execMendDump q s
  | .mendReset q => Sys2Proof.Machine.execMendReset q s
  | .mendRetrain q => Sys2Proof.Machine.execMendRetrain q s
  | .mendTest q fails => Sys2Proof.Machine.execMendTest q fails s
  | .mendRelock q => Sys2Proof.Machine.execMendRelock q s
  | .mendRestore q => Sys2Proof.Machine.execMendRestore q s
  | .mendRejoin q => Sys2Proof.Machine.execMendRejoin q s
  | .dumpEntry d => Sys2Proof.Machine.execDumpEntry d s
  | .dumpReadTimeout d => Sys2Proof.Machine.execDumpReadTimeout d s
  | .dumpWriteTimeout d => Sys2Proof.Machine.execDumpWriteTimeout d s
  | .dumpEngineTimeout q => Sys2Proof.Machine.execDumpEngineTimeout q s
  | .mndStopArm d => Sys2Proof.Machine.execMndStopArm d s
  | .stopHalt d panel => Sys2Proof.Machine.execStopHalt d panel s
  | .catchWindowEnd d panel => Sys2Proof.Machine.execCatchWindowEnd d panel s
  | .mndStopRelease => Sys2Proof.Machine.execMndStopRelease s
  | .mndStopCancel d => Sys2Proof.Machine.execMndStopCancel d s
  | .patLoadStartCold => Sys2Proof.Machine.execPatLoadStartCold s
  | .patLoadStartPatch => Sys2Proof.Machine.execPatLoadStartPatch s
  | .patLoadStartArea => Sys2Proof.Machine.execPatLoadStartArea s
  | .patLoadAbort => Sys2Proof.Machine.execPatLoadAbort s
  | .loadPortWrite v => Sys2Proof.Machine.execLoadPortWrite v s
  | .loadVerifyDone ok => Sys2Proof.Machine.execLoadVerifyDone ok s
  | .areaCopyDone ok0 ok1 => Sys2Proof.Machine.execAreaCopyDone ok0 ok1 s
  | .patchVerifyDone => Sys2Proof.Machine.execPatchVerifyDone s
  | .permitsWritten num => Sys2Proof.Machine.execPermitsWritten num s
  | .permitWrite d off src v => Sys2Proof.Machine.execPermitWrite d off src v s
  | .patchCompletionRead num => Sys2Proof.Machine.execPatchCompletionRead num s
  | .patchTPassed num => Sys2Proof.Machine.execPatchTPassed num s
  | .builtinTestComplete fails => Sys2Proof.Machine.execBuiltinTestComplete fails s
  | .trainComplete => Sys2Proof.Machine.execTrainComplete s
  | .ledgerChain => Sys2Proof.Machine.execLedgerChain s
  | .mirrorAck => Sys2Proof.Machine.execMirrorAck s
  | .sealDue => Sys2Proof.Machine.execSealDue s
  | .sealNow => Sys2Proof.Machine.execSealNow s
  | .sealSigned => Sys2Proof.Machine.execSealSigned s
  | .traceFlush d => Sys2Proof.Machine.execTraceFlush d s
  | .countPeriod d => Sys2Proof.Machine.execCountPeriod d s
  | .obsPrbCfgWrite d n v => Sys2Proof.Machine.execObsPrbCfgWrite d n v s
  | .obsStatClear d v => Sys2Proof.Machine.execObsStatClear d v s
  | .bootResetRelease d primary => Sys2Proof.Machine.execBootResetRelease d primary s
  | .pcieLinkUp d => Sys2Proof.Machine.execPcieLinkUp d s
  | .bootGo d => Sys2Proof.Machine.execBootGo d s
  | .bootVerifyDone d => Sys2Proof.Machine.execBootVerifyDone d s
  | .svnAdvance d => Sys2Proof.Machine.execSvnAdvance d s
  | .provision d => Sys2Proof.Machine.execProvision d s
  | .provisionDone d ok => Sys2Proof.Machine.execProvisionDone d ok s
  | .erase d => Sys2Proof.Machine.execErase d s
  | .debugOpen d => Sys2Proof.Machine.execDebugOpen d s
  | .dbgOpenReq d => Sys2Proof.Machine.execDbgOpenReq d s
  | .ledgerDone d => Sys2Proof.Machine.execLedgerDone d s
  | .debugLedgerTimeout => Sys2Proof.Machine.execDebugLedgerTimeout s
  | .zeroiseDone => Sys2Proof.Machine.execZeroiseDone s
  | .zeroiseRetry => Sys2Proof.Machine.execZeroiseRetry s
  | .lockstepMismatch d pairB => Sys2Proof.Machine.execLockstepMismatch d pairB s
  | .tlrMirrorFence d => Sys2Proof.Machine.execTlrMirrorFence d s
  | .mirrorFenceComplete => Sys2Proof.Machine.execMirrorFenceComplete s
  | .tlrSend d p => Sys2Proof.Machine.execTlrSend d p s
  | .bar2Write d off bs => Sys2Proof.Machine.execBar2Write d off bs s
  | .bar2Read d off n => Sys2Proof.Machine.execBar2Read d off n s
  | .bar2ReadTimeout d slot => Sys2Proof.Machine.execBar2ReadTimeout d slot s
  | .rcsrRead d => Sys2Proof.Machine.execRcsrRead d s
  | .rcsrWrite d => Sys2Proof.Machine.execRcsrWrite d s
  | .rcsrTimeout d => Sys2Proof.Machine.execRcsrTimeout d s
  | .svcRequest => Sys2Proof.Machine.execSvcRequest s
  | .mpResponse d tag err => Sys2Proof.Machine.execMpResponse d tag err s
  | .mpTimeout d tag => Sys2Proof.Machine.execMpTimeout d tag s
  | .mpTrainDone d => Sys2Proof.Machine.execMpTrainDone d s
  | .csrRegisterWrite d off a v => Sys2Proof.Machine.execCsrRegisterWrite d off a v s
  | .synBreakExamine d => Sys2Proof.Machine.execSynBreakExamine d s
  | .seamRecalibration d j temp => Sys2Proof.Machine.execSeamRecalibration d j temp s

end Sys2Proof.Machine
end

