-- ==== Sys2Proof/Machine/Step.lean ====
section
/-! DEFINITION. The step of the block: take the command at the front of the queue. -/

namespace Sys2Proof.Machine

/-- One step: the front command's effect on everything else, with the queue's rest; an empty queue idles. (DESIGN CHOICE, log 6; DESIGN CHOICE, log 171) -/
def step (s : State) : Host.Outcome State Fault Refusal :=
  match s.pending with
  | [] => .next s
  | c :: cs => exec c { s with pending := cs }

/-- The state with the command that a table word spells at the front of its queue; no row of the table gives bits, so no
word spells one. (DESIGN CHOICE, log 7) -/
def State.withFetchWord (s : State) (nbits w : Nat) : State :=
  match Sys2Proof.decodeTableWord nbits w with
  | some c => { s with pending := c :: s.pending }
  | none => s

end Sys2Proof.Machine
end

