-- ==== Sys2Proof/Safety.lean ====
section
/-! DEFINITION. What counts as a safe run, in the terms that claims use: outcomes that go on, memory that reads as before, the canonical
form of memory, and the arrival of a packet that its engine takes. -/

namespace Sys2Proof.Machine

open Sys2Proof

/-- Every next state of an outcome satisfies `P`; a fault or a refusal satisfies any. -/
def Always (P : State → Prop) : Out → Prop
  | .next t => P t
  | .fault _ => True
  | .refused _ => True

/-- Every byte of memory reads in `t` as it does in `s`. -/
def sameMemory (s t : State) : Prop := ∀ a, readByte t.mem a = readByte s.mem a

/-- Every byte of memory outside the `n` bytes from `a` reads in `t` as it does in `s`. -/
def sameOutside (s t : State) (a n : Nat) : Prop := ∀ x, x < a ∨ a + n ≤ x → readByte t.mem x = readByte s.mem x

/-- The invariant of the machine: memory in its canonical form. -/
def State.Inv (s : State) : Prop := Memory.wf s.mem = true

/-- A packet of command `cmd` that attachment `att` takes: the attachment exists, the command is the packet's, the packet breaks no rule
of R72 to R126, nothing is halted or hemmed, the NI delivers (R198), and the header check passes (R124). -/
def taken (s : State) (d att cmd : Nat) (p : Packet) : Bool :=
  attExists s d att && p.hdr.cmd.toNat == cmd && (packetMisuse p).isNone && !attHalted s d att && !attHemmed s d att p.hdr && delivers s d att &&
    p.hdr.crcOk

end Sys2Proof.Machine
end

