-- ==== Sys2Proof/WellFormed.lean ====
section
/-! DEFINITION. Which commands are well formed: every operand lies in the range that its field or unit number has in the spec
(R17, R34, R42, R65, R72). Whether the unit exists on a given floor is the machine's question, not the syntax's. -/

namespace Sys2Proof

/-- A packet holds at most 32 data units (R72). -/
def Packet.wf (p : Packet) : Bool := p.data.length ≤ 32

/-- The sideband fields of a link unit have their widths (R135). -/
def LinkUnit.wf (u : LinkUnit) : Bool :=
  u.type < 4 && u.vc < 6 && u.laOut < 8 && u.phase < 4 && u.seg < 8 && u.hops < 64 && (match u.credit with
    | some v => v < 6
    | none => true)

/-- The fields of a seam frame have their widths (R166). -/
def SeamRx.wf (f : SeamRx) : Bool := f.body.wf && f.credVc < 6 && f.credN < 8 && f.seq < 256 && f.ack < 256

/-- The fields of a stitch frame have their widths (R519, R520). -/
def StRx.wf (f : StRx) : Bool :=
  f.frame.ftype < 16 && f.frame.seq < 4096 && f.frame.ack < 4096 && f.frame.slots.length ≤ 4 && f.group < 2 ^ 16

/-- A sampled queue is a router's or one of a shaping point (R298). -/
def SamplePoint.wf : SamplePoint → Bool
  | .router p => p < 624
  | .shape g v => g < 9 && 1 ≤ v && v < 6

/-- A scrubbed word lies in a table or store that the spec sizes (R446, R478, R572). -/
def ScrubAt.wf : ScrubAt → Bool
  | .table t _ _ => t < 16
  | .object o => o < 16384
  | .group k e => k < 8 && e < 64
  | .staging k e tag _ => k < 8 && e < 64 && tag < 2 ^ 16
  | .window n => n < 16

/-- A failure names a unit by a number that the spec gives (R62, R681). -/
def TestFail.wf : TestFail → Bool
  | .tile d p => d < 128 && p < 624
  | .seam d i => d < 128 && i < 96
  | .unit d n => d < 128 && n < 10
  | .die d => d < 128

/-- A stage stream is bound for a slice of the pod (R567). -/
def PStream.wf (x : PStream) : Bool := x.pkg < 8192 && x.die < 128

/-- Whether every operand of a command lies in its range. -/
def Instr.wf : Instr → Bool
  | .coldReset d => d < 128
  | .timeKeeperTick d _ _ => d < 128
  | .roundBoundary d => d < 128
  | .reservedSlotStart d p o => d < 128 && p < 624 && o < 6
  | .outputArbitration d p o => d < 128 && p < 624 && o < 6
  | .routerHeaderArrival d p j => d < 128 && p < 624 && j < 6
  | .linkUnitArrival d p i u => d < 128 && p < 624 && i < 6 && LinkUnit.wf u
  | .contextCeiling d p c => d < 128 && p < 624 && c < 4
  | .tpInjectUnit d p v _ _ => d < 128 && p < 624 && v < 6
  | .niInject d att v => d < 128 && att < 4096 && v < 6
  | .orderedDrainEnd d att => d < 128 && att < 4096
  | .tpDeliver d p v => d < 128 && p < 624 && v < 6
  | .tpGenLoaded d p gen => d < 128 && p < 624 && gen < 16
  | .tpReadData d p tag => d < 128 && p < 624 && tag < 32
  | .twinNotice d p addr be _ => d < 128 && p < 624 && addr < 2 ^ 17 && be < 2 ^ 64
  | .write d att p => d < 128 && att < 4096 && Packet.wf p
  | .writeAck d att p => d < 128 && att < 4096 && Packet.wf p
  | .write8 d att p => d < 128 && att < 4096 && Packet.wf p
  | .read d att p => d < 128 && att < 4096 && Packet.wf p
  | .readData d att p => d < 128 && att < 4096 && Packet.wf p
  | .ack d att p => d < 128 && att < 4096 && Packet.wf p
  | .syncRead d _ => d < 128
  | .syncInit d _ => d < 128
  | .syncAdd d _ => d < 128
  | .syncArrive d _ => d < 128
  | .syncTake d _ => d < 128
  | .syncAcquire d _ => d < 128
  | .syncUnlock d _ => d < 128
  | .syncSet d _ => d < 128
  | .syncSetMax d _ => d < 128
  | .syncWait d _ => d < 128
  | .syncCancel d _ => d < 128
  | .syncRelease d k _ => d < 128 && k < 8
  | .commitStage d p => d < 128 && Packet.wf p
  | .commitAck d k _ => d < 128 && k < 8
  | .confirm d _ => d < 128
  | .targetReport d att _ => d < 128 && att < 4096
  | .commitOutcome d k _ => d < 128 && k < 8
  | .collData d att p => d < 128 && att < 4096 && Packet.wf p
  | .a2aData d att p => d < 128 && att < 4096 && Packet.wf p
  | .a2aCount d att p => d < 128 && att < 4096 && Packet.wf p
  | .pour d att p => d < 128 && att < 4096 && Packet.wf p
  | .chunkNack d k _ => d < 128 && k < 8
  | .abort d k _ => d < 128 && k < 8
  | .redSum d att p _ => d < 128 && att < 4096 && Packet.wf p
  | .redMax d att p _ => d < 128 && att < 4096 && Packet.wf p
  | .redMin d att p _ => d < 128 && att < 4096 && Packet.wf p
  | .redProd d att p _ => d < 128 && att < 4096 && Packet.wf p
  | .redAnd d att p _ => d < 128 && att < 4096 && Packet.wf p
  | .redOr d att p _ => d < 128 && att < 4096 && Packet.wf p
  | .redXor d att p _ => d < 128 && att < 4096 && Packet.wf p
  | .dieHeartbeat d att _ => d < 128 && att < 4096
  | .packageHeartbeat d att _ => d < 128 && att < 4096
  | .verdict d att _ => d < 128 && att < 4096
  | .suspect d att _ => d < 128 && att < 4096
  | .timeXferRequest d att p => d < 128 && att < 4096 && Packet.wf p
  | .timeXferResponse d att p => d < 128 && att < 4096 && Packet.wf p
  | .probe d p i pk => d < 128 && p < 624 && i < 6 && Packet.wf pk
  | .genToken d p _ => d < 128 && p < 624
  | .csrRead d att p => d < 128 && att < 4096 && Packet.wf p
  | .csrWrite d att p => d < 128 && att < 4096 && Packet.wf p
  | .csrData d att p => d < 128 && att < 4096 && Packet.wf p
  | .trace d att p => d < 128 && att < 4096 && Packet.wf p
  | .descriptorFetch d k e => d < 128 && k < 8 && e < 64
  | .descriptorFetchRetry d k e => d < 128 && k < 8 && e < 64
  | .nop d k e => d < 128 && k < 8 && e < 64
  | .allReduce d k e => d < 128 && k < 8 && e < 64
  | .reduce d k e => d < 128 && k < 8 && e < 64
  | .reduceScatter d k e => d < 128 && k < 8 && e < 64
  | .allGather d k e => d < 128 && k < 8 && e < 64
  | .broadcast d k e => d < 128 && k < 8 && e < 64
  | .allToAll d k e => d < 128 && k < 8 && e < 64
  | .allToAllV d k e => d < 128 && k < 8 && e < 64
  | .barrier d k e => d < 128 && k < 8 && e < 64
  | .chunkStart d k e tag => d < 128 && k < 8 && e < 64 && tag < 2 ^ 16
  | .stagingWaitEnd d k => d < 128 && k < 8
  | .orderSend d p => d < 128 && p < 624
  | .orderClear d p => d < 128 && p < 624
  | .orderCancel d p => d < 128 && p < 624
  | .orderReport d p => d < 128 && p < 624
  | .chunkTimeout d att _ => d < 128 && att < 4096
  | .chunkResend d k e tag => d < 128 && k < 8 && e < 64 && tag < 2 ^ 16
  | .ceHang d k e tag => d < 128 && k < 8 && e < 64 && tag < 2 ^ 16
  | .operationEnd d k e tag => d < 128 && k < 8 && e < 64 && tag < 2 ^ 16
  | .ceGroupCtlSkip d k e => d < 128 && k < 8 && e < 64
  | .ceGroupCtlResume d k e => d < 128 && k < 8 && e < 64
  | .ceGtDataWrite d k _ => d < 128 && k < 8
  | .lockCeilingExamine d => d < 128
  | .synBreak d _ => d < 128
  | .synObjLoWrite d o _ => d < 128 && o < 16384
  | .commitRequestFetch d k => d < 128 && k < 8
  | .confirmDeadline d k n => d < 128 && k < 8 && n < 256
  | .outcomeWaitExpiry d k n => d < 128 && k < 8 && n < 256
  | .commitApply d => d < 128
  | .recorderDecision d => d < 128
  | .frameTransmit d => d < 128
  | .idleFrame d f => d < 128 && StRx.wf f
  | .dataFrame d f => d < 128 && StRx.wf f
  | .ingressForward d => d < 128
  | .stitchTimeRequest d f => d < 128 && StRx.wf f
  | .stitchTimeResponse d f => d < 128 && StRx.wf f
  | .fenceFrame d f => d < 128 && StRx.wf f
  | .laneRequest d f => d < 128 && StRx.wf f
  | .laneAck d f => d < 128 && StRx.wf f
  | .initFrame d f => d < 128 && StRx.wf f
  | .fecLockLoss d => d < 128
  | .noFrameTimeout d => d < 128
  | .pmaSignalDetect d lanes => d < 128 && lanes < 2 ^ 20
  | .pmaLock d lanes => d < 128 && lanes < 2 ^ 20
  | .alignmentLock d group => d < 128 && group < 2 ^ 16
  | .detectTimeout d => d < 128
  | .equaliseTimeout d => d < 128
  | .alignTimeout d => d < 128
  | .retrainTimeout d => d < 128
  | .laneErrorWindow d => d < 128
  | .switchGroupReached d group => d < 128 && group < 2 ^ 16
  | .stlCtlFence d => d < 128
  | .stlCtlRetrain d => d < 128
  | .portRetrainRetry d => d < 128
  | .seamFrame d i f => d < 128 && i < 96 && SeamRx.wf f
  | .ucieStateChange d i _ _ extra => d < 128 && i < 96 && extra < 256
  | .seamPanelWrite d _ => d < 128
  | .gateEntryEnd d g => d < 128 && g < 9
  | .gateTakeover d g => d < 128 && g < 9
  | .shaperRefill d g v => d < 128 && g < 9 && 1 ≤ v && v < 6
  | .meterRefill d g v => d < 128 && g < 9 && 1 ≤ v && v < 6
  | .queueSample d pt => d < 128 && SamplePoint.wf pt
  | .qsampleClear d pt _ => d < 128 && SamplePoint.wf pt
  | .ppsEdge d => d < 128
  | .ppsMissing d => d < 128
  | .ptpSubmit d => d < 128
  | .timeXferPeriod d => d < 128
  | .parentLost d => d < 128
  | .timFtRead d => d < 128
  | .niGovCapWrite d _ => d < 128
  | .linkSecWindowEnd d p i => d < 128 && p < 624 && i < 6
  | .probeSend d p len _ => d < 128 && p < 624 && len ≤ 32
  | .probeTimeout d p => d < 128 && p < 624
  | .probeRepeat d p => d < 128 && p < 624
  | .scrubWord d w _ => d < 128 && ScrubAt.wf w
  | .wearRotation d => d < 128
  | .telemetrySend d temp => d < 128 && temp < 2 ^ 16
  | .heartbeatSend d => d < 128
  | .heartbeatMiss d x => d < 128 && x < 128
  | .packageHeartbeatSend => true
  | .packageHeartbeatMiss d => d < 128
  | .interimRoutePatch d => d < 128
  | .kerexPatch t ss => t < 2 ^ 64 && ss.all PStream.wf
  | .twinReadComplete d _ => d < 128
  | .shiftComplete d => d < 128
  | .clkFault d panel => d < 128 && panel < 2
  | .pnlDownAck d panel => d < 128 && panel < 2
  | .pnlAckTimeout d panel => d < 128 && panel < 2
  | .stallThreshold d kind unit port => d < 128 && kind < 7 && unit < 624 && port < 6
  | .stallEscalate d kind unit port => d < 128 && kind < 7 && unit < 624 && port < 6
  | .tailorWatchdog d => d < 128
  | .mndTailorKick d => d < 128
  | .mndPartCtlMend q => q < 64
  | .mndPartCtlAll => true
  | .mendIsolate q => q < 64
  | .mendFlush q => q < 64
  | .mendDump q => q < 64
  | .mendReset q => q < 64
  | .mendRetrain q => q < 64
  | .mendTest q fails => q < 64 && fails.all TestFail.wf
  | .mendRelock q => q < 64
  | .mendRestore q => q < 64
  | .mendRejoin q => q < 64
  | .dumpEntry d => d < 128
  | .dumpReadTimeout d => d < 128
  | .dumpWriteTimeout d => d < 128
  | .dumpEngineTimeout q => q < 64
  | .mndStopArm d => d < 128
  | .stopHalt d panel => d < 128 && panel < 2
  | .catchWindowEnd d panel => d < 128 && panel < 2
  | .mndStopRelease => true
  | .mndStopCancel d => d < 128
  | .patLoadStartCold => true
  | .patLoadStartPatch => true
  | .patLoadStartArea => true
  | .patLoadAbort => true
  | .loadPortWrite _ => true
  | .loadVerifyDone _ => true
  | .areaCopyDone _ _ => true
  | .patchVerifyDone => true
  | .permitsWritten num => num < 2 ^ 32
  | .permitWrite d off _ _ => d < 128 && off < 2 ^ 24
  | .patchCompletionRead num => num < 2 ^ 32
  | .patchTPassed num => num < 2 ^ 32
  | .builtinTestComplete fails => fails.all TestFail.wf
  | .trainComplete => true
  | .ledgerChain => true
  | .mirrorAck => true
  | .sealDue => true
  | .sealNow => true
  | .sealSigned => true
  | .traceFlush d => d < 128
  | .countPeriod d => d < 128
  | .obsPrbCfgWrite d n _ => d < 128 && n < 16
  | .obsStatClear d _ => d < 128
  | .bootResetRelease d _ => d < 128
  | .pcieLinkUp d => d < 128
  | .bootGo d => d < 128
  | .bootVerifyDone d => d < 128
  | .svnAdvance d => d < 128
  | .provision d => d < 128
  | .provisionDone d _ => d < 128
  | .erase d => d < 128
  | .debugOpen d => d < 128
  | .dbgOpenReq d => d < 128
  | .ledgerDone d => d < 128
  | .debugLedgerTimeout => true
  | .zeroiseDone => true
  | .zeroiseRetry => true
  | .lockstepMismatch d _ => d < 128
  | .tlrMirrorFence d => d < 128
  | .mirrorFenceComplete => true
  | .tlrSend d p => d < 128 && Packet.wf p
  | .bar2Write d off bs => d < 128 && off + bs.length ≤ 2 ^ 28
  | .bar2Read d off n => d < 128 && 0 < n && off + n ≤ 2 ^ 28
  | .bar2ReadTimeout d slot => d < 128 && slot < 3840
  | .rcsrRead d => d < 128
  | .rcsrWrite d => d < 128
  | .rcsrTimeout d => d < 128
  | .svcRequest => true
  | .mpResponse d tag _ => d < 128 && tag < 256
  | .mpTimeout d tag => d < 128 && tag < 256
  | .mpTrainDone d => d < 128
  | .csrRegisterWrite d off _ _ => d < 128 && off < 2 ^ 24
  | .synBreakExamine d => d < 128
  | .seamRecalibration d i temp => d < 128 && i < 96 && temp < 2 ^ 16

/-- The die that a command names, where it names one. -/
def Instr.die : Instr → Option Nat
  | .coldReset d => some d
  | .timeKeeperTick d _ _ => some d
  | .roundBoundary d => some d
  | .reservedSlotStart d _ _ => some d
  | .outputArbitration d _ _ => some d
  | .routerHeaderArrival d _ _ => some d
  | .linkUnitArrival d _ _ _ => some d
  | .contextCeiling d _ _ => some d
  | .tpInjectUnit d _ _ _ _ => some d
  | .niInject d _ _ => some d
  | .orderedDrainEnd d _ => some d
  | .tpDeliver d _ _ => some d
  | .tpGenLoaded d _ _ => some d
  | .tpReadData d _ _ => some d
  | .twinNotice d _ _ _ _ => some d
  | .write d _ _ => some d
  | .writeAck d _ _ => some d
  | .write8 d _ _ => some d
  | .read d _ _ => some d
  | .readData d _ _ => some d
  | .ack d _ _ => some d
  | .syncRead d _ => some d
  | .syncInit d _ => some d
  | .syncAdd d _ => some d
  | .syncArrive d _ => some d
  | .syncTake d _ => some d
  | .syncAcquire d _ => some d
  | .syncUnlock d _ => some d
  | .syncSet d _ => some d
  | .syncSetMax d _ => some d
  | .syncWait d _ => some d
  | .syncCancel d _ => some d
  | .syncRelease d _ _ => some d
  | .commitStage d _ => some d
  | .commitAck d _ _ => some d
  | .confirm d _ => some d
  | .targetReport d _ _ => some d
  | .commitOutcome d _ _ => some d
  | .collData d _ _ => some d
  | .a2aData d _ _ => some d
  | .a2aCount d _ _ => some d
  | .pour d _ _ => some d
  | .chunkNack d _ _ => some d
  | .abort d _ _ => some d
  | .redSum d _ _ _ => some d
  | .redMax d _ _ _ => some d
  | .redMin d _ _ _ => some d
  | .redProd d _ _ _ => some d
  | .redAnd d _ _ _ => some d
  | .redOr d _ _ _ => some d
  | .redXor d _ _ _ => some d
  | .dieHeartbeat d _ _ => some d
  | .packageHeartbeat d _ _ => some d
  | .verdict d _ _ => some d
  | .suspect d _ _ => some d
  | .timeXferRequest d _ _ => some d
  | .timeXferResponse d _ _ => some d
  | .probe d _ _ _ => some d
  | .genToken d _ _ => some d
  | .csrRead d _ _ => some d
  | .csrWrite d _ _ => some d
  | .csrData d _ _ => some d
  | .trace d _ _ => some d
  | .descriptorFetch d _ _ => some d
  | .descriptorFetchRetry d _ _ => some d
  | .nop d _ _ => some d
  | .allReduce d _ _ => some d
  | .reduce d _ _ => some d
  | .reduceScatter d _ _ => some d
  | .allGather d _ _ => some d
  | .broadcast d _ _ => some d
  | .allToAll d _ _ => some d
  | .allToAllV d _ _ => some d
  | .barrier d _ _ => some d
  | .chunkStart d _ _ _ => some d
  | .stagingWaitEnd d _ => some d
  | .orderSend d _ => some d
  | .orderClear d _ => some d
  | .orderCancel d _ => some d
  | .orderReport d _ => some d
  | .chunkTimeout d _ _ => some d
  | .chunkResend d _ _ _ => some d
  | .ceHang d _ _ _ => some d
  | .operationEnd d _ _ _ => some d
  | .ceGroupCtlSkip d _ _ => some d
  | .ceGroupCtlResume d _ _ => some d
  | .ceGtDataWrite d _ _ => some d
  | .lockCeilingExamine d => some d
  | .synBreak d _ => some d
  | .synObjLoWrite d _ _ => some d
  | .commitRequestFetch d _ => some d
  | .confirmDeadline d _ _ => some d
  | .outcomeWaitExpiry d _ _ => some d
  | .commitApply d => some d
  | .recorderDecision d => some d
  | .frameTransmit d => some d
  | .idleFrame d _ => some d
  | .dataFrame d _ => some d
  | .ingressForward d => some d
  | .stitchTimeRequest d _ => some d
  | .stitchTimeResponse d _ => some d
  | .fenceFrame d _ => some d
  | .laneRequest d _ => some d
  | .laneAck d _ => some d
  | .initFrame d _ => some d
  | .fecLockLoss d => some d
  | .noFrameTimeout d => some d
  | .pmaSignalDetect d _ => some d
  | .pmaLock d _ => some d
  | .alignmentLock d _ => some d
  | .detectTimeout d => some d
  | .equaliseTimeout d => some d
  | .alignTimeout d => some d
  | .retrainTimeout d => some d
  | .laneErrorWindow d => some d
  | .switchGroupReached d _ => some d
  | .stlCtlFence d => some d
  | .stlCtlRetrain d => some d
  | .portRetrainRetry d => some d
  | .seamFrame d _ _ => some d
  | .ucieStateChange d _ _ _ _ => some d
  | .seamPanelWrite d _ => some d
  | .gateEntryEnd d _ => some d
  | .gateTakeover d _ => some d
  | .shaperRefill d _ _ => some d
  | .meterRefill d _ _ => some d
  | .queueSample d _ => some d
  | .qsampleClear d _ _ => some d
  | .ppsEdge d => some d
  | .ppsMissing d => some d
  | .ptpSubmit d => some d
  | .timeXferPeriod d => some d
  | .parentLost d => some d
  | .timFtRead d => some d
  | .niGovCapWrite d _ => some d
  | .linkSecWindowEnd d _ _ => some d
  | .probeSend d _ _ _ => some d
  | .probeTimeout d _ => some d
  | .probeRepeat d _ => some d
  | .scrubWord d _ _ => some d
  | .wearRotation d => some d
  | .telemetrySend d _ => some d
  | .heartbeatSend d => some d
  | .heartbeatMiss d _ => some d
  | .packageHeartbeatSend => none
  | .packageHeartbeatMiss d => some d
  | .interimRoutePatch d => some d
  | .kerexPatch _ _ => none
  | .twinReadComplete d _ => some d
  | .shiftComplete d => some d
  | .clkFault d _ => some d
  | .pnlDownAck d _ => some d
  | .pnlAckTimeout d _ => some d
  | .stallThreshold d _ _ _ => some d
  | .stallEscalate d _ _ _ => some d
  | .tailorWatchdog d => some d
  | .mndTailorKick d => some d
  | .mndPartCtlMend _ => none
  | .mndPartCtlAll => none
  | .mendIsolate _ => none
  | .mendFlush _ => none
  | .mendDump _ => none
  | .mendReset _ => none
  | .mendRetrain _ => none
  | .mendTest _ _ => none
  | .mendRelock _ => none
  | .mendRestore _ => none
  | .mendRejoin _ => none
  | .dumpEntry d => some d
  | .dumpReadTimeout d => some d
  | .dumpWriteTimeout d => some d
  | .dumpEngineTimeout _ => none
  | .mndStopArm d => some d
  | .stopHalt d _ => some d
  | .catchWindowEnd d _ => some d
  | .mndStopRelease => none
  | .mndStopCancel d => some d
  | .patLoadStartCold => none
  | .patLoadStartPatch => none
  | .patLoadStartArea => none
  | .patLoadAbort => none
  | .loadPortWrite _ => none
  | .loadVerifyDone _ => none
  | .areaCopyDone _ _ => none
  | .patchVerifyDone => none
  | .permitsWritten _ => none
  | .permitWrite d _ _ _ => some d
  | .patchCompletionRead _ => none
  | .patchTPassed _ => none
  | .builtinTestComplete _ => none
  | .trainComplete => none
  | .ledgerChain => none
  | .mirrorAck => none
  | .sealDue => none
  | .sealNow => none
  | .sealSigned => none
  | .traceFlush d => some d
  | .countPeriod d => some d
  | .obsPrbCfgWrite d _ _ => some d
  | .obsStatClear d _ => some d
  | .bootResetRelease d _ => some d
  | .pcieLinkUp d => some d
  | .bootGo d => some d
  | .bootVerifyDone d => some d
  | .svnAdvance d => some d
  | .provision d => some d
  | .provisionDone d _ => some d
  | .erase d => some d
  | .debugOpen d => some d
  | .dbgOpenReq d => some d
  | .ledgerDone d => some d
  | .debugLedgerTimeout => none
  | .zeroiseDone => none
  | .zeroiseRetry => none
  | .lockstepMismatch d _ => some d
  | .tlrMirrorFence d => some d
  | .mirrorFenceComplete => none
  | .tlrSend d _ => some d
  | .bar2Write d _ _ => some d
  | .bar2Read d _ _ => some d
  | .bar2ReadTimeout d _ => some d
  | .rcsrRead d => some d
  | .rcsrWrite d => some d
  | .rcsrTimeout d => some d
  | .svcRequest => none
  | .mpResponse d _ _ => some d
  | .mpTimeout d _ => some d
  | .mpTrainDone d => some d
  | .csrRegisterWrite d _ _ _ => some d
  | .synBreakExamine d => some d
  | .seamRecalibration d _ _ => some d

end Sys2Proof
end

