-- ==== Sys2Proof/Certificates/Slice0/Obligations.lean ====
section
/-! DEFINITION. The statements for the provers, each with the rules of spec/ that it formalises. A clause of the form
`exec c s = .next t` says where command `c` completes and with which state. -/

open Sys2Proof Sys2Proof.Machine

/-! ## The machine -/

/-- A step takes the command at the front of the queue and answers its effect on the state with the queue's rest. -/
def Obligations.StepRunsFrontCommand : Prop :=
  ∀ (c : Instr) (cs : List Instr) (s : State), s.pending = c :: cs → step s = exec c { s with pending := cs }

/-- With no command waiting the block idles: the model's choice (log 6). -/
def Obligations.EmptyQueueIdles : Prop :=
  ∀ s : State, s.pending = [] → step s = .next s

/-- The state right after reset: COLD (R829), no command waiting, every table entry zero and every PL field at its reset value, since no
register, table or memory byte is listed (R573); the floor is the reference floor (log 4) and unwritten bytes read 0 (log 1). -/
def Obligations.ResetState : Prop :=
  State.reset.mode = .cold ∧ State.reset.pending = [] ∧ State.reset.csr = {} ∧ State.reset.mem = [] ∧
    State.reset.slotTab = {} ∧ State.reset.treeTab = {} ∧ State.reset.joinTab = {} ∧ State.reset.routeTab = {} ∧
    State.reset.routeStore = {} ∧ State.reset.arrivalTab = {} ∧ State.reset.gateTab = {} ∧ State.reset.syncObj = {} ∧
    kindOf State.reset 0 = some .compute ∧ kindOf State.reset 64 = some .port ∧ kindOf State.reset 72 = some .memif ∧
    kindOf State.reset 96 = some .service ∧ kindOf State.reset 100 = none

/-- Packing the fields of R75 into a header unit and reading them back gives the header, and no bit of a unit is lost by reading it.
Each field of R75 stands at its bits of the packed header, with the parts of FLAGS, SRC and INLINE at theirs, and a sealed header's HCRC
is the CRC-32C over bits 479:0. -/
def Obligations.HeaderPackUnpack : Prop :=
  ((∀ h : Hdr, Hdr.unpack h.pack = h) ∧ (∀ u : DataUnit, (Hdr.unpack u).pack = u)) ∧
  (∀ h : Hdr, (bitsOf h.pack 7 0 = h.cmd.toNat ∧ bitsOf h.pack 10 8 = h.vc.toNat ∧ bitsOf h.pack 16 11 = h.len.toNat ∧
    bitsOf h.pack 23 17 = h.flags.toNat ∧ bitsOf h.pack 31 24 = h.epoch.toNat ∧ bitsOf h.pack 95 32 = h.dest.toNat ∧
    bitsOf h.pack 127 96 = h.src.toNat ∧ bitsOf h.pack 175 128 = h.routeLocal.toNat ∧ bitsOf h.pack 199 176 = h.routePkg.toNat ∧
    bitsOf h.pack 247 200 = h.routeDest.toNat ∧ bitsOf h.pack 263 248 = h.tag.toNat ∧ bitsOf h.pack 279 264 = h.group.toNat ∧
    bitsOf h.pack 303 280 = h.chunk.toNat ∧ bitsOf h.pack 343 304 = h.ft40.toNat ∧ bitsOf h.pack 347 344 = h.fmt.toNat ∧
    bitsOf h.pack 351 348 = h.gen.toNat ∧ bitsOf h.pack 479 352 = h.inl.toNat ∧ bitsOf h.pack 511 480 = h.hcrc.toNat) ∧
    (h.sparse = h.pack.getLsbD 17 ∧ h.mcast = h.pack.getLsbD 18 ∧ h.ordered = h.pack.getLsbD 19 ∧ h.last = h.pack.getLsbD 20 ∧
    h.chk = h.pack.getLsbD 21 ∧ h.slot = h.pack.getLsbD 22 ∧ h.stretch = h.pack.getLsbD 23) ∧
    (bitsOf h.pack 127 115 = h.srcPkg ∧ bitsOf h.pack 114 108 = h.srcDie ∧ bitsOf h.pack 107 98 = h.srcTile ∧
    bitsOf h.pack 97 96 = h.srcEng ∧ bitsOf h.pack 371 352 = h.inlBits 371 352 ∧ bitsOf h.pack 391 372 = h.inlBits 391 372 ∧
    bitsOf h.pack 479 416 = h.inlBits 479 416) ∧
    bitsOf h.seal.pack 511 480 = (crc32c 480 (bitsOf h.seal.pack 479 0)).toNat)

/-- A header that its engine seals passes the check, whatever its fields. -/
def Obligations.SealedHeaderPasses : Prop :=
  ∀ h : Hdr, h.seal.crcOk = true ∧ h.seal.dest = h.dest ∧ h.seal.cmd = h.cmd

/-! ## Memory and registers -/

/-- Two memories in the canonical form that read the same at every address are the same list. -/
def Obligations.CanonicalMemoryUnique : Prop :=
  ∀ m n : List Host.Cell, Memory.wf m = true → Memory.wf n = true → (∀ a, readByte m a = readByte n a) → m = n

/-- A unit written at an offset inside the memory puts the bytes that the mask enables and leaves every other byte. A unit that would
cross the end of the memory is discarded. -/
def Obligations.UnitWriteReadsBack : Prop :=
  (∀ (m : List Host.Cell) (key : Nat → Nat) (limit off mask : Nat) (u : DataUnit), off + 64 ≤ limit →
    (∀ i, i < 64 → readByte (putUnit m key limit off mask u) (key off + i) = if natBit mask i then byteOf u i else readByte m (key off + i)) ∧
    (∀ x, x < key off ∨ key off + 64 ≤ x → readByte (putUnit m key limit off mask u) x = readByte m x)) ∧
  (∀ (m : List Host.Cell) (key : Nat → Nat) (limit off mask : Nat) (u : DataUnit), limit < off + 64 → putUnit m key limit off mask u = m)

/-- A written register field reads back, and every bit outside the field, every other register and memory stay. -/
def Obligations.FieldWriteReadsBack : Prop :=
  ∀ (s : State) (d off hi lo v : Nat), lo ≤ hi → hi < 64 →
    (s.setFld d off hi lo v).fld d off hi lo = v % 2 ^ (hi + 1 - lo) ∧
    (∀ b, b < lo ∨ hi < b → ((s.setFld d off hi lo v).reg d off).getLsbD b = (s.reg d off).getLsbD b) ∧
    (∀ d' off', ck d' off' ≠ ck d off → (s.setFld d off hi lo v).reg d' off' = s.reg d' off') ∧
    (s.setFld d off hi lo v).mem = s.mem

/-- A counter wraps and a saturating counter stays at its greatest value. For a field that software has written in the same cycle
StoredBits says what holds. -/
def Obligations.CountersWrapOrSaturate : Prop :=
  ∀ (s : State) (d off hi lo n : Nat), lo ≤ hi → hi < 64 → s.wrote d off hi lo = false →
    (s.bump d off hi lo n).fld d off hi lo = (s.fld d off hi lo + n) % 2 ^ (hi + 1 - lo) ∧
    (s.bumpSat d off hi lo n).fld d off hi lo = min (s.fld d off hi lo + n) (2 ^ (hi + 1 - lo) - 1)

/-- The canonical form of memory is kept by every step. -/
def Obligations.StepKeepsMemoryCanonical : Prop :=
  ∀ s t : State, s.Inv → step s = .next t → t.Inv

/-- Memory is canonical right after reset. -/
def Obligations.ResetMemoryCanonical : Prop :=
  State.reset.Inv

/-! ## Time, rounds and panels (R209 to R269) -/

/-- Without slew, one cycle of the reference adds 0.625 ns to FT; with slew, one part in 2^16 ns less or more, and the offset that
remains comes one part nearer to zero. -/
def Obligations.KeeperTickAdds : Prop :=
  ∀ k : Keeper,
    (k.slew = 0 → (keeperTick k).ft.toNat * 65536 + (keeperTick k).frac.toNat =
      (k.ft.toNat * 65536 + k.frac.toNat + 0xA000) % 2 ^ 80 ∧ (keeperTick k).slew = 0) ∧
    (0 < k.slew → (keeperTick k).ft.toNat * 65536 + (keeperTick k).frac.toNat =
      (k.ft.toNat * 65536 + k.frac.toNat + 0x9FFF) % 2 ^ 80 ∧ (keeperTick k).slew = k.slew - 1) ∧
    (k.slew < 0 → (keeperTick k).ft.toNat * 65536 + (keeperTick k).frac.toNat =
      (k.ft.toNat * 65536 + k.frac.toNat + 0xA001) % 2 ^ 80 ∧ (keeperTick k).slew = k.slew + 1)

/-- TIME_KEEPER_TICK, TIM_FT_READ, PTP_SUBMIT, PPS_EDGE, PPS_MISSING, TIME_XFER_PERIOD, PARENT_LOST: where each completes, and with
what. The root's offset at a PPS edge steps FT before FIT, slews within a microsecond, and is refused beyond it. -/
def Obligations.TimeEventsComplete : Prop :=
  ((∀ (d : Nat) (w e : Clk) (s : State), dieExists s d = true →
    ∃ t, exec (.timeKeeperTick d w e) s = .next t ∧ t.keeper d = keeperTick (s.keeper d) ∧ (∀ x, x ≠ d → t.keeper x = s.keeper x) ∧
      t.csr = s.csr ∧ t.mem = s.mem) ∧
  (∀ (d : Nat) (s : State), dieExists s d = true →
    exec (.timFtRead d) s = .next (s.setReg d TIM_FT_FRAC (BitVec.ofNat 64 (s.keeper d).frac.toNat)) ∧ (readFt s d).1 = (s.keeper d).ft) ∧
  (∀ (d : Nat) (s : State), dieExists s d = true → actsAsRoot s d = true → ptpOk s d = true →
    exec (.ptpSubmit d) s = .next (s.setKeeper d { s.keeper d with tod := some (ptpToD s d), todAt := s.now d })) ∧
  (∀ (d : Nat) (s : State), dieExists s d = true → actsAsRoot s d = true →
    ∃ t, exec (.ppsEdge d) s = .next t ∧ t.reg d TIM_PPS_STAMP = (s.keeper d).ft ∧ t.mem = s.mem) ∧
  (∀ (d : Nat) (s : State), dieExists s d = true → actsAsRoot s d = true → (s.keeper d).lastPps + ppsLimit ≤ s.now d →
    (s.keeper d).tod = none → (s.keeper d).holdover = false →
    exec (.ppsMissing d) s = .next ((s.setKeeper d { s.keeper d with holdover := true }).raise d TIM_EVENT 1)) ∧
  (∀ (d : Nat) (s : State), dieExists s d = true → s.fld d TIM_CFG 1 0 = 0 → (s.keeper d).lastXfer + xferPeriod s d ≤ s.now d / roundNs →
    exec (.timeXferPeriod d) s = .next (sendAt (s.setKeeper d (xferSent (s.keeper d) (s.now d / roundNs))) d attCtl
      (xferRequest s d (((s.keeper d).seq + 1) % 256)))) ∧
  (∀ (d : Nat) (s : State), dieExists s d = true → 3 ≤ (s.keeper d).noResp → s.fld d TIM_CFG 1 0 ≠ 1 →
    exec (.parentLost d) s = .next ((s.setKeeper d { s.keeper d with noResp := 0, holdover := true }).raise d TIM_EVENT 3))) ∧
  (∀ (d : Nat) (s t : State) (tod : Int), dieExists s d = true → actsAsRoot s d = true → (s.keeper d).tod = some tod →
    exec (.ppsEdge d) s = .next t →
    (s.mode = .train → (t.keeper d).ft = BitVec.ofNat 64 (tod.toNat / 65536) ∧ (t.keeper d).lock = true) ∧
    (s.mode = .service → (((s.keeper d).ft.toNat * 65536 : Nat) : Int) - tod ≤ 65536000 →
      -65536000 ≤ (((s.keeper d).ft.toNat * 65536 : Nat) : Int) - tod →
      (t.keeper d).ft = (s.keeper d).ft ∧ (t.keeper d).slew = (((s.keeper d).ft.toNat * 65536 : Nat) : Int) - tod))

/-- The time exchange of R223: with equal delays both ways the offset is the difference of the clocks and the delay is one way's time.
-/
def Obligations.ThetaOfSymmetricExchange : Prop :=
  ∀ t1 gap turn off : Nat, t1 + 2 * gap + turn + off < 2 ^ 42 → 
    thetaDelay (t1 + off) (t1 + gap) (t1 + gap + turn) (t1 + 2 * gap + turn + off) = ((off : Int), (gap : Int))

/-- ROUND_BOUNDARY, TIME_XFER_REQUEST, TIME_XFER_RESPONSE, PNL_DOWN_ACK, PNL_ACK_TIMEOUT, SEAM_PANEL_WRITE, NI_GOV_CAP_WRITE: where each
completes, and with what. -/
def Obligations.RoundAndPanelCommandsComplete : Prop :=
  (∀ (d : Nat) (s : State), dieExists s d = true → s.now d / roundNs ≠ (s.keeper d).round →
    ∃ t, exec (.roundBoundary d) s = .next t ∧ t = roundBoundary s d) ∧
  (∀ (d : Nat) (p : Packet) (s : State), taken s d attCtl 0x51 p = true → p.hdr.inlBits 355 352 = 0 →
    exec (.timeXferRequest d attCtl p) s =
      .next (sendAt (takeArrival s d attCtl p) d attCtl (xferResponse (takeArrival s d attCtl p) d p.hdr))) ∧
  (∀ (d : Nat) (p : Packet) (s : State), taken s d attCtl 0x51 p = true → p.hdr.inlBits 355 352 = 1 →
    exec (.timeXferResponse d attCtl p) s = .next (xferTake (takeArrival s d attCtl p) d p.hdr)) ∧
  (∀ (d panel : Nat) (s : State), isKind s d .compute = true → panel < 2 →
    exec (.pnlDownAck d panel) s = .next (s.setRegion d panel { s.region d panel with ack := (s.region d panel).down })) ∧
  (∀ (d panel : Nat) (s : State), isKind s d .compute = true → panel < 2 → (s.region d panel).ack ≠ (s.region d panel).down →
    (s.region d panel).ackLate = false → (s.region d panel).reqFt + 40 * 65536 ≤ s.fine d →
    exec (.pnlAckTimeout d panel) s =
      .next (faultRec (s.setRegion d panel { s.region d panel with ackLate := true }) d 0x10 panel 0 0)) ∧
  (∀ (d : Nat) (v : Word) (s : State), isKind s d .compute = true → exec (.seamPanelWrite d v) s = .next (panelWrite s d v)) ∧
  (∀ (d : Nat) (v : Word) (s : State), isKind s d .compute = true →
    exec (.niGovCapWrite d v) s = .next (s.setReg d NI_GOV_CAP (BitVec.ofNat 64 (min 480 (max 160 (bitsOf v 8 0))))))

/-! ## Gates, shapers, meters and samplers (R243 to R304) -/

/-- GATE_ENTRY_END, GATE_TAKEOVER, SHAPER_REFILL, METER_REFILL, QUEUE_SAMPLE, QSAMPLE_CLEAR: where each completes, and with what. -/
def Obligations.ShapingCommandsComplete : Prop :=
  (∀ (d g : Nat) (s : State), hasGate s d g = true → (s.gate d g).openAll = false → gateEnd s d g ≤ s.now d →
    (s.gate d g).startFt + (s.gate d g).period * 2560 ≤ s.now d →
    exec (.gateEntryEnd d g) s = .next (s.setGate d g { s.gate d g with
      cur := 0, curFt := (s.gate d g).startFt + (s.gate d g).period * 2560, startFt := (s.gate d g).startFt + (s.gate d g).period * 2560 })) ∧
  (∀ (d g : Nat) (s : State), hasGate s d g = true → (s.gate d g).openAll = false → gateEnd s d g ≤ s.now d →
    s.now d < (s.gate d g).startFt + (s.gate d g).period * 2560 →
    exec (.gateEntryEnd d g) s = .next (s.setGate d g { s.gate d g with cur := (s.gate d g).cur + 1, curFt := gateEnd s d g })) ∧
  (∀ (d g a : Nat) (s : State), hasGate s d g = true → (s.gate d g).armedAt = some a → (takeoverAt s d g a).1 ≤ s.now d →
    ∃ t, exec (.gateTakeover d g) s = .next t ∧ (t.gate d g).bank = 1 - (s.gate d g).bank ∧ (t.gate d g).cur = 0 ∧
      (t.gate d g).startFt = (takeoverAt s d g a).1 ∧ (t.gate d g).armedAt = none ∧ t.csr = s.csr ∧ t.mem = s.mem) ∧
  (∀ (d g v : Nat) (s : State), hasShaper s d g v = true → refillSlot (s.now d / 5) (s.fld d (shw g v SHP_SHAPE_CFG) 19 16) = true →
    (s.shp d g v).slotAt ≠ s.now d / 5 →
    (s.flag d (shw g v SHP_SHAPE_CFG) 0 = true →
      s.fld d (shw g v SHP_SHAPE_CFG) 19 16 < 10 ∧ s.fld d (shw g v SHP_SHAPE_CFG) 63 48 ≠ 0) →
    exec (.shaperRefill d g v) s = .next (s.setShp d g v (shaperRefill (s.shp d g v) (s.reg d (shw g v SHP_SHAPE_CFG)) (s.now d / 5)))) ∧
  (∀ (d g v : Nat) (s : State), hasShaper s d g v = true → refillSlot (s.now d / 5) (s.fld d (shw g v SHP_METER_RATE) 19 16) = true →
    (s.shp d g v).mslotAt ≠ s.now d / 5 →
    (s.flag d (shw g v SHP_METER_RATE) 0 = true → s.fld d (shw g v SHP_METER_RATE) 19 16 < 10) →
    exec (.meterRefill d g v) s = .next (s.setShp d g v (meterRefill (s.shp d g v) (s.reg d (shw g v SHP_METER_RATE))
      (s.reg d (shw g v SHP_METER_BURST)) (s.now d / 5)))) ∧
  (∀ (d p : Nat) (s : State), routerExists s d p = true → s.flag d (trt p TRT_QSAMPLE_CFG) 0 = true →
    (s.regionOf d p).c = 8 * s.fld d (trt p TRT_QSAMPLE_CFG) 20 12 →
    (s.now d / 2560 - s.sampleFrom.get 0 (ck d (trt p TRT_QSAMPLE_CFG))) % (s.fld d (trt p TRT_QSAMPLE_CFG) 31 24 + 1) = 0 →
    s.flag d OBS_CFG 2 = false →
    exec (.queueSample d (.router p)) s =
      .next (sampleWrite s d (trt p TRT_QSAMPLE) (sampleOf s d (.router p)).1 (sampleOf s d (.router p)).2)) ∧
  (∀ (d p : Nat) (v : Word) (s : State), routerExists s d p = true → ∃ t, exec (.qsampleClear d (.router p) v) s = .next t ∧
    t.fld d (trt p TRT_QSAMPLE) 31 16 = 0 ∧ t.fld d (trt p TRT_QSAMPLE) 63 48 = 0 ∧ t.mem = s.mem)

/-- A refill adds RATE up to DEPTH, and a shaper just enabled starts full. The three colours of a metered packet: red takes nothing,
yellow from the peak bucket, green from both. -/
def Obligations.ShapersAndMeters : Prop :=
  (∀ (x : Shp) (cfg : Word) (slot : Nat),
    (x.cfg.getLsbD 0 = true → (shaperRefill x cfg slot).tokens = min (x.tokens + bitsOf cfg 63 48) (bitsOf cfg 47 32)) ∧
    (x.cfg.getLsbD 0 = false → cfg.getLsbD 0 = true → (shaperRefill x cfg slot).tokens = bitsOf cfg 47 32)) ∧
  (∀ (x : Shp) (len : Nat),
    (x.tp < 64 * (1 + len) → meterMark x len = (3, x)) ∧
    (64 * (1 + len) ≤ x.tp → x.tc < 64 * (1 + len) → (meterMark x len).1 = 2 ∧ (meterMark x len).2.tp = x.tp - 64 * (1 + len) ∧
      (meterMark x len).2.tc = x.tc) ∧
    (64 * (1 + len) ≤ x.tp → 64 * (1 + len) ≤ x.tc → (meterMark x len).1 = 1 ∧ (meterMark x len).2.tp = x.tp - 64 * (1 + len) ∧
      (meterMark x len).2.tc = x.tc - 64 * (1 + len)))

/-- The governor's permit stays between PERMIT_MIN and 4,096, it is 4,096 when the governor is off, and the counts of the round start
from zero. -/
def Obligations.GovernorPermitBounds : Prop :=
  ∀ (model ctl : Word) (cap : Nat) (g : Gov), permitMin ctl ≤ g.permit → g.permit ≤ 4096 →
    permitMin ctl ≤ (govNext model ctl cap g).permit ∧ (govNext model ctl cap g).permit ≤ 4096 ∧
    (ctl.getLsbD 0 = false → (govNext model ctl cap g).permit = 4096) ∧ (govNext model ctl cap g).hops = 0 ∧
    (govNext model ctl cap g).seams = 0

/-! ## Reads and writes (R65 to R70, R87, R807 to R816, R837 to R839) -/

/-- WRITE, WRITE_ACK, WRITE8 and READ complete at a tile, at a memory port and at a CE's staging; what each makes of memory at a memory
port and at the staging is stated, and nothing else of memory changes there. -/
def Obligations.AccessesComplete : Prop :=
  (∀ (d p : Nat) (pk : Packet) (s : State), isTile s d p = true →
    (taken s d p 0x01 pk = true → exec (.write d p pk) s = .next (tileArrive (takeArrival s d p pk) d p pk)) ∧
    (taken s d p 0x02 pk = true → exec (.writeAck d p pk) s = .next (tileArrive (takeArrival s d p pk) d p pk)) ∧
    (taken s d p 0x03 pk = true → exec (.write8 d p pk) s = .next (tileArrive (takeArrival s d p pk) d p pk)) ∧
    (taken s d p 0x04 pk = true → exec (.read d p pk) s = .next (tileArrive (takeArrival s d p pk) d p pk))) ∧
  (∀ (d : Nat) (pk : Packet) (s : State), isKind s d .memif = true →
    (taken s d attMem 0x01 pk = true → ∃ t, exec (.write d attMem pk) s = .next t ∧
      t.mem = putPacket s.mem (dramKey d) dramBytes pk.hdr.destOff pk) ∧
    (taken s d attMem 0x02 pk = true → ∃ t, exec (.writeAck d attMem pk) s = .next t ∧
      t.mem = putPacket s.mem (dramKey d) dramBytes pk.hdr.destOff pk) ∧
    (taken s d attMem 0x03 pk = true → ∃ t, exec (.write8 d attMem pk) s = .next t ∧
      t.mem = putInline s.mem (dramKey d) dramBytes pk.hdr.destOff pk.hdr) ∧
    (taken s d attMem 0x04 pk = true → ∃ t, exec (.read d attMem pk) s = .next t ∧ t.mem = s.mem)) ∧
  (∀ (d k : Nat) (pk : Packet) (s : State), ceExists s d k = true → natBit pk.hdr.destOff 33 = true →
    (s.shp d k pk.hdr.vc.toNat).mcfg.getLsbD 0 = false → sharesBad (takeArrival s d (attCe k) pk) d = false →
    (taken s d (attCe k) 0x01 pk = true → ∃ t, exec (.write d (attCe k) pk) s = .next t ∧
      t.mem = putPacket s.mem (stageAt s d k) (stageSize s d k) (pk.hdr.destOff % 2 ^ 26) pk) ∧
    (taken s d (attCe k) 0x02 pk = true → ∃ t, exec (.writeAck d (attCe k) pk) s = .next t ∧
      t.mem = putPacket s.mem (stageAt s d k) (stageSize s d k) (pk.hdr.destOff % 2 ^ 26) pk) ∧
    (taken s d (attCe k) 0x03 pk = true → ∃ t, exec (.write8 d (attCe k) pk) s = .next t ∧
      t.mem = putInline s.mem (stageAt s d k) (stageSize s d k) (pk.hdr.destOff % 2 ^ 26) pk.hdr) ∧
    (taken s d (attCe k) 0x04 pk = true → ∃ t, exec (.read d (attCe k) pk) s = .next t ∧ t.mem = s.mem))

/-- A dense WRITE that a running tile with an empty queue takes leaves its scratchpad as the packet written whole: unit k at the aligned
address plus 64 k, under the byte mask; bytes outside stay. -/
def Obligations.TileWriteLandsInScratchpad : Prop :=
  ∀ (d p : Nat) (pk : Packet) (s t : State), isTile s d p = true → taken s d p 0x01 pk = true → pk.hdr.sparse = false →
    (s.ni d p).ej.get [] pk.hdr.vc.toNat = [] → (s.ni d p).cur.get none pk.hdr.vc.toNat = none → genHeld s d p pk.hdr = false →
    tileInReset s d = false → s.flag d (niw p NI_CFG) 0 = true → s.flag d SLC_MODE 0 = false →
    exec (.write d p pk) s = .next t →
    t.mem = putUnits s.mem (scratchKey d p) scratchBytes (pk.hdr.destOff % 2 ^ 20 / 64 * 64) (byteMask pk.hdr) pk.data

/-- The ACK that answers a request carries the requester's TAG, the status, the DEST of R82 and the responder's SRC. A response's DEST
holds the package, die, tile and engine of the request's SRC. -/
def Obligations.WriteAckAnswered : Prop :=
  (∀ (h : Hdr) (src : BitVec 32) (n : Nat), n < 256 →
    (ackFor h src n 0).hdr.tag = h.tag ∧ (ackFor h src n 0).hdr.dest = respDest h.src ∧ (ackFor h src n 0).hdr.cmd = 0x06 ∧
    (ackFor h src n 0).hdr.vc = 3 ∧ (ackFor h src n 0).hdr.inlBits 359 352 = n ∧ (ackFor h src n 0).hdr.src = src ∧
    (ackFor h src n 0).data = []) ∧
  (∀ h : Hdr, ({ h with dest := respDest h.src } : Hdr).destPkg = h.srcPkg ∧ ({ h with dest := respDest h.src } : Hdr).destDie = h.srcDie ∧
    ({ h with dest := respDest h.src } : Hdr).destX = h.srcTile % 32 ∧ ({ h with dest := respDest h.src } : Hdr).destY = h.srcTile / 32 ∧
    ({ h with dest := respDest h.src } : Hdr).destOff = h.srcEng)

/-- READ_DATA, ACK, CSR_DATA, GEN_TOKEN, POUR and TRACE complete at the engine that they select or the tile that they reach. -/
def Obligations.ResponsesAndTileMessagesComplete : Prop :=
  (∀ (d p : Nat) (pk : Packet) (s : State), isTile s d p = true → pk.hdr.destOff % 4 = 0 →
    (taken s d p 0x05 pk = true → exec (.readData d p pk) s = .next (tileArrive (takeArrival s d p pk) d p pk)) ∧
    (taken s d p 0x06 pk = true → exec (.ack d p pk) s = .next (tileArrive (takeArrival s d p pk) d p pk)) ∧
    (taken s d p 0x62 pk = true → exec (.csrData d p pk) s = .next (tileArrive (takeArrival s d p pk) d p pk))) ∧
  (∀ (d : Nat) (pk : Packet) (s : State), dieExists s d = true → pk.hdr.destOff % 4 = 2 →
    taken s d attCtl 0x62 pk = true → exec (.csrData d attCtl pk) s = .next (ringTake (takeArrival s d attCtl pk) d pk)) ∧
  (∀ (d p : Nat) (h : Hdr) (s : State), isTile s d p = true → taken s d p 0x53 { hdr := h } = true →
    exec (.genToken d p h) s = .next (tileArrive (takeArrival s d p { hdr := h }) d p { hdr := h })) ∧
  (∀ (d p : Nat) (pk : Packet) (s : State), isTile s d p = true → taken s d p 0x33 pk = true →
    exec (.pour d p pk) s = .next (tileArrive (takeArrival s d p pk) d p pk)) ∧
  (∀ (d p : Nat) (pk : Packet) (s : State), isTile s d p = true → taken s d p 0x63 pk = true →
    exec (.trace d p pk) s = .next (tileArrive (takeArrival s d p pk) d p pk))

/-- The commands of the tile port and of an NI's send engine: where each completes, and with what. -/
def Obligations.TilePortCommandsComplete : Prop :=
  (∀ (d p v : Nat) (u : DataUnit) (s : State), isTile s d p = true → v < 6 → tileInReset s d = false → isHalted s d p = false →
    queuedUnits s d p v + ((s.ni d p).part.get [] v ++ [u]).length ≤ 33 →
    exec (.tpInjectUnit d p v false u) s =
      .next (s.setNi d p { s.ni d p with part := (s.ni d p).part.set [] v ((s.ni d p).part.get [] v ++ [u]) })) ∧
  (∀ (d p v : Nat) (u : DataUnit) (s : State) (us : List DataUnit) (pk : Packet), isTile s d p = true → v < 6 →
    tileInReset s d = false → isHalted s d p = false → us = (s.ni d p).part.get [] v ++ [u] →
    queuedUnits s d p v + us.length ≤ 33 → pk = { hdr := Hdr.unpack (us.headD 0), data := us.drop 1 } → pk.hdr.vc.toNat = v →
    launchMisuse s d v = false → packetMisuse pk = none →
    exec (.tpInjectUnit d p v true u) s =
      .next (sendAt (s.setNi d p { s.ni d p with part := (s.ni d p).part.set [] v [] }) d p pk)) ∧
  (∀ (d p v : Nat) (s : State) (f : Flit) (fs : List Flit) (c : Dlv), isTile s d p = true → v < 6 → tileInReset s d = false →
    isHalted s d p = false → s.flag d (niw p NI_CFG) 0 = true → (s.ni d p).ej.get [] v = f :: fs →
    (s.ni d p).cur.get none v = some c → c.drop = false → f.last = false →
    exec (.tpDeliver d p v) s = .next (setCur (tileData (popEj s d p v) d p c.hdr c.got f.data) d p v
      (some { c with got := c.got ++ [f.data] }))) ∧
  (∀ (d p gen : Nat) (s : State), isTile s d p = true → gen < 16 →
    exec (.tpGenLoaded d p gen) s = .next (s.setNi d p { s.ni d p with gen := gen })) ∧
  (∀ (d p tag : Nat) (s : State), isTile s d p = true → tag < 32 → tileInReset s d = false →
    exec (.tpReadData d p tag) s = .next (tpReadData s d p tag)) ∧
  (∀ (d p addr be : Nat) (u : DataUnit) (s : State) (w : Word), isTile s d p = true → isHalted s d p = false → tileInReset s d = false →
    be % 2 ^ 64 ≠ 0 → twinOf s d p = some w → inTwin w (addr % 2 ^ 17 * 8 / 64 * 64) = true →
    exec (.twinNotice d p addr be u) s =
      .next (twinSend s d p w (addr % 2 ^ 17 * 8 / 64 * 64) 0x01 (BitVec.ofNat 128 (be % 2 ^ 64)) [u])) ∧
  (∀ (d att v : Nat) (s : State), attExists s d att = true → v < 6 → exec (.niInject d att v) s = .next (niInject s d att v)) ∧
  (∀ (d att : Nat) (s : State), attExists s d att = true → ∃ t, exec (.orderedDrainEnd d att) s = .next t ∧
    t.orderHold.get [] (d * 4096 + att) = (s.orderHold.get [] (d * 4096 + att)).filter
      (fun x => (s.region d (attPanel s d att)).cycles < x.2) ∧ t.mem = s.mem ∧ t.csr = s.csr) ∧
  (∀ (d p : Nat) (s : State) (o : Order) (os : List Order), isTile s d p = true → (s.ni d p).orders = o :: os → o.clear = true →
    o.busy = false → o.start ≤ s.now d → tileInReset s d = false → attHalted s d p = false →
    exec (.orderClear d p) s = .next ({ s with mem := tileClear s.mem d p o.off o.units }.setNi d p
      (takeOrders { s.ni d p with orders := os, reports := (s.ni d p).reports ++ [orderReport o p 1] }))) ∧
  (∀ (d p : Nat) (s : State) (o : Order) (os : List Order), isTile s d p = true → (s.ni d p).orders = o :: os → o.clear = false →
    o.busy = false → o.start ≤ s.now d → tileInReset s d = false → attHalted s d p = false →
    ∃ t, exec (.orderSend d p) s = .next t ∧ t = sendOrder (orderPackets s d p o).2 d p o os (orderPackets s d p o).1 ∧
      t.mem = s.mem ∧ t.csr = s.csr ∧
      ((orderPackets s d p o).1 ≠ [] → (t.ni d p).orders = { o with busy := true } :: os ∧ (t.ni d p).reports = (s.ni d p).reports)) ∧
  (∀ (d p g tag : Nat) (s : State) (cs : List (Nat × Nat)), isTile s d p = true → (s.ni d p).cancels = (g, tag) :: cs →
    ∃ t, exec (.orderCancel d p) s = .next t ∧ (t.ni d p).cancels = cs ∧
      (t.ni d p).orders ++ (t.ni d p).bus = ((s.ni d p).orders ++ (s.ni d p).bus).filter (fun o => !(o.group == g && o.tag == tag)) ∧
      t.mem = s.mem ∧ t.csr = s.csr) ∧
  (∀ (d p : Nat) (s : State) (r : Report) (rs : List Report), isTile s d p = true → (s.ni d p).reports = r :: rs →
    exec (.orderReport d p) s = .next (reportArrive (s.setNi d p { s.ni d p with reports := rs }) d r.ce r))

/-- The commands of a memory port: where each completes, and with what. A timeout leaves the tag in use until the late response, which
is then dropped; a response in time gives its unit to the packet it belongs to, or fails it (R815, R816). In a global stop the port
holds a response (R701). -/
def Obligations.MemoryPortCommandsComplete : Prop :=
  (∀ (d tag : Nat) (err : Bool) (s : State) (r : MpReq), isKind s d .memif = true → attHalted s d attMem = false →
    (s.mp d).reqs.find? (fun r => r.tag == tag) = some r → r.dead = true →
    exec (.mpResponse d tag err) s =
      .next (mpPump (s.setMp d { s.mp d with reqs := (s.mp d).reqs.filter (fun q => q.tag != tag) }) d)) ∧
  (∀ (d tag : Nat) (s s1 : State) (r : MpReq), isKind s d .memif = true → attHalted s d attMem = false →
    (s.mp d).reqs.find? (fun r => r.tag == tag) = some r → r.dead = false →
    s1 = s.setMp d { s.mp d with reqs := (s.mp d).reqs.filter (fun q => q.tag != tag) } →
    exec (.mpResponse d tag true) s = .next (mpPump (mpSettle (mpFail s1 d r) d r.job) d) ∧
    (r.write = true → exec (.mpResponse d tag false) s = .next (mpPump (mpSettle s1 d r.job) d)) ∧
    (r.write = false → exec (.mpResponse d tag false) s = .next (mpPump (mpSettle (s1.setMp d { s1.mp d with
      jobs := (s1.mp d).jobs.map (fun (j : MpJob) =>
        if j.id == r.job then { j with got := j.got ++ [(r.idx, readUnit s1.mem (dramKey d r.off))] } else j) }) d r.job) d))) ∧
  (∀ (d tag : Nat) (s : State) (r : MpReq), isKind s d .memif = true → attHalted s d attMem = false →
    (s.mp d).reqs.find? (fun r => r.tag == tag) = some r → r.dead = false → r.issued + 10000 ≤ s.now d →
    exec (.mpTimeout d tag) s = .next (mpSettle (mpFail (s.setMp d { s.mp d with reqs :=
      ((s.mp d).reqs.map (fun q => if q.tag == tag then { q with dead := true } else q)) }) d r) d r.job)) ∧
  (∀ (d : Nat) (s : State), isKind s d .memif = true →
    exec (.mpTrainDone d) s = .next { s with mpTrained := s.mpTrained.set false d true }) ∧
  (∀ (d tag : Nat) (err : Bool) (s : State), isKind s d .memif = true → attHalted s d attMem = true →
    exec (.mpResponse d tag err) s = .next (s.setMp d { s.mp d with held := (s.mp d).held ++ [(tag, err)] }))

/-! ## Synchronisation objects (R443 to R470) -/

/-- Every SYNC_OP that the store takes is performed on the object that it names. -/
def Obligations.SyncOpsComplete : Prop :=
  ∀ (d : Nat) (h : Hdr) (s : State),
    (taken s d attSync 0x10 { hdr := h } = true →
      exec (.syncRead d h) s = .next (syncOp (statUpdate (takeArrival s d attSync { hdr := h }) d
        (partState (takeArrival s d attSync { hdr := h }) d) h) d 0x10 h)) ∧
    (taken s d attSync 0x11 { hdr := h } = true →
      exec (.syncInit d h) s = .next (syncOp (statUpdate (takeArrival s d attSync { hdr := h }) d
        (partState (takeArrival s d attSync { hdr := h }) d) h) d 0x11 h)) ∧
    (taken s d attSync 0x12 { hdr := h } = true →
      exec (.syncAdd d h) s = .next (syncOp (statUpdate (takeArrival s d attSync { hdr := h }) d
        (partState (takeArrival s d attSync { hdr := h }) d) h) d 0x12 h)) ∧
    (taken s d attSync 0x13 { hdr := h } = true →
      exec (.syncArrive d h) s = .next (syncOp (statUpdate (takeArrival s d attSync { hdr := h }) d
        (partState (takeArrival s d attSync { hdr := h }) d) h) d 0x13 h)) ∧
    (taken s d attSync 0x14 { hdr := h } = true →
      exec (.syncTake d h) s = .next (syncOp (statUpdate (takeArrival s d attSync { hdr := h }) d
        (partState (takeArrival s d attSync { hdr := h }) d) h) d 0x14 h)) ∧
    (taken s d attSync 0x15 { hdr := h } = true →
      exec (.syncAcquire d h) s = .next (syncOp (statUpdate (takeArrival s d attSync { hdr := h }) d
        (partState (takeArrival s d attSync { hdr := h }) d) h) d 0x15 h)) ∧
    (taken s d attSync 0x16 { hdr := h } = true →
      exec (.syncUnlock d h) s = .next (syncOp (statUpdate (takeArrival s d attSync { hdr := h }) d
        (partState (takeArrival s d attSync { hdr := h }) d) h) d 0x16 h)) ∧
    (taken s d attSync 0x17 { hdr := h } = true →
      exec (.syncSet d h) s = .next (syncOp (statUpdate (takeArrival s d attSync { hdr := h }) d
        (partState (takeArrival s d attSync { hdr := h }) d) h) d 0x17 h)) ∧
    (taken s d attSync 0x18 { hdr := h } = true →
      exec (.syncSetMax d h) s = .next (syncOp (statUpdate (takeArrival s d attSync { hdr := h }) d
        (partState (takeArrival s d attSync { hdr := h }) d) h) d 0x18 h)) ∧
    (taken s d attSync 0x19 { hdr := h } = true →
      exec (.syncWait d h) s = .next (syncOp (statUpdate (takeArrival s d attSync { hdr := h }) d
        (partState (takeArrival s d attSync { hdr := h }) d) h) d 0x19 h)) ∧
    (taken s d attSync 0x1A { hdr := h } = true →
      exec (.syncCancel d h) s = .next (syncOp (statUpdate (takeArrival s d attSync { hdr := h }) d
        (partState (takeArrival s d attSync { hdr := h }) d) h) d 0x1A h))

/-- A sync operation writes no object but the one it acts on, no memory, and no object of another store. -/
def Obligations.SyncOpFrame : Prop :=
  ∀ (s : State) (d cmd : Nat) (h : Hdr), (syncOp s d cmd h).mem = s.mem ∧ (syncOp s d cmd h).pending = s.pending ∧
    ∀ x y, ok x y ≠ ok d (syncTarget s d h) → (syncOp s d cmd h).sobj x y = s.sobj x y

/-- ADD on a counter adds ARG0 modulo 2^32, and at the target with AUTO the target is subtracted and, on a paired half, EPOCH moves on
by 2. TAKE of a semaphore takes the units where they are there and answers BUSY otherwise, and ADD stops at MAX. -/
def Obligations.CountersAndSemaphores : Prop :=
  (∀ (x : BitVec 128) (n : Nat), objType x = 1 →
    (objHigh x = 0 → objLow (syncAdd false x n).obj = (objLow x + n) % 2 ^ 32 ∧ (syncAdd false x n).released = false) ∧
    (objHigh x ≠ 0 → (objLow x + n) % 2 ^ 32 < objHigh x → objLow (syncAdd false x n).obj = (objLow x + n) % 2 ^ 32 ∧
      (syncAdd false x n).released = false) ∧
    (objHigh x ≠ 0 → objHigh x ≤ (objLow x + n) % 2 ^ 32 → objAuto x = true →
      objLow (syncAdd false x n).obj = (objLow x + n) % 2 ^ 32 - objHigh x ∧ (syncAdd false x n).released = true ∧
      (objPaired x = true → objEpoch (syncAdd false x n).obj = (objEpoch x + 2) % 256))) ∧
  (∀ (x : BitVec 128) (n : Nat), objType x = 2 →
    (n ≤ objLow x → objLow (syncTake x n).obj = objLow x - n ∧ (syncTake x n).result = 0) ∧
    (objLow x < n → (syncTake x n).obj = x ∧ (syncTake x n).result = 1) ∧
    (objHigh x ≠ 0 → objLow (syncAdd false x n).obj = min (objLow x + n) (objHigh x)) ∧
    (objHigh x = 0 → objLow (syncAdd false x n).obj = min (objLow x + n) (2 ^ 32 - 1)))

/-- A lock: acquiring a free one takes it for the sender with the time, a held one answers BUSY; only the owner unlocks it, and a lock
taken from its owner is free and broken, which the next acquirer is told once. -/
def Obligations.LockStates : Prop :=
  ∀ (x : BitVec 128) (src : BitVec 32) (t hold : Nat),
    (lockHeld x = false → lockHeld (syncAcquire x src t hold).obj = true ∧ lockBroken (syncAcquire x src t hold).obj = false ∧
      objLow (syncAcquire x src t hold).obj = src.toNat ∧ (syncAcquire x src t hold).result = if lockBroken x then 2 else 0) ∧
    (lockHeld x = true → (syncAcquire x src t hold).obj = x ∧ (syncAcquire x src t hold).result = 1) ∧
    (lockHeld x = true → objLow x = src.toNat → lockHeld (syncUnlock x src).obj = false ∧ (syncUnlock x src).result = 0) ∧
    (lockHeld x = false ∨ objLow x ≠ src.toNat → (syncUnlock x src).obj = x ∧ (syncUnlock x src).result = 3) ∧
    lockHeld (freeLock x true) = false ∧ lockBroken (freeLock x true) = true

/-- LOCK_CEILING_EXAMINE, SYN_BREAK, SYN_BREAK_EXAMINE, SYN_OBJ_LO_WRITE: where each completes, and with what. -/
def Obligations.SyncRegisterCommandsComplete : Prop :=
  (∀ (d : Nat) (s : State), isKind s d .compute = true → attHalted s d attSync = false →
    exec (.lockCeilingExamine d) s = .next ((lockObjects s d).foldl (fun s o => ceilingExamine s d o) s)) ∧
  (∀ (d : Nat) (v : Word) (s : State), isKind s d .compute = true → ∃ t, exec (.synBreak d v) s = .next t ∧
    t.syncBreak.get [] d = s.syncBreak.get [] d ++ [(bitsOf v 12 0, bitsOf v 19 13, 0)] ∧ t.mem = s.mem ∧ t.csr = s.csr) ∧
  (∀ (d pkg die next o : Nat) (rest : List (Nat × Nat × Nat)) (s : State), isKind s d .compute = true → attHalted s d attSync = false →
    s.syncBreak.get [] d = (pkg, die, next) :: rest → (lockObjects s d).find? (fun o => next ≤ o) = some o →
    ∃ t, exec (.synBreakExamine d) s = .next t ∧ t.syncBreak.get [] d = (pkg, die, o + 1) :: rest ∧ t.mem = s.mem ∧
      (ownedBy (s.sobj d o) pkg die = true → lockHeld (t.sobj d o) = false ∧ lockBroken (t.sobj d o) = true)) ∧
  (∀ (d o : Nat) (v : Word) (s : State), isKind s d .compute = true → o < 16384 →
    exec (.synObjLoWrite d o v) s = .next (objLoWrite s d o v))

/-! ## Cold reset, routers, seams and registers (R23 to R32, R62, R135 to R171, R829) -/

/-- COLD_RESET returns every slice to COLD with empty tables, and leaves memory, the queue and the die table as the model keeps them
(log 140). -/
def Obligations.ColdResetRestores : Prop :=
  ∀ (d : Nat) (s : State), dieExists s d = true →
    ∃ t, exec (.coldReset d) s = .next t ∧ t.mode = .cold ∧ t.slotTab = {} ∧ t.treeTab = {} ∧ t.joinTab = {} ∧ t.routeTab = {} ∧
      t.routeStore = {} ∧ t.arrivalTab = {} ∧ t.gateTab = {} ∧ t.syncObj = {} ∧ t.routers = {} ∧ t.nis = {} ∧ t.ces = {} ∧ t.wins = {} ∧
      t.pending = s.pending ∧ t.mem = s.mem ∧ t.floor = s.physical

/-- RESERVED_SLOT_START, OUTPUT_ARBITRATION, ROUTER_HEADER_ARRIVAL, LINK_UNIT_ARRIVAL, CONTEXT_CEILING: where each completes, and with
what. A unit that arrives with a credit gives its output one more, eight at most (R140). -/
def Obligations.RouterCommandsComplete : Prop :=
  ((∀ (d p o : Nat) (s : State) (q : Req), routerExists s d p = true → o < 6 → routerRuns s d p = true → (s.keeper d).roundsOn = true →
    (s.regionOf d p).c % 8 = 0 → slotReserved s d p o (curEntry (s.regionOf d p)) = true → panelWaits (s.regionOf d p) = false →
    ((s.router d p).out o).released ≠ curEntry (s.regionOf d p) → (s.router d p).held.get none o = none →
    slotUnit s d p o (slotInPort s d p o (curEntry (s.regionOf d p))) = some q →
    hemmedFor s d p o q.hdr = true ∨ hasCredit s d p o 0 = true →
    exec (.reservedSlotStart d p o) s =
      .next (grantSlot (takeSlot s d p o (curEntry (s.regionOf d p))) d p o q)) ∧
  (∀ (d p o : Nat) (s s1 : State) (q : Req) (df : List Nat), routerExists s d p = true → o < 6 → routerRuns s d p = true →
    s1 = cycleStart s d p → (s1.router d p).held.get none o = none → 512 ≤ ((s1.router d p).out o).lateEntry →
    grantOf s1 d p o 37 (reqsAt s1 d p o) = some (q, df) →
    exec (.outputArbitration d p o) s = .next (doGrant s1 d p o q df)) ∧
  (∀ (d p i : Nat) (s : State) (f g : Flit) (h : Hdr) (o : Nat) (os : List Nat), routerExists s d p = true → i < 6 →
    ((s.router d p).link i).latch = some f → f.hdr = some h → outsOf s d p i h f = some (o :: os, g) →
    exec (.routerHeaderArrival d p i) s = .next (headerArrive s d p i f h)) ∧
  (∀ (d p i : Nat) (s : State) (f g : Flit) (h : Hdr), routerExists s d p = true → i < 6 →
    ((s.router d p).link i).latch = some f → f.hdr = some h → outsOf s d p i h f = some ([], g) →
    exec (.routerHeaderArrival d p i) s = .next (endHere s d p i f h)) ∧
  (∀ (d p i : Nat) (u : LinkUnit) (s : State), routerExists s d p = true → i < 6 → u.vc < 6 → u.type = 1 → u.err = .clean →
    u.credit = none → isHalted s d p = false → inputFenced s d p i = false → joinedSource s d p i = none → feederOf s d p i = none →
    linkOf s d p i = .none → ((s.router d p).link i).busy = false →
    exec (.linkUnitArrival d p i u) s = .next (setLink s d p i
      { busy := (Hdr.unpack u.unit).len != 0, vc := u.vc, left := (Hdr.unpack u.unit).len.toNat, tag := (Hdr.unpack u.unit).tag.toNat,
        via := none, latch := some (flitOf u (some (Hdr.unpack u.unit)) ((Hdr.unpack u.unit).len == 0)) })) ∧
  (∀ (d p c : Nat) (s : State) (x : Ctx), isKind s d .compute = true → p < 624 → c < 4 → ctxAt (s.router d p) c = some x →
    isHalted s d p = false → x.cut = false → x.claimAt + ceilingOf s d p ≤ (s.regionOf d p).cycles →
    exec (.contextCeiling d p c) s = .next (reduceRun (ceilingReached s d p c x) d p))) ∧
  (∀ (s : State) (d p i v : Nat), i < 6 → v < 6 → feederOf s d p i = none →
    ((takeCredit s d p i (some v)).router d p).cred i v = min 8 ((s.router d p).cred i v + 1) ∧
    (takeCredit s d p i (some v)).mem = s.mem ∧ (takeCredit s d p i (some v)).csr = s.csr ∧ takeCredit s d p i none = s)

/-- SEAM_FRAME, UCIE_STATE_CHANGE, SEAM_RECALIBRATION: where each completes, and with what. A frame whose check fails is discarded,
counted and answered by NAK. -/
def Obligations.SeamCommandsComplete : Prop :=
  (∀ (d i : Nat) (f : SeamRx) (s s1 : State), hasSeam s d i = true → f.body.vc < 6 → f.credVc < 6 → f.credN < 8 → f.seq < 256 →
    f.ack < 256 → s1 = takeSeamWire s d i → seamLive s1 d i (s1.seam d i) = true → f.fcrcOk = false →
    exec (.seamFrame d i f) s = .next (seamRun (s1.bump d (smw i SEAM_CRC_ERR) 31 0 1) d i
      { s1.seam d i with discarding := true, nak := true })) ∧
  (∀ (d i : Nat) (f : SeamRx) (s s1 : State), hasSeam s d i = true → f.body.vc < 6 → f.credVc < 6 → f.credN < 8 → f.seq < 256 →
    f.ack < 256 → s1 = takeSeamWire s d i → seamLive s1 d i (s1.seam d i) = true → f.fcrcOk = true → f.body.type ≠ 0 →
    f.seq ≠ (s1.seam d i).rxSeq →
    exec (.seamFrame d i f) s = .next (seamRun s1 d i { s1.seam d i with
      discarding := true, nak := (s1.seam d i).nak || !(s1.seam d i).discarding })) ∧
  (∀ (d i : Nat) (f : SeamRx) (s s1 : State) (x : Seam), hasSeam s d i = true → f.body.vc < 6 → f.credVc < 6 → f.credN < 8 →
    f.seq < 256 → f.ack < 256 → s1 = takeSeamWire s d i → seamLive s1 d i (s1.seam d i) = true → f.fcrcOk = true →
    f.body.type = 0 ∨ f.seq = (s1.seam d i).rxSeq → f.nak = true → x = takeFrame s1 d i (s1.seam d i) f → x.replay ≠ [] →
    (∀ fr ∈ x.replay, fr.tries < 15) →
    exec (.seamFrame d i f) s = .next ((seamRun s1 d i (replayFrames x)).bump d (smw i SEAM_REPLAY) 31 0 1)) ∧
  (∀ (d i : Nat) (f : SeamRx) (s s1 : State), hasSeam s d i = true → f.body.vc < 6 → f.credVc < 6 → f.credN < 8 → f.seq < 256 →
    f.ack < 256 → s1 = takeSeamWire s d i → seamLive s1 d i (s1.seam d i) = true → f.fcrcOk = true → f.nak = false →
    f.body.type = 0 → (s1.seam d i).replay = [] →
    exec (.seamFrame d i f) s = .next (seamRun s1 d i { s1.seam d i with
      farCred := setAt (s1.seam d i).farCred f.credVc (min 24 ((s1.seam d i).farCred.getD f.credVc 0 + f.credN)) })) ∧
  (∀ (d i : Nat) (f : SeamRx) (s s1 : State), hasSeam s d i = true → f.body.vc < 6 → f.credVc < 6 → f.credN < 8 → f.seq < 256 →
    f.ack < 256 → s1 = takeSeamWire s d i → seamLive s1 d i (s1.seam d i) = true → f.fcrcOk = true → f.nak = false →
    f.body.type ≠ 0 → (s1.seam d i).replay = [] → f.seq = (s1.seam d i).rxSeq → seamHem s1 d i = false →
    exec (.seamFrame d i f) s = .next (seamRun s1 d i { s1.seam d i with
      farCred := setAt (s1.seam d i).farCred f.credVc (min 24 ((s1.seam d i).farCred.getD f.credVc 0 + f.credN)),
      rxSeq := (f.seq + 1) % 256, discarding := false, nak := false, ackDue := true,
      rx := (s1.seam d i).rx ++ [seamFlit f.body] })) ∧
  (∀ (d i extra : Nat) (s : State), hasSeam s d i = true → (seamPeer s d i).isSome = true → s.flag d (smw i SEAM_CFG) 1 = false →
    s.flag d (smw i SEAM_CFG) 0 = true →
    exec (.ucieStateChange d i true true extra) s =
      .next (s.setSeam d i { ({} : Seam) with link := 2, latency := (6 + extra) % 256, txWait := (s.seam d i).txWait })) ∧
  (∀ (d i extra : Nat) (full : Bool) (s : State), hasSeam s d i = true → (seamPeer s d i).isSome = true →
    s.flag d (smw i SEAM_CFG) 1 = false → s.flag d (smw i SEAM_CFG) 0 = true → (s.seam d i).link ≠ 4 →
    exec (.ucieStateChange d i false full extra) s = .next (seamFail s d i)) ∧
  (∀ (d i temp : Nat) (s : State), hasSeam s d i = true → (s.seam d i).link = 2 →
    s.fld d HLT_CAL_CFG 7 0 < (temp - (s.seam d i).calTemp) + ((s.seam d i).calTemp - temp) →
    exec (.seamRecalibration d i temp) s = .next (s.setSeam d i { s.seam d i with calTemp := temp }))

/-- CSR_READ, CSR_WRITE and CSR_REGISTER_WRITE: the answer to a read, and a write to a register that does nothing but hold its fields,
and a write that is narrow or misaligned, whose value is unpredictable (R24, log 22). -/
def Obligations.RegisterCommandsComplete : Prop :=
  (∀ (d : Nat) (p : Packet) (s : State), taken s d attCtl 0x60 p = true →
    exec (.csrRead d attCtl p) s = .next (sendAt (csrRead (takeArrival s d attCtl p) d (p.hdr.destOff % 2 ^ 24)).2 d attCtl
      (csrAnswer (csrRead (takeArrival s d attCtl p) d (p.hdr.destOff % 2 ^ 24)).2 d p.hdr
        (csrRead (takeArrival s d attCtl p) d (p.hdr.destOff % 2 ^ 24)).1))) ∧
  (∀ (d off : Nat) (p : Packet) (s s1 : State) (v : Word), taken s d attCtl 0x61 p = true → s1 = takeArrival s d attCtl p →
    off = p.hdr.destOff % 2 ^ 24 → v = BitVec.ofNat 64 (p.hdr.inlBits 415 352) → dieExists s1 d = true → off % 8 = 0 →
    off ≠ TLR_RCSR_CTL → (descOf s1 d off).isSome = true → synOffset off = none → hemReg off = false → permitOff off = false →
    actFabric s1 d off v = none → actHealth s1 d off v = none → actTailor s1 d off v p.hdr.src = none →
    exec (.csrWrite d attCtl p) s = .next (csrStore s1 d off v s1.mode.plOpen)) ∧
  (∀ (d off : Nat) (host : Bool) (s : State) (v : Word), dieExists s d = true → (host = true → isKind s d .service = true) →
    off % 8 = 0 → off ≠ TLR_RCSR_CTL → (descOf s d off).isSome = true → synOffset off = none → hemReg off = false →
    permitOff off = false → actFabric s d off v = none → actHealth s d off v = none → actTailor s d off v (if host then portSrc s d else ctlSrc s d) = none →
    exec (.csrRegisterWrite d off ⟨host, false⟩ v) s = .next (csrStore s d off v s.mode.plOpen)) ∧
  (∀ (d off : Nat) (host narrow : Bool) (s : State) (v : Word), dieExists s d = true → (host = true → isKind s d .service = true) →
    narrow = true ∨ off % 8 ≠ 0 → exec (.csrRegisterWrite d off ⟨host, narrow⟩ v) s = .next (scramble s d off))

/-- What a write leaves in each bit of a register: an RW bit takes the value, a PL bit takes it only where PL fields are open, a W1C bit
is cleared by a 1 unless hardware set it in the same cycle, and every other bit stays. A counter that software has written in the same
cycle keeps what was written (R30, R31; the cycle is the one of log 173). -/
def Obligations.StoredBits : Prop :=
  (∀ (s : State) (d off hi lo n : Nat), s.wrote d off hi lo = true → s.bump d off hi lo n = s ∧ s.bumpSat d off hi lo n = s) ∧
  (∀ (r : RegDesc) (old v set : Word) (pl : Bool) (b : Nat), b < 64 →
    (natBit r.rw b = true → (storeBits r old v set pl).getLsbD b = v.getLsbD b) ∧
    (natBit r.rw b = false → natBit r.pl b = true → pl = true → (storeBits r old v set pl).getLsbD b = v.getLsbD b) ∧
    (natBit r.rw b = false → natBit r.pl b = true → natBit r.w1c b = false → pl = false →
      (storeBits r old v set pl).getLsbD b = old.getLsbD b) ∧
    (natBit r.rw b = false → natBit r.pl b = false → natBit r.w1c b = true →
      (storeBits r old v set pl).getLsbD b = (old.getLsbD b && !(v.getLsbD b && !set.getLsbD b))) ∧
    (natBit r.rw b = false → natBit r.pl b = false → natBit r.w1c b = false →
      (storeBits r old v set pl).getLsbD b = old.getLsbD b))

/-! ## Collectives and group queues (R329, R386 to R441) -/

/-- COLL_DATA, A2A_DATA, A2A_COUNT and the seven RED commands complete at a tile and at a CE. -/
def Obligations.CollectiveDataComplete : Prop :=
  ∀ (s : State) (d : Nat) (pk : Packet) (res : Bool), ∀ x ∈ ([(0x30, false, fun (a : Nat) => Instr.collData d a pk),
      (0x31, false, fun a => .a2aData d a pk), (0x32, false, fun a => .a2aCount d a pk), (0x40, res, fun a => .redSum d a pk res),
      (0x41, res, fun a => .redMax d a pk res), (0x42, res, fun a => .redMin d a pk res), (0x43, res, fun a => .redProd d a pk res),
      (0x44, res, fun a => .redAnd d a pk res), (0x45, res, fun a => .redOr d a pk res), (0x46, res, fun a => .redXor d a pk res)] :
      List (Nat × Bool × (Nat → Instr))),
    (∀ p, isTile s d p = true → taken s d p x.1 pk = true →
      exec (x.2.2 p) s = .next (tileArrive (takeArrival s d p pk) d p pk)) ∧
    (∀ k, ceExists s d k = true → natBit pk.hdr.destOff 33 = true → taken s d (attCe k) x.1 pk = true →
      exec (x.2.2 (attCe k)) s = .next (ceData (takeArrival s d (attCe k) pk) d k pk x.2.1))

/-- DESCRIPTOR_FETCH, DESCRIPTOR_FETCH_RETRY and the start of each of the nine operations: where each completes, and with what. In a
halted group, and for an operation aborted before it starts, the front descriptor completes without starting (R424, R425). -/
def Obligations.QueueCommandsComplete : Prop :=
  (∀ (d k e : Nat) (s : State), ceExists s d k = true → e < 64 → ceEnabled s d k = true → (s.grp d k e).valid = true →
    (s.ent d k e).halted = false → (s.ent d k e).fetch = none → (s.ent d k e).retryAt = none → 0 < tailGap (s.ent d k e) →
    exec (.descriptorFetch d k e) s = .next (fetchNow s d k e)) ∧
  (∀ (d k e t : Nat) (s : State), ceExists s d k = true → e < 64 → (s.ent d k e).retryAt = some t → t ≤ s.now d →
    ceEnabled s d k = true → (s.grp d k e).valid = true → (s.ent d k e).halted = false → 0 < tailGap (s.ent d k e) → exec (.descriptorFetchRetry d k e) s = .next (fetchNow s d k e)) ∧
  (∀ (d k e tag : Nat) (s : State) (x : BitVec 512) (qs : List (Nat × BitVec 512)) (o : CeOp), ceExists s d k = true → e < 64 →
    (s.ent d k e).queue = (tag, x) :: qs → mayStart s d k e x = true →
    o = { tag := tag, desc := x, cfg := s.reg d (cew k CE_CFG), startFt := 0, progressFt := 0 } →
    ∀ c ∈ ([(0, .nop d k e), (1, .allReduce d k e), (2, .reduce d k e), (3, .reduceScatter d k e), (4, .allGather d k e),
        (5, .broadcast d k e), (6, .allToAll d k e), (7, .allToAllV d k e), (8, .barrier d k e)] : List (Nat × Instr)),
      dOp x = c.1 →
      ((s.ent d k e).future.find? (fun f => f.1 == tag) = none → (s.ent d k e).halted = false →
        startMisuse s ⟨d, k, e, tag⟩ o = none → startFits s ⟨d, k, e, tag⟩ o = true → exec c.2 s = .next (startOp s d k e tag x)) ∧
      ((s.ent d k e).future.find? (fun f => f.1 == tag) = none → (s.ent d k e).halted = true →
        exec c.2 s = .next (skipFront s d k e tag x 6 false)) ∧
      (∀ f, (s.ent d k e).future.find? (fun f => f.1 == tag) = some f →
        exec c.2 s = .next (skipFront s d k e tag x f.2.2 true)))

/-- CHUNK_START, STAGING_WAIT_END, CHUNK_TIMEOUT, CHUNK_RESEND, CE_HANG, OPERATION_END: where each completes, and with what. CHUNK_NACK,
ABORT and SYNC_RELEASE complete at a CE whose meter passes them. -/
def Obligations.OperationCommandsComplete : Prop :=
  ((∀ (d k e tag : Nat) (s : State) (o : CeOp), ceExists s d k = true → ceEnabled s d k = true → s.op ⟨d, k, e, tag⟩ = some o →
    o.next < nChunks (s.grp d k e) o.desc →
    exec (.chunkStart d k e tag) s = .next (settleOp (checkResidue (startChunk s ⟨d, k, e, tag⟩) ⟨d, k, e, tag⟩) ⟨d, k, e, tag⟩)) ∧
  (∀ (d k : Nat) (s : State), ceExists s d k = true → (s.ce d k).stall ≠ [] →
    exec (.stagingWaitEnd d k) s = .next (drainStall (s.ce d k).stall.length s d k)) ∧
  (∀ (d p n k e : Nat) (s : State) (x : Xfer), isTile s d p = true → (s.ni d p).rx[n]? = some x →
    homeCeOf s d x.key.group p = some (k, e) → x.firstFt + (s.grp d k e).tmo ≤ s.now d →
    ∃ t, exec (.chunkTimeout d p n) s = .next t ∧ (t.ni d p).rx = (s.ni d p).rx.eraseIdx n ∧
      (t.ni d p).reports.length = (s.ni d p).reports.length + 1 ∧ t.mem = s.mem ∧ t.csr = s.csr) ∧
  (∀ (d k n : Nat) (s : State) (i : OpId) (x : Xfer), ceExists s d k = true → (ceTransfers s d k)[n]? = some (i, x) →
    x.firstFt + (s.grpOp i).tmo ≤ s.now d → exec (.chunkTimeout d (attCe k) n) s = .next (ceTimeout s d k n)) ∧
  (∀ (d k e tag : Nat) (s : State) (o : CeOp), ceExists s d k = true → s.op ⟨d, k, e, tag⟩ = some o →
    exec (.chunkResend d k e tag) s = .next (chunkResend s ⟨d, k, e, tag⟩)) ∧
  (∀ (d k e tag : Nat) (s : State) (o : CeOp), ceExists s d k = true → s.op ⟨d, k, e, tag⟩ = some o →
    o.progressFt + (s.grp d k e).hang ≤ s.now d → exec (.ceHang d k e tag) s = .next (originate s ⟨d, k, e, tag⟩ 3)) ∧
  (∀ (d k e tag : Nat) (s : State) (o : CeOp), ceExists s d k = true → s.op ⟨d, k, e, tag⟩ = some o →
    opDone s ⟨d, k, e, tag⟩ o = true → exec (.operationEnd d k e tag) s = .next (endOp s ⟨d, k, e, tag⟩))) ∧
  (∀ (s t : State) (d k : Nat) (h : Hdr), ceExists s d k = true → ceIngress (takeArrival s d (attCe k) { hdr := h }) d k h = some t →
    (taken s d (attCe k) 0x34 { hdr := h } = true → exec (.chunkNack d k h) s = .next (nackArrive t d k h)) ∧
    (taken s d (attCe k) 0x35 { hdr := h } = true → exec (.abort d k h) s = .next (abortArrive t d k h)) ∧
    (taken s d (attCe k) 0x1E { hdr := h } = true → exec (.syncRelease d k h) s = .next (releaseArrive t d k h)))

/-- CE_GROUP_CTL_SKIP, CE_GROUP_CTL_RESUME and CE_GT_DATA_WRITE: where each completes, and with what; SKIP brings HEAD to the tail. A
write to a valid entry of the group table that is at work is a misuse that stops the model (R386). -/
def Obligations.GroupControlComplete : Prop :=
  ((∀ (d k e : Nat) (s : State), ceExists s d k = true → e < 64 → (s.ent d k e).queue = [] →
    exec (.ceGroupCtlSkip d k e) s = .next (s.setEnt d k e { s.ent d k e with
      head := (s.ent d k e).head + tailGap (s.ent d k e), fetch := none, retryAt := none })) ∧
  (∀ (d k e : Nat) (s : State), ceExists s d k = true → e < 64 → ∃ t, exec (.ceGroupCtlResume d k e) s = .next t ∧
    (t.ent d k e).halted = false ∧ t.mem = s.mem ∧ t.csr = s.csr) ∧
  (∀ (d k : Nat) (v : Word) (s : State), ceExists s d k = true → s.fld d (cew k CE_GT_ADDR) 2 0 = 7 →
    exec (.ceGtDataWrite d k v) s = .next s) ∧
  (∀ (d k e w : Nat) (v : Word) (s s1 : State), ceExists s d k = true → s.fld d (cew k CE_GT_ADDR) 8 3 = e →
    s.fld d (cew k CE_GT_ADDR) 2 0 = w → w ≠ 7 → (s.grp d k e).valid = false →
    s1 = s.setCe d k { s.ce d k with gt := (s.ce d k).gt.set 0 (e * 8 + w) v } → (s1.grp d k e).valid = false →
    exec (.ceGtDataWrite d k v) s = .next s1)) ∧
  (∀ (d k e : Nat) (v : Word) (s : State), ceExists s d k = true → s.fld d (cew k CE_GT_ADDR) 8 3 = e →
    s.fld d (cew k CE_GT_ADDR) 2 0 ≠ 7 → (s.grp d k e).valid = true → entryBusy (s.ent d k e) = true →
    exec (.ceGtDataWrite d k v) s = .fault (.undefinedMisuse 386))

/-! ## Commit (R477 to R500, R540, R589) -/

/-- COMMIT_STAGE, CONFIRM and TARGET_REPORT complete at a commit unit that accepts commit packets, and COMMIT_ACK, COMMIT_OUTCOME and
TARGET_REPORT at a CE whose meter passes them. -/
def Obligations.CommitPacketsComplete : Prop :=
  (∀ (d : Nat) (p : Packet) (s : State), taken s d attCtl 0x20 p = true →
    commitOpen (takeArrival s d attCtl p) d = true →
    exec (.commitStage d p) s = .next (stageArrive
      (statUpdate (takeArrival s d attCtl p) d (partState (takeArrival s d attCtl p) d) p.hdr) d p)) ∧
  (∀ (d : Nat) (h : Hdr) (s : State), taken s d attCtl 0x22 { hdr := h } = true →
    commitOpen (takeArrival s d attCtl { hdr := h }) d = true →
    exec (.confirm d h) s = .next (confirmArrive
      (statUpdate (takeArrival s d attCtl { hdr := h }) d (partState (takeArrival s d attCtl { hdr := h }) d) h) d h)) ∧
  (∀ (d : Nat) (h : Hdr) (s : State), taken s d attCtl 0x23 { hdr := h } = true → h.inlBits 359 352 ≠ 1 →
    commitOpen (takeArrival s d attCtl { hdr := h }) d = true →
    exec (.targetReport d attCtl h) s = .next (reportAtRecorder
      (statUpdate (takeArrival s d attCtl { hdr := h }) d (partState (takeArrival s d attCtl { hdr := h }) d) h) d h)) ∧
  (∀ (d k : Nat) (h : Hdr) (s t : State), ceExists s d k = true → ceIngress (takeArrival s d (attCe k) { hdr := h }) d k h = some t →
    (taken s d (attCe k) 0x21 { hdr := h } = true → exec (.commitAck d k h) s = .next (stageAnswer t d k h)) ∧
    (taken s d (attCe k) 0x23 { hdr := h } = true → h.inlBits 359 352 ≠ 1 → exec (.targetReport d (attCe k) h) s = .next t) ∧
    (∀ x, taken s d (attCe k) 0x23 { hdr := h } = true → h.inlBits 359 352 ≠ 0 → coSlot t d k (h.group.toNat % 256) = some x → x.group = h.group.toNat →
      x.st ≠ 1 → x.req.getLsbD 214 = false → (t.coord d k).queue = [] →
      exec (.commitOutcome d k h) s =
        .next (addCoRec (setCoSlot t d k (h.group.toNat % 256) none) d k
          { order := x.order, done := qDone x.req,
            word := coRecWord x.req x.group (h.inlBits 367 360) (h.inlBits 378 368) (h.inlBits 389 379) (h.inlBits 400 390) })))

/-- COMMIT_REQUEST_FETCH, CONFIRM_DEADLINE, OUTCOME_WAIT_EXPIRY, COMMIT_APPLY, RECORDER_DECISION: where each completes, and with what.
-/
def Obligations.CommitEventsComplete : Prop :=
  (∀ (d k z m : Nat) (s : State), ceExists s d k = true → s.flag d (ccw k CMT_Q_CFG) 0 = true → attHalted s d (attCe k) = false →
    (s.coord d k).fetch = none → (∀ t, (s.coord d k).retryAt = some t → t ≤ s.now d) → coGap (s.coord d k) ≠ 0 →
    z = 2 ^ s.fld d (ccw k CMT_Q_CFG) 11 8 → m = min (min 8 (coGap (s.coord d k))) (z - (s.coord d k).head % z) →
    exec (.commitRequestFetch d k) s = .next (sendAt (s.setCoord d k { s.coord d k with fetch := some m, retryAt := none }) d
      (attCe k) { hdr := { mkHdr 0x04 2 (s.reg d (ccw k CMT_Q_BASE) + BitVec.ofNat 64 (64 * ((s.coord d k).head % z))) (ceSrc s d k) with
        tag := BitVec.ofNat 16 tagReq, inl := BitVec.ofNat 128 m } })) ∧
  (∀ (d k n : Nat) (s : State) (x : CoSlot), ceExists s d k = true → coSlot s d k n = some x → slotD s d k x ≤ s.now d →
    (x.st = 1 → exec (.confirmDeadline d k n) s = .next (abandon s d k n x)) ∧
    (x.st = 2 → exec (.confirmDeadline d k n) s =
      .next (setCoSlot (dropUnsent s d k 0 0x22 x.group) d k n (some { x with st := 3 })))) ∧
  (∀ (d k n : Nat) (s : State) (x : CoSlot), ceExists s d k = true → coSlot s d k n = some x →
    x.t + 1000 * s.fld d CMT_CFG 47 32 + 1000 * s.fld d (ccw k CMT_CE_CFG) 31 16 ≤ s.now d → x.req.getLsbD 214 = false →
    (s.coord d k).queue = [] →
    exec (.outcomeWaitExpiry d k n) s = .next (addCoRec (setCoSlot s d k n none) d k
      { order := x.order, word := coRecWord x.req x.group 4 0 0 0, done := qDone x.req })) ∧
  (∀ (d : Nat) (s : State), dieExists s d = true → attHalted s d attCtl = false → unitFenced s d 9 = false → fabricOnDie s d = true →
    exec (.commitApply d) s = .next (spareTakeover (darnApplied s (commitApply s d) d) d)) ∧
  (∀ (d : Nat) (s : State), dieExists s d = true → attHalted s d attCtl = false →
    exec (.recorderDecision d) s = .next (recorderDecision s d))

/-- A CONFIRM for a window that is STAGED: with another T it is refused, in time it confirms the window, and late it is counted and does
not. -/
def Obligations.ConfirmAccepted : Prop :=
  ∀ (s : State) (d n : Nat) (h : Hdr),
    (List.range 16).find? (fun n => (s.win d n).st == 2 && (s.win d n).src == h.src && (s.win d n).group == h.group.toNat &&
      (s.win d n).tag == h.tag.toNat) = some n →
    (applyFt40 h ≠ (s.win d n).t % 2 ^ 40 → ((confirmArrive s d h).win d n).st = 2 ∧ ((confirmArrive s d h).win d n).verdict = 3 ∧
      (confirmArrive s d h).flag d CMT_EVENT 3 = true) ∧
    (applyFt40 h = (s.win d n).t % 2 ^ 40 → s.now d + guardNs s d < (s.win d n).t →
      (confirmArrive s d h).win d n = { s.win d n with st := 3, confirmed := true }) ∧
    (applyFt40 h = (s.win d n).t % 2 ^ 40 → (s.win d n).t ≤ s.now d + guardNs s d → s.wrote d CMT_LATE 47 0 = false →
      ((confirmArrive s d h).win d n).st = 2 ∧ (confirmArrive s d h).fld d CMT_LATE 47 0 = (s.fld d CMT_LATE 47 0 + 1) % 2 ^ 48)

/-! ## Stitch ports (R511 to R562, R694) -/

/-- FRAME_TRANSMIT, IDLE_FRAME, DATA_FRAME, INGRESS_FORWARD, STITCH_TIME_REQUEST, STITCH_TIME_RESPONSE, FENCE_FRAME, LANE_REQUEST,
LANE_ACK and INIT_FRAME: where each completes, and with what; x is the state once the frame's codes and CTRL are taken. A packet at the
head of an ingress buffer goes on to the next package, to a CE, into the mesh, or is discarded and counted. -/
def Obligations.StitchFrameCommandsComplete : Prop :=
  (∀ (d : Nat) (s t : State), isKind s d .port = true → egressFill s d = .next t → exec (.frameTransmit d) s = .next (frameOut t d)) ∧
  (∀ (d : Nat) (f : StRx) (s x : State), isKind s d .port = true → portLive s d = true → isHalted s d 12 = false →
    frameTake s d f = (x, true) → portLive x d = true →
    exec (.idleFrame d f) s = .next x ∧
    exec (.fenceFrame d f) s = .next (portFence (x.setStl d { x.stl d with fenceIn := some (bitsOf f.frame.slot0 7 0) }) d
      (bitsOf f.frame.slot0 7 0) false) ∧
    exec (.laneRequest d f) s = .next (x.setStl d { x.stl d with
      txMoves := (x.stl d).txMoves ++
        [⟨bitsOf f.frame.slot0 4 0, bitsOf f.frame.slot0 9 5, bitsOf f.frame.slot0 25 10, true⟩],
      ctl := (x.stl d).ctl ++ [(4, f.frame.slot0 ||| BitVec.ofNat 512 (2 ^ 26))] }) ∧
    exec (.laneAck d f) s = .next (x.setStl d { x.stl d with rxMoves := ((x.stl d).rxMoves.map (fun (m : LaneMove) =>
      if m.logical == bitsOf f.frame.slot0 4 0 && m.physical == bitsOf f.frame.slot0 9 5 &&
        m.group == bitsOf f.frame.slot0 25 10 then { m with agreed := true } else m)) }) ∧
    (∃ t w, exec (.stitchTimeRequest d f) s = .next t ∧ (t.stl d).ctl = (x.stl d).ctl ++ [(2, w)] ∧ bitsOf w 3 0 = 1 ∧
      bitsOf w 7 4 = bitsOf f.frame.slot0 7 4 ∧ bitsOf w 95 56 = bitsOf f.frame.slot0 51 12 ∧ t.csr = x.csr ∧ t.mem = x.mem) ∧
    ((x.stl d).timeSeq = some (bitsOf f.frame.slot0 7 4) → (∀ m ∈ allDies x, x.fld m TIM_CFG 1 0 ≠ 1) →
      ∃ t, exec (.stitchTimeResponse d f) s = .next t ∧ (t.stl d).timeSeq = none)) ∧
  (∀ (d : Nat) (f : StRx) (s : State), isKind s d .port = true → stlState s d = 5 → isHalted s d 12 = false →
    exec (.dataFrame d f) s = .next (dataFrame s d f)) ∧
  (∀ (d : Nat) (s t : State) (p : StPk) (ps : List StPk), isKind s d .port = true → isHalted s d 12 = false →
    (s.stl d).inBuf = p :: ps → ingressForward s d = .next t → exec (.ingressForward d) s = .next t) ∧
  (∀ (d c n : Nat) (s s1 : State) (p : StPk) (ps : List StPk), isKind s d .port = true → isHalted s d 12 = false →
    (s.stl d).inBuf = p :: ps → c = cls p.pk.hdr.vc.toNat p.dl → n = 1 + p.pk.data.length →
    s1 = s.setStl d { s.stl d with inBuf := ps, owed := (s.stl d).owed.set 0 c ((s.stl d).owed.get 0 c + n) } →
    (p.pk.hdr.crcOk = false → exec (.ingressForward d) s = .next (hcrcFault s1 d 12 p.pk.hdr.vc.toNat p.pk.hdr.tag.toNat)) ∧
    (∀ (colour : Nat) (s2 : State), p.pk.hdr.crcOk = true →
      meterPass s1 d 8 p.pk.hdr.vc.toNat p.pk.hdr.len.toNat = (colour, true, s2) →
      exec (.ingressForward d) s = .next (probeEval s2 d 7 0 0 colour p.pk.hdr)) ∧
    (∀ (colour : Nat) (s2 s3 : State), p.pk.hdr.crcOk = true →
      meterPass s1 d 8 p.pk.hdr.vc.toNat p.pk.hdr.len.toNat = (colour, false, s2) → s3 = probeEval s2 d 7 0 0 colour p.pk.hdr →
      (∀ q, 0 < p.pos.hops → dirPort s3 d (segDir p.pk.hdr p.pos.seg) = some q →
        exec (.ingressForward d) s = .next (transitTo s3 d q p.pk ⟨p.pos.seg, p.pos.hops - 1⟩)) ∧
      (∀ q, p.pos.hops = 0 → p.pos.seg ≠ 2 → (pkgSeg p.pk.hdr (p.pos.seg + 1)).1 ≠ 0 →
        dirPort s3 d (segDir p.pk.hdr (p.pos.seg + 1)) = some q → exec (.ingressForward d) s =
          .next (transitTo s3 d q p.pk ⟨p.pos.seg + 1, (pkgSeg p.pk.hdr (p.pos.seg + 1)).1 - 1⟩)) ∧
      (p.pos.hops = 0 → p.pos.seg = 2 ∨ (pkgSeg p.pk.hdr (p.pos.seg + 1)).1 = 0 → p.pk.hdr.destPkg = s3.pkgOf d →
        (p.pk.hdr.destDie = d → boundOn s3 .port d p.pk.hdr = .ce (p.pk.hdr.destOff / 2 ^ 30 % 8) →
          natBit p.pk.hdr.destOff 33 = true → p.pk.hdr.destOff / 2 ^ 30 % 8 < 4 →
          exec (.ingressForward d) s = .next (cePath s3 d (p.pk.hdr.destOff / 2 ^ 30 % 8) p.pk)) ∧
        (¬(p.pk.hdr.destDie = d ∧ natBit p.pk.hdr.destOff 33 = true ∧ p.pk.hdr.destOff / 2 ^ 30 % 8 < 4 ∧
            boundOn s3 .port d p.pk.hdr = .ce (p.pk.hdr.destOff / 2 ^ 30 % 8)) → s3.flag d STL_CFG 1 = false →
          exec (.ingressForward d) s = .next (ingressQueue s3 d p.pk 2 0)) ∧
        (∀ a : BitVec 64, ¬(p.pk.hdr.destDie = d ∧ natBit p.pk.hdr.destOff 33 = true ∧ p.pk.hdr.destOff / 2 ^ 30 % 8 < 4 ∧
            boundOn s3 .port d p.pk.hdr = .ce (p.pk.hdr.destOff / 2 ^ 30 % 8)) → s3.flag d STL_CFG 1 = true →
          s3.arrivalTab.get 0 ((d * 8 + portNum s3 d) * 128 + p.pk.hdr.destDie) = a →
          (a.getLsbD 48 = true → exec (.ingressForward d) s = .next (ingressQueue s3 d p.pk 3 (BitVec.ofNat 48 (bitsOf a 47 0)))) ∧
          (a.getLsbD 48 = false → exec (.ingressForward d) s = .next (s3.bump d (niw 3 NI_NOROUTE) 47 0 1)))))) ∧
  (∀ (d : Nat) (f : StRx) (s x : State), isKind s d .port = true → stlState s d = 4 → isHalted s d 12 = false → splitBad s d = false →
    frameTake s d f = (x, true) →
    (bitsOf f.frame.slot0 15 0 = s.fld d STL_PEER_EXP 15 0 → exec (.initFrame d f) s = .next (portUp x d f.frame.slot0)) ∧
    (bitsOf f.frame.slot0 15 0 ≠ s.fld d STL_PEER_EXP 15 0 → exec (.initFrame d f) s = .next (portFail ((setPeer x d f.frame.slot0).raise d STL_EVENT 3) d)))

/-- The commands that move a port between its states, and those of its lanes: where each completes, and with what. -/
def Obligations.PortTrainingComplete : Prop :=
  ∀ (d : Nat) (s : State), isKind s d .port = true →
    (portLive s d = true → exec (.fecLockLoss d) s = .next (portRetrain s d)) ∧
    (stlState s d = 5 → (s.stl d).goodFt + 2000 ≤ s.now d → exec (.noFrameTimeout d) s = .next (portFence s d 2 false)) ∧
    (∀ lanes, stlState s d = 1 → 20 ≤ (laneList lanes).length → exec (.pmaSignalDetect d lanes) s = .next (setStlState s d 2)) ∧
    (∀ lanes, stlState s d = 2 ∨ stlState s d = 7 → 20 ≤ (laneList lanes).length → ∃ t, exec (.pmaLock d lanes) s = .next t ∧
      stlState t d = 3 ∧ (t.stl d).rxLanes = (laneList lanes).take 20 ∧ t.mem = s.mem) ∧
    (∀ group, stlState s d = 3 → ∃ t, exec (.alignmentLock d group) s = .next t ∧ stlState t d = 4 ∧
      (t.stl d).group = group % 65536 ∧ t.flag d STL_STATUS 8 = true ∧ t.mem = s.mem) ∧
    (stlState s d = 1 → (s.stl d).sinceFt + 10000000 ≤ s.now d → exec (.detectTimeout d) s = .next (portFail s d)) ∧
    (stlState s d = 2 ∨ stlState s d = 7 → (s.stl d).sinceFt + 50000000 ≤ s.now d →
      exec (.equaliseTimeout d) s = .next (portFail s d)) ∧
    (stlState s d = 3 → (s.stl d).sinceFt + 1000000 ≤ s.now d → 3 ≤ (s.stl d).tries →
      exec (.alignTimeout d) s = .next (portFail s d)) ∧
    (stlState s d = 3 → (s.stl d).sinceFt + 1000000 ≤ s.now d → (s.stl d).tries < 3 → ∃ t, exec (.alignTimeout d) s = .next t ∧
      stlState t d = 2 ∧ (t.stl d).tries = (s.stl d).tries + 1 ∧ t.mem = s.mem) ∧
    ((s.stl d).resume = true → stlState s d = 7 → (s.stl d).retrainFt + 400000000 ≤ s.now d →
      exec (.retrainTimeout d) s = .next (portFence s d 3 true)) ∧
    (portLive s d = true → exec (.laneErrorWindow d) s = .next (laneWindow s d)) ∧
    (∀ group, portLive s d = true → exec (.switchGroupReached d group) s = .next (switchGroup s d group)) ∧
    (portLive s d = true → exec (.stlCtlFence d) s = .next (portFence s d 0 true)) ∧
    (stlState s d = 8 ∨ stlState s d = 9 → exec (.stlCtlRetrain d) s = .next (portDetect s d) ∧ stlState (portDetect s d) d = 1) ∧
    ((s.stl d).fenceIn = some 1 → (s.stl d).sinceFt + 100000000 ≤ s.now d → stlState s d = 8 →
      exec (.portRetrainRetry d) s = .next (portDetect s d))

/-- A good DATA frame in sequence is taken and the next is awaited; another is discarded, and one NAK goes out until the right one comes
(R526). An ACK frees the frames up to the one that it names, and one that names none of those held changes nothing (R525). -/
def Obligations.FramesInSequence : Prop :=
  (∀ (d : Nat) (f : StRx) (s x : State) (good : Bool), frameTake s d f = (x, good) → portLive x d = true →
    (good = true → f.frame.seq = ((x.stl d).rxSeq + 1) % 4096 →
      ((dataFrame s d f).stl d).discarding = false ∧ ((dataFrame s d f).stl d).rxSeq = f.frame.seq) ∧
    ((good = false ∨ f.frame.seq ≠ ((x.stl d).rxSeq + 1) % 4096) → ((dataFrame s d f).stl d).discarding = true ∧
      ((dataFrame s d f).stl d).rxSeq = (x.stl d).rxSeq ∧ ((dataFrame s d f).stl d).inBuf = (x.stl d).inBuf ∧
      ((dataFrame s d f).stl d).nak = ((x.stl d).nak || !(x.stl d).discarding))) ∧
  (∀ (x : Stl) (a : Nat),
    (0 < seqPast a x.acked → seqPast a x.acked ≤ x.retry.length →
      (takeAck x a).retry.length + seqPast a x.acked = x.retry.length ∧ (takeAck x a).acked = a ∧ (takeAck x a).replays = 0) ∧
    (seqPast a x.acked = 0 ∨ x.retry.length < seqPast a x.acked → takeAck x a = x))

/-! ## Health, heartbeats and verdicts (R607 to R662, R695, R828) -/

/-- LINK_SEC_WINDOW_END, PROBE, PROBE_SEND, PROBE_TIMEOUT, PROBE_REPEAT: where each completes, and with what. -/
def Obligations.LinkHealthComplete : Prop :=
  (∀ (d p i : Nat) (s : State), routerExists s d p = true → i < 6 →
    s.secWindow.get 0 (ek d p i) < (s.regionOf d p).cycles / 2 ^ secLog s d → s.secCount.get 0 (ek d p i) ≤ s.fld d HLT_THRESH 31 16 →
    ∃ t, exec (.linkSecWindowEnd d p i) s = .next t ∧ t.secCount.get 0 (ek d p i) = 0 ∧ t.dedCount.get 0 (ek d p i) = 0 ∧
      t.mem = s.mem ∧ t.csr = s.csr) ∧
  (∀ (d p i k : Nat) (pk q : Packet) (qs : List Packet) (s : State), routerExists s d p = true → i < 6 → pk.hdr.cmd = 0x52 →
    (if i < 4 then probeSource s d p i else some (pwk d p (if pk.hdr.inlBits 419 419 = 1 then i + 2 else i))) = some k →
    s.probeWires.get [] k = q :: qs → isHalted s d p = false → inputFenced s d p i = false → routerRuns s d p = true →
    (pk.hdr.inlBits 419 419 = 0 → exec (.probe d p i pk) s =
      .next (probeBack { s with probeWires := s.probeWires.set [] k qs } (pwk d p (if i < 4 then i else i + 2)) pk)) ∧
    (pk.hdr.inlBits 419 419 = 1 →
      exec (.probe d p i pk) s = .next (probeReturn { s with probeWires := s.probeWires.set [] k qs } d p i pk))) ∧
  (∀ (d p len o : Nat) (seed : Word) (s : State), routerExists s d p = true → probesRun s d p = true →
    (s.probeSeq d p).job = none → nextProbe s d p = some o → probeFree s d p o (min 32 len) = true →
    min 32 len + 1 ≤ probeBudget (s.probeSeq d p) o (s.regionOf d p).cycles →
    ∃ t pk, exec (.probeSend d p len seed) s = .next t ∧ t.probeWires.get [] (pwk d p o) = s.probeWires.get [] (pwk d p o) ++ [pk] ∧
      pk = (probePacket s d o (min 32 len) seed).1 ∧ (t.probeSeq d p).next = (o + 1) % 6) ∧
  (∀ (d p : Nat) (s : State) (j : ProbeJob), routerExists s d p = true → (s.probeSeq d p).job = some j → j.failed = false →
    s.fld d HLT_PROBE_CFG 43 32 * (if (s.regionOf d p).down then 10 else 5) ≤ (s.now d - j.sentFt) * 8 → exec (.probeTimeout d p) s = .next (probeFail s d p)) ∧
  (∀ (d p : Nat) (s : State) (j : ProbeJob), routerExists s d p = true → (s.probeSeq d p).job = some j → j.failed = true →
    j.sentFt + 1000 ≤ s.now d → probesRun s d p = true → probeFree s d p j.out j.pk.data.length = true →
    exec (.probeRepeat d p) s = .next (putProbe (s.setProbeSeq d p { s.probeSeq d p with
      job := some { j with failed := false, again := true, sentFt := s.now d } }) (pwk d p j.out) j.pk))

/-- SCRUB_WORD, WEAR_ROTATION, INTERIM_ROUTE_PATCH, KEREX_PATCH, TWIN_READ_COMPLETE, SHIFT_COMPLETE, CLK_FAULT: where each completes,
and with what. -/
def Obligations.UpkeepCommandsComplete : Prop :=
  (∀ (d : Nat) (w : ScrubAt) (s : State), scrubExists s d w = true → s.mode = .service → s.flag d HLT_CFG 2 = true →
    s.halted.get none (d * 2) = none →
    exec (.scrubWord d w .clean) s = .next s ∧
    exec (.scrubWord d w .single) s = .next (faultRec s d 0x06 (scrubIndex w) 0 0) ∧
    exec (.scrubWord d w .double) s = .next (scrubDouble (faultRec s d 0x07 (scrubIndex w) 0 0) d w)) ∧
  (∀ (d : Nat) (s : State), dieExists s d = true → s.mode = .service → s.flag d HLT_CFG 3 = true → s.fld d HLT_WEAR_CFG 15 0 ≠ 0 →
    s.wearFt.get 0 d + 1000000000 * s.fld d HLT_WEAR_CFG 15 0 ≤ s.now d → s.flag d HLT_STATUS 0 = false → (s.darn d).job = none →
    kerexMay s (kerexT s) true = true → ∃ t, exec (.wearRotation d) s = .next t ∧ t.wearFt.get 0 d = s.now d ∧
      t.patches = (kerexPatch s 1 d (kerexT s) (altStream s d (routesWhere s d (fun _ _ v => v.getLsbD 112))) 0).patches) ∧
  (∀ (d : Nat) (s : State), dieExists s d = true → (cutRoutes s d).filter (mayTurn s d) ≠ [] → kerexMay s (kerexT s) true = true →
    (∀ e ∈ cutRoutes s d, mayTurn s d e = true) → exec (.interimRoutePatch d) s =
      .next ((kerexPatch s 2 d (kerexT s) (altStream s d ((cutRoutes s d).filter (mayTurn s d))) 0).raise d HLT_STATUS 0)) ∧
  (∀ (t : Nat) (ss : PStreams) (s : State), kerexMay s t false = true →
    exec (.kerexPatch t ss) s = .next (kerexPatch s 6 0 t ss 0)) ∧
  (∀ (d : Nat) (s : State) (j : DarnJob) (w : Nat × Word), isKind s d .compute = true → (s.darn d).job = some j → darnState s d = 2 →
    j.twin = some w → exec (.twinReadComplete d false) s = .next (darnRun (darnGiveUp s d j [j.p] 4) d)) ∧
  (∀ (d : Nat) (s : State) (j : DarnJob) (q : Nat) (w : Word), isKind s d .compute = true → (s.darn d).job = some j →
    darnState s d = 2 → j.twin = some (q, w) → partnerBad s d j q = false → unitFenced s d j.ce = false →
    exec (.twinReadComplete d true) s =
      .next (darnPost ((twinCopy s d j.ce q w).setFld d HLT_DARN_STATUS 39 8 (s.fld d (HLT_TWIN_CNT_0 + 8 * q) 63 32)) d j)) ∧
  (∀ (d : Nat) (s : State) (j : DarnJob), isKind s d .compute = true → (s.darn d).job = some j → darnState s d = 4 →
    ∃ t, exec (.shiftComplete d) s = .next t ∧ darnState t d = 5 ∧ t.flag d HLT_DARN_CTL 6 = false) ∧
  (∀ (d panel : Nat) (s x : State), dieExists s d = true → (isKind s d .compute = true → panel < 2) →
    (isKind s d .compute = false → panel = 0) →
    x = (if isKind s d .compute then fencePanel (faultRec s d 0x10 panel 0 6) d panel else fenceDie (faultRec s d 0x10 panel 0 6) d) →
    headRuns x = false → d ≠ x.headDie → x.headDie = s.headDie → exec (.clkFault d panel) s = .next x)

/-- HEARTBEAT_SEND, DIE_HEARTBEAT, HEARTBEAT_MISS, PACKAGE_HEARTBEAT_SEND, PACKAGE_HEARTBEAT, PACKAGE_HEARTBEAT_MISS, TELEMETRY_SEND,
VERDICT and SUSPECT: where each completes, and with what. A third heartbeat missed in a row declares the die dead, and fewer do not
(R625). -/
def Obligations.HeartbeatCommandsComplete : Prop :=
  ((∀ (d : Nat) (s : State), dieExists s d = true → (s.keeper d).roundsOn = true → s.mode ≠ .stop → tailorRuns s d = true →
    s.hbSent.get 0 d ≤ s.now d / 10000 → exec (.heartbeatSend d) s =
      .next { sendAll s d attCtl ((hbTargets s d).map (dieHeartbeat s d (s.now d / 10000))) with
        hbSent := s.hbSent.set 0 d (s.now d / 10000 + 1) }) ∧
  (∀ (d : Nat) (h : Hdr) (s x : State), taken s d attCtl 0x50 { hdr := h } = true → x = takeArrival s d attCtl { hdr := h } →
    (h.inlBits 359 352 = 0 → isKind x d .service = true → h.srcPkg = x.pkgOf d → dieDead x h.srcDie = false →
      exec (.dieHeartbeat d attCtl h) s = .next (hbTake x d h.srcDie (x.now d / 10000) (h.inlBits 375 360))) ∧
    (h.inlBits 359 352 = 1 → isKind x d .port = true → x.deadPkgs.contains h.srcPkg = false →
      exec (.packageHeartbeat d attCtl h) s = .next (hbTake x d 127 (x.now d / 100000) (h.inlBits 375 360))) ∧
    (h.inlBits 359 352 = 2 → d = x.headDie → headRuns x = true → h.inlBits 429 426 = 2 →
      exec (.verdict d attCtl h) s = .next (pkgVerdictTake x h)) ∧
    (h.inlBits 359 352 = 3 → d = x.headDie → headRuns x = true → actsAsRoot x d = true →
      exec (.suspect d attCtl h) s = .next (suspectTake x h))) ∧
  (∀ (d k : Nat) (h : Hdr) (s x : State), ceExists s d k = true → taken s d (attCe k) 0x50 { hdr := h } = true →
    ceIngress (takeArrival s d (attCe k) { hdr := h }) d k h = some x → h.inlBits 359 352 = 2 →
    exec (.verdict d (attCe k) h) s = .next (ceVerdict x d k h)) ∧
  (∀ (d x k : Nat) (s : State), isKind s d .service = true → dieExists s x = true → judges s d x = true →
    k = max (s.hbs.get {} (d * 128 + x)).next ((s.hbFrom.get 0 x + 9999) / 10000) →
    10000 * k + 10 * s.fld d HLT_HB_CFG 15 0 ≤ s.now d →
    (k < (s.hbs.get {} (d * 128 + x)).last → exec (.heartbeatMiss d x) s = .next { s with
      hbs := s.hbs.set {} (d * 128 + x) { s.hbs.get {} (d * 128 + x) with next := k + 1, miss := 0 } }) ∧
    ((s.hbs.get {} (d * 128 + x)).last ≤ k → exec (.heartbeatMiss d x) s = .next (hbMissed { s with
      hbs := s.hbs.set {} (d * 128 + x) { s.hbs.get {} (d * 128 + x) with next := k + 1, miss := (s.hbs.get {} (d * 128 + x)).miss + 1 } }
      d x ((s.hbs.get {} (d * 128 + x)).miss + 1)))) ∧
  (∀ s : State, headRuns s = true → s.mode ≠ .stop → s.pkgHbSent ≤ s.now s.headDie / 100000 →
    ∃ t, exec .packageHeartbeatSend s = .next t ∧ t.pkgHbSent = s.now s.headDie / 100000 + 1 ∧ t.mem = s.mem ∧ t.csr = s.csr) ∧
  (∀ (d : Nat) (s : State), isKind s d .port = true → s.mode = .service → portLive s d = true →
    (s.hbs.get {} (d * 128 + 127)).last ≠ 0 →
    100000 * (s.hbs.get {} (d * 128 + 127)).next + 100 * s.fld d HLT_HB_CFG 31 16 ≤ s.now d →
    (s.hbs.get {} (d * 128 + 127)).last ≤ (s.hbs.get {} (d * 128 + 127)).next → (s.hbs.get {} (d * 128 + 127)).miss < 2 →
    exec (.packageHeartbeatMiss d) s = .next { s with hbs := s.hbs.set {} (d * 128 + 127) { s.hbs.get {} (d * 128 + 127) with
      next := (s.hbs.get {} (d * 128 + 127)).next + 1, miss := (s.hbs.get {} (d * 128 + 127)).miss + 1 } }) ∧
  (∀ (d temp : Nat) (s : State), dieExists s d = true → s.mode = .service →
    s.telemFt.get 0 d + 1000 * s.fld d HLT_WEAR_CFG 31 16 ≤ s.now d →
    ∃ t, exec (.telemetrySend d temp) s = .next t ∧ bitsOf (t.telem.get 0 (2 * d)) 15 0 = temp % 2 ^ 16 ∧
      bitsOf (t.telem.get 0 (2 * d + 1)) 31 0 = s.fld d HLT_FLOG_CTL 47 32 ∧ t.mem = s.mem ∧ t.csr = s.csr)) ∧
  (∀ (s : State) (d x miss : Nat), d ≠ s.headDie →
    (miss < 3 → hbMissed s d x miss = s) ∧
    (3 ≤ miss → (declareDie s x).headDie = s.headDie → hbMissed s d x miss = declareDie s x))

/-- A fault record of action COUNT: with no unread record it goes into the next place of the log with its CLASS and INDEX, the newest
unread record of the same CLASS and INDEX counts it instead, and a full log loses it and sets OVERFLOW. In every case HLT_EVENT bit 0 is
set and memory stays. -/
def Obligations.FaultLogEntry : Prop :=
  ∀ (s : State) (d cls index detail : Nat) (newest : BitVec 128), cls < 256 → index < 2 ^ 16 → s.flag d OBS_CFG 3 = false →
    newest = s.flog.get 0 (d * 256 + (s.fld d HLT_FLOG_CTL 15 8 + 255) % 256) →
    (unreadFaults s d = 0 →
      ∃ r, (faultRec s d cls index detail 0).flog = s.flog.set 0 (d * 256 + s.fld d HLT_FLOG_CTL 15 8) r ∧ bitsOf r 23 16 = cls ∧
        bitsOf r 111 96 = index ∧ bitsOf r 15 8 = 0 ∧
        (faultRec s d cls index detail 0).fld d HLT_FLOG_CTL 15 8 = (s.fld d HLT_FLOG_CTL 15 8 + 1) % 256) ∧
    (unreadFaults s d ≠ 0 → bitsOf newest 23 16 = cls → bitsOf newest 111 96 = index →
      (faultRec s d cls index detail 0).flog = s.flog.set 0 (d * 256 + (s.fld d HLT_FLOG_CTL 15 8 + 255) % 256)
        (setBits newest 15 8 (min 255 (bitsOf newest 15 8 + 1))) ∧
      (faultRec s d cls index detail 0).fld d HLT_FLOG_CTL 15 8 = s.fld d HLT_FLOG_CTL 15 8) ∧
    (unreadFaults s d = 256 → bitsOf newest 23 16 ≠ cls ∨ bitsOf newest 111 96 ≠ index →
      (faultRec s d cls index detail 0).flog = s.flog ∧ (faultRec s d cls index detail 0).flag d HLT_FLOG_CTL 16 = true) ∧
    (faultRec s d cls index detail 0).flag d HLT_EVENT 0 = true ∧ (faultRec s d cls index detail 0).mem = s.mem

/-! ## Stalls, mends and dumps (R672 to R695) -/

/-- STALL_THRESHOLD, STALL_ESCALATE, TAILOR_WATCHDOG, MND_TAILOR_KICK: where each completes, and with what. -/
def Obligations.StallCommandsComplete : Prop :=
  (∀ (d kind unit port : Nat) (s : State), stallUnit s d kind unit port = true → s.mode ≠ .stop → stallHolds s d kind unit port = true →
    exec (.stallThreshold d kind unit port) s = .next (stallThreshold s d kind unit port)) ∧
  (∀ (d kind unit port : Nat) (s : State) (x : Stall), stallUnit s d kind unit port = true → s.mode ≠ .stop →
    (s.stalls.get [] d).find? (sameStall kind unit port) = some x →
    (stallHolds s d kind unit port = false → ∃ t, exec (.stallEscalate d kind unit port) s = .next t ∧ x ∉ t.stalls.get [] d) ∧
    (stallHolds s d kind unit port = true → x.escalated = false → x.ft + 1000 * s.fld d MND_HANG_CFG 31 16 ≤ s.now d →
      exec (.stallEscalate d kind unit port) s = .next (stallEscalate s d x))) ∧
  (∀ (d : Nat) (s : State), dieExists s d = true → s.mode ≠ .stop → s.flag d TLR_STATUS 1 = true →
    s.kickFt.get 0 d + 1000 * s.fld d MND_HANG_CFG 47 32 ≤ s.now d → ∃ t, exec (.tailorWatchdog d) s = .next t ∧
      t.flag d TLR_STATUS 1 = false ∧ t.flag d MND_STALL 5 = true ∧ t.mem = s.mem) ∧
  (∀ (d : Nat) (s : State), dieExists s d = true → ∃ t, exec (.mndTailorKick d) s = .next t ∧ t.kickFt.get 0 d = s.now d ∧
    t.csr = s.csr ∧ t.mem = s.mem)

/-- MND_PART_CTL_MEND, MND_PART_CTL_ALL and the steps of a mend: where each completes, and with what. -/
def Obligations.MendCommandsComplete : Prop :=
  (∀ (q : Nat) (s : State), q < 64 → s.mode = .service → partStep s q = 0 → exec (.mndPartCtlMend q) s = .next (mendEnter s q 3)) ∧
  (∀ s : State, s.mode = .service → ∃ t, exec .mndPartCtlAll s = .next t ∧ t.pkgMend = 1) ∧
  (∀ (q : Nat) (s : State), q < 64 → partStep s q = 1 → ∃ t, exec (.mendIsolate q) s = .next t ∧ partStep t q = 2) ∧
  (∀ (q : Nat) (s : State), q < 64 → partStep s q = 2 →
    exec (.mendFlush q) s = .next (dumpStart (setStep ((partDies s q).foldl (fun s d => flushDie s d) s) q 3) q)) ∧
  (∀ (q : Nat) (s : State), q < 64 → partStep s q = 3 → s.flag s.headDie (partReg q) 7 = true →
    ∃ t, exec (.mendDump q) s = .next t ∧ partStep t q = 4 ∧ t.mem = s.mem) ∧
  (∀ (q : Nat) (s : State), q < 64 → partStep s q = 4 → s.pkgMend ≠ 1 → exec (.mendReset q) s =
    .next (setStep ((partDies s q).foldl (fun s d => resetDie s d) { s with tileReset := s.tileReset.set false q true }) q 5)) ∧
  (∀ (q : Nat) (s : State), q < 64 → partStep s q = 5 → s.pkgMend ≠ 2 → (partDies s q).all (dieTrained s) = true →
    ∃ t, exec (.mendRetrain q) s = .next t ∧ partStep t q = 6 ∧ t.mem = s.mem) ∧
  (∀ (q : Nat) (s : State), q < 64 → partStep s q = 6 → ∃ t, exec (.mendTest q []) s = .next t ∧ partStep t q = 7 ∧ t.mem = s.mem) ∧
  (∀ (q : Nat) (fails : List TestFail) (s : State), q < 64 → partStep s q = 6 → ∃ t, exec (.mendTest q fails) s = .next t ∧
    ((∀ d, TestFail.die d ∈ fails → d ∉ partDies s q) → partStep t q = 7) ∧
    (∀ d, TestFail.die d ∈ fails → d ∈ partDies s q → partStep t q = 15)) ∧
  (∀ (q : Nat) (s : State), q < 64 → partStep s q = 7 → (partDies s q).all (fun d => (s.keeper d).lock) = true → areaOk s = false →
    ∃ t, exec (.mendRelock q) s = .next t ∧ partStep t q = 8 ∧ t.mem = s.mem) ∧
  (∀ (q : Nat) (s : State), q < 64 → partStep s q = 8 → exec (.mendRestore q) s = .next (mendRestore s q)) ∧
  (∀ (q : Nat) (s : State), q < 64 → partStep s q = 9 → s.rejoinFt.get 0 q ≤ s.now s.headDie →
    (partDies s q).all (fun d => (s.keeper d).roundsOn) = true →
    exec (.mendRejoin q) s = .next (rejoin s q))

/-- DUMP_ENTRY, DUMP_READ_TIMEOUT, DUMP_WRITE_TIMEOUT, DUMP_ENGINE_TIMEOUT: where each completes, and with what. -/
def Obligations.DumpCommandsComplete : Prop :=
  (∀ (d q : Nat) (s : State), isKind s d .compute = true → dumping s d = some q → exec (.dumpEntry d) s = .next (dumpStep s q d)) ∧
  (∀ (d q t : Nat) (s : State) (j : DumpJob), isKind s d .compute = true → dumping s d = some q → (s.dump q).jobs.get none d = some j →
    j.readFt = some t → t + 10000 ≤ s.now d → ∃ x, exec (.dumpReadTimeout d) s = .next x ∧
      (d, seTile s (sampleEntry s j.entry)) ∈ (x.dump q).missed ∧ (x.dump q).jobs.get none d = none) ∧
  (∀ (d q w : Nat) (s : State) (j : DumpJob), isKind s d .compute = true → dumping s d = some q → (s.dump q).jobs.get none d = some j →
    j.write = some w → j.writeFt + 10000 ≤ s.now d → exec (.dumpWriteTimeout d) s = .next (dumpFailed s q d j)) ∧
  (∀ (q : Nat) (s : State), q < 64 → partStep s q = 3 → (s.dump q).on = true → (s.dump q).startFt + 200000000 ≤ s.now s.headDie →
    exec (.dumpEngineTimeout q) s = .next (dumpFinish (dumpStatus (s.setDump q
      { s.dump q with status := (s.dump q).status.map (fun n => if n == 0xFF then 1 else n), jobs := {} }) q) q))

/-! ## Global stops (R696 to R717) -/

/-- MND_STOP_ARM, STOP_HALT, CATCH_WINDOW_END, MND_STOP_RELEASE, MND_STOP_CANCEL: where each completes, and with what. The last
read-back of an arming sets ARMED_ALL (R696). -/
def Obligations.StopCommandsComplete : Prop :=
  (∀ (d : Nat) (s : State), dieExists s d = true → exec (.mndStopArm d) s = .next (stopArm s d)) ∧
  (∀ (d panel : Nat) (s : State), dieExists s d = true → panel ∈ panelsOf s d → armed s d = true → stopFt s d ≤ s.now d →
    exec (.stopHalt d panel) s = .next (packageStopped (haltRegion (dueBefore s d) d panel))) ∧
  (∀ (d panel c : Nat) (s : State), dieExists s d = true → panel ∈ panelsOf s d → s.halted.get none (d * 2 + panel) = some c →
    c + 8 ≤ (s.region d panel).cycles → exec (.catchWindowEnd d panel) s =
      .next { s with catchShut := s.catchShut.set false (d * 2 + panel) true }) ∧
  (∀ s : State, s.mode = .stop → exec .mndStopRelease s = .next (stopRelease s)) ∧
  (∀ s : State, s.mode ≠ .stop → exec .mndStopRelease s = .next s) ∧
  (∀ (d : Nat) (s : State), dieExists s d = true → armed s d = true → s.now d < stopFt s d → d ≠ s.headDie →
    exec (.mndStopCancel d) s = .next ((disarm s d).setFld s.headDie MND_STOP_STATUS 4 4 0)) ∧
  (∀ s : State, dieExists s s.headDie = true → armed s s.headDie = true → s.now s.headDie < stopFt s s.headDie →
    exec (.mndStopCancel s.headDie) s = .next (cancelAll s) ∧
    (s.armWait = [] → cancelAll s = ((allDies s).foldl disarm s).setFld s.headDie MND_STOP_STATUS 4 4 0)) ∧
  (∀ (s : State) (h : Hdr) (k : Nat), s.armWait = [(h.srcDie, k)] → h.tag.toNat % 2 = k →
    (k = 0 → h.inlBits 415 352 = stopFt s s.headDie) → (k ≠ 0 → h.inlBits 352 352 = 1) →
    (armBack s h).flag s.headDie MND_STOP_STATUS 4 = true ∧ (armBack s h).armWait = []) ∧
  (∀ (d : Nat) (s : State), dieExists s d = true → armed s d = false ∨ stopFt s d ≤ s.now d → exec (.mndStopCancel d) s = .next s)

/-- A region halts once, at its cycle, and keeps it; a cancel at or after T changes nothing. -/
def Obligations.HaltAndCancel : Prop :=
  ∀ (s : State) (d panel : Nat),
    (s.halted.get none (d * 2 + panel) = none → haltRegion s d panel =
      { s with halted := s.halted.set none (d * 2 + panel) (some (s.region d panel).cycles) }) ∧
    (∀ c, s.halted.get none (d * 2 + panel) = some c → haltRegion s d panel = s) ∧
    (stopFt s d ≤ s.now d → stopCancel s d = s)

/-! ## Patterns and patches (R565 to R606) -/

/-- PAT_LOAD_START_COLD, PAT_LOAD_START_PATCH, PAT_LOAD_START_AREA, PAT_LOAD_ABORT, LOAD_PORT_WRITE, PERMIT_WRITE,
PATCH_COMPLETION_READ, PATCH_T_PASSED, PERMITS_WRITTEN, LOAD_VERIFY_DONE, AREA_COPY_DONE, PATCH_VERIFY_DONE, BUILTIN_TEST_COMPLETE and
TRAIN_COMPLETE: where each completes, and with what. Built-in tests that pass take the package to TRAIN, and a second START while a load
runs only sets its error bit. -/
def Obligations.PatternCommandsComplete : Prop :=
  ((∀ s : State, loadBusy s = false → s.mode = .cold → headRuns s = true → ∃ t, exec .patLoadStartCold s = .next t ∧
    loadState t = 1 ∧ t.loader.mode = 0 ∧ t.loader.len = 0) ∧
  (∀ s : State, loadBusy s = false → s.mode = .fit ∨ s.mode = .service → (∃ t, exec .patLoadStartPatch s = .next t ∧
    loadState t = 1 ∧ t.loader.mode = 1 ∧ t.loader.t = (s.reg s.headDie PAT_PATCH_FT).toNat) ∧
    (∃ t, exec .patLoadStartArea s = .next t ∧ loadState t = 1 ∧ t.loader.mode = 2)) ∧
  (∀ s : State, loadState s = 1 ∨ loadState s = 2 → exec .patLoadAbort s = .next (loadFail s 0x0F s.loader.sec)) ∧
  (∀ (v : Word) (s : State), loadState s = 1 → s.loader.len + 8 < 128 → ∃ t, exec (.loadPortWrite v) s = .next t ∧
    t = if Config.loadBuffer < 8 then loadFail s 0x04 s.loader.sec else
      { s with mem := writeWord s.mem (loadKey s s.loader.len) v, loader := { s.loader with len := s.loader.len + 8 } }) ∧
  (∀ (d off : Nat) (v : Word) (s : State), dieExists s d = true → permitOff off = true →
    exec (.permitWrite d off (ctlSrc s d) v) s = .next (csrStore s d off v true) ∧
    exec (.permitWrite d off (ctlSrc s s.headDie) v) s = .next (csrStore s d off v true)) ∧
  (∀ (num o : Nat) (s : State) (p : Patch), s.patches.find? (fun p => p.num == num && p.st == 4) = some p → patchOutcome s p = some o →
    p.kind ≠ 5 → exec (.patchCompletionRead num) s = .next (darnPatchEnded (patchEnd s p o (o == 0 || o == 2)) num o)) ∧
  (∀ (num : Nat) (s : State) (p : Patch), s.patches.find? (fun p => p.num == num && p.st == 5) = some p → p.t ≤ s.now s.headDie →
    exec (.patchTPassed num) s = .next (patchEnd (patchRecord s p 1) p 0xFF true)) ∧
  (∀ (num : Nat) (s x : State) (p : Patch), x = sendPermits s num → x.patches.find? (fun p => p.num == num && p.st == 3) = some p →
    permitsHeld x p = true → p.own = true → exec (.permitsWritten num) s = .next (postPatch x p)) ∧
  (∀ s : State, loadState s = 2 → s.loader.mode = 0 →
    exec (.loadVerifyDone true) s = .next (loadVerified s true) ∧ exec (.loadVerifyDone false) s = .next (loadVerified s false) ∧
    (loadVerified s true).mode = (if verifyResult s = 0 then .test else s.mode) ∧
    loadVerified s false = loadFail s (if verifyResult s = 0 then 0x09 else verifyResult s) 0) ∧
  (∀ (a b : Bool) (s : State), loadState s = 2 → s.loader.mode = 2 → exec (.areaCopyDone a b) s = .next (areaCopied s a b)) ∧
  (∀ s : State, loadState s = 2 → s.loader.mode = 1 → exec .patchVerifyDone s = .next (patchVerified s)) ∧
  (∀ (fails : List TestFail) (s s0 s1 : State), s.mode = .test → s0 = { s with testReport := some fails } →
    s1 = startSeams (enterMode (fails.foldl coverFail s0) .train) →
    (fails.all (fun f => failCovered s0 fails f || failIdle s0 f) = true →
      exec (.builtinTestComplete fails) s = .next ((portDies s1).foldl (fun s d => portStart s d) s1)) ∧
    (fails.all (fun f => failCovered s0 fails f || failIdle s0 f) = false →
      exec (.builtinTestComplete fails) s = .next (testFailed s0))) ∧
  (∀ s : State, s.mode = .train → trained s = true → exec .trainComplete s = .next (trainDone s))) ∧
  ((∀ (s : State) (m : Mode), (enterMode s m).mode = m) ∧
  (∀ (s : State) (m : Nat) (ok : Bool), loadBusy s = true → loadStart s m ok = s.raise s.headDie PAT_LOAD_STATUS 4))

/-! ## Ledger, traces and counts (R719 to R764) -/

/-- LEDGER_CHAIN, MIRROR_ACK, SEAL_DUE, SEAL_NOW, SEAL_SIGNED, TRACE_FLUSH, COUNT_PERIOD, OBS_PRB_CFG_WRITE, OBS_STAT_CLEAR: where each
completes, and with what. -/
def Obligations.LedgerCommandsComplete : Prop :=
  (∀ s : State, headRuns s = true → (ledgerRefill s).ledger.back ≠ [] → exec .ledgerChain s = .next (ledgerChain s)) ∧
  (∀ (s : State) (c : Chained) (cs : List Chained), s.ledger.sent = c :: cs → exec .mirrorAck s = .next (ringPump { s with
    ledger := { s.ledger with sent := cs, acked := s.ledger.acked ++ [c], ackSeq := c.lseq + 1, ackChain := c.chain } })) ∧
  (∀ s : State, s.ledger.signing = none → debugOpened s = false → s.ledger.next ≠ 0 → headRuns s = true →
    exec .sealNow s = .next { s with ledger := { s.ledger with signing := some (s.ledger.next - 1, s.ledger.chain), unsealed := 0 } } ∧
    (sealIsDue s = true → exec .sealDue s = .next { s with
      ledger := { s.ledger with signing := some (s.ledger.next - 1, s.ledger.chain), unsealed := 0 } })) ∧
  (∀ (s : State) (l : Nat) (c : List Word), s.ledger.signing = some (l, c) → debugOpened s = true →
    exec .sealSigned s = .next (sealNext { s with ledger := { s.ledger with signing := none } } l)) ∧
  (∀ (s : State) (l : Nat) (c : List Word), s.ledger.signing = some (l, c) → debugOpened s = false →
    exec .sealSigned s = .next (sealNext (ledgerPut { s with ledger := { s.ledger with signing := none } }
      (ledgerRec { s with ledger := { s.ledger with signing := none } } 0x86 (s.now40 s.headDie) [l % 2 ^ 64] (some c))) l)) ∧
  (∀ (d : Nat) (s : State), dieExists s d = true → attHalted s d attCtl = false → tracePacketQuads ≤ (s.traces.get {} d).quads.length →
    (s.traces.get {} d).quads ≠ [] → ∃ t, exec (.traceFlush d) s = .next t ∧ t = traceFlush s d) ∧
  (∀ (d : Nat) (s : State), dieExists s d = true → partState s d = .service → s.fld d OBS_TRACE_CFG 39 32 = 0 →
    (s.keeper d).round % 256 = 0 →
    exec (.countPeriod d) s = .next ((List.range 16).foldl (fun s n => countRecord s d n) s)) ∧
  (∀ (d n : Nat) (v : Word) (s : State), dieExists s d = true → n < 16 →
    exec (.obsPrbCfgWrite d n v) s = .next (csrStore s d (prw n OBS_PRB_CFG_0) v s.mode.plOpen)) ∧
  (∀ (d : Nat) (v : Word) (s : State), dieExists s d = true → v.getLsbD 1 = true → ∃ t, exec (.obsStatClear d v) s = .next t ∧
    t.stats = s.stats.drop (fun k => k / 128 == d))

/-! ## Boot, secrets and the host (R765 to R802) -/

/-- BOOT_RESET_RELEASE, PCIE_LINK_UP, BOOT_GO, BOOT_VERIFY_DONE, SVN_ADVANCE, SVC_REQUEST, LOCKSTEP_MISMATCH, TLR_MIRROR_FENCE,
MIRROR_FENCE_COMPLETE, TLR_SEND: where each completes, and with what. -/
def Obligations.BootCommandsComplete : Prop :=
  (∀ (d : Nat) (s : State), isKind s d .service = true → bootState s d = 0 → (s.store d).state ≠ 3 →
    exec (.bootResetRelease d true) s = .next { setBoot (clearWindow s d) d 1 with headDie := d } ∧
    exec (.bootResetRelease d false) s = .next (setBoot (clearWindow s d) d 2)) ∧
  (∀ (d : Nat) (s : State), isKind s d .service = true → bootState s d = 1 →
    ∃ t, exec (.pcieLinkUp d) s = .next t ∧ bootState t d = 2 ∧ t.mem = s.mem) ∧
  (∀ (d : Nat) (s : State), isKind s d .service = true → bootState s d = 2 →
    ∃ t, exec (.bootGo d) s = .next t ∧ bootState t d = 3 ∧ t.mem = s.mem) ∧
  (∀ (d : Nat) (s : State), isKind s d .service = true → bootState s d = 3 → exec (.bootVerifyDone d) s = .next (bootVerified s d) ∧
    (bootResult s d ≠ 1 → bootState (bootVerified s d) d = 2)) ∧
  (∀ (d : Nat) (s : State), isKind s d .service = true → bootState s d = 4 → (s.store d).state = 1 → ∃ t,
    exec (.svnAdvance d) s = .next t ∧ (t.store d).svn = max (s.store d).svn (min 64 (s.boots.get {} d).svn) ∧ t.mem = s.mem) ∧
  (∀ s : State, s.mode = .fit → areaOk s = true → ∃ t, exec .svcRequest s = .next t ∧ t.fld s.headDie TLR_SVC_STATUS 2 0 = 1 ∧
    t.svcAt = some (s.reg s.headDie TLR_SVC_FT).toNat) ∧
  (∀ (d : Nat) (s : State), isKind s d .service = true → exec (.lockstepMismatch d false) s = .next (s.raise d TLR_STATUS 6) ∧
    exec (.lockstepMismatch d true) s = .next (s.raise d TLR_STATUS 7)) ∧
  (∀ s : State, isKind s s.headDie .service = true → isKind s s.mirrorDie .service = true → s.ledger.unmirrored = false →
    exec (.tlrMirrorFence s.headDie) s = .next (s.raise s.headDie TLR_STATUS 5)) ∧
  (∀ s : State, headRuns s = true → exec .mirrorFenceComplete s = .next (s.setFld s.headDie TLR_STATUS 5 5 0)) ∧
  (∀ (d : Nat) (p : Packet) (s : State), dieExists s d = true → packetMisuse (sendBuffer (fillSend s d p) d) = none →
    exec (.tlrSend d p) s = .next (sendAt (fillSend s d p) d attCtl (sendBuffer (fillSend s d p) d)))

/-- PROVISION, PROVISION_DONE, ERASE, DEBUG_OPEN, DBG_OPEN_REQ, LEDGER_DONE, DEBUG_LEDGER_TIMEOUT, ZEROISE_DONE, ZEROISE_RETRY: where
each completes, and with what. A zeroised store holds no private key, no chain key and no owner key, and the SVN fuses stay. -/
def Obligations.SecretCommandsComplete : Prop :=
  ((∀ (d : Nat) (s : State), isKind s d .service = true → keyOk (ownerBytes s d) = true → provisionMay s d = true →
    exec (.provision d) s = .next (setSecState ({ s with provision := some (drawStore s d) }.setStore d
      { s.store d with draws := (s.store d).draws + 1 }) d 4)) ∧
  (∀ (d : Nat) (s : State), isKind s d .service = true → keyOk (ownerBytes s d) = false →
    exec (.provision d) s = .next (secResult s d 3)) ∧
  (∀ (d : Nat) (p : Store) (s : State), isKind s d .service = true → s.provision = some p → (s.store d).state = 4 → s.debugWait = none →
    exec (.provisionDone d true) s = .next { secResult ((serviceDies s).foldl (fun s x => takeStore s p x) s) d 1 with
      provision := none, debugWait := none } ∧
    exec (.provisionDone d false) s = .next { secResult (setSecState s d p.state) d 4 with provision := none, debugWait := none }) ∧
  (∀ (d : Nat) (s : State), isKind s d .service = true → debugStep s ≠ 2 → s.eraseOnly = false →
    exec (.erase d) s = .next { erasing s with eraseOnly := true }) ∧
  (∀ (d : Nat) (s : State), isKind s d .service = true → exec (.debugOpen d) s = .next (openRequest s 0) ∧
    exec (.dbgOpenReq d) s = .next (openRequest s 1)) ∧
  (∀ (d : Nat) (s : State), isKind s d .service = true → debugStep s = 1 → exec (.ledgerDone d) s = .next (erasing (setDebugStep s 2))) ∧
  (∀ s : State, debugStep s = 1 → s.debugFt + 50000000 ≤ s.now s.headDie →
    exec .debugLedgerTimeout s = .next (erasing (setDebugStep s 2))) ∧
  (∀ s : State, s.eraseOnly = true → debugStep s ≠ 2 → exec .zeroiseDone s =
    .next ((serviceDies s).foldl (fun s d => irqAt (zeroise s d) d 6) { s with eraseOnly := false })) ∧
  (∀ s : State, zeroising s = true → exec .zeroiseRetry s = .next ((serviceDies s).foldl (fun s d => s.raise d SEC_STATUS 4) s))) ∧
  (∀ x : Store, (zeroStore x).priv.all (· == 0) = true ∧ (zeroStore x).chainKey.all (· == 0) = true ∧
    (zeroStore x).owner.all (· == 0) = true ∧ (zeroStore x).svn = x.svn)

/-- BAR2_WRITE, BAR2_READ, BAR2_READ_TIMEOUT, RCSR_READ, RCSR_WRITE, RCSR_TIMEOUT: where each completes, and with what. -/
def Obligations.HostCommandsComplete : Prop :=
  (∀ (d off : Nat) (bs : Bytes) (s : State), isKind s d .service = true → off + bs.length ≤ 2 ^ 28 → s.mode ≠ .cold → s.mode ≠ .stop →
    exec (.bar2Write d off bs) s = .next (sendAll s d attHost (hostPackets s d bs.length off bs))) ∧
  (∀ (d off n : Nat) (s : State), isKind s d .service = true → 0 < n → off + n ≤ 2 ^ 28 →
    (s.mode ≠ .cold → s.mode ≠ .stop → exec (.bar2Read d off n) s = .next (hostReads d (n / 64 + 2) off n s)) ∧
    (s.mode = .cold ∨ s.mode = .stop → exec (.bar2Read d off n) s =
      .next { s with hostOut := s.hostOut ++ [(off, List.replicate n 0xFF)] })) ∧
  (∀ (d slot : Nat) (s : State) (j : HostJob), isKind s d .service = true → slot < 3840 → s.barJobs.get none (hk d slot) = some j →
    j.kind = 0 → j.startFt + 50000 ≤ s.now d → exec (.bar2ReadTimeout d slot) s =
      .next (hostFail { s with barJobs := s.barJobs.set none (hk d slot) (some { j with kind := 3 }) } d j)) ∧
  (∀ (d : Nat) (s : State), isKind s d .service = true → s.flag d TLR_RCSR_CTL 8 = false → s.mode ≠ .cold → s.mode ≠ .stop →
    exec (.rcsrRead d) s = .next (rcsrPacket { s.raise d TLR_RCSR_CTL 8 with
      rcsr := s.rcsr.set none d (some { kind := 1, addr := (s.reg d TLR_RCSR_ADDR).toNat, startFt := s.now d }) } d false) ∧
    exec (.rcsrWrite d) s = .next (rcsrPacket { s.raise d TLR_RCSR_CTL 8 with
      rcsr := s.rcsr.set none d (some { kind := 2, addr := (s.reg d TLR_RCSR_ADDR).toNat, startFt := s.now d }) } d true)) ∧
  (∀ (d : Nat) (s : State) (j : HostJob), isKind s d .service = true → s.rcsr.get none d = some j → j.startFt + 100000 ≤ s.now d →
    exec (.rcsrTimeout d) s = .next (rcsrEnd s d 2 none))

/-! ## Where commands stop -/

/-- A command for a die that the package has not stops, and so does a packet command whose packet has another command or breaks one of
R72 to R126 (log 9). A packet whose header check fails is discarded with a fault record of CLASS 3 and counted at its NI, whatever its
other fields say, and its command has no effect (R12, R124, R125, R200). -/
def Obligations.CommandsStop : Prop :=
  ((∀ (d : Nat) (s : State), dieExists s d = false → exec (.coldReset d) s = .fault .noSuchUnit ∧
    exec (.mndTailorKick d) s = .fault .noSuchUnit ∧ exec (.timFtRead d) s = .fault .noSuchUnit) ∧
  (∀ (d : Nat) (s : State), isKind s d .service = false → exec (.bootGo d) s = .fault .noSuchUnit ∧
    exec (.erase d) s = .fault .noSuchUnit) ∧
  (∀ (d p : Nat) (pk : Packet) (s : State), isTile s d p = true → attExists s d p = true → attHalted s d p = false →
    attHemmed s d p pk.hdr = false → pk.hdr.crcOk = true →
    (pk.hdr.cmd ≠ 0x01 → exec (.write d p pk) s = .fault .wrongCommand) ∧
    (∀ r, pk.hdr.cmd = 0x01 → packetMisuse pk = some r → exec (.write d p pk) s = .fault (.undefinedMisuse r)))) ∧
  (∀ (d att : Nat) (pk : Packet) (s : State), attExists s d att = true → attHalted s d att = false → attHemmed s d att pk.hdr = false →
    delivers s d att = true → pk.hdr.crcOk = false →
    exec (.write d att pk) s = .next (badArrival s d att pk) ∧ exec (.writeAck d att pk) s = .next (badArrival s d att pk) ∧
    exec (.write8 d att pk) s = .next (badArrival s d att pk) ∧ exec (.read d att pk) s = .next (badArrival s d att pk) ∧
    (badArrival s d att pk).mem = s.mem ∧
    (∀ t, arrivalNi s d att = some t → badArrival s d att pk = hcrcFault ((offWire s d att pk).bump d (niw t NI_HCRC_ERR) 47 0 1) d
      (att % 1024) pk.hdr.vc.toNat pk.hdr.tag.toNat))
end

