-- ==== Sys2Proof/Laws/Tables.lean ====
section
/-! SUPPORT. The laws of the tables: reading after a change, and the canonical form that every change keeps. -/

set_option Elab.async false

namespace Sys2Proof

variable {α : Type}

/-- Every key of a list of rows lies above `b`. -/
def keysAbove (b : Nat) (rs : List (Nat × α)) : Prop := ∀ r ∈ rs, b < r.1

theorem rowsSorted_cons (a : Nat × α) (rs : List (Nat × α)) :
    rowsSorted (a :: rs) = true ↔ keysAbove a.1 rs ∧ rowsSorted rs = true := by
  induction rs generalizing a with
  | nil => simp [rowsSorted, keysAbove]
  | cons b rs ih =>
    simp only [rowsSorted, Bool.and_eq_true, decide_eq_true_eq, ih b, keysAbove, List.mem_cons, forall_eq_or_imp]
    constructor
    · rintro ⟨h1, h2, h3⟩
      exact ⟨⟨h1, fun r hr => Nat.lt_trans h1 (h2 r hr)⟩, h2, h3⟩
    · rintro ⟨⟨h1, _⟩, h3, h4⟩
      exact ⟨h1, h3, h4⟩

theorem rowsSorted_filter (p : Nat × α → Bool) (rs : List (Nat × α)) (h : rowsSorted rs = true) :
    rowsSorted (rs.filter p) = true := by
  induction rs with
  | nil => exact h
  | cons a rs ih =>
    rw [rowsSorted_cons] at h
    rw [List.filter_cons]
    split
    · rw [rowsSorted_cons]
      exact ⟨fun r hr => h.1 r (List.mem_filter.mp hr).1, ih h.2⟩
    · exact ih h.2

theorem mem_rowPut {rs : List (Nat × α)} {k : Nat} {v : α} {r : Nat × α} (h : r ∈ rowPut rs k v) : r = (k, v) ∨ r ∈ rs := by
  induction rs with
  | nil => simpa [rowPut] using h
  | cons a rs ih =>
    simp only [rowPut] at h
    split at h
    · simpa using h
    · split at h
      · rcases List.mem_cons.mp h with h | h
        · exact .inl h
        · exact .inr (List.mem_cons_of_mem _ h)
      · rcases List.mem_cons.mp h with h | h
        · exact .inr (h ▸ List.mem_cons_self)
        · exact (ih h).imp id (List.mem_cons_of_mem _)

theorem rowsSorted_rowPut (rs : List (Nat × α)) (k : Nat) (v : α) (h : rowsSorted rs = true) :
    rowsSorted (rowPut rs k v) = true := by
  induction rs with
  | nil => rfl
  | cons a rs ih =>
    have h' := (rowsSorted_cons a rs).mp h
    simp only [rowPut]
    split
    · rename_i hk
      rw [rowsSorted_cons]
      exact ⟨fun r hr => (List.mem_cons.mp hr).elim (fun e => e ▸ hk) (fun hr => Nat.lt_trans hk (h'.1 r hr)), h⟩
    · split
      · rename_i hk
        rw [rowsSorted_cons]
        exact ⟨hk ▸ h'.1, h'.2⟩
      · rw [rowsSorted_cons]
        refine ⟨fun r hr => ?_, ih h'.2⟩
        rcases mem_rowPut hr with hr | hr
        · subst hr; show a.1 < k; omega
        · exact h'.1 r hr

theorem find_rowPut_same (rs : List (Nat × α)) (k : Nat) (v : α) : (rowPut rs k v).find? (fun r => r.1 == k) = some (k, v) := by
  induction rs with
  | nil => simp [rowPut]
  | cons a rs ih =>
    simp only [rowPut]
    split
    · simp
    · split
      · simp
      · rename_i h1 h2
        rw [List.find?_cons_of_neg (by simpa using fun e => h2 e.symm)]
        exact ih

theorem find_rowPut_other (rs : List (Nat × α)) (k j : Nat) (v : α) (hj : j ≠ k) :
    (rowPut rs k v).find? (fun r => r.1 == j) = rs.find? (fun r => r.1 == j) := by
  induction rs with
  | nil => simp [rowPut, Ne.symm hj]
  | cons a rs ih =>
    simp only [rowPut]
    split
    · rw [List.find?_cons_of_neg (by simpa using Ne.symm hj)]
    · split
      · rename_i hk
        rw [List.find?_cons_of_neg (by simpa using Ne.symm hj), List.find?_cons_of_neg (by simpa [hk] using hk ▸ Ne.symm hj)]
      · rw [List.find?_cons, List.find?_cons, ih]

theorem find_rowDel_same (rs : List (Nat × α)) (k : Nat) : (rowDel rs k).find? (fun r => r.1 == k) = none := by
  rw [List.find?_eq_none]
  intro r hr
  simpa [rowDel] using (List.mem_filter.mp hr).2

theorem find_rowDel_other (rs : List (Nat × α)) (k j : Nat) (hj : j ≠ k) :
    (rowDel rs k).find? (fun r => r.1 == j) = rs.find? (fun r => r.1 == j) := by
  induction rs with
  | nil => rfl
  | cons a rs ih =>
    simp only [rowDel, List.filter_cons]
    split
    · rw [List.find?_cons, List.find?_cons]
      simp only [rowDel] at ih
      rw [ih]
    · rename_i h
      have ha : a.1 = k := by simpa using h
      rw [List.find?_cons_of_neg (by simpa [ha] using Ne.symm hj)]
      exact ih

variable [DecidableEq α]

/-- Reading a record just written gives it. -/
@[simp] theorem Tbl.get_set_same (t : Tbl α) (d : α) (k : Nat) (v : α) : (t.set d k v).get d k = v := by
  unfold Tbl.set
  split
  · rename_i e
    simp [Tbl.get, find_rowDel_same, e]
  · simp [Tbl.get, find_rowPut_same]

/-- Writing one record leaves every other as it was. -/
theorem Tbl.get_set_other (t : Tbl α) (d : α) (k j : Nat) (v : α) (hj : j ≠ k) : (t.set d k v).get d j = t.get d j := by
  unfold Tbl.set
  split
  · simp [Tbl.get, find_rowDel_other _ _ _ hj]
  · simp [Tbl.get, find_rowPut_other _ _ _ _ hj]

/-- A change keeps the canonical form. -/
theorem Tbl.wf_set (t : Tbl α) (d : α) (k : Nat) (v : α) (h : t.wf d = true) : (t.set d k v).wf d = true := by
  simp only [Tbl.wf, Bool.and_eq_true, List.all_eq_true, decide_eq_true_eq] at h ⊢
  unfold Tbl.set
  split
  · exact ⟨rowsSorted_filter _ _ h.1, fun r hr => h.2 r (List.mem_filter.mp hr).1⟩
  · rename_i hv
    refine ⟨rowsSorted_rowPut _ _ _ h.1, fun r hr => ?_⟩
    rcases mem_rowPut hr with hr | hr
    · rw [hr]; exact hv
    · exact h.2 r hr

/-- Dropping rows keeps the canonical form. -/
theorem Tbl.wf_drop (t : Tbl α) (d : α) (p : Nat → Bool) (h : t.wf d = true) : (t.drop p).wf d = true := by
  simp only [Tbl.wf, Bool.and_eq_true, List.all_eq_true, decide_eq_true_eq] at h ⊢
  exact ⟨rowsSorted_filter _ _ h.1, fun r hr => h.2 r (List.mem_filter.mp hr).1⟩

end Sys2Proof
end

