-- ==== Sys2Proof/Laws/Memory.lean ====
section
/-! SUPPORT. The laws of memory (R65 to R70): reading after writing, and the canonical form that every operation keeps. -/

set_option Elab.async false

namespace Sys2Proof.Machine

open Sys2Proof

/-- A write keeps the canonical form. -/
@[simp] theorem writeByte_wf {m : List Host.Cell} (a : Nat) (b : Byte) (h : Memory.wf m = true) : Memory.wf (writeByte m a b) = true := by
  simp only [Memory.wf, Bool.and_eq_true, List.all_eq_true, decide_eq_true_eq] at h ⊢
  unfold writeByte
  split
  · exact ⟨rowsSorted_filter _ _ h.1, fun r hr => h.2 r (List.mem_filter.mp hr).1⟩
  · rename_i hb
    refine ⟨rowsSorted_rowPut _ _ _ h.1, fun r hr => ?_⟩
    rcases mem_rowPut hr with hr | hr
    · rw [hr]; exact hb
    · exact h.2 r hr

/-- Reading the byte just written gives it. -/
theorem readByte_writeByte_same (m : List Host.Cell) (a : Nat) (b : Byte) : readByte (writeByte m a b) a = b := by
  unfold writeByte
  split
  · rename_i hb
    simp [readByte, find_rowDel_same, hb]
  · simp [readByte, find_rowPut_same]

/-- A write leaves every other byte as it was. -/
theorem readByte_writeByte_other (m : List Host.Cell) (a x : Nat) (b : Byte) (hx : x ≠ a) :
    readByte (writeByte m a b) x = readByte m x := by
  unfold writeByte
  split
  · simp [readByte, find_rowDel_other _ _ _ hx]
  · simp [readByte, find_rowPut_other _ _ _ _ hx]

/-- Dropping bytes keeps the canonical form. -/
@[simp] theorem filter_wf {m : List Host.Cell} (p : Host.Cell → Bool) (h : Memory.wf m = true) : Memory.wf (m.filter p) = true := by
  simp only [Memory.wf, Bool.and_eq_true, List.all_eq_true, decide_eq_true_eq] at h ⊢
  exact ⟨rowsSorted_filter _ _ h.1, fun r hr => h.2 r (List.mem_filter.mp hr).1⟩

@[simp] theorem writeMasked_wf {m : List Host.Cell} (a : Nat) (en : Nat → Bool) (bs : List Byte) (h : Memory.wf m = true) :
    Memory.wf (writeMasked m a en bs) = true := by
  induction bs generalizing m a en with
  | nil => exact h
  | cons b bs ih =>
    unfold writeMasked
    split
    · exact ih _ _ (writeByte_wf _ _ h)
    · exact ih _ _ h

/-- A masked write leaves every byte outside its range as it was. -/
theorem readByte_writeMasked_outside (m : List Host.Cell) (a x : Nat) (en : Nat → Bool) (bs : List Byte)
    (hx : x < a ∨ a + bs.length ≤ x) : readByte (writeMasked m a en bs) x = readByte m x := by
  induction bs generalizing m a en with
  | nil => rfl
  | cons b bs ih =>
    simp only [List.length_cons] at hx
    unfold writeMasked
    rw [ih _ _ _ (by omega)]
    split
    · exact readByte_writeByte_other _ _ _ _ (by omega)
    · rfl

/-- A masked write puts every enabled byte of its range. -/
theorem readByte_writeMasked_inside (m : List Host.Cell) (a i : Nat) (en : Nat → Bool) (bs : List Byte) (hi : i < bs.length) :
    readByte (writeMasked m a en bs) (a + i) = if en i then bs[i] else readByte m (a + i) := by
  induction bs generalizing m a en i with
  | nil => simp at hi
  | cons b bs ih =>
    unfold writeMasked
    cases i with
    | zero =>
      rw [readByte_writeMasked_outside _ _ _ _ _ (by omega)]
      by_cases he : en 0 = true
      · simpa [he] using readByte_writeByte_same m a b
      · simp [he]
    | succ i =>
      have e : a + (i + 1) = a + 1 + i := by omega
      have hi' : i < bs.length := by simpa using hi
      rw [e, ih _ (a + 1) i (fun i => en (i + 1)) hi']
      have hr : readByte (if en 0 = true then writeByte m a b else m) (a + 1 + i) = readByte m (a + 1 + i) := by
        split
        · exact readByte_writeByte_other _ _ _ _ (by omega)
        · rfl
      rw [hr]
      rfl

@[simp] theorem writeBytes_wf {m : List Host.Cell} (a : Nat) (bs : List Byte) (h : Memory.wf m = true) : Memory.wf (writeBytes m a bs) = true :=
  writeMasked_wf _ _ _ h

@[simp] theorem writeUnit_wf {m : List Host.Cell} (a : Nat) (u : DataUnit) (h : Memory.wf m = true) : Memory.wf (writeUnit m a u) = true :=
  writeBytes_wf _ _ h

@[simp] theorem writeWord_wf {m : List Host.Cell} (a : Nat) (w : Word) (h : Memory.wf m = true) : Memory.wf (writeWord m a w) = true :=
  writeBytes_wf _ _ h

@[simp] theorem putUnit_wf {m : List Host.Cell} (key : Nat → Nat) (limit off mask : Nat) (u : DataUnit) (h : Memory.wf m = true) :
    Memory.wf (putUnit m key limit off mask u) = true := by
  unfold putUnit
  split
  · exact writeMasked_wf _ _ _ h
  · exact h

@[simp] theorem putUnits_wf {m : List Host.Cell} (key : Nat → Nat) (limit off mask : Nat) (us : List DataUnit) (h : Memory.wf m = true) :
    Memory.wf (putUnits m key limit off mask us) = true := by
  induction us generalizing m off with
  | nil => exact h
  | cons u us ih => exact ih _ (putUnit_wf _ _ _ _ _ h)

/-- A fold of operations that keep the canonical form keeps it. -/
theorem foldl_wf {β : Type} (f : List Host.Cell → β → List Host.Cell) (hf : ∀ m b, Memory.wf m = true → Memory.wf (f m b) = true)
    (l : List β) {m : List Host.Cell} (h : Memory.wf m = true) : Memory.wf (l.foldl f m) = true := by
  induction l generalizing m with
  | nil => exact h
  | cons b l ih => exact ih (hf _ _ h)

@[simp] theorem putBlocks_wf {m : List Host.Cell} (key : Nat → Nat) (limit off : Nat) (bs : List (Nat × DataUnit)) (h : Memory.wf m = true) :
    Memory.wf (putBlocks m key limit off bs) = true :=
  foldl_wf _ (fun _ _ h => putUnit_wf _ _ _ _ _ h) _ h

@[simp] theorem putPacket_wf {m : List Host.Cell} (key : Nat → Nat) (limit off : Nat) (p : Packet) (h : Memory.wf m = true) :
    Memory.wf (putPacket m key limit off p) = true := by
  unfold putPacket
  split
  · exact putBlocks_wf _ _ _ _ h
  · exact putUnits_wf _ _ _ _ _ h

@[simp] theorem putInline_wf {m : List Host.Cell} (key : Nat → Nat) (limit off : Nat) (h : Hdr) (hm : Memory.wf m = true) :
    Memory.wf (putInline m key limit off h) = true := by
  unfold putInline
  dsimp only
  split
  · exact writeMasked_wf _ _ _ hm
  · exact hm

@[simp] theorem putCounts_wf {m : List Host.Cell} (key : Nat → Nat) (limit off : Nat) (h : Hdr) (hm : Memory.wf m = true) :
    Memory.wf (putCounts m key limit off h) = true := by
  unfold putCounts
  dsimp only
  split
  · exact writeWord_wf _ _ hm
  · exact hm

@[simp] theorem tileClear_wf {m : List Host.Cell} (d p off n : Nat) (h : Memory.wf m = true) : Memory.wf (tileClear m d p off n) = true := by
  induction n generalizing m off with
  | zero => exact h
  | succ n ih => exact ih _ (putUnit_wf _ _ _ _ _ h)

@[simp] theorem ringPut_wf (s : State) {m : List Host.Cell} (d i : Nat) (us : List DataUnit) (h : Memory.wf m = true) :
    Memory.wf (ringPut s d i us m) = true := by
  induction us generalizing m i with
  | nil => exact h
  | cons u us ih => exact ih _ (putUnit_wf _ _ _ _ _ h)

@[simp] theorem moveScratch_wf {m : List Host.Cell} (d a b : Nat) (h : Memory.wf m = true) : Memory.wf (moveScratch m d a b) = true :=
  foldl_wf _ (fun _ _ h => writeByte_wf _ _ h) _ (filter_wf _ h)

@[simp] theorem copySpace_wf {m : List Host.Cell} (a b : Nat) (h : Memory.wf m = true) : Memory.wf (copySpace m a b) = true :=
  foldl_wf _ (fun _ _ h => writeByte_wf _ _ h) _ h

/-- A unit written at an offset leaves every byte outside its 64 as it was (R69). -/
theorem readByte_putUnit_outside (m : List Host.Cell) (key : Nat → Nat) (limit off mask x : Nat) (u : DataUnit)
    (hx : x < key off ∨ key off + 64 ≤ x) : readByte (putUnit m key limit off mask u) x = readByte m x := by
  unfold putUnit
  split
  · refine readByte_writeMasked_outside _ _ _ _ _ ?_
    have : ∀ n x, (bytesOfNat n x).length = n := by
      intro n
      induction n with
      | zero => intro x; rfl
      | succ n ih => intro x; simp [bytesOfNat, ih]
    rw [this]
    exact hx
  · rfl

end Sys2Proof.Machine
end

