-- ==== Sys2Proof/Laws/State.lean ====
section
/-! SUPPORT. What each update of the state leaves as it was: one lemma per field per update. -/

set_option Elab.async false

namespace Sys2Proof.Machine

variable (s : State)

/-! `setReg` -/

@[simp] theorem State.setReg_pending (d off : Nat) (v : Word) : (s.setReg d off v).pending = s.pending := (rfl)
@[simp] theorem State.setReg_free (d off : Nat) (v : Word) : (s.setReg d off v).free = s.free := (rfl)
@[simp] theorem State.setReg_setNow (d off : Nat) (v : Word) : (s.setReg d off v).setNow = s.setNow := (rfl)
@[simp] theorem State.setReg_wroteNow (d off : Nat) (v : Word) : (s.setReg d off v).wroteNow = s.wroteNow := (rfl)
@[simp] theorem State.setReg_floor (d off : Nat) (v : Word) : (s.setReg d off v).floor = s.floor := (rfl)
@[simp] theorem State.setReg_physical (d off : Nat) (v : Word) : (s.setReg d off v).physical = s.physical := (rfl)
@[simp] theorem State.setReg_memOwned (d off : Nat) (v : Word) : (s.setReg d off v).memOwned = s.memOwned := (rfl)
@[simp] theorem State.setReg_mem (d off : Nat) (v : Word) : (s.setReg d off v).mem = s.mem := (rfl)
@[simp] theorem State.setReg_mode (d off : Nat) (v : Word) : (s.setReg d off v).mode = s.mode := (rfl)
@[simp] theorem State.setReg_headDie (d off : Nat) (v : Word) : (s.setReg d off v).headDie = s.headDie := (rfl)
@[simp] theorem State.setReg_mirrorDie (d off : Nat) (v : Word) : (s.setReg d off v).mirrorDie = s.mirrorDie := (rfl)
@[simp] theorem State.setReg_slotTab (d off : Nat) (v : Word) : (s.setReg d off v).slotTab = s.slotTab := (rfl)
@[simp] theorem State.setReg_treeTab (d off : Nat) (v : Word) : (s.setReg d off v).treeTab = s.treeTab := (rfl)
@[simp] theorem State.setReg_joinTab (d off : Nat) (v : Word) : (s.setReg d off v).joinTab = s.joinTab := (rfl)
@[simp] theorem State.setReg_routeTab (d off : Nat) (v : Word) : (s.setReg d off v).routeTab = s.routeTab := (rfl)
@[simp] theorem State.setReg_routeStore (d off : Nat) (v : Word) : (s.setReg d off v).routeStore = s.routeStore := (rfl)
@[simp] theorem State.setReg_arrivalTab (d off : Nat) (v : Word) : (s.setReg d off v).arrivalTab = s.arrivalTab := (rfl)
@[simp] theorem State.setReg_gateTab (d off : Nat) (v : Word) : (s.setReg d off v).gateTab = s.gateTab := (rfl)
@[simp] theorem State.setReg_keepers (d off : Nat) (v : Word) : (s.setReg d off v).keepers = s.keepers := (rfl)
@[simp] theorem State.setReg_regions (d off : Nat) (v : Word) : (s.setReg d off v).regions = s.regions := (rfl)
@[simp] theorem State.setReg_panelReq (d off : Nat) (v : Word) : (s.setReg d off v).panelReq = s.panelReq := (rfl)
@[simp] theorem State.setReg_gates (d off : Nat) (v : Word) : (s.setReg d off v).gates = s.gates := (rfl)
@[simp] theorem State.setReg_shapers (d off : Nat) (v : Word) : (s.setReg d off v).shapers = s.shapers := (rfl)
@[simp] theorem State.setReg_sampleFrom (d off : Nat) (v : Word) : (s.setReg d off v).sampleFrom = s.sampleFrom := (rfl)
@[simp] theorem State.setReg_govs (d off : Nat) (v : Word) : (s.setReg d off v).govs = s.govs := (rfl)
@[simp] theorem State.setReg_routers (d off : Nat) (v : Word) : (s.setReg d off v).routers = s.routers := (rfl)
@[simp] theorem State.setReg_wires (d off : Nat) (v : Word) : (s.setReg d off v).wires = s.wires := (rfl)
@[simp] theorem State.setReg_credWires (d off : Nat) (v : Word) : (s.setReg d off v).credWires = s.credWires := (rfl)
@[simp] theorem State.setReg_edgeHem (d off : Nat) (v : Word) : (s.setReg d off v).edgeHem = s.edgeHem := (rfl)
@[simp] theorem State.setReg_seams (d off : Nat) (v : Word) : (s.setReg d off v).seams = s.seams := (rfl)
@[simp] theorem State.setReg_nis (d off : Nat) (v : Word) : (s.setReg d off v).nis = s.nis := (rfl)
@[simp] theorem State.setReg_inj (d off : Nat) (v : Word) : (s.setReg d off v).inj = s.inj := (rfl)
@[simp] theorem State.setReg_stream (d off : Nat) (v : Word) : (s.setReg d off v).stream = s.stream := (rfl)
@[simp] theorem State.setReg_injCount (d off : Nat) (v : Word) : (s.setReg d off v).injCount = s.injCount := (rfl)
@[simp] theorem State.setReg_hints (d off : Nat) (v : Word) : (s.setReg d off v).hints = s.hints := (rfl)
@[simp] theorem State.setReg_outTags (d off : Nat) (v : Word) : (s.setReg d off v).outTags = s.outTags := (rfl)
@[simp] theorem State.setReg_bursts (d off : Nat) (v : Word) : (s.setReg d off v).bursts = s.bursts := (rfl)
@[simp] theorem State.setReg_orderHold (d off : Nat) (v : Word) : (s.setReg d off v).orderHold = s.orderHold := (rfl)
@[simp] theorem State.setReg_halted (d off : Nat) (v : Word) : (s.setReg d off v).halted = s.halted := (rfl)
@[simp] theorem State.setReg_catchShut (d off : Nat) (v : Word) : (s.setReg d off v).catchShut = s.catchShut := (rfl)
@[simp] theorem State.setReg_secCount (d off : Nat) (v : Word) : (s.setReg d off v).secCount = s.secCount := (rfl)
@[simp] theorem State.setReg_dedCount (d off : Nat) (v : Word) : (s.setReg d off v).dedCount = s.dedCount := (rfl)
@[simp] theorem State.setReg_flog (d off : Nat) (v : Word) : (s.setReg d off v).flog = s.flog := (rfl)
@[simp] theorem State.setReg_flogFull (d off : Nat) (v : Word) : (s.setReg d off v).flogFull = s.flogFull := (rfl)
@[simp] theorem State.setReg_fwd (d off : Nat) (v : Word) : (s.setReg d off v).fwd = s.fwd := (rfl)
@[simp] theorem State.setReg_traces (d off : Nat) (v : Word) : (s.setReg d off v).traces = s.traces := (rfl)
@[simp] theorem State.setReg_stats (d off : Nat) (v : Word) : (s.setReg d off v).stats = s.stats := (rfl)
@[simp] theorem State.setReg_prbCount (d off : Nat) (v : Word) : (s.setReg d off v).prbCount = s.prbCount := (rfl)
@[simp] theorem State.setReg_patRw (d off : Nat) (v : Word) : (s.setReg d off v).patRw = s.patRw := (rfl)
@[simp] theorem State.setReg_svcAt (d off : Nat) (v : Word) : (s.setReg d off v).svcAt = s.svcAt := (rfl)
@[simp] theorem State.setReg_timeReq (d off : Nat) (v : Word) : (s.setReg d off v).timeReq = s.timeReq := (rfl)
@[simp] theorem State.setReg_syncObj (d off : Nat) (v : Word) : (s.setReg d off v).syncObj = s.syncObj := (rfl)
@[simp] theorem State.setReg_syncInit (d off : Nat) (v : Word) : (s.setReg d off v).syncInit = s.syncInit := (rfl)
@[simp] theorem State.setReg_syncDone (d off : Nat) (v : Word) : (s.setReg d off v).syncDone = s.syncDone := (rfl)
@[simp] theorem State.setReg_syncUsed (d off : Nat) (v : Word) : (s.setReg d off v).syncUsed = s.syncUsed := (rfl)
@[simp] theorem State.setReg_syncLeft (d off : Nat) (v : Word) : (s.setReg d off v).syncLeft = s.syncLeft := (rfl)
@[simp] theorem State.setReg_syncBreak (d off : Nat) (v : Word) : (s.setReg d off v).syncBreak = s.syncBreak := (rfl)
@[simp] theorem State.setReg_memports (d off : Nat) (v : Word) : (s.setReg d off v).memports = s.memports := (rfl)
@[simp] theorem State.setReg_ces (d off : Nat) (v : Word) : (s.setReg d off v).ces = s.ces := (rfl)
@[simp] theorem State.setReg_ledger (d off : Nat) (v : Word) : (s.setReg d off v).ledger = s.ledger := (rfl)
@[simp] theorem State.setReg_stores (d off : Nat) (v : Word) : (s.setReg d off v).stores = s.stores := (rfl)
@[simp] theorem State.setReg_boots (d off : Nat) (v : Word) : (s.setReg d off v).boots = s.boots := (rfl)
@[simp] theorem State.setReg_msix (d off : Nat) (v : Word) : (s.setReg d off v).msix = s.msix := (rfl)
@[simp] theorem State.setReg_wins (d off : Nat) (v : Word) : (s.setReg d off v).wins = s.wins := (rfl)
@[simp] theorem State.setReg_cmtClosed (d off : Nat) (v : Word) : (s.setReg d off v).cmtClosed = s.cmtClosed := (rfl)
@[simp] theorem State.setReg_coords (d off : Nat) (v : Word) : (s.setReg d off v).coords = s.coords := (rfl)
@[simp] theorem State.setReg_loader (d off : Nat) (v : Word) : (s.setReg d off v).loader = s.loader := (rfl)
@[simp] theorem State.setReg_patches (d off : Nat) (v : Word) : (s.setReg d off v).patches = s.patches := (rfl)
@[simp] theorem State.setReg_patchNum (d off : Nat) (v : Word) : (s.setReg d off v).patchNum = s.patchNum := (rfl)
@[simp] theorem State.setReg_patchLog (d off : Nat) (v : Word) : (s.setReg d off v).patchLog = s.patchLog := (rfl)
@[simp] theorem State.setReg_areaUsed (d off : Nat) (v : Word) : (s.setReg d off v).areaUsed = s.areaUsed := (rfl)
@[simp] theorem State.setReg_posted (d off : Nat) (v : Word) : (s.setReg d off v).posted = s.posted := (rfl)
@[simp] theorem State.setReg_plWant (d off : Nat) (v : Word) : (s.setReg d off v).plWant = s.plWant := (rfl)
@[simp] theorem State.setReg_hbs (d off : Nat) (v : Word) : (s.setReg d off v).hbs = s.hbs := (rfl)
@[simp] theorem State.setReg_hbFrom (d off : Nat) (v : Word) : (s.setReg d off v).hbFrom = s.hbFrom := (rfl)
@[simp] theorem State.setReg_hbSent (d off : Nat) (v : Word) : (s.setReg d off v).hbSent = s.hbSent := (rfl)
@[simp] theorem State.setReg_pkgHbSent (d off : Nat) (v : Word) : (s.setReg d off v).pkgHbSent = s.pkgHbSent := (rfl)
@[simp] theorem State.setReg_suspects (d off : Nat) (v : Word) : (s.setReg d off v).suspects = s.suspects := (rfl)
@[simp] theorem State.setReg_vseq (d off : Nat) (v : Word) : (s.setReg d off v).vseq = s.vseq := (rfl)
@[simp] theorem State.setReg_verdictsSeen (d off : Nat) (v : Word) : (s.setReg d off v).verdictsSeen = s.verdictsSeen := (rfl)
@[simp] theorem State.setReg_deadPkgs (d off : Nat) (v : Word) : (s.setReg d off v).deadPkgs = s.deadPkgs := (rfl)
@[simp] theorem State.setReg_selfDead (d off : Nat) (v : Word) : (s.setReg d off v).selfDead = s.selfDead := (rfl)
@[simp] theorem State.setReg_deadUnits (d off : Nat) (v : Word) : (s.setReg d off v).deadUnits = s.deadUnits := (rfl)
@[simp] theorem State.setReg_probeSeqs (d off : Nat) (v : Word) : (s.setReg d off v).probeSeqs = s.probeSeqs := (rfl)
@[simp] theorem State.setReg_probeWires (d off : Nat) (v : Word) : (s.setReg d off v).probeWires = s.probeWires := (rfl)
@[simp] theorem State.setReg_secWindow (d off : Nat) (v : Word) : (s.setReg d off v).secWindow = s.secWindow := (rfl)
@[simp] theorem State.setReg_wearFt (d off : Nat) (v : Word) : (s.setReg d off v).wearFt = s.wearFt := (rfl)
@[simp] theorem State.setReg_telemFt (d off : Nat) (v : Word) : (s.setReg d off v).telemFt = s.telemFt := (rfl)
@[simp] theorem State.setReg_telem (d off : Nat) (v : Word) : (s.setReg d off v).telem = s.telem := (rfl)
@[simp] theorem State.setReg_darns (d off : Nat) (v : Word) : (s.setReg d off v).darns = s.darns := (rfl)
@[simp] theorem State.setReg_stalls (d off : Nat) (v : Word) : (s.setReg d off v).stalls = s.stalls := (rfl)
@[simp] theorem State.setReg_kickFt (d off : Nat) (v : Word) : (s.setReg d off v).kickFt = s.kickFt := (rfl)
@[simp] theorem State.setReg_dumps (d off : Nat) (v : Word) : (s.setReg d off v).dumps = s.dumps := (rfl)
@[simp] theorem State.setReg_mpTrained (d off : Nat) (v : Word) : (s.setReg d off v).mpTrained = s.mpTrained := (rfl)
@[simp] theorem State.setReg_stopNext (d off : Nat) (v : Word) : (s.setReg d off v).stopNext = s.stopNext := (rfl)
@[simp] theorem State.setReg_armWait (d off : Nat) (v : Word) : (s.setReg d off v).armWait = s.armWait := (rfl)
@[simp] theorem State.setReg_stls (d off : Nat) (v : Word) : (s.setReg d off v).stls = s.stls := (rfl)
@[simp] theorem State.setReg_transitPos (d off : Nat) (v : Word) : (s.setReg d off v).transitPos = s.transitPos := (rfl)
@[simp] theorem State.setReg_debugFt (d off : Nat) (v : Word) : (s.setReg d off v).debugFt = s.debugFt := (rfl)
@[simp] theorem State.setReg_debugWait (d off : Nat) (v : Word) : (s.setReg d off v).debugWait = s.debugWait := (rfl)
@[simp] theorem State.setReg_eraseOnly (d off : Nat) (v : Word) : (s.setReg d off v).eraseOnly = s.eraseOnly := (rfl)
@[simp] theorem State.setReg_provision (d off : Nat) (v : Word) : (s.setReg d off v).provision = s.provision := (rfl)
@[simp] theorem State.setReg_barJobs (d off : Nat) (v : Word) : (s.setReg d off v).barJobs = s.barJobs := (rfl)
@[simp] theorem State.setReg_hostOut (d off : Nat) (v : Word) : (s.setReg d off v).hostOut = s.hostOut := (rfl)
@[simp] theorem State.setReg_rcsr (d off : Nat) (v : Word) : (s.setReg d off v).rcsr = s.rcsr := (rfl)
@[simp] theorem State.setReg_tileReset (d off : Nat) (v : Word) : (s.setReg d off v).tileReset = s.tileReset := (rfl)
@[simp] theorem State.setReg_pkgMend (d off : Nat) (v : Word) : (s.setReg d off v).pkgMend = s.pkgMend := (rfl)
@[simp] theorem State.setReg_rejoinFt (d off : Nat) (v : Word) : (s.setReg d off v).rejoinFt = s.rejoinFt := (rfl)
@[simp] theorem State.setReg_testFails (d off : Nat) (v : Word) : (s.setReg d off v).testFails = s.testFails := (rfl)
@[simp] theorem State.setReg_testReport (d off : Nat) (v : Word) : (s.setReg d off v).testReport = s.testReport := (rfl)

/-! `setFld` -/

@[simp] theorem State.setFld_pending (d off hi lo v : Nat) : (s.setFld d off hi lo v).pending = s.pending := (rfl)
@[simp] theorem State.setFld_free (d off hi lo v : Nat) : (s.setFld d off hi lo v).free = s.free := (rfl)
@[simp] theorem State.setFld_setNow (d off hi lo v : Nat) : (s.setFld d off hi lo v).setNow = s.setNow := (rfl)
@[simp] theorem State.setFld_wroteNow (d off hi lo v : Nat) : (s.setFld d off hi lo v).wroteNow = s.wroteNow := (rfl)
@[simp] theorem State.setFld_floor (d off hi lo v : Nat) : (s.setFld d off hi lo v).floor = s.floor := (rfl)
@[simp] theorem State.setFld_physical (d off hi lo v : Nat) : (s.setFld d off hi lo v).physical = s.physical := (rfl)
@[simp] theorem State.setFld_memOwned (d off hi lo v : Nat) : (s.setFld d off hi lo v).memOwned = s.memOwned := (rfl)
@[simp] theorem State.setFld_mem (d off hi lo v : Nat) : (s.setFld d off hi lo v).mem = s.mem := (rfl)
@[simp] theorem State.setFld_mode (d off hi lo v : Nat) : (s.setFld d off hi lo v).mode = s.mode := (rfl)
@[simp] theorem State.setFld_headDie (d off hi lo v : Nat) : (s.setFld d off hi lo v).headDie = s.headDie := (rfl)
@[simp] theorem State.setFld_mirrorDie (d off hi lo v : Nat) : (s.setFld d off hi lo v).mirrorDie = s.mirrorDie := (rfl)
@[simp] theorem State.setFld_slotTab (d off hi lo v : Nat) : (s.setFld d off hi lo v).slotTab = s.slotTab := (rfl)
@[simp] theorem State.setFld_treeTab (d off hi lo v : Nat) : (s.setFld d off hi lo v).treeTab = s.treeTab := (rfl)
@[simp] theorem State.setFld_joinTab (d off hi lo v : Nat) : (s.setFld d off hi lo v).joinTab = s.joinTab := (rfl)
@[simp] theorem State.setFld_routeTab (d off hi lo v : Nat) : (s.setFld d off hi lo v).routeTab = s.routeTab := (rfl)
@[simp] theorem State.setFld_routeStore (d off hi lo v : Nat) : (s.setFld d off hi lo v).routeStore = s.routeStore := (rfl)
@[simp] theorem State.setFld_arrivalTab (d off hi lo v : Nat) : (s.setFld d off hi lo v).arrivalTab = s.arrivalTab := (rfl)
@[simp] theorem State.setFld_gateTab (d off hi lo v : Nat) : (s.setFld d off hi lo v).gateTab = s.gateTab := (rfl)
@[simp] theorem State.setFld_keepers (d off hi lo v : Nat) : (s.setFld d off hi lo v).keepers = s.keepers := (rfl)
@[simp] theorem State.setFld_regions (d off hi lo v : Nat) : (s.setFld d off hi lo v).regions = s.regions := (rfl)
@[simp] theorem State.setFld_panelReq (d off hi lo v : Nat) : (s.setFld d off hi lo v).panelReq = s.panelReq := (rfl)
@[simp] theorem State.setFld_gates (d off hi lo v : Nat) : (s.setFld d off hi lo v).gates = s.gates := (rfl)
@[simp] theorem State.setFld_shapers (d off hi lo v : Nat) : (s.setFld d off hi lo v).shapers = s.shapers := (rfl)
@[simp] theorem State.setFld_sampleFrom (d off hi lo v : Nat) : (s.setFld d off hi lo v).sampleFrom = s.sampleFrom := (rfl)
@[simp] theorem State.setFld_govs (d off hi lo v : Nat) : (s.setFld d off hi lo v).govs = s.govs := (rfl)
@[simp] theorem State.setFld_routers (d off hi lo v : Nat) : (s.setFld d off hi lo v).routers = s.routers := (rfl)
@[simp] theorem State.setFld_wires (d off hi lo v : Nat) : (s.setFld d off hi lo v).wires = s.wires := (rfl)
@[simp] theorem State.setFld_credWires (d off hi lo v : Nat) : (s.setFld d off hi lo v).credWires = s.credWires := (rfl)
@[simp] theorem State.setFld_edgeHem (d off hi lo v : Nat) : (s.setFld d off hi lo v).edgeHem = s.edgeHem := (rfl)
@[simp] theorem State.setFld_seams (d off hi lo v : Nat) : (s.setFld d off hi lo v).seams = s.seams := (rfl)
@[simp] theorem State.setFld_nis (d off hi lo v : Nat) : (s.setFld d off hi lo v).nis = s.nis := (rfl)
@[simp] theorem State.setFld_inj (d off hi lo v : Nat) : (s.setFld d off hi lo v).inj = s.inj := (rfl)
@[simp] theorem State.setFld_stream (d off hi lo v : Nat) : (s.setFld d off hi lo v).stream = s.stream := (rfl)
@[simp] theorem State.setFld_injCount (d off hi lo v : Nat) : (s.setFld d off hi lo v).injCount = s.injCount := (rfl)
@[simp] theorem State.setFld_hints (d off hi lo v : Nat) : (s.setFld d off hi lo v).hints = s.hints := (rfl)
@[simp] theorem State.setFld_outTags (d off hi lo v : Nat) : (s.setFld d off hi lo v).outTags = s.outTags := (rfl)
@[simp] theorem State.setFld_bursts (d off hi lo v : Nat) : (s.setFld d off hi lo v).bursts = s.bursts := (rfl)
@[simp] theorem State.setFld_orderHold (d off hi lo v : Nat) : (s.setFld d off hi lo v).orderHold = s.orderHold := (rfl)
@[simp] theorem State.setFld_halted (d off hi lo v : Nat) : (s.setFld d off hi lo v).halted = s.halted := (rfl)
@[simp] theorem State.setFld_catchShut (d off hi lo v : Nat) : (s.setFld d off hi lo v).catchShut = s.catchShut := (rfl)
@[simp] theorem State.setFld_secCount (d off hi lo v : Nat) : (s.setFld d off hi lo v).secCount = s.secCount := (rfl)
@[simp] theorem State.setFld_dedCount (d off hi lo v : Nat) : (s.setFld d off hi lo v).dedCount = s.dedCount := (rfl)
@[simp] theorem State.setFld_flog (d off hi lo v : Nat) : (s.setFld d off hi lo v).flog = s.flog := (rfl)
@[simp] theorem State.setFld_flogFull (d off hi lo v : Nat) : (s.setFld d off hi lo v).flogFull = s.flogFull := (rfl)
@[simp] theorem State.setFld_fwd (d off hi lo v : Nat) : (s.setFld d off hi lo v).fwd = s.fwd := (rfl)
@[simp] theorem State.setFld_traces (d off hi lo v : Nat) : (s.setFld d off hi lo v).traces = s.traces := (rfl)
@[simp] theorem State.setFld_stats (d off hi lo v : Nat) : (s.setFld d off hi lo v).stats = s.stats := (rfl)
@[simp] theorem State.setFld_prbCount (d off hi lo v : Nat) : (s.setFld d off hi lo v).prbCount = s.prbCount := (rfl)
@[simp] theorem State.setFld_patRw (d off hi lo v : Nat) : (s.setFld d off hi lo v).patRw = s.patRw := (rfl)
@[simp] theorem State.setFld_svcAt (d off hi lo v : Nat) : (s.setFld d off hi lo v).svcAt = s.svcAt := (rfl)
@[simp] theorem State.setFld_timeReq (d off hi lo v : Nat) : (s.setFld d off hi lo v).timeReq = s.timeReq := (rfl)
@[simp] theorem State.setFld_syncObj (d off hi lo v : Nat) : (s.setFld d off hi lo v).syncObj = s.syncObj := (rfl)
@[simp] theorem State.setFld_syncInit (d off hi lo v : Nat) : (s.setFld d off hi lo v).syncInit = s.syncInit := (rfl)
@[simp] theorem State.setFld_syncDone (d off hi lo v : Nat) : (s.setFld d off hi lo v).syncDone = s.syncDone := (rfl)
@[simp] theorem State.setFld_syncUsed (d off hi lo v : Nat) : (s.setFld d off hi lo v).syncUsed = s.syncUsed := (rfl)
@[simp] theorem State.setFld_syncLeft (d off hi lo v : Nat) : (s.setFld d off hi lo v).syncLeft = s.syncLeft := (rfl)
@[simp] theorem State.setFld_syncBreak (d off hi lo v : Nat) : (s.setFld d off hi lo v).syncBreak = s.syncBreak := (rfl)
@[simp] theorem State.setFld_memports (d off hi lo v : Nat) : (s.setFld d off hi lo v).memports = s.memports := (rfl)
@[simp] theorem State.setFld_ces (d off hi lo v : Nat) : (s.setFld d off hi lo v).ces = s.ces := (rfl)
@[simp] theorem State.setFld_ledger (d off hi lo v : Nat) : (s.setFld d off hi lo v).ledger = s.ledger := (rfl)
@[simp] theorem State.setFld_stores (d off hi lo v : Nat) : (s.setFld d off hi lo v).stores = s.stores := (rfl)
@[simp] theorem State.setFld_boots (d off hi lo v : Nat) : (s.setFld d off hi lo v).boots = s.boots := (rfl)
@[simp] theorem State.setFld_msix (d off hi lo v : Nat) : (s.setFld d off hi lo v).msix = s.msix := (rfl)
@[simp] theorem State.setFld_wins (d off hi lo v : Nat) : (s.setFld d off hi lo v).wins = s.wins := (rfl)
@[simp] theorem State.setFld_cmtClosed (d off hi lo v : Nat) : (s.setFld d off hi lo v).cmtClosed = s.cmtClosed := (rfl)
@[simp] theorem State.setFld_coords (d off hi lo v : Nat) : (s.setFld d off hi lo v).coords = s.coords := (rfl)
@[simp] theorem State.setFld_loader (d off hi lo v : Nat) : (s.setFld d off hi lo v).loader = s.loader := (rfl)
@[simp] theorem State.setFld_patches (d off hi lo v : Nat) : (s.setFld d off hi lo v).patches = s.patches := (rfl)
@[simp] theorem State.setFld_patchNum (d off hi lo v : Nat) : (s.setFld d off hi lo v).patchNum = s.patchNum := (rfl)
@[simp] theorem State.setFld_patchLog (d off hi lo v : Nat) : (s.setFld d off hi lo v).patchLog = s.patchLog := (rfl)
@[simp] theorem State.setFld_areaUsed (d off hi lo v : Nat) : (s.setFld d off hi lo v).areaUsed = s.areaUsed := (rfl)
@[simp] theorem State.setFld_posted (d off hi lo v : Nat) : (s.setFld d off hi lo v).posted = s.posted := (rfl)
@[simp] theorem State.setFld_plWant (d off hi lo v : Nat) : (s.setFld d off hi lo v).plWant = s.plWant := (rfl)
@[simp] theorem State.setFld_hbs (d off hi lo v : Nat) : (s.setFld d off hi lo v).hbs = s.hbs := (rfl)
@[simp] theorem State.setFld_hbFrom (d off hi lo v : Nat) : (s.setFld d off hi lo v).hbFrom = s.hbFrom := (rfl)
@[simp] theorem State.setFld_hbSent (d off hi lo v : Nat) : (s.setFld d off hi lo v).hbSent = s.hbSent := (rfl)
@[simp] theorem State.setFld_pkgHbSent (d off hi lo v : Nat) : (s.setFld d off hi lo v).pkgHbSent = s.pkgHbSent := (rfl)
@[simp] theorem State.setFld_suspects (d off hi lo v : Nat) : (s.setFld d off hi lo v).suspects = s.suspects := (rfl)
@[simp] theorem State.setFld_vseq (d off hi lo v : Nat) : (s.setFld d off hi lo v).vseq = s.vseq := (rfl)
@[simp] theorem State.setFld_verdictsSeen (d off hi lo v : Nat) : (s.setFld d off hi lo v).verdictsSeen = s.verdictsSeen := (rfl)
@[simp] theorem State.setFld_deadPkgs (d off hi lo v : Nat) : (s.setFld d off hi lo v).deadPkgs = s.deadPkgs := (rfl)
@[simp] theorem State.setFld_selfDead (d off hi lo v : Nat) : (s.setFld d off hi lo v).selfDead = s.selfDead := (rfl)
@[simp] theorem State.setFld_deadUnits (d off hi lo v : Nat) : (s.setFld d off hi lo v).deadUnits = s.deadUnits := (rfl)
@[simp] theorem State.setFld_probeSeqs (d off hi lo v : Nat) : (s.setFld d off hi lo v).probeSeqs = s.probeSeqs := (rfl)
@[simp] theorem State.setFld_probeWires (d off hi lo v : Nat) : (s.setFld d off hi lo v).probeWires = s.probeWires := (rfl)
@[simp] theorem State.setFld_secWindow (d off hi lo v : Nat) : (s.setFld d off hi lo v).secWindow = s.secWindow := (rfl)
@[simp] theorem State.setFld_wearFt (d off hi lo v : Nat) : (s.setFld d off hi lo v).wearFt = s.wearFt := (rfl)
@[simp] theorem State.setFld_telemFt (d off hi lo v : Nat) : (s.setFld d off hi lo v).telemFt = s.telemFt := (rfl)
@[simp] theorem State.setFld_telem (d off hi lo v : Nat) : (s.setFld d off hi lo v).telem = s.telem := (rfl)
@[simp] theorem State.setFld_darns (d off hi lo v : Nat) : (s.setFld d off hi lo v).darns = s.darns := (rfl)
@[simp] theorem State.setFld_stalls (d off hi lo v : Nat) : (s.setFld d off hi lo v).stalls = s.stalls := (rfl)
@[simp] theorem State.setFld_kickFt (d off hi lo v : Nat) : (s.setFld d off hi lo v).kickFt = s.kickFt := (rfl)
@[simp] theorem State.setFld_dumps (d off hi lo v : Nat) : (s.setFld d off hi lo v).dumps = s.dumps := (rfl)
@[simp] theorem State.setFld_mpTrained (d off hi lo v : Nat) : (s.setFld d off hi lo v).mpTrained = s.mpTrained := (rfl)
@[simp] theorem State.setFld_stopNext (d off hi lo v : Nat) : (s.setFld d off hi lo v).stopNext = s.stopNext := (rfl)
@[simp] theorem State.setFld_armWait (d off hi lo v : Nat) : (s.setFld d off hi lo v).armWait = s.armWait := (rfl)
@[simp] theorem State.setFld_stls (d off hi lo v : Nat) : (s.setFld d off hi lo v).stls = s.stls := (rfl)
@[simp] theorem State.setFld_transitPos (d off hi lo v : Nat) : (s.setFld d off hi lo v).transitPos = s.transitPos := (rfl)
@[simp] theorem State.setFld_debugFt (d off hi lo v : Nat) : (s.setFld d off hi lo v).debugFt = s.debugFt := (rfl)
@[simp] theorem State.setFld_debugWait (d off hi lo v : Nat) : (s.setFld d off hi lo v).debugWait = s.debugWait := (rfl)
@[simp] theorem State.setFld_eraseOnly (d off hi lo v : Nat) : (s.setFld d off hi lo v).eraseOnly = s.eraseOnly := (rfl)
@[simp] theorem State.setFld_provision (d off hi lo v : Nat) : (s.setFld d off hi lo v).provision = s.provision := (rfl)
@[simp] theorem State.setFld_barJobs (d off hi lo v : Nat) : (s.setFld d off hi lo v).barJobs = s.barJobs := (rfl)
@[simp] theorem State.setFld_hostOut (d off hi lo v : Nat) : (s.setFld d off hi lo v).hostOut = s.hostOut := (rfl)
@[simp] theorem State.setFld_rcsr (d off hi lo v : Nat) : (s.setFld d off hi lo v).rcsr = s.rcsr := (rfl)
@[simp] theorem State.setFld_tileReset (d off hi lo v : Nat) : (s.setFld d off hi lo v).tileReset = s.tileReset := (rfl)
@[simp] theorem State.setFld_pkgMend (d off hi lo v : Nat) : (s.setFld d off hi lo v).pkgMend = s.pkgMend := (rfl)
@[simp] theorem State.setFld_rejoinFt (d off hi lo v : Nat) : (s.setFld d off hi lo v).rejoinFt = s.rejoinFt := (rfl)
@[simp] theorem State.setFld_testFails (d off hi lo v : Nat) : (s.setFld d off hi lo v).testFails = s.testFails := (rfl)
@[simp] theorem State.setFld_testReport (d off hi lo v : Nat) : (s.setFld d off hi lo v).testReport = s.testReport := (rfl)

/-! `raise` -/

@[simp] theorem State.raise_pending (d off b : Nat) : (s.raise d off b).pending = s.pending := (rfl)
@[simp] theorem State.raise_free (d off b : Nat) : (s.raise d off b).free = s.free := (rfl)
@[simp] theorem State.raise_wroteNow (d off b : Nat) : (s.raise d off b).wroteNow = s.wroteNow := (rfl)
@[simp] theorem State.raise_floor (d off b : Nat) : (s.raise d off b).floor = s.floor := (rfl)
@[simp] theorem State.raise_physical (d off b : Nat) : (s.raise d off b).physical = s.physical := (rfl)
@[simp] theorem State.raise_memOwned (d off b : Nat) : (s.raise d off b).memOwned = s.memOwned := (rfl)
@[simp] theorem State.raise_mem (d off b : Nat) : (s.raise d off b).mem = s.mem := (rfl)
@[simp] theorem State.raise_mode (d off b : Nat) : (s.raise d off b).mode = s.mode := (rfl)
@[simp] theorem State.raise_headDie (d off b : Nat) : (s.raise d off b).headDie = s.headDie := (rfl)
@[simp] theorem State.raise_mirrorDie (d off b : Nat) : (s.raise d off b).mirrorDie = s.mirrorDie := (rfl)
@[simp] theorem State.raise_slotTab (d off b : Nat) : (s.raise d off b).slotTab = s.slotTab := (rfl)
@[simp] theorem State.raise_treeTab (d off b : Nat) : (s.raise d off b).treeTab = s.treeTab := (rfl)
@[simp] theorem State.raise_joinTab (d off b : Nat) : (s.raise d off b).joinTab = s.joinTab := (rfl)
@[simp] theorem State.raise_routeTab (d off b : Nat) : (s.raise d off b).routeTab = s.routeTab := (rfl)
@[simp] theorem State.raise_routeStore (d off b : Nat) : (s.raise d off b).routeStore = s.routeStore := (rfl)
@[simp] theorem State.raise_arrivalTab (d off b : Nat) : (s.raise d off b).arrivalTab = s.arrivalTab := (rfl)
@[simp] theorem State.raise_gateTab (d off b : Nat) : (s.raise d off b).gateTab = s.gateTab := (rfl)
@[simp] theorem State.raise_keepers (d off b : Nat) : (s.raise d off b).keepers = s.keepers := (rfl)
@[simp] theorem State.raise_regions (d off b : Nat) : (s.raise d off b).regions = s.regions := (rfl)
@[simp] theorem State.raise_panelReq (d off b : Nat) : (s.raise d off b).panelReq = s.panelReq := (rfl)
@[simp] theorem State.raise_gates (d off b : Nat) : (s.raise d off b).gates = s.gates := (rfl)
@[simp] theorem State.raise_shapers (d off b : Nat) : (s.raise d off b).shapers = s.shapers := (rfl)
@[simp] theorem State.raise_sampleFrom (d off b : Nat) : (s.raise d off b).sampleFrom = s.sampleFrom := (rfl)
@[simp] theorem State.raise_govs (d off b : Nat) : (s.raise d off b).govs = s.govs := (rfl)
@[simp] theorem State.raise_routers (d off b : Nat) : (s.raise d off b).routers = s.routers := (rfl)
@[simp] theorem State.raise_wires (d off b : Nat) : (s.raise d off b).wires = s.wires := (rfl)
@[simp] theorem State.raise_credWires (d off b : Nat) : (s.raise d off b).credWires = s.credWires := (rfl)
@[simp] theorem State.raise_edgeHem (d off b : Nat) : (s.raise d off b).edgeHem = s.edgeHem := (rfl)
@[simp] theorem State.raise_seams (d off b : Nat) : (s.raise d off b).seams = s.seams := (rfl)
@[simp] theorem State.raise_nis (d off b : Nat) : (s.raise d off b).nis = s.nis := (rfl)
@[simp] theorem State.raise_inj (d off b : Nat) : (s.raise d off b).inj = s.inj := (rfl)
@[simp] theorem State.raise_stream (d off b : Nat) : (s.raise d off b).stream = s.stream := (rfl)
@[simp] theorem State.raise_injCount (d off b : Nat) : (s.raise d off b).injCount = s.injCount := (rfl)
@[simp] theorem State.raise_hints (d off b : Nat) : (s.raise d off b).hints = s.hints := (rfl)
@[simp] theorem State.raise_outTags (d off b : Nat) : (s.raise d off b).outTags = s.outTags := (rfl)
@[simp] theorem State.raise_bursts (d off b : Nat) : (s.raise d off b).bursts = s.bursts := (rfl)
@[simp] theorem State.raise_orderHold (d off b : Nat) : (s.raise d off b).orderHold = s.orderHold := (rfl)
@[simp] theorem State.raise_halted (d off b : Nat) : (s.raise d off b).halted = s.halted := (rfl)
@[simp] theorem State.raise_catchShut (d off b : Nat) : (s.raise d off b).catchShut = s.catchShut := (rfl)
@[simp] theorem State.raise_secCount (d off b : Nat) : (s.raise d off b).secCount = s.secCount := (rfl)
@[simp] theorem State.raise_dedCount (d off b : Nat) : (s.raise d off b).dedCount = s.dedCount := (rfl)
@[simp] theorem State.raise_flog (d off b : Nat) : (s.raise d off b).flog = s.flog := (rfl)
@[simp] theorem State.raise_flogFull (d off b : Nat) : (s.raise d off b).flogFull = s.flogFull := (rfl)
@[simp] theorem State.raise_fwd (d off b : Nat) : (s.raise d off b).fwd = s.fwd := (rfl)
@[simp] theorem State.raise_traces (d off b : Nat) : (s.raise d off b).traces = s.traces := (rfl)
@[simp] theorem State.raise_stats (d off b : Nat) : (s.raise d off b).stats = s.stats := (rfl)
@[simp] theorem State.raise_prbCount (d off b : Nat) : (s.raise d off b).prbCount = s.prbCount := (rfl)
@[simp] theorem State.raise_patRw (d off b : Nat) : (s.raise d off b).patRw = s.patRw := (rfl)
@[simp] theorem State.raise_svcAt (d off b : Nat) : (s.raise d off b).svcAt = s.svcAt := (rfl)
@[simp] theorem State.raise_timeReq (d off b : Nat) : (s.raise d off b).timeReq = s.timeReq := (rfl)
@[simp] theorem State.raise_syncObj (d off b : Nat) : (s.raise d off b).syncObj = s.syncObj := (rfl)
@[simp] theorem State.raise_syncInit (d off b : Nat) : (s.raise d off b).syncInit = s.syncInit := (rfl)
@[simp] theorem State.raise_syncDone (d off b : Nat) : (s.raise d off b).syncDone = s.syncDone := (rfl)
@[simp] theorem State.raise_syncUsed (d off b : Nat) : (s.raise d off b).syncUsed = s.syncUsed := (rfl)
@[simp] theorem State.raise_syncLeft (d off b : Nat) : (s.raise d off b).syncLeft = s.syncLeft := (rfl)
@[simp] theorem State.raise_syncBreak (d off b : Nat) : (s.raise d off b).syncBreak = s.syncBreak := (rfl)
@[simp] theorem State.raise_memports (d off b : Nat) : (s.raise d off b).memports = s.memports := (rfl)
@[simp] theorem State.raise_ces (d off b : Nat) : (s.raise d off b).ces = s.ces := (rfl)
@[simp] theorem State.raise_ledger (d off b : Nat) : (s.raise d off b).ledger = s.ledger := (rfl)
@[simp] theorem State.raise_stores (d off b : Nat) : (s.raise d off b).stores = s.stores := (rfl)
@[simp] theorem State.raise_boots (d off b : Nat) : (s.raise d off b).boots = s.boots := (rfl)
@[simp] theorem State.raise_msix (d off b : Nat) : (s.raise d off b).msix = s.msix := (rfl)
@[simp] theorem State.raise_wins (d off b : Nat) : (s.raise d off b).wins = s.wins := (rfl)
@[simp] theorem State.raise_cmtClosed (d off b : Nat) : (s.raise d off b).cmtClosed = s.cmtClosed := (rfl)
@[simp] theorem State.raise_coords (d off b : Nat) : (s.raise d off b).coords = s.coords := (rfl)
@[simp] theorem State.raise_loader (d off b : Nat) : (s.raise d off b).loader = s.loader := (rfl)
@[simp] theorem State.raise_patches (d off b : Nat) : (s.raise d off b).patches = s.patches := (rfl)
@[simp] theorem State.raise_patchNum (d off b : Nat) : (s.raise d off b).patchNum = s.patchNum := (rfl)
@[simp] theorem State.raise_patchLog (d off b : Nat) : (s.raise d off b).patchLog = s.patchLog := (rfl)
@[simp] theorem State.raise_areaUsed (d off b : Nat) : (s.raise d off b).areaUsed = s.areaUsed := (rfl)
@[simp] theorem State.raise_posted (d off b : Nat) : (s.raise d off b).posted = s.posted := (rfl)
@[simp] theorem State.raise_plWant (d off b : Nat) : (s.raise d off b).plWant = s.plWant := (rfl)
@[simp] theorem State.raise_hbs (d off b : Nat) : (s.raise d off b).hbs = s.hbs := (rfl)
@[simp] theorem State.raise_hbFrom (d off b : Nat) : (s.raise d off b).hbFrom = s.hbFrom := (rfl)
@[simp] theorem State.raise_hbSent (d off b : Nat) : (s.raise d off b).hbSent = s.hbSent := (rfl)
@[simp] theorem State.raise_pkgHbSent (d off b : Nat) : (s.raise d off b).pkgHbSent = s.pkgHbSent := (rfl)
@[simp] theorem State.raise_suspects (d off b : Nat) : (s.raise d off b).suspects = s.suspects := (rfl)
@[simp] theorem State.raise_vseq (d off b : Nat) : (s.raise d off b).vseq = s.vseq := (rfl)
@[simp] theorem State.raise_verdictsSeen (d off b : Nat) : (s.raise d off b).verdictsSeen = s.verdictsSeen := (rfl)
@[simp] theorem State.raise_deadPkgs (d off b : Nat) : (s.raise d off b).deadPkgs = s.deadPkgs := (rfl)
@[simp] theorem State.raise_selfDead (d off b : Nat) : (s.raise d off b).selfDead = s.selfDead := (rfl)
@[simp] theorem State.raise_deadUnits (d off b : Nat) : (s.raise d off b).deadUnits = s.deadUnits := (rfl)
@[simp] theorem State.raise_probeSeqs (d off b : Nat) : (s.raise d off b).probeSeqs = s.probeSeqs := (rfl)
@[simp] theorem State.raise_probeWires (d off b : Nat) : (s.raise d off b).probeWires = s.probeWires := (rfl)
@[simp] theorem State.raise_secWindow (d off b : Nat) : (s.raise d off b).secWindow = s.secWindow := (rfl)
@[simp] theorem State.raise_wearFt (d off b : Nat) : (s.raise d off b).wearFt = s.wearFt := (rfl)
@[simp] theorem State.raise_telemFt (d off b : Nat) : (s.raise d off b).telemFt = s.telemFt := (rfl)
@[simp] theorem State.raise_telem (d off b : Nat) : (s.raise d off b).telem = s.telem := (rfl)
@[simp] theorem State.raise_darns (d off b : Nat) : (s.raise d off b).darns = s.darns := (rfl)
@[simp] theorem State.raise_stalls (d off b : Nat) : (s.raise d off b).stalls = s.stalls := (rfl)
@[simp] theorem State.raise_kickFt (d off b : Nat) : (s.raise d off b).kickFt = s.kickFt := (rfl)
@[simp] theorem State.raise_dumps (d off b : Nat) : (s.raise d off b).dumps = s.dumps := (rfl)
@[simp] theorem State.raise_mpTrained (d off b : Nat) : (s.raise d off b).mpTrained = s.mpTrained := (rfl)
@[simp] theorem State.raise_stopNext (d off b : Nat) : (s.raise d off b).stopNext = s.stopNext := (rfl)
@[simp] theorem State.raise_armWait (d off b : Nat) : (s.raise d off b).armWait = s.armWait := (rfl)
@[simp] theorem State.raise_stls (d off b : Nat) : (s.raise d off b).stls = s.stls := (rfl)
@[simp] theorem State.raise_transitPos (d off b : Nat) : (s.raise d off b).transitPos = s.transitPos := (rfl)
@[simp] theorem State.raise_debugFt (d off b : Nat) : (s.raise d off b).debugFt = s.debugFt := (rfl)
@[simp] theorem State.raise_debugWait (d off b : Nat) : (s.raise d off b).debugWait = s.debugWait := (rfl)
@[simp] theorem State.raise_eraseOnly (d off b : Nat) : (s.raise d off b).eraseOnly = s.eraseOnly := (rfl)
@[simp] theorem State.raise_provision (d off b : Nat) : (s.raise d off b).provision = s.provision := (rfl)
@[simp] theorem State.raise_barJobs (d off b : Nat) : (s.raise d off b).barJobs = s.barJobs := (rfl)
@[simp] theorem State.raise_hostOut (d off b : Nat) : (s.raise d off b).hostOut = s.hostOut := (rfl)
@[simp] theorem State.raise_rcsr (d off b : Nat) : (s.raise d off b).rcsr = s.rcsr := (rfl)
@[simp] theorem State.raise_tileReset (d off b : Nat) : (s.raise d off b).tileReset = s.tileReset := (rfl)
@[simp] theorem State.raise_pkgMend (d off b : Nat) : (s.raise d off b).pkgMend = s.pkgMend := (rfl)
@[simp] theorem State.raise_rejoinFt (d off b : Nat) : (s.raise d off b).rejoinFt = s.rejoinFt := (rfl)
@[simp] theorem State.raise_testFails (d off b : Nat) : (s.raise d off b).testFails = s.testFails := (rfl)
@[simp] theorem State.raise_testReport (d off b : Nat) : (s.raise d off b).testReport = s.testReport := (rfl)

/-! `bump` -/

@[simp] theorem State.bump_pending (d off hi lo n : Nat) : (s.bump d off hi lo n).pending = s.pending := by
  unfold State.bump; split <;> rfl
@[simp] theorem State.bump_free (d off hi lo n : Nat) : (s.bump d off hi lo n).free = s.free := by
  unfold State.bump; split <;> rfl
@[simp] theorem State.bump_setNow (d off hi lo n : Nat) : (s.bump d off hi lo n).setNow = s.setNow := by
  unfold State.bump; split <;> rfl
@[simp] theorem State.bump_wroteNow (d off hi lo n : Nat) : (s.bump d off hi lo n).wroteNow = s.wroteNow := by
  unfold State.bump; split <;> rfl
@[simp] theorem State.bump_floor (d off hi lo n : Nat) : (s.bump d off hi lo n).floor = s.floor := by
  unfold State.bump; split <;> rfl
@[simp] theorem State.bump_physical (d off hi lo n : Nat) : (s.bump d off hi lo n).physical = s.physical := by
  unfold State.bump; split <;> rfl
@[simp] theorem State.bump_memOwned (d off hi lo n : Nat) : (s.bump d off hi lo n).memOwned = s.memOwned := by
  unfold State.bump; split <;> rfl
@[simp] theorem State.bump_mem (d off hi lo n : Nat) : (s.bump d off hi lo n).mem = s.mem := by
  unfold State.bump; split <;> rfl
@[simp] theorem State.bump_mode (d off hi lo n : Nat) : (s.bump d off hi lo n).mode = s.mode := by
  unfold State.bump; split <;> rfl
@[simp] theorem State.bump_headDie (d off hi lo n : Nat) : (s.bump d off hi lo n).headDie = s.headDie := by
  unfold State.bump; split <;> rfl
@[simp] theorem State.bump_mirrorDie (d off hi lo n : Nat) : (s.bump d off hi lo n).mirrorDie = s.mirrorDie := by
  unfold State.bump; split <;> rfl
@[simp] theorem State.bump_slotTab (d off hi lo n : Nat) : (s.bump d off hi lo n).slotTab = s.slotTab := by
  unfold State.bump; split <;> rfl
@[simp] theorem State.bump_treeTab (d off hi lo n : Nat) : (s.bump d off hi lo n).treeTab = s.treeTab := by
  unfold State.bump; split <;> rfl
@[simp] theorem State.bump_joinTab (d off hi lo n : Nat) : (s.bump d off hi lo n).joinTab = s.joinTab := by
  unfold State.bump; split <;> rfl
@[simp] theorem State.bump_routeTab (d off hi lo n : Nat) : (s.bump d off hi lo n).routeTab = s.routeTab := by
  unfold State.bump; split <;> rfl
@[simp] theorem State.bump_routeStore (d off hi lo n : Nat) : (s.bump d off hi lo n).routeStore = s.routeStore := by
  unfold State.bump; split <;> rfl
@[simp] theorem State.bump_arrivalTab (d off hi lo n : Nat) : (s.bump d off hi lo n).arrivalTab = s.arrivalTab := by
  unfold State.bump; split <;> rfl
@[simp] theorem State.bump_gateTab (d off hi lo n : Nat) : (s.bump d off hi lo n).gateTab = s.gateTab := by
  unfold State.bump; split <;> rfl
@[simp] theorem State.bump_keepers (d off hi lo n : Nat) : (s.bump d off hi lo n).keepers = s.keepers := by
  unfold State.bump; split <;> rfl
@[simp] theorem State.bump_regions (d off hi lo n : Nat) : (s.bump d off hi lo n).regions = s.regions := by
  unfold State.bump; split <;> rfl
@[simp] theorem State.bump_panelReq (d off hi lo n : Nat) : (s.bump d off hi lo n).panelReq = s.panelReq := by
  unfold State.bump; split <;> rfl
@[simp] theorem State.bump_gates (d off hi lo n : Nat) : (s.bump d off hi lo n).gates = s.gates := by
  unfold State.bump; split <;> rfl
@[simp] theorem State.bump_shapers (d off hi lo n : Nat) : (s.bump d off hi lo n).shapers = s.shapers := by
  unfold State.bump; split <;> rfl
@[simp] theorem State.bump_sampleFrom (d off hi lo n : Nat) : (s.bump d off hi lo n).sampleFrom = s.sampleFrom := by
  unfold State.bump; split <;> rfl
@[simp] theorem State.bump_govs (d off hi lo n : Nat) : (s.bump d off hi lo n).govs = s.govs := by
  unfold State.bump; split <;> rfl
@[simp] theorem State.bump_routers (d off hi lo n : Nat) : (s.bump d off hi lo n).routers = s.routers := by
  unfold State.bump; split <;> rfl
@[simp] theorem State.bump_wires (d off hi lo n : Nat) : (s.bump d off hi lo n).wires = s.wires := by
  unfold State.bump; split <;> rfl
@[simp] theorem State.bump_credWires (d off hi lo n : Nat) : (s.bump d off hi lo n).credWires = s.credWires := by
  unfold State.bump; split <;> rfl
@[simp] theorem State.bump_edgeHem (d off hi lo n : Nat) : (s.bump d off hi lo n).edgeHem = s.edgeHem := by
  unfold State.bump; split <;> rfl
@[simp] theorem State.bump_seams (d off hi lo n : Nat) : (s.bump d off hi lo n).seams = s.seams := by
  unfold State.bump; split <;> rfl
@[simp] theorem State.bump_nis (d off hi lo n : Nat) : (s.bump d off hi lo n).nis = s.nis := by
  unfold State.bump; split <;> rfl
@[simp] theorem State.bump_inj (d off hi lo n : Nat) : (s.bump d off hi lo n).inj = s.inj := by
  unfold State.bump; split <;> rfl
@[simp] theorem State.bump_stream (d off hi lo n : Nat) : (s.bump d off hi lo n).stream = s.stream := by
  unfold State.bump; split <;> rfl
@[simp] theorem State.bump_injCount (d off hi lo n : Nat) : (s.bump d off hi lo n).injCount = s.injCount := by
  unfold State.bump; split <;> rfl
@[simp] theorem State.bump_hints (d off hi lo n : Nat) : (s.bump d off hi lo n).hints = s.hints := by
  unfold State.bump; split <;> rfl
@[simp] theorem State.bump_outTags (d off hi lo n : Nat) : (s.bump d off hi lo n).outTags = s.outTags := by
  unfold State.bump; split <;> rfl
@[simp] theorem State.bump_bursts (d off hi lo n : Nat) : (s.bump d off hi lo n).bursts = s.bursts := by
  unfold State.bump; split <;> rfl
@[simp] theorem State.bump_orderHold (d off hi lo n : Nat) : (s.bump d off hi lo n).orderHold = s.orderHold := by
  unfold State.bump; split <;> rfl
@[simp] theorem State.bump_halted (d off hi lo n : Nat) : (s.bump d off hi lo n).halted = s.halted := by
  unfold State.bump; split <;> rfl
@[simp] theorem State.bump_catchShut (d off hi lo n : Nat) : (s.bump d off hi lo n).catchShut = s.catchShut := by
  unfold State.bump; split <;> rfl
@[simp] theorem State.bump_secCount (d off hi lo n : Nat) : (s.bump d off hi lo n).secCount = s.secCount := by
  unfold State.bump; split <;> rfl
@[simp] theorem State.bump_dedCount (d off hi lo n : Nat) : (s.bump d off hi lo n).dedCount = s.dedCount := by
  unfold State.bump; split <;> rfl
@[simp] theorem State.bump_flog (d off hi lo n : Nat) : (s.bump d off hi lo n).flog = s.flog := by
  unfold State.bump; split <;> rfl
@[simp] theorem State.bump_flogFull (d off hi lo n : Nat) : (s.bump d off hi lo n).flogFull = s.flogFull := by
  unfold State.bump; split <;> rfl
@[simp] theorem State.bump_fwd (d off hi lo n : Nat) : (s.bump d off hi lo n).fwd = s.fwd := by
  unfold State.bump; split <;> rfl
@[simp] theorem State.bump_traces (d off hi lo n : Nat) : (s.bump d off hi lo n).traces = s.traces := by
  unfold State.bump; split <;> rfl
@[simp] theorem State.bump_stats (d off hi lo n : Nat) : (s.bump d off hi lo n).stats = s.stats := by
  unfold State.bump; split <;> rfl
@[simp] theorem State.bump_prbCount (d off hi lo n : Nat) : (s.bump d off hi lo n).prbCount = s.prbCount := by
  unfold State.bump; split <;> rfl
@[simp] theorem State.bump_patRw (d off hi lo n : Nat) : (s.bump d off hi lo n).patRw = s.patRw := by
  unfold State.bump; split <;> rfl
@[simp] theorem State.bump_svcAt (d off hi lo n : Nat) : (s.bump d off hi lo n).svcAt = s.svcAt := by
  unfold State.bump; split <;> rfl
@[simp] theorem State.bump_timeReq (d off hi lo n : Nat) : (s.bump d off hi lo n).timeReq = s.timeReq := by
  unfold State.bump; split <;> rfl
@[simp] theorem State.bump_syncObj (d off hi lo n : Nat) : (s.bump d off hi lo n).syncObj = s.syncObj := by
  unfold State.bump; split <;> rfl
@[simp] theorem State.bump_syncInit (d off hi lo n : Nat) : (s.bump d off hi lo n).syncInit = s.syncInit := by
  unfold State.bump; split <;> rfl
@[simp] theorem State.bump_syncDone (d off hi lo n : Nat) : (s.bump d off hi lo n).syncDone = s.syncDone := by
  unfold State.bump; split <;> rfl
@[simp] theorem State.bump_syncUsed (d off hi lo n : Nat) : (s.bump d off hi lo n).syncUsed = s.syncUsed := by
  unfold State.bump; split <;> rfl
@[simp] theorem State.bump_syncLeft (d off hi lo n : Nat) : (s.bump d off hi lo n).syncLeft = s.syncLeft := by
  unfold State.bump; split <;> rfl
@[simp] theorem State.bump_syncBreak (d off hi lo n : Nat) : (s.bump d off hi lo n).syncBreak = s.syncBreak := by
  unfold State.bump; split <;> rfl
@[simp] theorem State.bump_memports (d off hi lo n : Nat) : (s.bump d off hi lo n).memports = s.memports := by
  unfold State.bump; split <;> rfl
@[simp] theorem State.bump_ces (d off hi lo n : Nat) : (s.bump d off hi lo n).ces = s.ces := by
  unfold State.bump; split <;> rfl
@[simp] theorem State.bump_ledger (d off hi lo n : Nat) : (s.bump d off hi lo n).ledger = s.ledger := by
  unfold State.bump; split <;> rfl
@[simp] theorem State.bump_stores (d off hi lo n : Nat) : (s.bump d off hi lo n).stores = s.stores := by
  unfold State.bump; split <;> rfl
@[simp] theorem State.bump_boots (d off hi lo n : Nat) : (s.bump d off hi lo n).boots = s.boots := by
  unfold State.bump; split <;> rfl
@[simp] theorem State.bump_msix (d off hi lo n : Nat) : (s.bump d off hi lo n).msix = s.msix := by
  unfold State.bump; split <;> rfl
@[simp] theorem State.bump_wins (d off hi lo n : Nat) : (s.bump d off hi lo n).wins = s.wins := by
  unfold State.bump; split <;> rfl
@[simp] theorem State.bump_cmtClosed (d off hi lo n : Nat) : (s.bump d off hi lo n).cmtClosed = s.cmtClosed := by
  unfold State.bump; split <;> rfl
@[simp] theorem State.bump_coords (d off hi lo n : Nat) : (s.bump d off hi lo n).coords = s.coords := by
  unfold State.bump; split <;> rfl
@[simp] theorem State.bump_loader (d off hi lo n : Nat) : (s.bump d off hi lo n).loader = s.loader := by
  unfold State.bump; split <;> rfl
@[simp] theorem State.bump_patches (d off hi lo n : Nat) : (s.bump d off hi lo n).patches = s.patches := by
  unfold State.bump; split <;> rfl
@[simp] theorem State.bump_patchNum (d off hi lo n : Nat) : (s.bump d off hi lo n).patchNum = s.patchNum := by
  unfold State.bump; split <;> rfl
@[simp] theorem State.bump_patchLog (d off hi lo n : Nat) : (s.bump d off hi lo n).patchLog = s.patchLog := by
  unfold State.bump; split <;> rfl
@[simp] theorem State.bump_areaUsed (d off hi lo n : Nat) : (s.bump d off hi lo n).areaUsed = s.areaUsed := by
  unfold State.bump; split <;> rfl
@[simp] theorem State.bump_posted (d off hi lo n : Nat) : (s.bump d off hi lo n).posted = s.posted := by
  unfold State.bump; split <;> rfl
@[simp] theorem State.bump_plWant (d off hi lo n : Nat) : (s.bump d off hi lo n).plWant = s.plWant := by
  unfold State.bump; split <;> rfl
@[simp] theorem State.bump_hbs (d off hi lo n : Nat) : (s.bump d off hi lo n).hbs = s.hbs := by
  unfold State.bump; split <;> rfl
@[simp] theorem State.bump_hbFrom (d off hi lo n : Nat) : (s.bump d off hi lo n).hbFrom = s.hbFrom := by
  unfold State.bump; split <;> rfl
@[simp] theorem State.bump_hbSent (d off hi lo n : Nat) : (s.bump d off hi lo n).hbSent = s.hbSent := by
  unfold State.bump; split <;> rfl
@[simp] theorem State.bump_pkgHbSent (d off hi lo n : Nat) : (s.bump d off hi lo n).pkgHbSent = s.pkgHbSent := by
  unfold State.bump; split <;> rfl
@[simp] theorem State.bump_suspects (d off hi lo n : Nat) : (s.bump d off hi lo n).suspects = s.suspects := by
  unfold State.bump; split <;> rfl
@[simp] theorem State.bump_vseq (d off hi lo n : Nat) : (s.bump d off hi lo n).vseq = s.vseq := by
  unfold State.bump; split <;> rfl
@[simp] theorem State.bump_verdictsSeen (d off hi lo n : Nat) : (s.bump d off hi lo n).verdictsSeen = s.verdictsSeen := by
  unfold State.bump; split <;> rfl
@[simp] theorem State.bump_deadPkgs (d off hi lo n : Nat) : (s.bump d off hi lo n).deadPkgs = s.deadPkgs := by
  unfold State.bump; split <;> rfl
@[simp] theorem State.bump_selfDead (d off hi lo n : Nat) : (s.bump d off hi lo n).selfDead = s.selfDead := by
  unfold State.bump; split <;> rfl
@[simp] theorem State.bump_deadUnits (d off hi lo n : Nat) : (s.bump d off hi lo n).deadUnits = s.deadUnits := by
  unfold State.bump; split <;> rfl
@[simp] theorem State.bump_probeSeqs (d off hi lo n : Nat) : (s.bump d off hi lo n).probeSeqs = s.probeSeqs := by
  unfold State.bump; split <;> rfl
@[simp] theorem State.bump_probeWires (d off hi lo n : Nat) : (s.bump d off hi lo n).probeWires = s.probeWires := by
  unfold State.bump; split <;> rfl
@[simp] theorem State.bump_secWindow (d off hi lo n : Nat) : (s.bump d off hi lo n).secWindow = s.secWindow := by
  unfold State.bump; split <;> rfl
@[simp] theorem State.bump_wearFt (d off hi lo n : Nat) : (s.bump d off hi lo n).wearFt = s.wearFt := by
  unfold State.bump; split <;> rfl
@[simp] theorem State.bump_telemFt (d off hi lo n : Nat) : (s.bump d off hi lo n).telemFt = s.telemFt := by
  unfold State.bump; split <;> rfl
@[simp] theorem State.bump_telem (d off hi lo n : Nat) : (s.bump d off hi lo n).telem = s.telem := by
  unfold State.bump; split <;> rfl
@[simp] theorem State.bump_darns (d off hi lo n : Nat) : (s.bump d off hi lo n).darns = s.darns := by
  unfold State.bump; split <;> rfl
@[simp] theorem State.bump_stalls (d off hi lo n : Nat) : (s.bump d off hi lo n).stalls = s.stalls := by
  unfold State.bump; split <;> rfl
@[simp] theorem State.bump_kickFt (d off hi lo n : Nat) : (s.bump d off hi lo n).kickFt = s.kickFt := by
  unfold State.bump; split <;> rfl
@[simp] theorem State.bump_dumps (d off hi lo n : Nat) : (s.bump d off hi lo n).dumps = s.dumps := by
  unfold State.bump; split <;> rfl
@[simp] theorem State.bump_mpTrained (d off hi lo n : Nat) : (s.bump d off hi lo n).mpTrained = s.mpTrained := by
  unfold State.bump; split <;> rfl
@[simp] theorem State.bump_stopNext (d off hi lo n : Nat) : (s.bump d off hi lo n).stopNext = s.stopNext := by
  unfold State.bump; split <;> rfl
@[simp] theorem State.bump_armWait (d off hi lo n : Nat) : (s.bump d off hi lo n).armWait = s.armWait := by
  unfold State.bump; split <;> rfl
@[simp] theorem State.bump_stls (d off hi lo n : Nat) : (s.bump d off hi lo n).stls = s.stls := by
  unfold State.bump; split <;> rfl
@[simp] theorem State.bump_transitPos (d off hi lo n : Nat) : (s.bump d off hi lo n).transitPos = s.transitPos := by
  unfold State.bump; split <;> rfl
@[simp] theorem State.bump_debugFt (d off hi lo n : Nat) : (s.bump d off hi lo n).debugFt = s.debugFt := by
  unfold State.bump; split <;> rfl
@[simp] theorem State.bump_debugWait (d off hi lo n : Nat) : (s.bump d off hi lo n).debugWait = s.debugWait := by
  unfold State.bump; split <;> rfl
@[simp] theorem State.bump_eraseOnly (d off hi lo n : Nat) : (s.bump d off hi lo n).eraseOnly = s.eraseOnly := by
  unfold State.bump; split <;> rfl
@[simp] theorem State.bump_provision (d off hi lo n : Nat) : (s.bump d off hi lo n).provision = s.provision := by
  unfold State.bump; split <;> rfl
@[simp] theorem State.bump_barJobs (d off hi lo n : Nat) : (s.bump d off hi lo n).barJobs = s.barJobs := by
  unfold State.bump; split <;> rfl
@[simp] theorem State.bump_hostOut (d off hi lo n : Nat) : (s.bump d off hi lo n).hostOut = s.hostOut := by
  unfold State.bump; split <;> rfl
@[simp] theorem State.bump_rcsr (d off hi lo n : Nat) : (s.bump d off hi lo n).rcsr = s.rcsr := by
  unfold State.bump; split <;> rfl
@[simp] theorem State.bump_tileReset (d off hi lo n : Nat) : (s.bump d off hi lo n).tileReset = s.tileReset := by
  unfold State.bump; split <;> rfl
@[simp] theorem State.bump_pkgMend (d off hi lo n : Nat) : (s.bump d off hi lo n).pkgMend = s.pkgMend := by
  unfold State.bump; split <;> rfl
@[simp] theorem State.bump_rejoinFt (d off hi lo n : Nat) : (s.bump d off hi lo n).rejoinFt = s.rejoinFt := by
  unfold State.bump; split <;> rfl
@[simp] theorem State.bump_testFails (d off hi lo n : Nat) : (s.bump d off hi lo n).testFails = s.testFails := by
  unfold State.bump; split <;> rfl
@[simp] theorem State.bump_testReport (d off hi lo n : Nat) : (s.bump d off hi lo n).testReport = s.testReport := by
  unfold State.bump; split <;> rfl

/-! `bumpSat` -/

@[simp] theorem State.bumpSat_pending (d off hi lo n : Nat) : (s.bumpSat d off hi lo n).pending = s.pending := by
  unfold State.bumpSat; split <;> rfl
@[simp] theorem State.bumpSat_free (d off hi lo n : Nat) : (s.bumpSat d off hi lo n).free = s.free := by
  unfold State.bumpSat; split <;> rfl
@[simp] theorem State.bumpSat_setNow (d off hi lo n : Nat) : (s.bumpSat d off hi lo n).setNow = s.setNow := by
  unfold State.bumpSat; split <;> rfl
@[simp] theorem State.bumpSat_wroteNow (d off hi lo n : Nat) : (s.bumpSat d off hi lo n).wroteNow = s.wroteNow := by
  unfold State.bumpSat; split <;> rfl
@[simp] theorem State.bumpSat_floor (d off hi lo n : Nat) : (s.bumpSat d off hi lo n).floor = s.floor := by
  unfold State.bumpSat; split <;> rfl
@[simp] theorem State.bumpSat_physical (d off hi lo n : Nat) : (s.bumpSat d off hi lo n).physical = s.physical := by
  unfold State.bumpSat; split <;> rfl
@[simp] theorem State.bumpSat_memOwned (d off hi lo n : Nat) : (s.bumpSat d off hi lo n).memOwned = s.memOwned := by
  unfold State.bumpSat; split <;> rfl
@[simp] theorem State.bumpSat_mem (d off hi lo n : Nat) : (s.bumpSat d off hi lo n).mem = s.mem := by
  unfold State.bumpSat; split <;> rfl
@[simp] theorem State.bumpSat_mode (d off hi lo n : Nat) : (s.bumpSat d off hi lo n).mode = s.mode := by
  unfold State.bumpSat; split <;> rfl
@[simp] theorem State.bumpSat_headDie (d off hi lo n : Nat) : (s.bumpSat d off hi lo n).headDie = s.headDie := by
  unfold State.bumpSat; split <;> rfl
@[simp] theorem State.bumpSat_mirrorDie (d off hi lo n : Nat) : (s.bumpSat d off hi lo n).mirrorDie = s.mirrorDie := by
  unfold State.bumpSat; split <;> rfl
@[simp] theorem State.bumpSat_slotTab (d off hi lo n : Nat) : (s.bumpSat d off hi lo n).slotTab = s.slotTab := by
  unfold State.bumpSat; split <;> rfl
@[simp] theorem State.bumpSat_treeTab (d off hi lo n : Nat) : (s.bumpSat d off hi lo n).treeTab = s.treeTab := by
  unfold State.bumpSat; split <;> rfl
@[simp] theorem State.bumpSat_joinTab (d off hi lo n : Nat) : (s.bumpSat d off hi lo n).joinTab = s.joinTab := by
  unfold State.bumpSat; split <;> rfl
@[simp] theorem State.bumpSat_routeTab (d off hi lo n : Nat) : (s.bumpSat d off hi lo n).routeTab = s.routeTab := by
  unfold State.bumpSat; split <;> rfl
@[simp] theorem State.bumpSat_routeStore (d off hi lo n : Nat) : (s.bumpSat d off hi lo n).routeStore = s.routeStore := by
  unfold State.bumpSat; split <;> rfl
@[simp] theorem State.bumpSat_arrivalTab (d off hi lo n : Nat) : (s.bumpSat d off hi lo n).arrivalTab = s.arrivalTab := by
  unfold State.bumpSat; split <;> rfl
@[simp] theorem State.bumpSat_gateTab (d off hi lo n : Nat) : (s.bumpSat d off hi lo n).gateTab = s.gateTab := by
  unfold State.bumpSat; split <;> rfl
@[simp] theorem State.bumpSat_keepers (d off hi lo n : Nat) : (s.bumpSat d off hi lo n).keepers = s.keepers := by
  unfold State.bumpSat; split <;> rfl
@[simp] theorem State.bumpSat_regions (d off hi lo n : Nat) : (s.bumpSat d off hi lo n).regions = s.regions := by
  unfold State.bumpSat; split <;> rfl
@[simp] theorem State.bumpSat_panelReq (d off hi lo n : Nat) : (s.bumpSat d off hi lo n).panelReq = s.panelReq := by
  unfold State.bumpSat; split <;> rfl
@[simp] theorem State.bumpSat_gates (d off hi lo n : Nat) : (s.bumpSat d off hi lo n).gates = s.gates := by
  unfold State.bumpSat; split <;> rfl
@[simp] theorem State.bumpSat_shapers (d off hi lo n : Nat) : (s.bumpSat d off hi lo n).shapers = s.shapers := by
  unfold State.bumpSat; split <;> rfl
@[simp] theorem State.bumpSat_sampleFrom (d off hi lo n : Nat) : (s.bumpSat d off hi lo n).sampleFrom = s.sampleFrom := by
  unfold State.bumpSat; split <;> rfl
@[simp] theorem State.bumpSat_govs (d off hi lo n : Nat) : (s.bumpSat d off hi lo n).govs = s.govs := by
  unfold State.bumpSat; split <;> rfl
@[simp] theorem State.bumpSat_routers (d off hi lo n : Nat) : (s.bumpSat d off hi lo n).routers = s.routers := by
  unfold State.bumpSat; split <;> rfl
@[simp] theorem State.bumpSat_wires (d off hi lo n : Nat) : (s.bumpSat d off hi lo n).wires = s.wires := by
  unfold State.bumpSat; split <;> rfl
@[simp] theorem State.bumpSat_credWires (d off hi lo n : Nat) : (s.bumpSat d off hi lo n).credWires = s.credWires := by
  unfold State.bumpSat; split <;> rfl
@[simp] theorem State.bumpSat_edgeHem (d off hi lo n : Nat) : (s.bumpSat d off hi lo n).edgeHem = s.edgeHem := by
  unfold State.bumpSat; split <;> rfl
@[simp] theorem State.bumpSat_seams (d off hi lo n : Nat) : (s.bumpSat d off hi lo n).seams = s.seams := by
  unfold State.bumpSat; split <;> rfl
@[simp] theorem State.bumpSat_nis (d off hi lo n : Nat) : (s.bumpSat d off hi lo n).nis = s.nis := by
  unfold State.bumpSat; split <;> rfl
@[simp] theorem State.bumpSat_inj (d off hi lo n : Nat) : (s.bumpSat d off hi lo n).inj = s.inj := by
  unfold State.bumpSat; split <;> rfl
@[simp] theorem State.bumpSat_stream (d off hi lo n : Nat) : (s.bumpSat d off hi lo n).stream = s.stream := by
  unfold State.bumpSat; split <;> rfl
@[simp] theorem State.bumpSat_injCount (d off hi lo n : Nat) : (s.bumpSat d off hi lo n).injCount = s.injCount := by
  unfold State.bumpSat; split <;> rfl
@[simp] theorem State.bumpSat_hints (d off hi lo n : Nat) : (s.bumpSat d off hi lo n).hints = s.hints := by
  unfold State.bumpSat; split <;> rfl
@[simp] theorem State.bumpSat_outTags (d off hi lo n : Nat) : (s.bumpSat d off hi lo n).outTags = s.outTags := by
  unfold State.bumpSat; split <;> rfl
@[simp] theorem State.bumpSat_bursts (d off hi lo n : Nat) : (s.bumpSat d off hi lo n).bursts = s.bursts := by
  unfold State.bumpSat; split <;> rfl
@[simp] theorem State.bumpSat_orderHold (d off hi lo n : Nat) : (s.bumpSat d off hi lo n).orderHold = s.orderHold := by
  unfold State.bumpSat; split <;> rfl
@[simp] theorem State.bumpSat_halted (d off hi lo n : Nat) : (s.bumpSat d off hi lo n).halted = s.halted := by
  unfold State.bumpSat; split <;> rfl
@[simp] theorem State.bumpSat_catchShut (d off hi lo n : Nat) : (s.bumpSat d off hi lo n).catchShut = s.catchShut := by
  unfold State.bumpSat; split <;> rfl
@[simp] theorem State.bumpSat_secCount (d off hi lo n : Nat) : (s.bumpSat d off hi lo n).secCount = s.secCount := by
  unfold State.bumpSat; split <;> rfl
@[simp] theorem State.bumpSat_dedCount (d off hi lo n : Nat) : (s.bumpSat d off hi lo n).dedCount = s.dedCount := by
  unfold State.bumpSat; split <;> rfl
@[simp] theorem State.bumpSat_flog (d off hi lo n : Nat) : (s.bumpSat d off hi lo n).flog = s.flog := by
  unfold State.bumpSat; split <;> rfl
@[simp] theorem State.bumpSat_flogFull (d off hi lo n : Nat) : (s.bumpSat d off hi lo n).flogFull = s.flogFull := by
  unfold State.bumpSat; split <;> rfl
@[simp] theorem State.bumpSat_fwd (d off hi lo n : Nat) : (s.bumpSat d off hi lo n).fwd = s.fwd := by
  unfold State.bumpSat; split <;> rfl
@[simp] theorem State.bumpSat_traces (d off hi lo n : Nat) : (s.bumpSat d off hi lo n).traces = s.traces := by
  unfold State.bumpSat; split <;> rfl
@[simp] theorem State.bumpSat_stats (d off hi lo n : Nat) : (s.bumpSat d off hi lo n).stats = s.stats := by
  unfold State.bumpSat; split <;> rfl
@[simp] theorem State.bumpSat_prbCount (d off hi lo n : Nat) : (s.bumpSat d off hi lo n).prbCount = s.prbCount := by
  unfold State.bumpSat; split <;> rfl
@[simp] theorem State.bumpSat_patRw (d off hi lo n : Nat) : (s.bumpSat d off hi lo n).patRw = s.patRw := by
  unfold State.bumpSat; split <;> rfl
@[simp] theorem State.bumpSat_svcAt (d off hi lo n : Nat) : (s.bumpSat d off hi lo n).svcAt = s.svcAt := by
  unfold State.bumpSat; split <;> rfl
@[simp] theorem State.bumpSat_timeReq (d off hi lo n : Nat) : (s.bumpSat d off hi lo n).timeReq = s.timeReq := by
  unfold State.bumpSat; split <;> rfl
@[simp] theorem State.bumpSat_syncObj (d off hi lo n : Nat) : (s.bumpSat d off hi lo n).syncObj = s.syncObj := by
  unfold State.bumpSat; split <;> rfl
@[simp] theorem State.bumpSat_syncInit (d off hi lo n : Nat) : (s.bumpSat d off hi lo n).syncInit = s.syncInit := by
  unfold State.bumpSat; split <;> rfl
@[simp] theorem State.bumpSat_syncDone (d off hi lo n : Nat) : (s.bumpSat d off hi lo n).syncDone = s.syncDone := by
  unfold State.bumpSat; split <;> rfl
@[simp] theorem State.bumpSat_syncUsed (d off hi lo n : Nat) : (s.bumpSat d off hi lo n).syncUsed = s.syncUsed := by
  unfold State.bumpSat; split <;> rfl
@[simp] theorem State.bumpSat_syncLeft (d off hi lo n : Nat) : (s.bumpSat d off hi lo n).syncLeft = s.syncLeft := by
  unfold State.bumpSat; split <;> rfl
@[simp] theorem State.bumpSat_syncBreak (d off hi lo n : Nat) : (s.bumpSat d off hi lo n).syncBreak = s.syncBreak := by
  unfold State.bumpSat; split <;> rfl
@[simp] theorem State.bumpSat_memports (d off hi lo n : Nat) : (s.bumpSat d off hi lo n).memports = s.memports := by
  unfold State.bumpSat; split <;> rfl
@[simp] theorem State.bumpSat_ces (d off hi lo n : Nat) : (s.bumpSat d off hi lo n).ces = s.ces := by
  unfold State.bumpSat; split <;> rfl
@[simp] theorem State.bumpSat_ledger (d off hi lo n : Nat) : (s.bumpSat d off hi lo n).ledger = s.ledger := by
  unfold State.bumpSat; split <;> rfl
@[simp] theorem State.bumpSat_stores (d off hi lo n : Nat) : (s.bumpSat d off hi lo n).stores = s.stores := by
  unfold State.bumpSat; split <;> rfl
@[simp] theorem State.bumpSat_boots (d off hi lo n : Nat) : (s.bumpSat d off hi lo n).boots = s.boots := by
  unfold State.bumpSat; split <;> rfl
@[simp] theorem State.bumpSat_msix (d off hi lo n : Nat) : (s.bumpSat d off hi lo n).msix = s.msix := by
  unfold State.bumpSat; split <;> rfl
@[simp] theorem State.bumpSat_wins (d off hi lo n : Nat) : (s.bumpSat d off hi lo n).wins = s.wins := by
  unfold State.bumpSat; split <;> rfl
@[simp] theorem State.bumpSat_cmtClosed (d off hi lo n : Nat) : (s.bumpSat d off hi lo n).cmtClosed = s.cmtClosed := by
  unfold State.bumpSat; split <;> rfl
@[simp] theorem State.bumpSat_coords (d off hi lo n : Nat) : (s.bumpSat d off hi lo n).coords = s.coords := by
  unfold State.bumpSat; split <;> rfl
@[simp] theorem State.bumpSat_loader (d off hi lo n : Nat) : (s.bumpSat d off hi lo n).loader = s.loader := by
  unfold State.bumpSat; split <;> rfl
@[simp] theorem State.bumpSat_patches (d off hi lo n : Nat) : (s.bumpSat d off hi lo n).patches = s.patches := by
  unfold State.bumpSat; split <;> rfl
@[simp] theorem State.bumpSat_patchNum (d off hi lo n : Nat) : (s.bumpSat d off hi lo n).patchNum = s.patchNum := by
  unfold State.bumpSat; split <;> rfl
@[simp] theorem State.bumpSat_patchLog (d off hi lo n : Nat) : (s.bumpSat d off hi lo n).patchLog = s.patchLog := by
  unfold State.bumpSat; split <;> rfl
@[simp] theorem State.bumpSat_areaUsed (d off hi lo n : Nat) : (s.bumpSat d off hi lo n).areaUsed = s.areaUsed := by
  unfold State.bumpSat; split <;> rfl
@[simp] theorem State.bumpSat_posted (d off hi lo n : Nat) : (s.bumpSat d off hi lo n).posted = s.posted := by
  unfold State.bumpSat; split <;> rfl
@[simp] theorem State.bumpSat_plWant (d off hi lo n : Nat) : (s.bumpSat d off hi lo n).plWant = s.plWant := by
  unfold State.bumpSat; split <;> rfl
@[simp] theorem State.bumpSat_hbs (d off hi lo n : Nat) : (s.bumpSat d off hi lo n).hbs = s.hbs := by
  unfold State.bumpSat; split <;> rfl
@[simp] theorem State.bumpSat_hbFrom (d off hi lo n : Nat) : (s.bumpSat d off hi lo n).hbFrom = s.hbFrom := by
  unfold State.bumpSat; split <;> rfl
@[simp] theorem State.bumpSat_hbSent (d off hi lo n : Nat) : (s.bumpSat d off hi lo n).hbSent = s.hbSent := by
  unfold State.bumpSat; split <;> rfl
@[simp] theorem State.bumpSat_pkgHbSent (d off hi lo n : Nat) : (s.bumpSat d off hi lo n).pkgHbSent = s.pkgHbSent := by
  unfold State.bumpSat; split <;> rfl
@[simp] theorem State.bumpSat_suspects (d off hi lo n : Nat) : (s.bumpSat d off hi lo n).suspects = s.suspects := by
  unfold State.bumpSat; split <;> rfl
@[simp] theorem State.bumpSat_vseq (d off hi lo n : Nat) : (s.bumpSat d off hi lo n).vseq = s.vseq := by
  unfold State.bumpSat; split <;> rfl
@[simp] theorem State.bumpSat_verdictsSeen (d off hi lo n : Nat) : (s.bumpSat d off hi lo n).verdictsSeen = s.verdictsSeen := by
  unfold State.bumpSat; split <;> rfl
@[simp] theorem State.bumpSat_deadPkgs (d off hi lo n : Nat) : (s.bumpSat d off hi lo n).deadPkgs = s.deadPkgs := by
  unfold State.bumpSat; split <;> rfl
@[simp] theorem State.bumpSat_selfDead (d off hi lo n : Nat) : (s.bumpSat d off hi lo n).selfDead = s.selfDead := by
  unfold State.bumpSat; split <;> rfl
@[simp] theorem State.bumpSat_deadUnits (d off hi lo n : Nat) : (s.bumpSat d off hi lo n).deadUnits = s.deadUnits := by
  unfold State.bumpSat; split <;> rfl
@[simp] theorem State.bumpSat_probeSeqs (d off hi lo n : Nat) : (s.bumpSat d off hi lo n).probeSeqs = s.probeSeqs := by
  unfold State.bumpSat; split <;> rfl
@[simp] theorem State.bumpSat_probeWires (d off hi lo n : Nat) : (s.bumpSat d off hi lo n).probeWires = s.probeWires := by
  unfold State.bumpSat; split <;> rfl
@[simp] theorem State.bumpSat_secWindow (d off hi lo n : Nat) : (s.bumpSat d off hi lo n).secWindow = s.secWindow := by
  unfold State.bumpSat; split <;> rfl
@[simp] theorem State.bumpSat_wearFt (d off hi lo n : Nat) : (s.bumpSat d off hi lo n).wearFt = s.wearFt := by
  unfold State.bumpSat; split <;> rfl
@[simp] theorem State.bumpSat_telemFt (d off hi lo n : Nat) : (s.bumpSat d off hi lo n).telemFt = s.telemFt := by
  unfold State.bumpSat; split <;> rfl
@[simp] theorem State.bumpSat_telem (d off hi lo n : Nat) : (s.bumpSat d off hi lo n).telem = s.telem := by
  unfold State.bumpSat; split <;> rfl
@[simp] theorem State.bumpSat_darns (d off hi lo n : Nat) : (s.bumpSat d off hi lo n).darns = s.darns := by
  unfold State.bumpSat; split <;> rfl
@[simp] theorem State.bumpSat_stalls (d off hi lo n : Nat) : (s.bumpSat d off hi lo n).stalls = s.stalls := by
  unfold State.bumpSat; split <;> rfl
@[simp] theorem State.bumpSat_kickFt (d off hi lo n : Nat) : (s.bumpSat d off hi lo n).kickFt = s.kickFt := by
  unfold State.bumpSat; split <;> rfl
@[simp] theorem State.bumpSat_dumps (d off hi lo n : Nat) : (s.bumpSat d off hi lo n).dumps = s.dumps := by
  unfold State.bumpSat; split <;> rfl
@[simp] theorem State.bumpSat_mpTrained (d off hi lo n : Nat) : (s.bumpSat d off hi lo n).mpTrained = s.mpTrained := by
  unfold State.bumpSat; split <;> rfl
@[simp] theorem State.bumpSat_stopNext (d off hi lo n : Nat) : (s.bumpSat d off hi lo n).stopNext = s.stopNext := by
  unfold State.bumpSat; split <;> rfl
@[simp] theorem State.bumpSat_armWait (d off hi lo n : Nat) : (s.bumpSat d off hi lo n).armWait = s.armWait := by
  unfold State.bumpSat; split <;> rfl
@[simp] theorem State.bumpSat_stls (d off hi lo n : Nat) : (s.bumpSat d off hi lo n).stls = s.stls := by
  unfold State.bumpSat; split <;> rfl
@[simp] theorem State.bumpSat_transitPos (d off hi lo n : Nat) : (s.bumpSat d off hi lo n).transitPos = s.transitPos := by
  unfold State.bumpSat; split <;> rfl
@[simp] theorem State.bumpSat_debugFt (d off hi lo n : Nat) : (s.bumpSat d off hi lo n).debugFt = s.debugFt := by
  unfold State.bumpSat; split <;> rfl
@[simp] theorem State.bumpSat_debugWait (d off hi lo n : Nat) : (s.bumpSat d off hi lo n).debugWait = s.debugWait := by
  unfold State.bumpSat; split <;> rfl
@[simp] theorem State.bumpSat_eraseOnly (d off hi lo n : Nat) : (s.bumpSat d off hi lo n).eraseOnly = s.eraseOnly := by
  unfold State.bumpSat; split <;> rfl
@[simp] theorem State.bumpSat_provision (d off hi lo n : Nat) : (s.bumpSat d off hi lo n).provision = s.provision := by
  unfold State.bumpSat; split <;> rfl
@[simp] theorem State.bumpSat_barJobs (d off hi lo n : Nat) : (s.bumpSat d off hi lo n).barJobs = s.barJobs := by
  unfold State.bumpSat; split <;> rfl
@[simp] theorem State.bumpSat_hostOut (d off hi lo n : Nat) : (s.bumpSat d off hi lo n).hostOut = s.hostOut := by
  unfold State.bumpSat; split <;> rfl
@[simp] theorem State.bumpSat_rcsr (d off hi lo n : Nat) : (s.bumpSat d off hi lo n).rcsr = s.rcsr := by
  unfold State.bumpSat; split <;> rfl
@[simp] theorem State.bumpSat_tileReset (d off hi lo n : Nat) : (s.bumpSat d off hi lo n).tileReset = s.tileReset := by
  unfold State.bumpSat; split <;> rfl
@[simp] theorem State.bumpSat_pkgMend (d off hi lo n : Nat) : (s.bumpSat d off hi lo n).pkgMend = s.pkgMend := by
  unfold State.bumpSat; split <;> rfl
@[simp] theorem State.bumpSat_rejoinFt (d off hi lo n : Nat) : (s.bumpSat d off hi lo n).rejoinFt = s.rejoinFt := by
  unfold State.bumpSat; split <;> rfl
@[simp] theorem State.bumpSat_testFails (d off hi lo n : Nat) : (s.bumpSat d off hi lo n).testFails = s.testFails := by
  unfold State.bumpSat; split <;> rfl
@[simp] theorem State.bumpSat_testReport (d off hi lo n : Nat) : (s.bumpSat d off hi lo n).testReport = s.testReport := by
  unfold State.bumpSat; split <;> rfl

/-! `setKeeper` -/

@[simp] theorem State.setKeeper_pending (d : Nat) (k : Keeper) : (s.setKeeper d k).pending = s.pending := (rfl)
@[simp] theorem State.setKeeper_free (d : Nat) (k : Keeper) : (s.setKeeper d k).free = s.free := (rfl)
@[simp] theorem State.setKeeper_setNow (d : Nat) (k : Keeper) : (s.setKeeper d k).setNow = s.setNow := (rfl)
@[simp] theorem State.setKeeper_wroteNow (d : Nat) (k : Keeper) : (s.setKeeper d k).wroteNow = s.wroteNow := (rfl)
@[simp] theorem State.setKeeper_floor (d : Nat) (k : Keeper) : (s.setKeeper d k).floor = s.floor := (rfl)
@[simp] theorem State.setKeeper_physical (d : Nat) (k : Keeper) : (s.setKeeper d k).physical = s.physical := (rfl)
@[simp] theorem State.setKeeper_memOwned (d : Nat) (k : Keeper) : (s.setKeeper d k).memOwned = s.memOwned := (rfl)
@[simp] theorem State.setKeeper_csr (d : Nat) (k : Keeper) : (s.setKeeper d k).csr = s.csr := (rfl)
@[simp] theorem State.setKeeper_mem (d : Nat) (k : Keeper) : (s.setKeeper d k).mem = s.mem := (rfl)
@[simp] theorem State.setKeeper_mode (d : Nat) (k : Keeper) : (s.setKeeper d k).mode = s.mode := (rfl)
@[simp] theorem State.setKeeper_headDie (d : Nat) (k : Keeper) : (s.setKeeper d k).headDie = s.headDie := (rfl)
@[simp] theorem State.setKeeper_mirrorDie (d : Nat) (k : Keeper) : (s.setKeeper d k).mirrorDie = s.mirrorDie := (rfl)
@[simp] theorem State.setKeeper_slotTab (d : Nat) (k : Keeper) : (s.setKeeper d k).slotTab = s.slotTab := (rfl)
@[simp] theorem State.setKeeper_treeTab (d : Nat) (k : Keeper) : (s.setKeeper d k).treeTab = s.treeTab := (rfl)
@[simp] theorem State.setKeeper_joinTab (d : Nat) (k : Keeper) : (s.setKeeper d k).joinTab = s.joinTab := (rfl)
@[simp] theorem State.setKeeper_routeTab (d : Nat) (k : Keeper) : (s.setKeeper d k).routeTab = s.routeTab := (rfl)
@[simp] theorem State.setKeeper_routeStore (d : Nat) (k : Keeper) : (s.setKeeper d k).routeStore = s.routeStore := (rfl)
@[simp] theorem State.setKeeper_arrivalTab (d : Nat) (k : Keeper) : (s.setKeeper d k).arrivalTab = s.arrivalTab := (rfl)
@[simp] theorem State.setKeeper_gateTab (d : Nat) (k : Keeper) : (s.setKeeper d k).gateTab = s.gateTab := (rfl)
@[simp] theorem State.setKeeper_regions (d : Nat) (k : Keeper) : (s.setKeeper d k).regions = s.regions := (rfl)
@[simp] theorem State.setKeeper_panelReq (d : Nat) (k : Keeper) : (s.setKeeper d k).panelReq = s.panelReq := (rfl)
@[simp] theorem State.setKeeper_gates (d : Nat) (k : Keeper) : (s.setKeeper d k).gates = s.gates := (rfl)
@[simp] theorem State.setKeeper_shapers (d : Nat) (k : Keeper) : (s.setKeeper d k).shapers = s.shapers := (rfl)
@[simp] theorem State.setKeeper_sampleFrom (d : Nat) (k : Keeper) : (s.setKeeper d k).sampleFrom = s.sampleFrom := (rfl)
@[simp] theorem State.setKeeper_govs (d : Nat) (k : Keeper) : (s.setKeeper d k).govs = s.govs := (rfl)
@[simp] theorem State.setKeeper_routers (d : Nat) (k : Keeper) : (s.setKeeper d k).routers = s.routers := (rfl)
@[simp] theorem State.setKeeper_wires (d : Nat) (k : Keeper) : (s.setKeeper d k).wires = s.wires := (rfl)
@[simp] theorem State.setKeeper_credWires (d : Nat) (k : Keeper) : (s.setKeeper d k).credWires = s.credWires := (rfl)
@[simp] theorem State.setKeeper_edgeHem (d : Nat) (k : Keeper) : (s.setKeeper d k).edgeHem = s.edgeHem := (rfl)
@[simp] theorem State.setKeeper_seams (d : Nat) (k : Keeper) : (s.setKeeper d k).seams = s.seams := (rfl)
@[simp] theorem State.setKeeper_nis (d : Nat) (k : Keeper) : (s.setKeeper d k).nis = s.nis := (rfl)
@[simp] theorem State.setKeeper_inj (d : Nat) (k : Keeper) : (s.setKeeper d k).inj = s.inj := (rfl)
@[simp] theorem State.setKeeper_stream (d : Nat) (k : Keeper) : (s.setKeeper d k).stream = s.stream := (rfl)
@[simp] theorem State.setKeeper_injCount (d : Nat) (k : Keeper) : (s.setKeeper d k).injCount = s.injCount := (rfl)
@[simp] theorem State.setKeeper_hints (d : Nat) (k : Keeper) : (s.setKeeper d k).hints = s.hints := (rfl)
@[simp] theorem State.setKeeper_outTags (d : Nat) (k : Keeper) : (s.setKeeper d k).outTags = s.outTags := (rfl)
@[simp] theorem State.setKeeper_bursts (d : Nat) (k : Keeper) : (s.setKeeper d k).bursts = s.bursts := (rfl)
@[simp] theorem State.setKeeper_orderHold (d : Nat) (k : Keeper) : (s.setKeeper d k).orderHold = s.orderHold := (rfl)
@[simp] theorem State.setKeeper_halted (d : Nat) (k : Keeper) : (s.setKeeper d k).halted = s.halted := (rfl)
@[simp] theorem State.setKeeper_catchShut (d : Nat) (k : Keeper) : (s.setKeeper d k).catchShut = s.catchShut := (rfl)
@[simp] theorem State.setKeeper_secCount (d : Nat) (k : Keeper) : (s.setKeeper d k).secCount = s.secCount := (rfl)
@[simp] theorem State.setKeeper_dedCount (d : Nat) (k : Keeper) : (s.setKeeper d k).dedCount = s.dedCount := (rfl)
@[simp] theorem State.setKeeper_flog (d : Nat) (k : Keeper) : (s.setKeeper d k).flog = s.flog := (rfl)
@[simp] theorem State.setKeeper_flogFull (d : Nat) (k : Keeper) : (s.setKeeper d k).flogFull = s.flogFull := (rfl)
@[simp] theorem State.setKeeper_fwd (d : Nat) (k : Keeper) : (s.setKeeper d k).fwd = s.fwd := (rfl)
@[simp] theorem State.setKeeper_traces (d : Nat) (k : Keeper) : (s.setKeeper d k).traces = s.traces := (rfl)
@[simp] theorem State.setKeeper_stats (d : Nat) (k : Keeper) : (s.setKeeper d k).stats = s.stats := (rfl)
@[simp] theorem State.setKeeper_prbCount (d : Nat) (k : Keeper) : (s.setKeeper d k).prbCount = s.prbCount := (rfl)
@[simp] theorem State.setKeeper_patRw (d : Nat) (k : Keeper) : (s.setKeeper d k).patRw = s.patRw := (rfl)
@[simp] theorem State.setKeeper_svcAt (d : Nat) (k : Keeper) : (s.setKeeper d k).svcAt = s.svcAt := (rfl)
@[simp] theorem State.setKeeper_timeReq (d : Nat) (k : Keeper) : (s.setKeeper d k).timeReq = s.timeReq := (rfl)
@[simp] theorem State.setKeeper_syncObj (d : Nat) (k : Keeper) : (s.setKeeper d k).syncObj = s.syncObj := (rfl)
@[simp] theorem State.setKeeper_syncInit (d : Nat) (k : Keeper) : (s.setKeeper d k).syncInit = s.syncInit := (rfl)
@[simp] theorem State.setKeeper_syncDone (d : Nat) (k : Keeper) : (s.setKeeper d k).syncDone = s.syncDone := (rfl)
@[simp] theorem State.setKeeper_syncUsed (d : Nat) (k : Keeper) : (s.setKeeper d k).syncUsed = s.syncUsed := (rfl)
@[simp] theorem State.setKeeper_syncLeft (d : Nat) (k : Keeper) : (s.setKeeper d k).syncLeft = s.syncLeft := (rfl)
@[simp] theorem State.setKeeper_syncBreak (d : Nat) (k : Keeper) : (s.setKeeper d k).syncBreak = s.syncBreak := (rfl)
@[simp] theorem State.setKeeper_memports (d : Nat) (k : Keeper) : (s.setKeeper d k).memports = s.memports := (rfl)
@[simp] theorem State.setKeeper_ces (d : Nat) (k : Keeper) : (s.setKeeper d k).ces = s.ces := (rfl)
@[simp] theorem State.setKeeper_ledger (d : Nat) (k : Keeper) : (s.setKeeper d k).ledger = s.ledger := (rfl)
@[simp] theorem State.setKeeper_stores (d : Nat) (k : Keeper) : (s.setKeeper d k).stores = s.stores := (rfl)
@[simp] theorem State.setKeeper_boots (d : Nat) (k : Keeper) : (s.setKeeper d k).boots = s.boots := (rfl)
@[simp] theorem State.setKeeper_msix (d : Nat) (k : Keeper) : (s.setKeeper d k).msix = s.msix := (rfl)
@[simp] theorem State.setKeeper_wins (d : Nat) (k : Keeper) : (s.setKeeper d k).wins = s.wins := (rfl)
@[simp] theorem State.setKeeper_cmtClosed (d : Nat) (k : Keeper) : (s.setKeeper d k).cmtClosed = s.cmtClosed := (rfl)
@[simp] theorem State.setKeeper_coords (d : Nat) (k : Keeper) : (s.setKeeper d k).coords = s.coords := (rfl)
@[simp] theorem State.setKeeper_loader (d : Nat) (k : Keeper) : (s.setKeeper d k).loader = s.loader := (rfl)
@[simp] theorem State.setKeeper_patches (d : Nat) (k : Keeper) : (s.setKeeper d k).patches = s.patches := (rfl)
@[simp] theorem State.setKeeper_patchNum (d : Nat) (k : Keeper) : (s.setKeeper d k).patchNum = s.patchNum := (rfl)
@[simp] theorem State.setKeeper_patchLog (d : Nat) (k : Keeper) : (s.setKeeper d k).patchLog = s.patchLog := (rfl)
@[simp] theorem State.setKeeper_areaUsed (d : Nat) (k : Keeper) : (s.setKeeper d k).areaUsed = s.areaUsed := (rfl)
@[simp] theorem State.setKeeper_posted (d : Nat) (k : Keeper) : (s.setKeeper d k).posted = s.posted := (rfl)
@[simp] theorem State.setKeeper_plWant (d : Nat) (k : Keeper) : (s.setKeeper d k).plWant = s.plWant := (rfl)
@[simp] theorem State.setKeeper_hbs (d : Nat) (k : Keeper) : (s.setKeeper d k).hbs = s.hbs := (rfl)
@[simp] theorem State.setKeeper_hbFrom (d : Nat) (k : Keeper) : (s.setKeeper d k).hbFrom = s.hbFrom := (rfl)
@[simp] theorem State.setKeeper_hbSent (d : Nat) (k : Keeper) : (s.setKeeper d k).hbSent = s.hbSent := (rfl)
@[simp] theorem State.setKeeper_pkgHbSent (d : Nat) (k : Keeper) : (s.setKeeper d k).pkgHbSent = s.pkgHbSent := (rfl)
@[simp] theorem State.setKeeper_suspects (d : Nat) (k : Keeper) : (s.setKeeper d k).suspects = s.suspects := (rfl)
@[simp] theorem State.setKeeper_vseq (d : Nat) (k : Keeper) : (s.setKeeper d k).vseq = s.vseq := (rfl)
@[simp] theorem State.setKeeper_verdictsSeen (d : Nat) (k : Keeper) : (s.setKeeper d k).verdictsSeen = s.verdictsSeen := (rfl)
@[simp] theorem State.setKeeper_deadPkgs (d : Nat) (k : Keeper) : (s.setKeeper d k).deadPkgs = s.deadPkgs := (rfl)
@[simp] theorem State.setKeeper_selfDead (d : Nat) (k : Keeper) : (s.setKeeper d k).selfDead = s.selfDead := (rfl)
@[simp] theorem State.setKeeper_deadUnits (d : Nat) (k : Keeper) : (s.setKeeper d k).deadUnits = s.deadUnits := (rfl)
@[simp] theorem State.setKeeper_probeSeqs (d : Nat) (k : Keeper) : (s.setKeeper d k).probeSeqs = s.probeSeqs := (rfl)
@[simp] theorem State.setKeeper_probeWires (d : Nat) (k : Keeper) : (s.setKeeper d k).probeWires = s.probeWires := (rfl)
@[simp] theorem State.setKeeper_secWindow (d : Nat) (k : Keeper) : (s.setKeeper d k).secWindow = s.secWindow := (rfl)
@[simp] theorem State.setKeeper_wearFt (d : Nat) (k : Keeper) : (s.setKeeper d k).wearFt = s.wearFt := (rfl)
@[simp] theorem State.setKeeper_telemFt (d : Nat) (k : Keeper) : (s.setKeeper d k).telemFt = s.telemFt := (rfl)
@[simp] theorem State.setKeeper_telem (d : Nat) (k : Keeper) : (s.setKeeper d k).telem = s.telem := (rfl)
@[simp] theorem State.setKeeper_darns (d : Nat) (k : Keeper) : (s.setKeeper d k).darns = s.darns := (rfl)
@[simp] theorem State.setKeeper_stalls (d : Nat) (k : Keeper) : (s.setKeeper d k).stalls = s.stalls := (rfl)
@[simp] theorem State.setKeeper_kickFt (d : Nat) (k : Keeper) : (s.setKeeper d k).kickFt = s.kickFt := (rfl)
@[simp] theorem State.setKeeper_dumps (d : Nat) (k : Keeper) : (s.setKeeper d k).dumps = s.dumps := (rfl)
@[simp] theorem State.setKeeper_mpTrained (d : Nat) (k : Keeper) : (s.setKeeper d k).mpTrained = s.mpTrained := (rfl)
@[simp] theorem State.setKeeper_stopNext (d : Nat) (k : Keeper) : (s.setKeeper d k).stopNext = s.stopNext := (rfl)
@[simp] theorem State.setKeeper_armWait (d : Nat) (k : Keeper) : (s.setKeeper d k).armWait = s.armWait := (rfl)
@[simp] theorem State.setKeeper_stls (d : Nat) (k : Keeper) : (s.setKeeper d k).stls = s.stls := (rfl)
@[simp] theorem State.setKeeper_transitPos (d : Nat) (k : Keeper) : (s.setKeeper d k).transitPos = s.transitPos := (rfl)
@[simp] theorem State.setKeeper_debugFt (d : Nat) (k : Keeper) : (s.setKeeper d k).debugFt = s.debugFt := (rfl)
@[simp] theorem State.setKeeper_debugWait (d : Nat) (k : Keeper) : (s.setKeeper d k).debugWait = s.debugWait := (rfl)
@[simp] theorem State.setKeeper_eraseOnly (d : Nat) (k : Keeper) : (s.setKeeper d k).eraseOnly = s.eraseOnly := (rfl)
@[simp] theorem State.setKeeper_provision (d : Nat) (k : Keeper) : (s.setKeeper d k).provision = s.provision := (rfl)
@[simp] theorem State.setKeeper_barJobs (d : Nat) (k : Keeper) : (s.setKeeper d k).barJobs = s.barJobs := (rfl)
@[simp] theorem State.setKeeper_hostOut (d : Nat) (k : Keeper) : (s.setKeeper d k).hostOut = s.hostOut := (rfl)
@[simp] theorem State.setKeeper_rcsr (d : Nat) (k : Keeper) : (s.setKeeper d k).rcsr = s.rcsr := (rfl)
@[simp] theorem State.setKeeper_tileReset (d : Nat) (k : Keeper) : (s.setKeeper d k).tileReset = s.tileReset := (rfl)
@[simp] theorem State.setKeeper_pkgMend (d : Nat) (k : Keeper) : (s.setKeeper d k).pkgMend = s.pkgMend := (rfl)
@[simp] theorem State.setKeeper_rejoinFt (d : Nat) (k : Keeper) : (s.setKeeper d k).rejoinFt = s.rejoinFt := (rfl)
@[simp] theorem State.setKeeper_testFails (d : Nat) (k : Keeper) : (s.setKeeper d k).testFails = s.testFails := (rfl)
@[simp] theorem State.setKeeper_testReport (d : Nat) (k : Keeper) : (s.setKeeper d k).testReport = s.testReport := (rfl)

/-! `setRegion` -/

@[simp] theorem State.setRegion_pending (d panel : Nat) (r : Region) : (s.setRegion d panel r).pending = s.pending := (rfl)
@[simp] theorem State.setRegion_free (d panel : Nat) (r : Region) : (s.setRegion d panel r).free = s.free := (rfl)
@[simp] theorem State.setRegion_setNow (d panel : Nat) (r : Region) : (s.setRegion d panel r).setNow = s.setNow := (rfl)
@[simp] theorem State.setRegion_wroteNow (d panel : Nat) (r : Region) : (s.setRegion d panel r).wroteNow = s.wroteNow := (rfl)
@[simp] theorem State.setRegion_floor (d panel : Nat) (r : Region) : (s.setRegion d panel r).floor = s.floor := (rfl)
@[simp] theorem State.setRegion_physical (d panel : Nat) (r : Region) : (s.setRegion d panel r).physical = s.physical := (rfl)
@[simp] theorem State.setRegion_memOwned (d panel : Nat) (r : Region) : (s.setRegion d panel r).memOwned = s.memOwned := (rfl)
@[simp] theorem State.setRegion_csr (d panel : Nat) (r : Region) : (s.setRegion d panel r).csr = s.csr := (rfl)
@[simp] theorem State.setRegion_mem (d panel : Nat) (r : Region) : (s.setRegion d panel r).mem = s.mem := (rfl)
@[simp] theorem State.setRegion_mode (d panel : Nat) (r : Region) : (s.setRegion d panel r).mode = s.mode := (rfl)
@[simp] theorem State.setRegion_headDie (d panel : Nat) (r : Region) : (s.setRegion d panel r).headDie = s.headDie := (rfl)
@[simp] theorem State.setRegion_mirrorDie (d panel : Nat) (r : Region) : (s.setRegion d panel r).mirrorDie = s.mirrorDie := (rfl)
@[simp] theorem State.setRegion_slotTab (d panel : Nat) (r : Region) : (s.setRegion d panel r).slotTab = s.slotTab := (rfl)
@[simp] theorem State.setRegion_treeTab (d panel : Nat) (r : Region) : (s.setRegion d panel r).treeTab = s.treeTab := (rfl)
@[simp] theorem State.setRegion_joinTab (d panel : Nat) (r : Region) : (s.setRegion d panel r).joinTab = s.joinTab := (rfl)
@[simp] theorem State.setRegion_routeTab (d panel : Nat) (r : Region) : (s.setRegion d panel r).routeTab = s.routeTab := (rfl)
@[simp] theorem State.setRegion_routeStore (d panel : Nat) (r : Region) : (s.setRegion d panel r).routeStore = s.routeStore := (rfl)
@[simp] theorem State.setRegion_arrivalTab (d panel : Nat) (r : Region) : (s.setRegion d panel r).arrivalTab = s.arrivalTab := (rfl)
@[simp] theorem State.setRegion_gateTab (d panel : Nat) (r : Region) : (s.setRegion d panel r).gateTab = s.gateTab := (rfl)
@[simp] theorem State.setRegion_keepers (d panel : Nat) (r : Region) : (s.setRegion d panel r).keepers = s.keepers := (rfl)
@[simp] theorem State.setRegion_panelReq (d panel : Nat) (r : Region) : (s.setRegion d panel r).panelReq = s.panelReq := (rfl)
@[simp] theorem State.setRegion_gates (d panel : Nat) (r : Region) : (s.setRegion d panel r).gates = s.gates := (rfl)
@[simp] theorem State.setRegion_shapers (d panel : Nat) (r : Region) : (s.setRegion d panel r).shapers = s.shapers := (rfl)
@[simp] theorem State.setRegion_sampleFrom (d panel : Nat) (r : Region) : (s.setRegion d panel r).sampleFrom = s.sampleFrom := (rfl)
@[simp] theorem State.setRegion_govs (d panel : Nat) (r : Region) : (s.setRegion d panel r).govs = s.govs := (rfl)
@[simp] theorem State.setRegion_routers (d panel : Nat) (r : Region) : (s.setRegion d panel r).routers = s.routers := (rfl)
@[simp] theorem State.setRegion_wires (d panel : Nat) (r : Region) : (s.setRegion d panel r).wires = s.wires := (rfl)
@[simp] theorem State.setRegion_credWires (d panel : Nat) (r : Region) : (s.setRegion d panel r).credWires = s.credWires := (rfl)
@[simp] theorem State.setRegion_edgeHem (d panel : Nat) (r : Region) : (s.setRegion d panel r).edgeHem = s.edgeHem := (rfl)
@[simp] theorem State.setRegion_seams (d panel : Nat) (r : Region) : (s.setRegion d panel r).seams = s.seams := (rfl)
@[simp] theorem State.setRegion_nis (d panel : Nat) (r : Region) : (s.setRegion d panel r).nis = s.nis := (rfl)
@[simp] theorem State.setRegion_inj (d panel : Nat) (r : Region) : (s.setRegion d panel r).inj = s.inj := (rfl)
@[simp] theorem State.setRegion_stream (d panel : Nat) (r : Region) : (s.setRegion d panel r).stream = s.stream := (rfl)
@[simp] theorem State.setRegion_injCount (d panel : Nat) (r : Region) : (s.setRegion d panel r).injCount = s.injCount := (rfl)
@[simp] theorem State.setRegion_hints (d panel : Nat) (r : Region) : (s.setRegion d panel r).hints = s.hints := (rfl)
@[simp] theorem State.setRegion_outTags (d panel : Nat) (r : Region) : (s.setRegion d panel r).outTags = s.outTags := (rfl)
@[simp] theorem State.setRegion_bursts (d panel : Nat) (r : Region) : (s.setRegion d panel r).bursts = s.bursts := (rfl)
@[simp] theorem State.setRegion_orderHold (d panel : Nat) (r : Region) : (s.setRegion d panel r).orderHold = s.orderHold := (rfl)
@[simp] theorem State.setRegion_halted (d panel : Nat) (r : Region) : (s.setRegion d panel r).halted = s.halted := (rfl)
@[simp] theorem State.setRegion_catchShut (d panel : Nat) (r : Region) : (s.setRegion d panel r).catchShut = s.catchShut := (rfl)
@[simp] theorem State.setRegion_secCount (d panel : Nat) (r : Region) : (s.setRegion d panel r).secCount = s.secCount := (rfl)
@[simp] theorem State.setRegion_dedCount (d panel : Nat) (r : Region) : (s.setRegion d panel r).dedCount = s.dedCount := (rfl)
@[simp] theorem State.setRegion_flog (d panel : Nat) (r : Region) : (s.setRegion d panel r).flog = s.flog := (rfl)
@[simp] theorem State.setRegion_flogFull (d panel : Nat) (r : Region) : (s.setRegion d panel r).flogFull = s.flogFull := (rfl)
@[simp] theorem State.setRegion_fwd (d panel : Nat) (r : Region) : (s.setRegion d panel r).fwd = s.fwd := (rfl)
@[simp] theorem State.setRegion_traces (d panel : Nat) (r : Region) : (s.setRegion d panel r).traces = s.traces := (rfl)
@[simp] theorem State.setRegion_stats (d panel : Nat) (r : Region) : (s.setRegion d panel r).stats = s.stats := (rfl)
@[simp] theorem State.setRegion_prbCount (d panel : Nat) (r : Region) : (s.setRegion d panel r).prbCount = s.prbCount := (rfl)
@[simp] theorem State.setRegion_patRw (d panel : Nat) (r : Region) : (s.setRegion d panel r).patRw = s.patRw := (rfl)
@[simp] theorem State.setRegion_svcAt (d panel : Nat) (r : Region) : (s.setRegion d panel r).svcAt = s.svcAt := (rfl)
@[simp] theorem State.setRegion_timeReq (d panel : Nat) (r : Region) : (s.setRegion d panel r).timeReq = s.timeReq := (rfl)
@[simp] theorem State.setRegion_syncObj (d panel : Nat) (r : Region) : (s.setRegion d panel r).syncObj = s.syncObj := (rfl)
@[simp] theorem State.setRegion_syncInit (d panel : Nat) (r : Region) : (s.setRegion d panel r).syncInit = s.syncInit := (rfl)
@[simp] theorem State.setRegion_syncDone (d panel : Nat) (r : Region) : (s.setRegion d panel r).syncDone = s.syncDone := (rfl)
@[simp] theorem State.setRegion_syncUsed (d panel : Nat) (r : Region) : (s.setRegion d panel r).syncUsed = s.syncUsed := (rfl)
@[simp] theorem State.setRegion_syncLeft (d panel : Nat) (r : Region) : (s.setRegion d panel r).syncLeft = s.syncLeft := (rfl)
@[simp] theorem State.setRegion_syncBreak (d panel : Nat) (r : Region) : (s.setRegion d panel r).syncBreak = s.syncBreak := (rfl)
@[simp] theorem State.setRegion_memports (d panel : Nat) (r : Region) : (s.setRegion d panel r).memports = s.memports := (rfl)
@[simp] theorem State.setRegion_ces (d panel : Nat) (r : Region) : (s.setRegion d panel r).ces = s.ces := (rfl)
@[simp] theorem State.setRegion_ledger (d panel : Nat) (r : Region) : (s.setRegion d panel r).ledger = s.ledger := (rfl)
@[simp] theorem State.setRegion_stores (d panel : Nat) (r : Region) : (s.setRegion d panel r).stores = s.stores := (rfl)
@[simp] theorem State.setRegion_boots (d panel : Nat) (r : Region) : (s.setRegion d panel r).boots = s.boots := (rfl)
@[simp] theorem State.setRegion_msix (d panel : Nat) (r : Region) : (s.setRegion d panel r).msix = s.msix := (rfl)
@[simp] theorem State.setRegion_wins (d panel : Nat) (r : Region) : (s.setRegion d panel r).wins = s.wins := (rfl)
@[simp] theorem State.setRegion_cmtClosed (d panel : Nat) (r : Region) : (s.setRegion d panel r).cmtClosed = s.cmtClosed := (rfl)
@[simp] theorem State.setRegion_coords (d panel : Nat) (r : Region) : (s.setRegion d panel r).coords = s.coords := (rfl)
@[simp] theorem State.setRegion_loader (d panel : Nat) (r : Region) : (s.setRegion d panel r).loader = s.loader := (rfl)
@[simp] theorem State.setRegion_patches (d panel : Nat) (r : Region) : (s.setRegion d panel r).patches = s.patches := (rfl)
@[simp] theorem State.setRegion_patchNum (d panel : Nat) (r : Region) : (s.setRegion d panel r).patchNum = s.patchNum := (rfl)
@[simp] theorem State.setRegion_patchLog (d panel : Nat) (r : Region) : (s.setRegion d panel r).patchLog = s.patchLog := (rfl)
@[simp] theorem State.setRegion_areaUsed (d panel : Nat) (r : Region) : (s.setRegion d panel r).areaUsed = s.areaUsed := (rfl)
@[simp] theorem State.setRegion_posted (d panel : Nat) (r : Region) : (s.setRegion d panel r).posted = s.posted := (rfl)
@[simp] theorem State.setRegion_plWant (d panel : Nat) (r : Region) : (s.setRegion d panel r).plWant = s.plWant := (rfl)
@[simp] theorem State.setRegion_hbs (d panel : Nat) (r : Region) : (s.setRegion d panel r).hbs = s.hbs := (rfl)
@[simp] theorem State.setRegion_hbFrom (d panel : Nat) (r : Region) : (s.setRegion d panel r).hbFrom = s.hbFrom := (rfl)
@[simp] theorem State.setRegion_hbSent (d panel : Nat) (r : Region) : (s.setRegion d panel r).hbSent = s.hbSent := (rfl)
@[simp] theorem State.setRegion_pkgHbSent (d panel : Nat) (r : Region) : (s.setRegion d panel r).pkgHbSent = s.pkgHbSent := (rfl)
@[simp] theorem State.setRegion_suspects (d panel : Nat) (r : Region) : (s.setRegion d panel r).suspects = s.suspects := (rfl)
@[simp] theorem State.setRegion_vseq (d panel : Nat) (r : Region) : (s.setRegion d panel r).vseq = s.vseq := (rfl)
@[simp] theorem State.setRegion_verdictsSeen (d panel : Nat) (r : Region) : (s.setRegion d panel r).verdictsSeen = s.verdictsSeen := (rfl)
@[simp] theorem State.setRegion_deadPkgs (d panel : Nat) (r : Region) : (s.setRegion d panel r).deadPkgs = s.deadPkgs := (rfl)
@[simp] theorem State.setRegion_selfDead (d panel : Nat) (r : Region) : (s.setRegion d panel r).selfDead = s.selfDead := (rfl)
@[simp] theorem State.setRegion_deadUnits (d panel : Nat) (r : Region) : (s.setRegion d panel r).deadUnits = s.deadUnits := (rfl)
@[simp] theorem State.setRegion_probeSeqs (d panel : Nat) (r : Region) : (s.setRegion d panel r).probeSeqs = s.probeSeqs := (rfl)
@[simp] theorem State.setRegion_probeWires (d panel : Nat) (r : Region) : (s.setRegion d panel r).probeWires = s.probeWires := (rfl)
@[simp] theorem State.setRegion_secWindow (d panel : Nat) (r : Region) : (s.setRegion d panel r).secWindow = s.secWindow := (rfl)
@[simp] theorem State.setRegion_wearFt (d panel : Nat) (r : Region) : (s.setRegion d panel r).wearFt = s.wearFt := (rfl)
@[simp] theorem State.setRegion_telemFt (d panel : Nat) (r : Region) : (s.setRegion d panel r).telemFt = s.telemFt := (rfl)
@[simp] theorem State.setRegion_telem (d panel : Nat) (r : Region) : (s.setRegion d panel r).telem = s.telem := (rfl)
@[simp] theorem State.setRegion_darns (d panel : Nat) (r : Region) : (s.setRegion d panel r).darns = s.darns := (rfl)
@[simp] theorem State.setRegion_stalls (d panel : Nat) (r : Region) : (s.setRegion d panel r).stalls = s.stalls := (rfl)
@[simp] theorem State.setRegion_kickFt (d panel : Nat) (r : Region) : (s.setRegion d panel r).kickFt = s.kickFt := (rfl)
@[simp] theorem State.setRegion_dumps (d panel : Nat) (r : Region) : (s.setRegion d panel r).dumps = s.dumps := (rfl)
@[simp] theorem State.setRegion_mpTrained (d panel : Nat) (r : Region) : (s.setRegion d panel r).mpTrained = s.mpTrained := (rfl)
@[simp] theorem State.setRegion_stopNext (d panel : Nat) (r : Region) : (s.setRegion d panel r).stopNext = s.stopNext := (rfl)
@[simp] theorem State.setRegion_armWait (d panel : Nat) (r : Region) : (s.setRegion d panel r).armWait = s.armWait := (rfl)
@[simp] theorem State.setRegion_stls (d panel : Nat) (r : Region) : (s.setRegion d panel r).stls = s.stls := (rfl)
@[simp] theorem State.setRegion_transitPos (d panel : Nat) (r : Region) : (s.setRegion d panel r).transitPos = s.transitPos := (rfl)
@[simp] theorem State.setRegion_debugFt (d panel : Nat) (r : Region) : (s.setRegion d panel r).debugFt = s.debugFt := (rfl)
@[simp] theorem State.setRegion_debugWait (d panel : Nat) (r : Region) : (s.setRegion d panel r).debugWait = s.debugWait := (rfl)
@[simp] theorem State.setRegion_eraseOnly (d panel : Nat) (r : Region) : (s.setRegion d panel r).eraseOnly = s.eraseOnly := (rfl)
@[simp] theorem State.setRegion_provision (d panel : Nat) (r : Region) : (s.setRegion d panel r).provision = s.provision := (rfl)
@[simp] theorem State.setRegion_barJobs (d panel : Nat) (r : Region) : (s.setRegion d panel r).barJobs = s.barJobs := (rfl)
@[simp] theorem State.setRegion_hostOut (d panel : Nat) (r : Region) : (s.setRegion d panel r).hostOut = s.hostOut := (rfl)
@[simp] theorem State.setRegion_rcsr (d panel : Nat) (r : Region) : (s.setRegion d panel r).rcsr = s.rcsr := (rfl)
@[simp] theorem State.setRegion_tileReset (d panel : Nat) (r : Region) : (s.setRegion d panel r).tileReset = s.tileReset := (rfl)
@[simp] theorem State.setRegion_pkgMend (d panel : Nat) (r : Region) : (s.setRegion d panel r).pkgMend = s.pkgMend := (rfl)
@[simp] theorem State.setRegion_rejoinFt (d panel : Nat) (r : Region) : (s.setRegion d panel r).rejoinFt = s.rejoinFt := (rfl)
@[simp] theorem State.setRegion_testFails (d panel : Nat) (r : Region) : (s.setRegion d panel r).testFails = s.testFails := (rfl)
@[simp] theorem State.setRegion_testReport (d panel : Nat) (r : Region) : (s.setRegion d panel r).testReport = s.testReport := (rfl)

/-! `enqueue` -/

@[simp] theorem State.enqueue_pending (d att : Nat) (q : Queued) : (s.enqueue d att q).pending = s.pending := (rfl)
@[simp] theorem State.enqueue_free (d att : Nat) (q : Queued) : (s.enqueue d att q).free = s.free := (rfl)
@[simp] theorem State.enqueue_setNow (d att : Nat) (q : Queued) : (s.enqueue d att q).setNow = s.setNow := (rfl)
@[simp] theorem State.enqueue_wroteNow (d att : Nat) (q : Queued) : (s.enqueue d att q).wroteNow = s.wroteNow := (rfl)
@[simp] theorem State.enqueue_floor (d att : Nat) (q : Queued) : (s.enqueue d att q).floor = s.floor := (rfl)
@[simp] theorem State.enqueue_physical (d att : Nat) (q : Queued) : (s.enqueue d att q).physical = s.physical := (rfl)
@[simp] theorem State.enqueue_memOwned (d att : Nat) (q : Queued) : (s.enqueue d att q).memOwned = s.memOwned := (rfl)
@[simp] theorem State.enqueue_csr (d att : Nat) (q : Queued) : (s.enqueue d att q).csr = s.csr := (rfl)
@[simp] theorem State.enqueue_mem (d att : Nat) (q : Queued) : (s.enqueue d att q).mem = s.mem := (rfl)
@[simp] theorem State.enqueue_mode (d att : Nat) (q : Queued) : (s.enqueue d att q).mode = s.mode := (rfl)
@[simp] theorem State.enqueue_headDie (d att : Nat) (q : Queued) : (s.enqueue d att q).headDie = s.headDie := (rfl)
@[simp] theorem State.enqueue_mirrorDie (d att : Nat) (q : Queued) : (s.enqueue d att q).mirrorDie = s.mirrorDie := (rfl)
@[simp] theorem State.enqueue_slotTab (d att : Nat) (q : Queued) : (s.enqueue d att q).slotTab = s.slotTab := (rfl)
@[simp] theorem State.enqueue_treeTab (d att : Nat) (q : Queued) : (s.enqueue d att q).treeTab = s.treeTab := (rfl)
@[simp] theorem State.enqueue_joinTab (d att : Nat) (q : Queued) : (s.enqueue d att q).joinTab = s.joinTab := (rfl)
@[simp] theorem State.enqueue_routeTab (d att : Nat) (q : Queued) : (s.enqueue d att q).routeTab = s.routeTab := (rfl)
@[simp] theorem State.enqueue_routeStore (d att : Nat) (q : Queued) : (s.enqueue d att q).routeStore = s.routeStore := (rfl)
@[simp] theorem State.enqueue_arrivalTab (d att : Nat) (q : Queued) : (s.enqueue d att q).arrivalTab = s.arrivalTab := (rfl)
@[simp] theorem State.enqueue_gateTab (d att : Nat) (q : Queued) : (s.enqueue d att q).gateTab = s.gateTab := (rfl)
@[simp] theorem State.enqueue_keepers (d att : Nat) (q : Queued) : (s.enqueue d att q).keepers = s.keepers := (rfl)
@[simp] theorem State.enqueue_regions (d att : Nat) (q : Queued) : (s.enqueue d att q).regions = s.regions := (rfl)
@[simp] theorem State.enqueue_panelReq (d att : Nat) (q : Queued) : (s.enqueue d att q).panelReq = s.panelReq := (rfl)
@[simp] theorem State.enqueue_gates (d att : Nat) (q : Queued) : (s.enqueue d att q).gates = s.gates := (rfl)
@[simp] theorem State.enqueue_shapers (d att : Nat) (q : Queued) : (s.enqueue d att q).shapers = s.shapers := (rfl)
@[simp] theorem State.enqueue_sampleFrom (d att : Nat) (q : Queued) : (s.enqueue d att q).sampleFrom = s.sampleFrom := (rfl)
@[simp] theorem State.enqueue_govs (d att : Nat) (q : Queued) : (s.enqueue d att q).govs = s.govs := (rfl)
@[simp] theorem State.enqueue_routers (d att : Nat) (q : Queued) : (s.enqueue d att q).routers = s.routers := (rfl)
@[simp] theorem State.enqueue_wires (d att : Nat) (q : Queued) : (s.enqueue d att q).wires = s.wires := (rfl)
@[simp] theorem State.enqueue_credWires (d att : Nat) (q : Queued) : (s.enqueue d att q).credWires = s.credWires := (rfl)
@[simp] theorem State.enqueue_edgeHem (d att : Nat) (q : Queued) : (s.enqueue d att q).edgeHem = s.edgeHem := (rfl)
@[simp] theorem State.enqueue_seams (d att : Nat) (q : Queued) : (s.enqueue d att q).seams = s.seams := (rfl)
@[simp] theorem State.enqueue_nis (d att : Nat) (q : Queued) : (s.enqueue d att q).nis = s.nis := (rfl)
@[simp] theorem State.enqueue_stream (d att : Nat) (q : Queued) : (s.enqueue d att q).stream = s.stream := (rfl)
@[simp] theorem State.enqueue_injCount (d att : Nat) (q : Queued) : (s.enqueue d att q).injCount = s.injCount := (rfl)
@[simp] theorem State.enqueue_hints (d att : Nat) (q : Queued) : (s.enqueue d att q).hints = s.hints := (rfl)
@[simp] theorem State.enqueue_outTags (d att : Nat) (q : Queued) : (s.enqueue d att q).outTags = s.outTags := (rfl)
@[simp] theorem State.enqueue_bursts (d att : Nat) (q : Queued) : (s.enqueue d att q).bursts = s.bursts := (rfl)
@[simp] theorem State.enqueue_orderHold (d att : Nat) (q : Queued) : (s.enqueue d att q).orderHold = s.orderHold := (rfl)
@[simp] theorem State.enqueue_halted (d att : Nat) (q : Queued) : (s.enqueue d att q).halted = s.halted := (rfl)
@[simp] theorem State.enqueue_catchShut (d att : Nat) (q : Queued) : (s.enqueue d att q).catchShut = s.catchShut := (rfl)
@[simp] theorem State.enqueue_secCount (d att : Nat) (q : Queued) : (s.enqueue d att q).secCount = s.secCount := (rfl)
@[simp] theorem State.enqueue_dedCount (d att : Nat) (q : Queued) : (s.enqueue d att q).dedCount = s.dedCount := (rfl)
@[simp] theorem State.enqueue_flog (d att : Nat) (q : Queued) : (s.enqueue d att q).flog = s.flog := (rfl)
@[simp] theorem State.enqueue_flogFull (d att : Nat) (q : Queued) : (s.enqueue d att q).flogFull = s.flogFull := (rfl)
@[simp] theorem State.enqueue_fwd (d att : Nat) (q : Queued) : (s.enqueue d att q).fwd = s.fwd := (rfl)
@[simp] theorem State.enqueue_traces (d att : Nat) (q : Queued) : (s.enqueue d att q).traces = s.traces := (rfl)
@[simp] theorem State.enqueue_stats (d att : Nat) (q : Queued) : (s.enqueue d att q).stats = s.stats := (rfl)
@[simp] theorem State.enqueue_prbCount (d att : Nat) (q : Queued) : (s.enqueue d att q).prbCount = s.prbCount := (rfl)
@[simp] theorem State.enqueue_patRw (d att : Nat) (q : Queued) : (s.enqueue d att q).patRw = s.patRw := (rfl)
@[simp] theorem State.enqueue_svcAt (d att : Nat) (q : Queued) : (s.enqueue d att q).svcAt = s.svcAt := (rfl)
@[simp] theorem State.enqueue_timeReq (d att : Nat) (q : Queued) : (s.enqueue d att q).timeReq = s.timeReq := (rfl)
@[simp] theorem State.enqueue_syncObj (d att : Nat) (q : Queued) : (s.enqueue d att q).syncObj = s.syncObj := (rfl)
@[simp] theorem State.enqueue_syncInit (d att : Nat) (q : Queued) : (s.enqueue d att q).syncInit = s.syncInit := (rfl)
@[simp] theorem State.enqueue_syncDone (d att : Nat) (q : Queued) : (s.enqueue d att q).syncDone = s.syncDone := (rfl)
@[simp] theorem State.enqueue_syncUsed (d att : Nat) (q : Queued) : (s.enqueue d att q).syncUsed = s.syncUsed := (rfl)
@[simp] theorem State.enqueue_syncLeft (d att : Nat) (q : Queued) : (s.enqueue d att q).syncLeft = s.syncLeft := (rfl)
@[simp] theorem State.enqueue_syncBreak (d att : Nat) (q : Queued) : (s.enqueue d att q).syncBreak = s.syncBreak := (rfl)
@[simp] theorem State.enqueue_memports (d att : Nat) (q : Queued) : (s.enqueue d att q).memports = s.memports := (rfl)
@[simp] theorem State.enqueue_ces (d att : Nat) (q : Queued) : (s.enqueue d att q).ces = s.ces := (rfl)
@[simp] theorem State.enqueue_ledger (d att : Nat) (q : Queued) : (s.enqueue d att q).ledger = s.ledger := (rfl)
@[simp] theorem State.enqueue_stores (d att : Nat) (q : Queued) : (s.enqueue d att q).stores = s.stores := (rfl)
@[simp] theorem State.enqueue_boots (d att : Nat) (q : Queued) : (s.enqueue d att q).boots = s.boots := (rfl)
@[simp] theorem State.enqueue_msix (d att : Nat) (q : Queued) : (s.enqueue d att q).msix = s.msix := (rfl)
@[simp] theorem State.enqueue_wins (d att : Nat) (q : Queued) : (s.enqueue d att q).wins = s.wins := (rfl)
@[simp] theorem State.enqueue_cmtClosed (d att : Nat) (q : Queued) : (s.enqueue d att q).cmtClosed = s.cmtClosed := (rfl)
@[simp] theorem State.enqueue_coords (d att : Nat) (q : Queued) : (s.enqueue d att q).coords = s.coords := (rfl)
@[simp] theorem State.enqueue_loader (d att : Nat) (q : Queued) : (s.enqueue d att q).loader = s.loader := (rfl)
@[simp] theorem State.enqueue_patches (d att : Nat) (q : Queued) : (s.enqueue d att q).patches = s.patches := (rfl)
@[simp] theorem State.enqueue_patchNum (d att : Nat) (q : Queued) : (s.enqueue d att q).patchNum = s.patchNum := (rfl)
@[simp] theorem State.enqueue_patchLog (d att : Nat) (q : Queued) : (s.enqueue d att q).patchLog = s.patchLog := (rfl)
@[simp] theorem State.enqueue_areaUsed (d att : Nat) (q : Queued) : (s.enqueue d att q).areaUsed = s.areaUsed := (rfl)
@[simp] theorem State.enqueue_posted (d att : Nat) (q : Queued) : (s.enqueue d att q).posted = s.posted := (rfl)
@[simp] theorem State.enqueue_plWant (d att : Nat) (q : Queued) : (s.enqueue d att q).plWant = s.plWant := (rfl)
@[simp] theorem State.enqueue_hbs (d att : Nat) (q : Queued) : (s.enqueue d att q).hbs = s.hbs := (rfl)
@[simp] theorem State.enqueue_hbFrom (d att : Nat) (q : Queued) : (s.enqueue d att q).hbFrom = s.hbFrom := (rfl)
@[simp] theorem State.enqueue_hbSent (d att : Nat) (q : Queued) : (s.enqueue d att q).hbSent = s.hbSent := (rfl)
@[simp] theorem State.enqueue_pkgHbSent (d att : Nat) (q : Queued) : (s.enqueue d att q).pkgHbSent = s.pkgHbSent := (rfl)
@[simp] theorem State.enqueue_suspects (d att : Nat) (q : Queued) : (s.enqueue d att q).suspects = s.suspects := (rfl)
@[simp] theorem State.enqueue_vseq (d att : Nat) (q : Queued) : (s.enqueue d att q).vseq = s.vseq := (rfl)
@[simp] theorem State.enqueue_verdictsSeen (d att : Nat) (q : Queued) : (s.enqueue d att q).verdictsSeen = s.verdictsSeen := (rfl)
@[simp] theorem State.enqueue_deadPkgs (d att : Nat) (q : Queued) : (s.enqueue d att q).deadPkgs = s.deadPkgs := (rfl)
@[simp] theorem State.enqueue_selfDead (d att : Nat) (q : Queued) : (s.enqueue d att q).selfDead = s.selfDead := (rfl)
@[simp] theorem State.enqueue_deadUnits (d att : Nat) (q : Queued) : (s.enqueue d att q).deadUnits = s.deadUnits := (rfl)
@[simp] theorem State.enqueue_probeSeqs (d att : Nat) (q : Queued) : (s.enqueue d att q).probeSeqs = s.probeSeqs := (rfl)
@[simp] theorem State.enqueue_probeWires (d att : Nat) (q : Queued) : (s.enqueue d att q).probeWires = s.probeWires := (rfl)
@[simp] theorem State.enqueue_secWindow (d att : Nat) (q : Queued) : (s.enqueue d att q).secWindow = s.secWindow := (rfl)
@[simp] theorem State.enqueue_wearFt (d att : Nat) (q : Queued) : (s.enqueue d att q).wearFt = s.wearFt := (rfl)
@[simp] theorem State.enqueue_telemFt (d att : Nat) (q : Queued) : (s.enqueue d att q).telemFt = s.telemFt := (rfl)
@[simp] theorem State.enqueue_telem (d att : Nat) (q : Queued) : (s.enqueue d att q).telem = s.telem := (rfl)
@[simp] theorem State.enqueue_darns (d att : Nat) (q : Queued) : (s.enqueue d att q).darns = s.darns := (rfl)
@[simp] theorem State.enqueue_stalls (d att : Nat) (q : Queued) : (s.enqueue d att q).stalls = s.stalls := (rfl)
@[simp] theorem State.enqueue_kickFt (d att : Nat) (q : Queued) : (s.enqueue d att q).kickFt = s.kickFt := (rfl)
@[simp] theorem State.enqueue_dumps (d att : Nat) (q : Queued) : (s.enqueue d att q).dumps = s.dumps := (rfl)
@[simp] theorem State.enqueue_mpTrained (d att : Nat) (q : Queued) : (s.enqueue d att q).mpTrained = s.mpTrained := (rfl)
@[simp] theorem State.enqueue_stopNext (d att : Nat) (q : Queued) : (s.enqueue d att q).stopNext = s.stopNext := (rfl)
@[simp] theorem State.enqueue_armWait (d att : Nat) (q : Queued) : (s.enqueue d att q).armWait = s.armWait := (rfl)
@[simp] theorem State.enqueue_stls (d att : Nat) (q : Queued) : (s.enqueue d att q).stls = s.stls := (rfl)
@[simp] theorem State.enqueue_transitPos (d att : Nat) (q : Queued) : (s.enqueue d att q).transitPos = s.transitPos := (rfl)
@[simp] theorem State.enqueue_debugFt (d att : Nat) (q : Queued) : (s.enqueue d att q).debugFt = s.debugFt := (rfl)
@[simp] theorem State.enqueue_debugWait (d att : Nat) (q : Queued) : (s.enqueue d att q).debugWait = s.debugWait := (rfl)
@[simp] theorem State.enqueue_eraseOnly (d att : Nat) (q : Queued) : (s.enqueue d att q).eraseOnly = s.eraseOnly := (rfl)
@[simp] theorem State.enqueue_provision (d att : Nat) (q : Queued) : (s.enqueue d att q).provision = s.provision := (rfl)
@[simp] theorem State.enqueue_barJobs (d att : Nat) (q : Queued) : (s.enqueue d att q).barJobs = s.barJobs := (rfl)
@[simp] theorem State.enqueue_hostOut (d att : Nat) (q : Queued) : (s.enqueue d att q).hostOut = s.hostOut := (rfl)
@[simp] theorem State.enqueue_rcsr (d att : Nat) (q : Queued) : (s.enqueue d att q).rcsr = s.rcsr := (rfl)
@[simp] theorem State.enqueue_tileReset (d att : Nat) (q : Queued) : (s.enqueue d att q).tileReset = s.tileReset := (rfl)
@[simp] theorem State.enqueue_pkgMend (d att : Nat) (q : Queued) : (s.enqueue d att q).pkgMend = s.pkgMend := (rfl)
@[simp] theorem State.enqueue_rejoinFt (d att : Nat) (q : Queued) : (s.enqueue d att q).rejoinFt = s.rejoinFt := (rfl)
@[simp] theorem State.enqueue_testFails (d att : Nat) (q : Queued) : (s.enqueue d att q).testFails = s.testFails := (rfl)
@[simp] theorem State.enqueue_testReport (d att : Nat) (q : Queued) : (s.enqueue d att q).testReport = s.testReport := (rfl)

/-! `setRouter` -/

@[simp] theorem State.setRouter_pending (d p : Nat) (r : Router) : (s.setRouter d p r).pending = s.pending := (rfl)
@[simp] theorem State.setRouter_free (d p : Nat) (r : Router) : (s.setRouter d p r).free = s.free := (rfl)
@[simp] theorem State.setRouter_setNow (d p : Nat) (r : Router) : (s.setRouter d p r).setNow = s.setNow := (rfl)
@[simp] theorem State.setRouter_wroteNow (d p : Nat) (r : Router) : (s.setRouter d p r).wroteNow = s.wroteNow := (rfl)
@[simp] theorem State.setRouter_floor (d p : Nat) (r : Router) : (s.setRouter d p r).floor = s.floor := (rfl)
@[simp] theorem State.setRouter_physical (d p : Nat) (r : Router) : (s.setRouter d p r).physical = s.physical := (rfl)
@[simp] theorem State.setRouter_memOwned (d p : Nat) (r : Router) : (s.setRouter d p r).memOwned = s.memOwned := (rfl)
@[simp] theorem State.setRouter_csr (d p : Nat) (r : Router) : (s.setRouter d p r).csr = s.csr := (rfl)
@[simp] theorem State.setRouter_mem (d p : Nat) (r : Router) : (s.setRouter d p r).mem = s.mem := (rfl)
@[simp] theorem State.setRouter_mode (d p : Nat) (r : Router) : (s.setRouter d p r).mode = s.mode := (rfl)
@[simp] theorem State.setRouter_headDie (d p : Nat) (r : Router) : (s.setRouter d p r).headDie = s.headDie := (rfl)
@[simp] theorem State.setRouter_mirrorDie (d p : Nat) (r : Router) : (s.setRouter d p r).mirrorDie = s.mirrorDie := (rfl)
@[simp] theorem State.setRouter_slotTab (d p : Nat) (r : Router) : (s.setRouter d p r).slotTab = s.slotTab := (rfl)
@[simp] theorem State.setRouter_treeTab (d p : Nat) (r : Router) : (s.setRouter d p r).treeTab = s.treeTab := (rfl)
@[simp] theorem State.setRouter_joinTab (d p : Nat) (r : Router) : (s.setRouter d p r).joinTab = s.joinTab := (rfl)
@[simp] theorem State.setRouter_routeTab (d p : Nat) (r : Router) : (s.setRouter d p r).routeTab = s.routeTab := (rfl)
@[simp] theorem State.setRouter_routeStore (d p : Nat) (r : Router) : (s.setRouter d p r).routeStore = s.routeStore := (rfl)
@[simp] theorem State.setRouter_arrivalTab (d p : Nat) (r : Router) : (s.setRouter d p r).arrivalTab = s.arrivalTab := (rfl)
@[simp] theorem State.setRouter_gateTab (d p : Nat) (r : Router) : (s.setRouter d p r).gateTab = s.gateTab := (rfl)
@[simp] theorem State.setRouter_keepers (d p : Nat) (r : Router) : (s.setRouter d p r).keepers = s.keepers := (rfl)
@[simp] theorem State.setRouter_regions (d p : Nat) (r : Router) : (s.setRouter d p r).regions = s.regions := (rfl)
@[simp] theorem State.setRouter_panelReq (d p : Nat) (r : Router) : (s.setRouter d p r).panelReq = s.panelReq := (rfl)
@[simp] theorem State.setRouter_gates (d p : Nat) (r : Router) : (s.setRouter d p r).gates = s.gates := (rfl)
@[simp] theorem State.setRouter_shapers (d p : Nat) (r : Router) : (s.setRouter d p r).shapers = s.shapers := (rfl)
@[simp] theorem State.setRouter_sampleFrom (d p : Nat) (r : Router) : (s.setRouter d p r).sampleFrom = s.sampleFrom := (rfl)
@[simp] theorem State.setRouter_govs (d p : Nat) (r : Router) : (s.setRouter d p r).govs = s.govs := (rfl)
@[simp] theorem State.setRouter_wires (d p : Nat) (r : Router) : (s.setRouter d p r).wires = s.wires := (rfl)
@[simp] theorem State.setRouter_credWires (d p : Nat) (r : Router) : (s.setRouter d p r).credWires = s.credWires := (rfl)
@[simp] theorem State.setRouter_edgeHem (d p : Nat) (r : Router) : (s.setRouter d p r).edgeHem = s.edgeHem := (rfl)
@[simp] theorem State.setRouter_seams (d p : Nat) (r : Router) : (s.setRouter d p r).seams = s.seams := (rfl)
@[simp] theorem State.setRouter_nis (d p : Nat) (r : Router) : (s.setRouter d p r).nis = s.nis := (rfl)
@[simp] theorem State.setRouter_inj (d p : Nat) (r : Router) : (s.setRouter d p r).inj = s.inj := (rfl)
@[simp] theorem State.setRouter_stream (d p : Nat) (r : Router) : (s.setRouter d p r).stream = s.stream := (rfl)
@[simp] theorem State.setRouter_injCount (d p : Nat) (r : Router) : (s.setRouter d p r).injCount = s.injCount := (rfl)
@[simp] theorem State.setRouter_hints (d p : Nat) (r : Router) : (s.setRouter d p r).hints = s.hints := (rfl)
@[simp] theorem State.setRouter_outTags (d p : Nat) (r : Router) : (s.setRouter d p r).outTags = s.outTags := (rfl)
@[simp] theorem State.setRouter_bursts (d p : Nat) (r : Router) : (s.setRouter d p r).bursts = s.bursts := (rfl)
@[simp] theorem State.setRouter_orderHold (d p : Nat) (r : Router) : (s.setRouter d p r).orderHold = s.orderHold := (rfl)
@[simp] theorem State.setRouter_halted (d p : Nat) (r : Router) : (s.setRouter d p r).halted = s.halted := (rfl)
@[simp] theorem State.setRouter_catchShut (d p : Nat) (r : Router) : (s.setRouter d p r).catchShut = s.catchShut := (rfl)
@[simp] theorem State.setRouter_secCount (d p : Nat) (r : Router) : (s.setRouter d p r).secCount = s.secCount := (rfl)
@[simp] theorem State.setRouter_dedCount (d p : Nat) (r : Router) : (s.setRouter d p r).dedCount = s.dedCount := (rfl)
@[simp] theorem State.setRouter_flog (d p : Nat) (r : Router) : (s.setRouter d p r).flog = s.flog := (rfl)
@[simp] theorem State.setRouter_flogFull (d p : Nat) (r : Router) : (s.setRouter d p r).flogFull = s.flogFull := (rfl)
@[simp] theorem State.setRouter_fwd (d p : Nat) (r : Router) : (s.setRouter d p r).fwd = s.fwd := (rfl)
@[simp] theorem State.setRouter_traces (d p : Nat) (r : Router) : (s.setRouter d p r).traces = s.traces := (rfl)
@[simp] theorem State.setRouter_stats (d p : Nat) (r : Router) : (s.setRouter d p r).stats = s.stats := (rfl)
@[simp] theorem State.setRouter_prbCount (d p : Nat) (r : Router) : (s.setRouter d p r).prbCount = s.prbCount := (rfl)
@[simp] theorem State.setRouter_patRw (d p : Nat) (r : Router) : (s.setRouter d p r).patRw = s.patRw := (rfl)
@[simp] theorem State.setRouter_svcAt (d p : Nat) (r : Router) : (s.setRouter d p r).svcAt = s.svcAt := (rfl)
@[simp] theorem State.setRouter_timeReq (d p : Nat) (r : Router) : (s.setRouter d p r).timeReq = s.timeReq := (rfl)
@[simp] theorem State.setRouter_syncObj (d p : Nat) (r : Router) : (s.setRouter d p r).syncObj = s.syncObj := (rfl)
@[simp] theorem State.setRouter_syncInit (d p : Nat) (r : Router) : (s.setRouter d p r).syncInit = s.syncInit := (rfl)
@[simp] theorem State.setRouter_syncDone (d p : Nat) (r : Router) : (s.setRouter d p r).syncDone = s.syncDone := (rfl)
@[simp] theorem State.setRouter_syncUsed (d p : Nat) (r : Router) : (s.setRouter d p r).syncUsed = s.syncUsed := (rfl)
@[simp] theorem State.setRouter_syncLeft (d p : Nat) (r : Router) : (s.setRouter d p r).syncLeft = s.syncLeft := (rfl)
@[simp] theorem State.setRouter_syncBreak (d p : Nat) (r : Router) : (s.setRouter d p r).syncBreak = s.syncBreak := (rfl)
@[simp] theorem State.setRouter_memports (d p : Nat) (r : Router) : (s.setRouter d p r).memports = s.memports := (rfl)
@[simp] theorem State.setRouter_ces (d p : Nat) (r : Router) : (s.setRouter d p r).ces = s.ces := (rfl)
@[simp] theorem State.setRouter_ledger (d p : Nat) (r : Router) : (s.setRouter d p r).ledger = s.ledger := (rfl)
@[simp] theorem State.setRouter_stores (d p : Nat) (r : Router) : (s.setRouter d p r).stores = s.stores := (rfl)
@[simp] theorem State.setRouter_boots (d p : Nat) (r : Router) : (s.setRouter d p r).boots = s.boots := (rfl)
@[simp] theorem State.setRouter_msix (d p : Nat) (r : Router) : (s.setRouter d p r).msix = s.msix := (rfl)
@[simp] theorem State.setRouter_wins (d p : Nat) (r : Router) : (s.setRouter d p r).wins = s.wins := (rfl)
@[simp] theorem State.setRouter_cmtClosed (d p : Nat) (r : Router) : (s.setRouter d p r).cmtClosed = s.cmtClosed := (rfl)
@[simp] theorem State.setRouter_coords (d p : Nat) (r : Router) : (s.setRouter d p r).coords = s.coords := (rfl)
@[simp] theorem State.setRouter_loader (d p : Nat) (r : Router) : (s.setRouter d p r).loader = s.loader := (rfl)
@[simp] theorem State.setRouter_patches (d p : Nat) (r : Router) : (s.setRouter d p r).patches = s.patches := (rfl)
@[simp] theorem State.setRouter_patchNum (d p : Nat) (r : Router) : (s.setRouter d p r).patchNum = s.patchNum := (rfl)
@[simp] theorem State.setRouter_patchLog (d p : Nat) (r : Router) : (s.setRouter d p r).patchLog = s.patchLog := (rfl)
@[simp] theorem State.setRouter_areaUsed (d p : Nat) (r : Router) : (s.setRouter d p r).areaUsed = s.areaUsed := (rfl)
@[simp] theorem State.setRouter_posted (d p : Nat) (r : Router) : (s.setRouter d p r).posted = s.posted := (rfl)
@[simp] theorem State.setRouter_plWant (d p : Nat) (r : Router) : (s.setRouter d p r).plWant = s.plWant := (rfl)
@[simp] theorem State.setRouter_hbs (d p : Nat) (r : Router) : (s.setRouter d p r).hbs = s.hbs := (rfl)
@[simp] theorem State.setRouter_hbFrom (d p : Nat) (r : Router) : (s.setRouter d p r).hbFrom = s.hbFrom := (rfl)
@[simp] theorem State.setRouter_hbSent (d p : Nat) (r : Router) : (s.setRouter d p r).hbSent = s.hbSent := (rfl)
@[simp] theorem State.setRouter_pkgHbSent (d p : Nat) (r : Router) : (s.setRouter d p r).pkgHbSent = s.pkgHbSent := (rfl)
@[simp] theorem State.setRouter_suspects (d p : Nat) (r : Router) : (s.setRouter d p r).suspects = s.suspects := (rfl)
@[simp] theorem State.setRouter_vseq (d p : Nat) (r : Router) : (s.setRouter d p r).vseq = s.vseq := (rfl)
@[simp] theorem State.setRouter_verdictsSeen (d p : Nat) (r : Router) : (s.setRouter d p r).verdictsSeen = s.verdictsSeen := (rfl)
@[simp] theorem State.setRouter_deadPkgs (d p : Nat) (r : Router) : (s.setRouter d p r).deadPkgs = s.deadPkgs := (rfl)
@[simp] theorem State.setRouter_selfDead (d p : Nat) (r : Router) : (s.setRouter d p r).selfDead = s.selfDead := (rfl)
@[simp] theorem State.setRouter_deadUnits (d p : Nat) (r : Router) : (s.setRouter d p r).deadUnits = s.deadUnits := (rfl)
@[simp] theorem State.setRouter_probeSeqs (d p : Nat) (r : Router) : (s.setRouter d p r).probeSeqs = s.probeSeqs := (rfl)
@[simp] theorem State.setRouter_probeWires (d p : Nat) (r : Router) : (s.setRouter d p r).probeWires = s.probeWires := (rfl)
@[simp] theorem State.setRouter_secWindow (d p : Nat) (r : Router) : (s.setRouter d p r).secWindow = s.secWindow := (rfl)
@[simp] theorem State.setRouter_wearFt (d p : Nat) (r : Router) : (s.setRouter d p r).wearFt = s.wearFt := (rfl)
@[simp] theorem State.setRouter_telemFt (d p : Nat) (r : Router) : (s.setRouter d p r).telemFt = s.telemFt := (rfl)
@[simp] theorem State.setRouter_telem (d p : Nat) (r : Router) : (s.setRouter d p r).telem = s.telem := (rfl)
@[simp] theorem State.setRouter_darns (d p : Nat) (r : Router) : (s.setRouter d p r).darns = s.darns := (rfl)
@[simp] theorem State.setRouter_stalls (d p : Nat) (r : Router) : (s.setRouter d p r).stalls = s.stalls := (rfl)
@[simp] theorem State.setRouter_kickFt (d p : Nat) (r : Router) : (s.setRouter d p r).kickFt = s.kickFt := (rfl)
@[simp] theorem State.setRouter_dumps (d p : Nat) (r : Router) : (s.setRouter d p r).dumps = s.dumps := (rfl)
@[simp] theorem State.setRouter_mpTrained (d p : Nat) (r : Router) : (s.setRouter d p r).mpTrained = s.mpTrained := (rfl)
@[simp] theorem State.setRouter_stopNext (d p : Nat) (r : Router) : (s.setRouter d p r).stopNext = s.stopNext := (rfl)
@[simp] theorem State.setRouter_armWait (d p : Nat) (r : Router) : (s.setRouter d p r).armWait = s.armWait := (rfl)
@[simp] theorem State.setRouter_stls (d p : Nat) (r : Router) : (s.setRouter d p r).stls = s.stls := (rfl)
@[simp] theorem State.setRouter_transitPos (d p : Nat) (r : Router) : (s.setRouter d p r).transitPos = s.transitPos := (rfl)
@[simp] theorem State.setRouter_debugFt (d p : Nat) (r : Router) : (s.setRouter d p r).debugFt = s.debugFt := (rfl)
@[simp] theorem State.setRouter_debugWait (d p : Nat) (r : Router) : (s.setRouter d p r).debugWait = s.debugWait := (rfl)
@[simp] theorem State.setRouter_eraseOnly (d p : Nat) (r : Router) : (s.setRouter d p r).eraseOnly = s.eraseOnly := (rfl)
@[simp] theorem State.setRouter_provision (d p : Nat) (r : Router) : (s.setRouter d p r).provision = s.provision := (rfl)
@[simp] theorem State.setRouter_barJobs (d p : Nat) (r : Router) : (s.setRouter d p r).barJobs = s.barJobs := (rfl)
@[simp] theorem State.setRouter_hostOut (d p : Nat) (r : Router) : (s.setRouter d p r).hostOut = s.hostOut := (rfl)
@[simp] theorem State.setRouter_rcsr (d p : Nat) (r : Router) : (s.setRouter d p r).rcsr = s.rcsr := (rfl)
@[simp] theorem State.setRouter_tileReset (d p : Nat) (r : Router) : (s.setRouter d p r).tileReset = s.tileReset := (rfl)
@[simp] theorem State.setRouter_pkgMend (d p : Nat) (r : Router) : (s.setRouter d p r).pkgMend = s.pkgMend := (rfl)
@[simp] theorem State.setRouter_rejoinFt (d p : Nat) (r : Router) : (s.setRouter d p r).rejoinFt = s.rejoinFt := (rfl)
@[simp] theorem State.setRouter_testFails (d p : Nat) (r : Router) : (s.setRouter d p r).testFails = s.testFails := (rfl)
@[simp] theorem State.setRouter_testReport (d p : Nat) (r : Router) : (s.setRouter d p r).testReport = s.testReport := (rfl)

/-! `setGate` -/

@[simp] theorem State.setGate_pending (d g : Nat) (x : Gate) : (s.setGate d g x).pending = s.pending := (rfl)
@[simp] theorem State.setGate_free (d g : Nat) (x : Gate) : (s.setGate d g x).free = s.free := (rfl)
@[simp] theorem State.setGate_setNow (d g : Nat) (x : Gate) : (s.setGate d g x).setNow = s.setNow := (rfl)
@[simp] theorem State.setGate_wroteNow (d g : Nat) (x : Gate) : (s.setGate d g x).wroteNow = s.wroteNow := (rfl)
@[simp] theorem State.setGate_floor (d g : Nat) (x : Gate) : (s.setGate d g x).floor = s.floor := (rfl)
@[simp] theorem State.setGate_physical (d g : Nat) (x : Gate) : (s.setGate d g x).physical = s.physical := (rfl)
@[simp] theorem State.setGate_memOwned (d g : Nat) (x : Gate) : (s.setGate d g x).memOwned = s.memOwned := (rfl)
@[simp] theorem State.setGate_csr (d g : Nat) (x : Gate) : (s.setGate d g x).csr = s.csr := (rfl)
@[simp] theorem State.setGate_mem (d g : Nat) (x : Gate) : (s.setGate d g x).mem = s.mem := (rfl)
@[simp] theorem State.setGate_mode (d g : Nat) (x : Gate) : (s.setGate d g x).mode = s.mode := (rfl)
@[simp] theorem State.setGate_headDie (d g : Nat) (x : Gate) : (s.setGate d g x).headDie = s.headDie := (rfl)
@[simp] theorem State.setGate_mirrorDie (d g : Nat) (x : Gate) : (s.setGate d g x).mirrorDie = s.mirrorDie := (rfl)
@[simp] theorem State.setGate_slotTab (d g : Nat) (x : Gate) : (s.setGate d g x).slotTab = s.slotTab := (rfl)
@[simp] theorem State.setGate_treeTab (d g : Nat) (x : Gate) : (s.setGate d g x).treeTab = s.treeTab := (rfl)
@[simp] theorem State.setGate_joinTab (d g : Nat) (x : Gate) : (s.setGate d g x).joinTab = s.joinTab := (rfl)
@[simp] theorem State.setGate_routeTab (d g : Nat) (x : Gate) : (s.setGate d g x).routeTab = s.routeTab := (rfl)
@[simp] theorem State.setGate_routeStore (d g : Nat) (x : Gate) : (s.setGate d g x).routeStore = s.routeStore := (rfl)
@[simp] theorem State.setGate_arrivalTab (d g : Nat) (x : Gate) : (s.setGate d g x).arrivalTab = s.arrivalTab := (rfl)
@[simp] theorem State.setGate_gateTab (d g : Nat) (x : Gate) : (s.setGate d g x).gateTab = s.gateTab := (rfl)
@[simp] theorem State.setGate_keepers (d g : Nat) (x : Gate) : (s.setGate d g x).keepers = s.keepers := (rfl)
@[simp] theorem State.setGate_regions (d g : Nat) (x : Gate) : (s.setGate d g x).regions = s.regions := (rfl)
@[simp] theorem State.setGate_panelReq (d g : Nat) (x : Gate) : (s.setGate d g x).panelReq = s.panelReq := (rfl)
@[simp] theorem State.setGate_shapers (d g : Nat) (x : Gate) : (s.setGate d g x).shapers = s.shapers := (rfl)
@[simp] theorem State.setGate_sampleFrom (d g : Nat) (x : Gate) : (s.setGate d g x).sampleFrom = s.sampleFrom := (rfl)
@[simp] theorem State.setGate_govs (d g : Nat) (x : Gate) : (s.setGate d g x).govs = s.govs := (rfl)
@[simp] theorem State.setGate_routers (d g : Nat) (x : Gate) : (s.setGate d g x).routers = s.routers := (rfl)
@[simp] theorem State.setGate_wires (d g : Nat) (x : Gate) : (s.setGate d g x).wires = s.wires := (rfl)
@[simp] theorem State.setGate_credWires (d g : Nat) (x : Gate) : (s.setGate d g x).credWires = s.credWires := (rfl)
@[simp] theorem State.setGate_edgeHem (d g : Nat) (x : Gate) : (s.setGate d g x).edgeHem = s.edgeHem := (rfl)
@[simp] theorem State.setGate_seams (d g : Nat) (x : Gate) : (s.setGate d g x).seams = s.seams := (rfl)
@[simp] theorem State.setGate_nis (d g : Nat) (x : Gate) : (s.setGate d g x).nis = s.nis := (rfl)
@[simp] theorem State.setGate_inj (d g : Nat) (x : Gate) : (s.setGate d g x).inj = s.inj := (rfl)
@[simp] theorem State.setGate_stream (d g : Nat) (x : Gate) : (s.setGate d g x).stream = s.stream := (rfl)
@[simp] theorem State.setGate_injCount (d g : Nat) (x : Gate) : (s.setGate d g x).injCount = s.injCount := (rfl)
@[simp] theorem State.setGate_hints (d g : Nat) (x : Gate) : (s.setGate d g x).hints = s.hints := (rfl)
@[simp] theorem State.setGate_outTags (d g : Nat) (x : Gate) : (s.setGate d g x).outTags = s.outTags := (rfl)
@[simp] theorem State.setGate_bursts (d g : Nat) (x : Gate) : (s.setGate d g x).bursts = s.bursts := (rfl)
@[simp] theorem State.setGate_orderHold (d g : Nat) (x : Gate) : (s.setGate d g x).orderHold = s.orderHold := (rfl)
@[simp] theorem State.setGate_halted (d g : Nat) (x : Gate) : (s.setGate d g x).halted = s.halted := (rfl)
@[simp] theorem State.setGate_catchShut (d g : Nat) (x : Gate) : (s.setGate d g x).catchShut = s.catchShut := (rfl)
@[simp] theorem State.setGate_secCount (d g : Nat) (x : Gate) : (s.setGate d g x).secCount = s.secCount := (rfl)
@[simp] theorem State.setGate_dedCount (d g : Nat) (x : Gate) : (s.setGate d g x).dedCount = s.dedCount := (rfl)
@[simp] theorem State.setGate_flog (d g : Nat) (x : Gate) : (s.setGate d g x).flog = s.flog := (rfl)
@[simp] theorem State.setGate_flogFull (d g : Nat) (x : Gate) : (s.setGate d g x).flogFull = s.flogFull := (rfl)
@[simp] theorem State.setGate_fwd (d g : Nat) (x : Gate) : (s.setGate d g x).fwd = s.fwd := (rfl)
@[simp] theorem State.setGate_traces (d g : Nat) (x : Gate) : (s.setGate d g x).traces = s.traces := (rfl)
@[simp] theorem State.setGate_stats (d g : Nat) (x : Gate) : (s.setGate d g x).stats = s.stats := (rfl)
@[simp] theorem State.setGate_prbCount (d g : Nat) (x : Gate) : (s.setGate d g x).prbCount = s.prbCount := (rfl)
@[simp] theorem State.setGate_patRw (d g : Nat) (x : Gate) : (s.setGate d g x).patRw = s.patRw := (rfl)
@[simp] theorem State.setGate_svcAt (d g : Nat) (x : Gate) : (s.setGate d g x).svcAt = s.svcAt := (rfl)
@[simp] theorem State.setGate_timeReq (d g : Nat) (x : Gate) : (s.setGate d g x).timeReq = s.timeReq := (rfl)
@[simp] theorem State.setGate_syncObj (d g : Nat) (x : Gate) : (s.setGate d g x).syncObj = s.syncObj := (rfl)
@[simp] theorem State.setGate_syncInit (d g : Nat) (x : Gate) : (s.setGate d g x).syncInit = s.syncInit := (rfl)
@[simp] theorem State.setGate_syncDone (d g : Nat) (x : Gate) : (s.setGate d g x).syncDone = s.syncDone := (rfl)
@[simp] theorem State.setGate_syncUsed (d g : Nat) (x : Gate) : (s.setGate d g x).syncUsed = s.syncUsed := (rfl)
@[simp] theorem State.setGate_syncLeft (d g : Nat) (x : Gate) : (s.setGate d g x).syncLeft = s.syncLeft := (rfl)
@[simp] theorem State.setGate_syncBreak (d g : Nat) (x : Gate) : (s.setGate d g x).syncBreak = s.syncBreak := (rfl)
@[simp] theorem State.setGate_memports (d g : Nat) (x : Gate) : (s.setGate d g x).memports = s.memports := (rfl)
@[simp] theorem State.setGate_ces (d g : Nat) (x : Gate) : (s.setGate d g x).ces = s.ces := (rfl)
@[simp] theorem State.setGate_ledger (d g : Nat) (x : Gate) : (s.setGate d g x).ledger = s.ledger := (rfl)
@[simp] theorem State.setGate_stores (d g : Nat) (x : Gate) : (s.setGate d g x).stores = s.stores := (rfl)
@[simp] theorem State.setGate_boots (d g : Nat) (x : Gate) : (s.setGate d g x).boots = s.boots := (rfl)
@[simp] theorem State.setGate_msix (d g : Nat) (x : Gate) : (s.setGate d g x).msix = s.msix := (rfl)
@[simp] theorem State.setGate_wins (d g : Nat) (x : Gate) : (s.setGate d g x).wins = s.wins := (rfl)
@[simp] theorem State.setGate_cmtClosed (d g : Nat) (x : Gate) : (s.setGate d g x).cmtClosed = s.cmtClosed := (rfl)
@[simp] theorem State.setGate_coords (d g : Nat) (x : Gate) : (s.setGate d g x).coords = s.coords := (rfl)
@[simp] theorem State.setGate_loader (d g : Nat) (x : Gate) : (s.setGate d g x).loader = s.loader := (rfl)
@[simp] theorem State.setGate_patches (d g : Nat) (x : Gate) : (s.setGate d g x).patches = s.patches := (rfl)
@[simp] theorem State.setGate_patchNum (d g : Nat) (x : Gate) : (s.setGate d g x).patchNum = s.patchNum := (rfl)
@[simp] theorem State.setGate_patchLog (d g : Nat) (x : Gate) : (s.setGate d g x).patchLog = s.patchLog := (rfl)
@[simp] theorem State.setGate_areaUsed (d g : Nat) (x : Gate) : (s.setGate d g x).areaUsed = s.areaUsed := (rfl)
@[simp] theorem State.setGate_posted (d g : Nat) (x : Gate) : (s.setGate d g x).posted = s.posted := (rfl)
@[simp] theorem State.setGate_plWant (d g : Nat) (x : Gate) : (s.setGate d g x).plWant = s.plWant := (rfl)
@[simp] theorem State.setGate_hbs (d g : Nat) (x : Gate) : (s.setGate d g x).hbs = s.hbs := (rfl)
@[simp] theorem State.setGate_hbFrom (d g : Nat) (x : Gate) : (s.setGate d g x).hbFrom = s.hbFrom := (rfl)
@[simp] theorem State.setGate_hbSent (d g : Nat) (x : Gate) : (s.setGate d g x).hbSent = s.hbSent := (rfl)
@[simp] theorem State.setGate_pkgHbSent (d g : Nat) (x : Gate) : (s.setGate d g x).pkgHbSent = s.pkgHbSent := (rfl)
@[simp] theorem State.setGate_suspects (d g : Nat) (x : Gate) : (s.setGate d g x).suspects = s.suspects := (rfl)
@[simp] theorem State.setGate_vseq (d g : Nat) (x : Gate) : (s.setGate d g x).vseq = s.vseq := (rfl)
@[simp] theorem State.setGate_verdictsSeen (d g : Nat) (x : Gate) : (s.setGate d g x).verdictsSeen = s.verdictsSeen := (rfl)
@[simp] theorem State.setGate_deadPkgs (d g : Nat) (x : Gate) : (s.setGate d g x).deadPkgs = s.deadPkgs := (rfl)
@[simp] theorem State.setGate_selfDead (d g : Nat) (x : Gate) : (s.setGate d g x).selfDead = s.selfDead := (rfl)
@[simp] theorem State.setGate_deadUnits (d g : Nat) (x : Gate) : (s.setGate d g x).deadUnits = s.deadUnits := (rfl)
@[simp] theorem State.setGate_probeSeqs (d g : Nat) (x : Gate) : (s.setGate d g x).probeSeqs = s.probeSeqs := (rfl)
@[simp] theorem State.setGate_probeWires (d g : Nat) (x : Gate) : (s.setGate d g x).probeWires = s.probeWires := (rfl)
@[simp] theorem State.setGate_secWindow (d g : Nat) (x : Gate) : (s.setGate d g x).secWindow = s.secWindow := (rfl)
@[simp] theorem State.setGate_wearFt (d g : Nat) (x : Gate) : (s.setGate d g x).wearFt = s.wearFt := (rfl)
@[simp] theorem State.setGate_telemFt (d g : Nat) (x : Gate) : (s.setGate d g x).telemFt = s.telemFt := (rfl)
@[simp] theorem State.setGate_telem (d g : Nat) (x : Gate) : (s.setGate d g x).telem = s.telem := (rfl)
@[simp] theorem State.setGate_darns (d g : Nat) (x : Gate) : (s.setGate d g x).darns = s.darns := (rfl)
@[simp] theorem State.setGate_stalls (d g : Nat) (x : Gate) : (s.setGate d g x).stalls = s.stalls := (rfl)
@[simp] theorem State.setGate_kickFt (d g : Nat) (x : Gate) : (s.setGate d g x).kickFt = s.kickFt := (rfl)
@[simp] theorem State.setGate_dumps (d g : Nat) (x : Gate) : (s.setGate d g x).dumps = s.dumps := (rfl)
@[simp] theorem State.setGate_mpTrained (d g : Nat) (x : Gate) : (s.setGate d g x).mpTrained = s.mpTrained := (rfl)
@[simp] theorem State.setGate_stopNext (d g : Nat) (x : Gate) : (s.setGate d g x).stopNext = s.stopNext := (rfl)
@[simp] theorem State.setGate_armWait (d g : Nat) (x : Gate) : (s.setGate d g x).armWait = s.armWait := (rfl)
@[simp] theorem State.setGate_stls (d g : Nat) (x : Gate) : (s.setGate d g x).stls = s.stls := (rfl)
@[simp] theorem State.setGate_transitPos (d g : Nat) (x : Gate) : (s.setGate d g x).transitPos = s.transitPos := (rfl)
@[simp] theorem State.setGate_debugFt (d g : Nat) (x : Gate) : (s.setGate d g x).debugFt = s.debugFt := (rfl)
@[simp] theorem State.setGate_debugWait (d g : Nat) (x : Gate) : (s.setGate d g x).debugWait = s.debugWait := (rfl)
@[simp] theorem State.setGate_eraseOnly (d g : Nat) (x : Gate) : (s.setGate d g x).eraseOnly = s.eraseOnly := (rfl)
@[simp] theorem State.setGate_provision (d g : Nat) (x : Gate) : (s.setGate d g x).provision = s.provision := (rfl)
@[simp] theorem State.setGate_barJobs (d g : Nat) (x : Gate) : (s.setGate d g x).barJobs = s.barJobs := (rfl)
@[simp] theorem State.setGate_hostOut (d g : Nat) (x : Gate) : (s.setGate d g x).hostOut = s.hostOut := (rfl)
@[simp] theorem State.setGate_rcsr (d g : Nat) (x : Gate) : (s.setGate d g x).rcsr = s.rcsr := (rfl)
@[simp] theorem State.setGate_tileReset (d g : Nat) (x : Gate) : (s.setGate d g x).tileReset = s.tileReset := (rfl)
@[simp] theorem State.setGate_pkgMend (d g : Nat) (x : Gate) : (s.setGate d g x).pkgMend = s.pkgMend := (rfl)
@[simp] theorem State.setGate_rejoinFt (d g : Nat) (x : Gate) : (s.setGate d g x).rejoinFt = s.rejoinFt := (rfl)
@[simp] theorem State.setGate_testFails (d g : Nat) (x : Gate) : (s.setGate d g x).testFails = s.testFails := (rfl)
@[simp] theorem State.setGate_testReport (d g : Nat) (x : Gate) : (s.setGate d g x).testReport = s.testReport := (rfl)

/-! `setShp` -/

@[simp] theorem State.setShp_pending (d g v : Nat) (x : Shp) : (s.setShp d g v x).pending = s.pending := (rfl)
@[simp] theorem State.setShp_free (d g v : Nat) (x : Shp) : (s.setShp d g v x).free = s.free := (rfl)
@[simp] theorem State.setShp_setNow (d g v : Nat) (x : Shp) : (s.setShp d g v x).setNow = s.setNow := (rfl)
@[simp] theorem State.setShp_wroteNow (d g v : Nat) (x : Shp) : (s.setShp d g v x).wroteNow = s.wroteNow := (rfl)
@[simp] theorem State.setShp_floor (d g v : Nat) (x : Shp) : (s.setShp d g v x).floor = s.floor := (rfl)
@[simp] theorem State.setShp_physical (d g v : Nat) (x : Shp) : (s.setShp d g v x).physical = s.physical := (rfl)
@[simp] theorem State.setShp_memOwned (d g v : Nat) (x : Shp) : (s.setShp d g v x).memOwned = s.memOwned := (rfl)
@[simp] theorem State.setShp_csr (d g v : Nat) (x : Shp) : (s.setShp d g v x).csr = s.csr := (rfl)
@[simp] theorem State.setShp_mem (d g v : Nat) (x : Shp) : (s.setShp d g v x).mem = s.mem := (rfl)
@[simp] theorem State.setShp_mode (d g v : Nat) (x : Shp) : (s.setShp d g v x).mode = s.mode := (rfl)
@[simp] theorem State.setShp_headDie (d g v : Nat) (x : Shp) : (s.setShp d g v x).headDie = s.headDie := (rfl)
@[simp] theorem State.setShp_mirrorDie (d g v : Nat) (x : Shp) : (s.setShp d g v x).mirrorDie = s.mirrorDie := (rfl)
@[simp] theorem State.setShp_slotTab (d g v : Nat) (x : Shp) : (s.setShp d g v x).slotTab = s.slotTab := (rfl)
@[simp] theorem State.setShp_treeTab (d g v : Nat) (x : Shp) : (s.setShp d g v x).treeTab = s.treeTab := (rfl)
@[simp] theorem State.setShp_joinTab (d g v : Nat) (x : Shp) : (s.setShp d g v x).joinTab = s.joinTab := (rfl)
@[simp] theorem State.setShp_routeTab (d g v : Nat) (x : Shp) : (s.setShp d g v x).routeTab = s.routeTab := (rfl)
@[simp] theorem State.setShp_routeStore (d g v : Nat) (x : Shp) : (s.setShp d g v x).routeStore = s.routeStore := (rfl)
@[simp] theorem State.setShp_arrivalTab (d g v : Nat) (x : Shp) : (s.setShp d g v x).arrivalTab = s.arrivalTab := (rfl)
@[simp] theorem State.setShp_gateTab (d g v : Nat) (x : Shp) : (s.setShp d g v x).gateTab = s.gateTab := (rfl)
@[simp] theorem State.setShp_keepers (d g v : Nat) (x : Shp) : (s.setShp d g v x).keepers = s.keepers := (rfl)
@[simp] theorem State.setShp_regions (d g v : Nat) (x : Shp) : (s.setShp d g v x).regions = s.regions := (rfl)
@[simp] theorem State.setShp_panelReq (d g v : Nat) (x : Shp) : (s.setShp d g v x).panelReq = s.panelReq := (rfl)
@[simp] theorem State.setShp_gates (d g v : Nat) (x : Shp) : (s.setShp d g v x).gates = s.gates := (rfl)
@[simp] theorem State.setShp_sampleFrom (d g v : Nat) (x : Shp) : (s.setShp d g v x).sampleFrom = s.sampleFrom := (rfl)
@[simp] theorem State.setShp_govs (d g v : Nat) (x : Shp) : (s.setShp d g v x).govs = s.govs := (rfl)
@[simp] theorem State.setShp_routers (d g v : Nat) (x : Shp) : (s.setShp d g v x).routers = s.routers := (rfl)
@[simp] theorem State.setShp_wires (d g v : Nat) (x : Shp) : (s.setShp d g v x).wires = s.wires := (rfl)
@[simp] theorem State.setShp_credWires (d g v : Nat) (x : Shp) : (s.setShp d g v x).credWires = s.credWires := (rfl)
@[simp] theorem State.setShp_edgeHem (d g v : Nat) (x : Shp) : (s.setShp d g v x).edgeHem = s.edgeHem := (rfl)
@[simp] theorem State.setShp_seams (d g v : Nat) (x : Shp) : (s.setShp d g v x).seams = s.seams := (rfl)
@[simp] theorem State.setShp_nis (d g v : Nat) (x : Shp) : (s.setShp d g v x).nis = s.nis := (rfl)
@[simp] theorem State.setShp_inj (d g v : Nat) (x : Shp) : (s.setShp d g v x).inj = s.inj := (rfl)
@[simp] theorem State.setShp_stream (d g v : Nat) (x : Shp) : (s.setShp d g v x).stream = s.stream := (rfl)
@[simp] theorem State.setShp_injCount (d g v : Nat) (x : Shp) : (s.setShp d g v x).injCount = s.injCount := (rfl)
@[simp] theorem State.setShp_hints (d g v : Nat) (x : Shp) : (s.setShp d g v x).hints = s.hints := (rfl)
@[simp] theorem State.setShp_outTags (d g v : Nat) (x : Shp) : (s.setShp d g v x).outTags = s.outTags := (rfl)
@[simp] theorem State.setShp_bursts (d g v : Nat) (x : Shp) : (s.setShp d g v x).bursts = s.bursts := (rfl)
@[simp] theorem State.setShp_orderHold (d g v : Nat) (x : Shp) : (s.setShp d g v x).orderHold = s.orderHold := (rfl)
@[simp] theorem State.setShp_halted (d g v : Nat) (x : Shp) : (s.setShp d g v x).halted = s.halted := (rfl)
@[simp] theorem State.setShp_catchShut (d g v : Nat) (x : Shp) : (s.setShp d g v x).catchShut = s.catchShut := (rfl)
@[simp] theorem State.setShp_secCount (d g v : Nat) (x : Shp) : (s.setShp d g v x).secCount = s.secCount := (rfl)
@[simp] theorem State.setShp_dedCount (d g v : Nat) (x : Shp) : (s.setShp d g v x).dedCount = s.dedCount := (rfl)
@[simp] theorem State.setShp_flog (d g v : Nat) (x : Shp) : (s.setShp d g v x).flog = s.flog := (rfl)
@[simp] theorem State.setShp_flogFull (d g v : Nat) (x : Shp) : (s.setShp d g v x).flogFull = s.flogFull := (rfl)
@[simp] theorem State.setShp_fwd (d g v : Nat) (x : Shp) : (s.setShp d g v x).fwd = s.fwd := (rfl)
@[simp] theorem State.setShp_traces (d g v : Nat) (x : Shp) : (s.setShp d g v x).traces = s.traces := (rfl)
@[simp] theorem State.setShp_stats (d g v : Nat) (x : Shp) : (s.setShp d g v x).stats = s.stats := (rfl)
@[simp] theorem State.setShp_prbCount (d g v : Nat) (x : Shp) : (s.setShp d g v x).prbCount = s.prbCount := (rfl)
@[simp] theorem State.setShp_patRw (d g v : Nat) (x : Shp) : (s.setShp d g v x).patRw = s.patRw := (rfl)
@[simp] theorem State.setShp_svcAt (d g v : Nat) (x : Shp) : (s.setShp d g v x).svcAt = s.svcAt := (rfl)
@[simp] theorem State.setShp_timeReq (d g v : Nat) (x : Shp) : (s.setShp d g v x).timeReq = s.timeReq := (rfl)
@[simp] theorem State.setShp_syncObj (d g v : Nat) (x : Shp) : (s.setShp d g v x).syncObj = s.syncObj := (rfl)
@[simp] theorem State.setShp_syncInit (d g v : Nat) (x : Shp) : (s.setShp d g v x).syncInit = s.syncInit := (rfl)
@[simp] theorem State.setShp_syncDone (d g v : Nat) (x : Shp) : (s.setShp d g v x).syncDone = s.syncDone := (rfl)
@[simp] theorem State.setShp_syncUsed (d g v : Nat) (x : Shp) : (s.setShp d g v x).syncUsed = s.syncUsed := (rfl)
@[simp] theorem State.setShp_syncLeft (d g v : Nat) (x : Shp) : (s.setShp d g v x).syncLeft = s.syncLeft := (rfl)
@[simp] theorem State.setShp_syncBreak (d g v : Nat) (x : Shp) : (s.setShp d g v x).syncBreak = s.syncBreak := (rfl)
@[simp] theorem State.setShp_memports (d g v : Nat) (x : Shp) : (s.setShp d g v x).memports = s.memports := (rfl)
@[simp] theorem State.setShp_ces (d g v : Nat) (x : Shp) : (s.setShp d g v x).ces = s.ces := (rfl)
@[simp] theorem State.setShp_ledger (d g v : Nat) (x : Shp) : (s.setShp d g v x).ledger = s.ledger := (rfl)
@[simp] theorem State.setShp_stores (d g v : Nat) (x : Shp) : (s.setShp d g v x).stores = s.stores := (rfl)
@[simp] theorem State.setShp_boots (d g v : Nat) (x : Shp) : (s.setShp d g v x).boots = s.boots := (rfl)
@[simp] theorem State.setShp_msix (d g v : Nat) (x : Shp) : (s.setShp d g v x).msix = s.msix := (rfl)
@[simp] theorem State.setShp_wins (d g v : Nat) (x : Shp) : (s.setShp d g v x).wins = s.wins := (rfl)
@[simp] theorem State.setShp_cmtClosed (d g v : Nat) (x : Shp) : (s.setShp d g v x).cmtClosed = s.cmtClosed := (rfl)
@[simp] theorem State.setShp_coords (d g v : Nat) (x : Shp) : (s.setShp d g v x).coords = s.coords := (rfl)
@[simp] theorem State.setShp_loader (d g v : Nat) (x : Shp) : (s.setShp d g v x).loader = s.loader := (rfl)
@[simp] theorem State.setShp_patches (d g v : Nat) (x : Shp) : (s.setShp d g v x).patches = s.patches := (rfl)
@[simp] theorem State.setShp_patchNum (d g v : Nat) (x : Shp) : (s.setShp d g v x).patchNum = s.patchNum := (rfl)
@[simp] theorem State.setShp_patchLog (d g v : Nat) (x : Shp) : (s.setShp d g v x).patchLog = s.patchLog := (rfl)
@[simp] theorem State.setShp_areaUsed (d g v : Nat) (x : Shp) : (s.setShp d g v x).areaUsed = s.areaUsed := (rfl)
@[simp] theorem State.setShp_posted (d g v : Nat) (x : Shp) : (s.setShp d g v x).posted = s.posted := (rfl)
@[simp] theorem State.setShp_plWant (d g v : Nat) (x : Shp) : (s.setShp d g v x).plWant = s.plWant := (rfl)
@[simp] theorem State.setShp_hbs (d g v : Nat) (x : Shp) : (s.setShp d g v x).hbs = s.hbs := (rfl)
@[simp] theorem State.setShp_hbFrom (d g v : Nat) (x : Shp) : (s.setShp d g v x).hbFrom = s.hbFrom := (rfl)
@[simp] theorem State.setShp_hbSent (d g v : Nat) (x : Shp) : (s.setShp d g v x).hbSent = s.hbSent := (rfl)
@[simp] theorem State.setShp_pkgHbSent (d g v : Nat) (x : Shp) : (s.setShp d g v x).pkgHbSent = s.pkgHbSent := (rfl)
@[simp] theorem State.setShp_suspects (d g v : Nat) (x : Shp) : (s.setShp d g v x).suspects = s.suspects := (rfl)
@[simp] theorem State.setShp_vseq (d g v : Nat) (x : Shp) : (s.setShp d g v x).vseq = s.vseq := (rfl)
@[simp] theorem State.setShp_verdictsSeen (d g v : Nat) (x : Shp) : (s.setShp d g v x).verdictsSeen = s.verdictsSeen := (rfl)
@[simp] theorem State.setShp_deadPkgs (d g v : Nat) (x : Shp) : (s.setShp d g v x).deadPkgs = s.deadPkgs := (rfl)
@[simp] theorem State.setShp_selfDead (d g v : Nat) (x : Shp) : (s.setShp d g v x).selfDead = s.selfDead := (rfl)
@[simp] theorem State.setShp_deadUnits (d g v : Nat) (x : Shp) : (s.setShp d g v x).deadUnits = s.deadUnits := (rfl)
@[simp] theorem State.setShp_probeSeqs (d g v : Nat) (x : Shp) : (s.setShp d g v x).probeSeqs = s.probeSeqs := (rfl)
@[simp] theorem State.setShp_probeWires (d g v : Nat) (x : Shp) : (s.setShp d g v x).probeWires = s.probeWires := (rfl)
@[simp] theorem State.setShp_secWindow (d g v : Nat) (x : Shp) : (s.setShp d g v x).secWindow = s.secWindow := (rfl)
@[simp] theorem State.setShp_wearFt (d g v : Nat) (x : Shp) : (s.setShp d g v x).wearFt = s.wearFt := (rfl)
@[simp] theorem State.setShp_telemFt (d g v : Nat) (x : Shp) : (s.setShp d g v x).telemFt = s.telemFt := (rfl)
@[simp] theorem State.setShp_telem (d g v : Nat) (x : Shp) : (s.setShp d g v x).telem = s.telem := (rfl)
@[simp] theorem State.setShp_darns (d g v : Nat) (x : Shp) : (s.setShp d g v x).darns = s.darns := (rfl)
@[simp] theorem State.setShp_stalls (d g v : Nat) (x : Shp) : (s.setShp d g v x).stalls = s.stalls := (rfl)
@[simp] theorem State.setShp_kickFt (d g v : Nat) (x : Shp) : (s.setShp d g v x).kickFt = s.kickFt := (rfl)
@[simp] theorem State.setShp_dumps (d g v : Nat) (x : Shp) : (s.setShp d g v x).dumps = s.dumps := (rfl)
@[simp] theorem State.setShp_mpTrained (d g v : Nat) (x : Shp) : (s.setShp d g v x).mpTrained = s.mpTrained := (rfl)
@[simp] theorem State.setShp_stopNext (d g v : Nat) (x : Shp) : (s.setShp d g v x).stopNext = s.stopNext := (rfl)
@[simp] theorem State.setShp_armWait (d g v : Nat) (x : Shp) : (s.setShp d g v x).armWait = s.armWait := (rfl)
@[simp] theorem State.setShp_stls (d g v : Nat) (x : Shp) : (s.setShp d g v x).stls = s.stls := (rfl)
@[simp] theorem State.setShp_transitPos (d g v : Nat) (x : Shp) : (s.setShp d g v x).transitPos = s.transitPos := (rfl)
@[simp] theorem State.setShp_debugFt (d g v : Nat) (x : Shp) : (s.setShp d g v x).debugFt = s.debugFt := (rfl)
@[simp] theorem State.setShp_debugWait (d g v : Nat) (x : Shp) : (s.setShp d g v x).debugWait = s.debugWait := (rfl)
@[simp] theorem State.setShp_eraseOnly (d g v : Nat) (x : Shp) : (s.setShp d g v x).eraseOnly = s.eraseOnly := (rfl)
@[simp] theorem State.setShp_provision (d g v : Nat) (x : Shp) : (s.setShp d g v x).provision = s.provision := (rfl)
@[simp] theorem State.setShp_barJobs (d g v : Nat) (x : Shp) : (s.setShp d g v x).barJobs = s.barJobs := (rfl)
@[simp] theorem State.setShp_hostOut (d g v : Nat) (x : Shp) : (s.setShp d g v x).hostOut = s.hostOut := (rfl)
@[simp] theorem State.setShp_rcsr (d g v : Nat) (x : Shp) : (s.setShp d g v x).rcsr = s.rcsr := (rfl)
@[simp] theorem State.setShp_tileReset (d g v : Nat) (x : Shp) : (s.setShp d g v x).tileReset = s.tileReset := (rfl)
@[simp] theorem State.setShp_pkgMend (d g v : Nat) (x : Shp) : (s.setShp d g v x).pkgMend = s.pkgMend := (rfl)
@[simp] theorem State.setShp_rejoinFt (d g v : Nat) (x : Shp) : (s.setShp d g v x).rejoinFt = s.rejoinFt := (rfl)
@[simp] theorem State.setShp_testFails (d g v : Nat) (x : Shp) : (s.setShp d g v x).testFails = s.testFails := (rfl)
@[simp] theorem State.setShp_testReport (d g v : Nat) (x : Shp) : (s.setShp d g v x).testReport = s.testReport := (rfl)

/-! `setSobj` -/

@[simp] theorem State.setSobj_pending (d o : Nat) (x : BitVec 128) : (s.setSobj d o x).pending = s.pending := (rfl)
@[simp] theorem State.setSobj_free (d o : Nat) (x : BitVec 128) : (s.setSobj d o x).free = s.free := (rfl)
@[simp] theorem State.setSobj_setNow (d o : Nat) (x : BitVec 128) : (s.setSobj d o x).setNow = s.setNow := (rfl)
@[simp] theorem State.setSobj_wroteNow (d o : Nat) (x : BitVec 128) : (s.setSobj d o x).wroteNow = s.wroteNow := (rfl)
@[simp] theorem State.setSobj_floor (d o : Nat) (x : BitVec 128) : (s.setSobj d o x).floor = s.floor := (rfl)
@[simp] theorem State.setSobj_physical (d o : Nat) (x : BitVec 128) : (s.setSobj d o x).physical = s.physical := (rfl)
@[simp] theorem State.setSobj_memOwned (d o : Nat) (x : BitVec 128) : (s.setSobj d o x).memOwned = s.memOwned := (rfl)
@[simp] theorem State.setSobj_csr (d o : Nat) (x : BitVec 128) : (s.setSobj d o x).csr = s.csr := (rfl)
@[simp] theorem State.setSobj_mem (d o : Nat) (x : BitVec 128) : (s.setSobj d o x).mem = s.mem := (rfl)
@[simp] theorem State.setSobj_mode (d o : Nat) (x : BitVec 128) : (s.setSobj d o x).mode = s.mode := (rfl)
@[simp] theorem State.setSobj_headDie (d o : Nat) (x : BitVec 128) : (s.setSobj d o x).headDie = s.headDie := (rfl)
@[simp] theorem State.setSobj_mirrorDie (d o : Nat) (x : BitVec 128) : (s.setSobj d o x).mirrorDie = s.mirrorDie := (rfl)
@[simp] theorem State.setSobj_slotTab (d o : Nat) (x : BitVec 128) : (s.setSobj d o x).slotTab = s.slotTab := (rfl)
@[simp] theorem State.setSobj_treeTab (d o : Nat) (x : BitVec 128) : (s.setSobj d o x).treeTab = s.treeTab := (rfl)
@[simp] theorem State.setSobj_joinTab (d o : Nat) (x : BitVec 128) : (s.setSobj d o x).joinTab = s.joinTab := (rfl)
@[simp] theorem State.setSobj_routeTab (d o : Nat) (x : BitVec 128) : (s.setSobj d o x).routeTab = s.routeTab := (rfl)
@[simp] theorem State.setSobj_routeStore (d o : Nat) (x : BitVec 128) : (s.setSobj d o x).routeStore = s.routeStore := (rfl)
@[simp] theorem State.setSobj_arrivalTab (d o : Nat) (x : BitVec 128) : (s.setSobj d o x).arrivalTab = s.arrivalTab := (rfl)
@[simp] theorem State.setSobj_gateTab (d o : Nat) (x : BitVec 128) : (s.setSobj d o x).gateTab = s.gateTab := (rfl)
@[simp] theorem State.setSobj_keepers (d o : Nat) (x : BitVec 128) : (s.setSobj d o x).keepers = s.keepers := (rfl)
@[simp] theorem State.setSobj_regions (d o : Nat) (x : BitVec 128) : (s.setSobj d o x).regions = s.regions := (rfl)
@[simp] theorem State.setSobj_panelReq (d o : Nat) (x : BitVec 128) : (s.setSobj d o x).panelReq = s.panelReq := (rfl)
@[simp] theorem State.setSobj_gates (d o : Nat) (x : BitVec 128) : (s.setSobj d o x).gates = s.gates := (rfl)
@[simp] theorem State.setSobj_shapers (d o : Nat) (x : BitVec 128) : (s.setSobj d o x).shapers = s.shapers := (rfl)
@[simp] theorem State.setSobj_sampleFrom (d o : Nat) (x : BitVec 128) : (s.setSobj d o x).sampleFrom = s.sampleFrom := (rfl)
@[simp] theorem State.setSobj_govs (d o : Nat) (x : BitVec 128) : (s.setSobj d o x).govs = s.govs := (rfl)
@[simp] theorem State.setSobj_routers (d o : Nat) (x : BitVec 128) : (s.setSobj d o x).routers = s.routers := (rfl)
@[simp] theorem State.setSobj_wires (d o : Nat) (x : BitVec 128) : (s.setSobj d o x).wires = s.wires := (rfl)
@[simp] theorem State.setSobj_credWires (d o : Nat) (x : BitVec 128) : (s.setSobj d o x).credWires = s.credWires := (rfl)
@[simp] theorem State.setSobj_edgeHem (d o : Nat) (x : BitVec 128) : (s.setSobj d o x).edgeHem = s.edgeHem := (rfl)
@[simp] theorem State.setSobj_seams (d o : Nat) (x : BitVec 128) : (s.setSobj d o x).seams = s.seams := (rfl)
@[simp] theorem State.setSobj_nis (d o : Nat) (x : BitVec 128) : (s.setSobj d o x).nis = s.nis := (rfl)
@[simp] theorem State.setSobj_inj (d o : Nat) (x : BitVec 128) : (s.setSobj d o x).inj = s.inj := (rfl)
@[simp] theorem State.setSobj_stream (d o : Nat) (x : BitVec 128) : (s.setSobj d o x).stream = s.stream := (rfl)
@[simp] theorem State.setSobj_injCount (d o : Nat) (x : BitVec 128) : (s.setSobj d o x).injCount = s.injCount := (rfl)
@[simp] theorem State.setSobj_hints (d o : Nat) (x : BitVec 128) : (s.setSobj d o x).hints = s.hints := (rfl)
@[simp] theorem State.setSobj_outTags (d o : Nat) (x : BitVec 128) : (s.setSobj d o x).outTags = s.outTags := (rfl)
@[simp] theorem State.setSobj_bursts (d o : Nat) (x : BitVec 128) : (s.setSobj d o x).bursts = s.bursts := (rfl)
@[simp] theorem State.setSobj_orderHold (d o : Nat) (x : BitVec 128) : (s.setSobj d o x).orderHold = s.orderHold := (rfl)
@[simp] theorem State.setSobj_halted (d o : Nat) (x : BitVec 128) : (s.setSobj d o x).halted = s.halted := (rfl)
@[simp] theorem State.setSobj_catchShut (d o : Nat) (x : BitVec 128) : (s.setSobj d o x).catchShut = s.catchShut := (rfl)
@[simp] theorem State.setSobj_secCount (d o : Nat) (x : BitVec 128) : (s.setSobj d o x).secCount = s.secCount := (rfl)
@[simp] theorem State.setSobj_dedCount (d o : Nat) (x : BitVec 128) : (s.setSobj d o x).dedCount = s.dedCount := (rfl)
@[simp] theorem State.setSobj_flog (d o : Nat) (x : BitVec 128) : (s.setSobj d o x).flog = s.flog := (rfl)
@[simp] theorem State.setSobj_flogFull (d o : Nat) (x : BitVec 128) : (s.setSobj d o x).flogFull = s.flogFull := (rfl)
@[simp] theorem State.setSobj_fwd (d o : Nat) (x : BitVec 128) : (s.setSobj d o x).fwd = s.fwd := (rfl)
@[simp] theorem State.setSobj_traces (d o : Nat) (x : BitVec 128) : (s.setSobj d o x).traces = s.traces := (rfl)
@[simp] theorem State.setSobj_stats (d o : Nat) (x : BitVec 128) : (s.setSobj d o x).stats = s.stats := (rfl)
@[simp] theorem State.setSobj_prbCount (d o : Nat) (x : BitVec 128) : (s.setSobj d o x).prbCount = s.prbCount := (rfl)
@[simp] theorem State.setSobj_patRw (d o : Nat) (x : BitVec 128) : (s.setSobj d o x).patRw = s.patRw := (rfl)
@[simp] theorem State.setSobj_svcAt (d o : Nat) (x : BitVec 128) : (s.setSobj d o x).svcAt = s.svcAt := (rfl)
@[simp] theorem State.setSobj_timeReq (d o : Nat) (x : BitVec 128) : (s.setSobj d o x).timeReq = s.timeReq := (rfl)
@[simp] theorem State.setSobj_syncInit (d o : Nat) (x : BitVec 128) : (s.setSobj d o x).syncInit = s.syncInit := (rfl)
@[simp] theorem State.setSobj_syncDone (d o : Nat) (x : BitVec 128) : (s.setSobj d o x).syncDone = s.syncDone := (rfl)
@[simp] theorem State.setSobj_syncUsed (d o : Nat) (x : BitVec 128) : (s.setSobj d o x).syncUsed = s.syncUsed := (rfl)
@[simp] theorem State.setSobj_syncLeft (d o : Nat) (x : BitVec 128) : (s.setSobj d o x).syncLeft = s.syncLeft := (rfl)
@[simp] theorem State.setSobj_syncBreak (d o : Nat) (x : BitVec 128) : (s.setSobj d o x).syncBreak = s.syncBreak := (rfl)
@[simp] theorem State.setSobj_memports (d o : Nat) (x : BitVec 128) : (s.setSobj d o x).memports = s.memports := (rfl)
@[simp] theorem State.setSobj_ces (d o : Nat) (x : BitVec 128) : (s.setSobj d o x).ces = s.ces := (rfl)
@[simp] theorem State.setSobj_ledger (d o : Nat) (x : BitVec 128) : (s.setSobj d o x).ledger = s.ledger := (rfl)
@[simp] theorem State.setSobj_stores (d o : Nat) (x : BitVec 128) : (s.setSobj d o x).stores = s.stores := (rfl)
@[simp] theorem State.setSobj_boots (d o : Nat) (x : BitVec 128) : (s.setSobj d o x).boots = s.boots := (rfl)
@[simp] theorem State.setSobj_msix (d o : Nat) (x : BitVec 128) : (s.setSobj d o x).msix = s.msix := (rfl)
@[simp] theorem State.setSobj_wins (d o : Nat) (x : BitVec 128) : (s.setSobj d o x).wins = s.wins := (rfl)
@[simp] theorem State.setSobj_cmtClosed (d o : Nat) (x : BitVec 128) : (s.setSobj d o x).cmtClosed = s.cmtClosed := (rfl)
@[simp] theorem State.setSobj_coords (d o : Nat) (x : BitVec 128) : (s.setSobj d o x).coords = s.coords := (rfl)
@[simp] theorem State.setSobj_loader (d o : Nat) (x : BitVec 128) : (s.setSobj d o x).loader = s.loader := (rfl)
@[simp] theorem State.setSobj_patches (d o : Nat) (x : BitVec 128) : (s.setSobj d o x).patches = s.patches := (rfl)
@[simp] theorem State.setSobj_patchNum (d o : Nat) (x : BitVec 128) : (s.setSobj d o x).patchNum = s.patchNum := (rfl)
@[simp] theorem State.setSobj_patchLog (d o : Nat) (x : BitVec 128) : (s.setSobj d o x).patchLog = s.patchLog := (rfl)
@[simp] theorem State.setSobj_areaUsed (d o : Nat) (x : BitVec 128) : (s.setSobj d o x).areaUsed = s.areaUsed := (rfl)
@[simp] theorem State.setSobj_posted (d o : Nat) (x : BitVec 128) : (s.setSobj d o x).posted = s.posted := (rfl)
@[simp] theorem State.setSobj_plWant (d o : Nat) (x : BitVec 128) : (s.setSobj d o x).plWant = s.plWant := (rfl)
@[simp] theorem State.setSobj_hbs (d o : Nat) (x : BitVec 128) : (s.setSobj d o x).hbs = s.hbs := (rfl)
@[simp] theorem State.setSobj_hbFrom (d o : Nat) (x : BitVec 128) : (s.setSobj d o x).hbFrom = s.hbFrom := (rfl)
@[simp] theorem State.setSobj_hbSent (d o : Nat) (x : BitVec 128) : (s.setSobj d o x).hbSent = s.hbSent := (rfl)
@[simp] theorem State.setSobj_pkgHbSent (d o : Nat) (x : BitVec 128) : (s.setSobj d o x).pkgHbSent = s.pkgHbSent := (rfl)
@[simp] theorem State.setSobj_suspects (d o : Nat) (x : BitVec 128) : (s.setSobj d o x).suspects = s.suspects := (rfl)
@[simp] theorem State.setSobj_vseq (d o : Nat) (x : BitVec 128) : (s.setSobj d o x).vseq = s.vseq := (rfl)
@[simp] theorem State.setSobj_verdictsSeen (d o : Nat) (x : BitVec 128) : (s.setSobj d o x).verdictsSeen = s.verdictsSeen := (rfl)
@[simp] theorem State.setSobj_deadPkgs (d o : Nat) (x : BitVec 128) : (s.setSobj d o x).deadPkgs = s.deadPkgs := (rfl)
@[simp] theorem State.setSobj_selfDead (d o : Nat) (x : BitVec 128) : (s.setSobj d o x).selfDead = s.selfDead := (rfl)
@[simp] theorem State.setSobj_deadUnits (d o : Nat) (x : BitVec 128) : (s.setSobj d o x).deadUnits = s.deadUnits := (rfl)
@[simp] theorem State.setSobj_probeSeqs (d o : Nat) (x : BitVec 128) : (s.setSobj d o x).probeSeqs = s.probeSeqs := (rfl)
@[simp] theorem State.setSobj_probeWires (d o : Nat) (x : BitVec 128) : (s.setSobj d o x).probeWires = s.probeWires := (rfl)
@[simp] theorem State.setSobj_secWindow (d o : Nat) (x : BitVec 128) : (s.setSobj d o x).secWindow = s.secWindow := (rfl)
@[simp] theorem State.setSobj_wearFt (d o : Nat) (x : BitVec 128) : (s.setSobj d o x).wearFt = s.wearFt := (rfl)
@[simp] theorem State.setSobj_telemFt (d o : Nat) (x : BitVec 128) : (s.setSobj d o x).telemFt = s.telemFt := (rfl)
@[simp] theorem State.setSobj_telem (d o : Nat) (x : BitVec 128) : (s.setSobj d o x).telem = s.telem := (rfl)
@[simp] theorem State.setSobj_darns (d o : Nat) (x : BitVec 128) : (s.setSobj d o x).darns = s.darns := (rfl)
@[simp] theorem State.setSobj_stalls (d o : Nat) (x : BitVec 128) : (s.setSobj d o x).stalls = s.stalls := (rfl)
@[simp] theorem State.setSobj_kickFt (d o : Nat) (x : BitVec 128) : (s.setSobj d o x).kickFt = s.kickFt := (rfl)
@[simp] theorem State.setSobj_dumps (d o : Nat) (x : BitVec 128) : (s.setSobj d o x).dumps = s.dumps := (rfl)
@[simp] theorem State.setSobj_mpTrained (d o : Nat) (x : BitVec 128) : (s.setSobj d o x).mpTrained = s.mpTrained := (rfl)
@[simp] theorem State.setSobj_stopNext (d o : Nat) (x : BitVec 128) : (s.setSobj d o x).stopNext = s.stopNext := (rfl)
@[simp] theorem State.setSobj_armWait (d o : Nat) (x : BitVec 128) : (s.setSobj d o x).armWait = s.armWait := (rfl)
@[simp] theorem State.setSobj_stls (d o : Nat) (x : BitVec 128) : (s.setSobj d o x).stls = s.stls := (rfl)
@[simp] theorem State.setSobj_transitPos (d o : Nat) (x : BitVec 128) : (s.setSobj d o x).transitPos = s.transitPos := (rfl)
@[simp] theorem State.setSobj_debugFt (d o : Nat) (x : BitVec 128) : (s.setSobj d o x).debugFt = s.debugFt := (rfl)
@[simp] theorem State.setSobj_debugWait (d o : Nat) (x : BitVec 128) : (s.setSobj d o x).debugWait = s.debugWait := (rfl)
@[simp] theorem State.setSobj_eraseOnly (d o : Nat) (x : BitVec 128) : (s.setSobj d o x).eraseOnly = s.eraseOnly := (rfl)
@[simp] theorem State.setSobj_provision (d o : Nat) (x : BitVec 128) : (s.setSobj d o x).provision = s.provision := (rfl)
@[simp] theorem State.setSobj_barJobs (d o : Nat) (x : BitVec 128) : (s.setSobj d o x).barJobs = s.barJobs := (rfl)
@[simp] theorem State.setSobj_hostOut (d o : Nat) (x : BitVec 128) : (s.setSobj d o x).hostOut = s.hostOut := (rfl)
@[simp] theorem State.setSobj_rcsr (d o : Nat) (x : BitVec 128) : (s.setSobj d o x).rcsr = s.rcsr := (rfl)
@[simp] theorem State.setSobj_tileReset (d o : Nat) (x : BitVec 128) : (s.setSobj d o x).tileReset = s.tileReset := (rfl)
@[simp] theorem State.setSobj_pkgMend (d o : Nat) (x : BitVec 128) : (s.setSobj d o x).pkgMend = s.pkgMend := (rfl)
@[simp] theorem State.setSobj_rejoinFt (d o : Nat) (x : BitVec 128) : (s.setSobj d o x).rejoinFt = s.rejoinFt := (rfl)
@[simp] theorem State.setSobj_testFails (d o : Nat) (x : BitVec 128) : (s.setSobj d o x).testFails = s.testFails := (rfl)
@[simp] theorem State.setSobj_testReport (d o : Nat) (x : BitVec 128) : (s.setSobj d o x).testReport = s.testReport := (rfl)

/-! `setSeam` -/

@[simp] theorem State.setSeam_pending (d i : Nat) (a : Seam) : (s.setSeam d i a).pending = s.pending := (rfl)
@[simp] theorem State.setSeam_free (d i : Nat) (a : Seam) : (s.setSeam d i a).free = s.free := (rfl)
@[simp] theorem State.setSeam_setNow (d i : Nat) (a : Seam) : (s.setSeam d i a).setNow = s.setNow := (rfl)
@[simp] theorem State.setSeam_wroteNow (d i : Nat) (a : Seam) : (s.setSeam d i a).wroteNow = s.wroteNow := (rfl)
@[simp] theorem State.setSeam_floor (d i : Nat) (a : Seam) : (s.setSeam d i a).floor = s.floor := (rfl)
@[simp] theorem State.setSeam_physical (d i : Nat) (a : Seam) : (s.setSeam d i a).physical = s.physical := (rfl)
@[simp] theorem State.setSeam_memOwned (d i : Nat) (a : Seam) : (s.setSeam d i a).memOwned = s.memOwned := (rfl)
@[simp] theorem State.setSeam_csr (d i : Nat) (a : Seam) : (s.setSeam d i a).csr = s.csr := (rfl)
@[simp] theorem State.setSeam_mem (d i : Nat) (a : Seam) : (s.setSeam d i a).mem = s.mem := (rfl)
@[simp] theorem State.setSeam_mode (d i : Nat) (a : Seam) : (s.setSeam d i a).mode = s.mode := (rfl)
@[simp] theorem State.setSeam_headDie (d i : Nat) (a : Seam) : (s.setSeam d i a).headDie = s.headDie := (rfl)
@[simp] theorem State.setSeam_mirrorDie (d i : Nat) (a : Seam) : (s.setSeam d i a).mirrorDie = s.mirrorDie := (rfl)
@[simp] theorem State.setSeam_slotTab (d i : Nat) (a : Seam) : (s.setSeam d i a).slotTab = s.slotTab := (rfl)
@[simp] theorem State.setSeam_treeTab (d i : Nat) (a : Seam) : (s.setSeam d i a).treeTab = s.treeTab := (rfl)
@[simp] theorem State.setSeam_joinTab (d i : Nat) (a : Seam) : (s.setSeam d i a).joinTab = s.joinTab := (rfl)
@[simp] theorem State.setSeam_routeTab (d i : Nat) (a : Seam) : (s.setSeam d i a).routeTab = s.routeTab := (rfl)
@[simp] theorem State.setSeam_routeStore (d i : Nat) (a : Seam) : (s.setSeam d i a).routeStore = s.routeStore := (rfl)
@[simp] theorem State.setSeam_arrivalTab (d i : Nat) (a : Seam) : (s.setSeam d i a).arrivalTab = s.arrivalTab := (rfl)
@[simp] theorem State.setSeam_gateTab (d i : Nat) (a : Seam) : (s.setSeam d i a).gateTab = s.gateTab := (rfl)
@[simp] theorem State.setSeam_keepers (d i : Nat) (a : Seam) : (s.setSeam d i a).keepers = s.keepers := (rfl)
@[simp] theorem State.setSeam_regions (d i : Nat) (a : Seam) : (s.setSeam d i a).regions = s.regions := (rfl)
@[simp] theorem State.setSeam_panelReq (d i : Nat) (a : Seam) : (s.setSeam d i a).panelReq = s.panelReq := (rfl)
@[simp] theorem State.setSeam_gates (d i : Nat) (a : Seam) : (s.setSeam d i a).gates = s.gates := (rfl)
@[simp] theorem State.setSeam_shapers (d i : Nat) (a : Seam) : (s.setSeam d i a).shapers = s.shapers := (rfl)
@[simp] theorem State.setSeam_sampleFrom (d i : Nat) (a : Seam) : (s.setSeam d i a).sampleFrom = s.sampleFrom := (rfl)
@[simp] theorem State.setSeam_govs (d i : Nat) (a : Seam) : (s.setSeam d i a).govs = s.govs := (rfl)
@[simp] theorem State.setSeam_routers (d i : Nat) (a : Seam) : (s.setSeam d i a).routers = s.routers := (rfl)
@[simp] theorem State.setSeam_wires (d i : Nat) (a : Seam) : (s.setSeam d i a).wires = s.wires := (rfl)
@[simp] theorem State.setSeam_credWires (d i : Nat) (a : Seam) : (s.setSeam d i a).credWires = s.credWires := (rfl)
@[simp] theorem State.setSeam_edgeHem (d i : Nat) (a : Seam) : (s.setSeam d i a).edgeHem = s.edgeHem := (rfl)
@[simp] theorem State.setSeam_nis (d i : Nat) (a : Seam) : (s.setSeam d i a).nis = s.nis := (rfl)
@[simp] theorem State.setSeam_inj (d i : Nat) (a : Seam) : (s.setSeam d i a).inj = s.inj := (rfl)
@[simp] theorem State.setSeam_stream (d i : Nat) (a : Seam) : (s.setSeam d i a).stream = s.stream := (rfl)
@[simp] theorem State.setSeam_injCount (d i : Nat) (a : Seam) : (s.setSeam d i a).injCount = s.injCount := (rfl)
@[simp] theorem State.setSeam_hints (d i : Nat) (a : Seam) : (s.setSeam d i a).hints = s.hints := (rfl)
@[simp] theorem State.setSeam_outTags (d i : Nat) (a : Seam) : (s.setSeam d i a).outTags = s.outTags := (rfl)
@[simp] theorem State.setSeam_bursts (d i : Nat) (a : Seam) : (s.setSeam d i a).bursts = s.bursts := (rfl)
@[simp] theorem State.setSeam_orderHold (d i : Nat) (a : Seam) : (s.setSeam d i a).orderHold = s.orderHold := (rfl)
@[simp] theorem State.setSeam_halted (d i : Nat) (a : Seam) : (s.setSeam d i a).halted = s.halted := (rfl)
@[simp] theorem State.setSeam_catchShut (d i : Nat) (a : Seam) : (s.setSeam d i a).catchShut = s.catchShut := (rfl)
@[simp] theorem State.setSeam_secCount (d i : Nat) (a : Seam) : (s.setSeam d i a).secCount = s.secCount := (rfl)
@[simp] theorem State.setSeam_dedCount (d i : Nat) (a : Seam) : (s.setSeam d i a).dedCount = s.dedCount := (rfl)
@[simp] theorem State.setSeam_flog (d i : Nat) (a : Seam) : (s.setSeam d i a).flog = s.flog := (rfl)
@[simp] theorem State.setSeam_flogFull (d i : Nat) (a : Seam) : (s.setSeam d i a).flogFull = s.flogFull := (rfl)
@[simp] theorem State.setSeam_fwd (d i : Nat) (a : Seam) : (s.setSeam d i a).fwd = s.fwd := (rfl)
@[simp] theorem State.setSeam_traces (d i : Nat) (a : Seam) : (s.setSeam d i a).traces = s.traces := (rfl)
@[simp] theorem State.setSeam_stats (d i : Nat) (a : Seam) : (s.setSeam d i a).stats = s.stats := (rfl)
@[simp] theorem State.setSeam_prbCount (d i : Nat) (a : Seam) : (s.setSeam d i a).prbCount = s.prbCount := (rfl)
@[simp] theorem State.setSeam_patRw (d i : Nat) (a : Seam) : (s.setSeam d i a).patRw = s.patRw := (rfl)
@[simp] theorem State.setSeam_svcAt (d i : Nat) (a : Seam) : (s.setSeam d i a).svcAt = s.svcAt := (rfl)
@[simp] theorem State.setSeam_timeReq (d i : Nat) (a : Seam) : (s.setSeam d i a).timeReq = s.timeReq := (rfl)
@[simp] theorem State.setSeam_syncObj (d i : Nat) (a : Seam) : (s.setSeam d i a).syncObj = s.syncObj := (rfl)
@[simp] theorem State.setSeam_syncInit (d i : Nat) (a : Seam) : (s.setSeam d i a).syncInit = s.syncInit := (rfl)
@[simp] theorem State.setSeam_syncDone (d i : Nat) (a : Seam) : (s.setSeam d i a).syncDone = s.syncDone := (rfl)
@[simp] theorem State.setSeam_syncUsed (d i : Nat) (a : Seam) : (s.setSeam d i a).syncUsed = s.syncUsed := (rfl)
@[simp] theorem State.setSeam_syncLeft (d i : Nat) (a : Seam) : (s.setSeam d i a).syncLeft = s.syncLeft := (rfl)
@[simp] theorem State.setSeam_syncBreak (d i : Nat) (a : Seam) : (s.setSeam d i a).syncBreak = s.syncBreak := (rfl)
@[simp] theorem State.setSeam_memports (d i : Nat) (a : Seam) : (s.setSeam d i a).memports = s.memports := (rfl)
@[simp] theorem State.setSeam_ces (d i : Nat) (a : Seam) : (s.setSeam d i a).ces = s.ces := (rfl)
@[simp] theorem State.setSeam_ledger (d i : Nat) (a : Seam) : (s.setSeam d i a).ledger = s.ledger := (rfl)
@[simp] theorem State.setSeam_stores (d i : Nat) (a : Seam) : (s.setSeam d i a).stores = s.stores := (rfl)
@[simp] theorem State.setSeam_boots (d i : Nat) (a : Seam) : (s.setSeam d i a).boots = s.boots := (rfl)
@[simp] theorem State.setSeam_msix (d i : Nat) (a : Seam) : (s.setSeam d i a).msix = s.msix := (rfl)
@[simp] theorem State.setSeam_wins (d i : Nat) (a : Seam) : (s.setSeam d i a).wins = s.wins := (rfl)
@[simp] theorem State.setSeam_cmtClosed (d i : Nat) (a : Seam) : (s.setSeam d i a).cmtClosed = s.cmtClosed := (rfl)
@[simp] theorem State.setSeam_coords (d i : Nat) (a : Seam) : (s.setSeam d i a).coords = s.coords := (rfl)
@[simp] theorem State.setSeam_loader (d i : Nat) (a : Seam) : (s.setSeam d i a).loader = s.loader := (rfl)
@[simp] theorem State.setSeam_patches (d i : Nat) (a : Seam) : (s.setSeam d i a).patches = s.patches := (rfl)
@[simp] theorem State.setSeam_patchNum (d i : Nat) (a : Seam) : (s.setSeam d i a).patchNum = s.patchNum := (rfl)
@[simp] theorem State.setSeam_patchLog (d i : Nat) (a : Seam) : (s.setSeam d i a).patchLog = s.patchLog := (rfl)
@[simp] theorem State.setSeam_areaUsed (d i : Nat) (a : Seam) : (s.setSeam d i a).areaUsed = s.areaUsed := (rfl)
@[simp] theorem State.setSeam_posted (d i : Nat) (a : Seam) : (s.setSeam d i a).posted = s.posted := (rfl)
@[simp] theorem State.setSeam_plWant (d i : Nat) (a : Seam) : (s.setSeam d i a).plWant = s.plWant := (rfl)
@[simp] theorem State.setSeam_hbs (d i : Nat) (a : Seam) : (s.setSeam d i a).hbs = s.hbs := (rfl)
@[simp] theorem State.setSeam_hbFrom (d i : Nat) (a : Seam) : (s.setSeam d i a).hbFrom = s.hbFrom := (rfl)
@[simp] theorem State.setSeam_hbSent (d i : Nat) (a : Seam) : (s.setSeam d i a).hbSent = s.hbSent := (rfl)
@[simp] theorem State.setSeam_pkgHbSent (d i : Nat) (a : Seam) : (s.setSeam d i a).pkgHbSent = s.pkgHbSent := (rfl)
@[simp] theorem State.setSeam_suspects (d i : Nat) (a : Seam) : (s.setSeam d i a).suspects = s.suspects := (rfl)
@[simp] theorem State.setSeam_vseq (d i : Nat) (a : Seam) : (s.setSeam d i a).vseq = s.vseq := (rfl)
@[simp] theorem State.setSeam_verdictsSeen (d i : Nat) (a : Seam) : (s.setSeam d i a).verdictsSeen = s.verdictsSeen := (rfl)
@[simp] theorem State.setSeam_deadPkgs (d i : Nat) (a : Seam) : (s.setSeam d i a).deadPkgs = s.deadPkgs := (rfl)
@[simp] theorem State.setSeam_selfDead (d i : Nat) (a : Seam) : (s.setSeam d i a).selfDead = s.selfDead := (rfl)
@[simp] theorem State.setSeam_deadUnits (d i : Nat) (a : Seam) : (s.setSeam d i a).deadUnits = s.deadUnits := (rfl)
@[simp] theorem State.setSeam_probeSeqs (d i : Nat) (a : Seam) : (s.setSeam d i a).probeSeqs = s.probeSeqs := (rfl)
@[simp] theorem State.setSeam_probeWires (d i : Nat) (a : Seam) : (s.setSeam d i a).probeWires = s.probeWires := (rfl)
@[simp] theorem State.setSeam_secWindow (d i : Nat) (a : Seam) : (s.setSeam d i a).secWindow = s.secWindow := (rfl)
@[simp] theorem State.setSeam_wearFt (d i : Nat) (a : Seam) : (s.setSeam d i a).wearFt = s.wearFt := (rfl)
@[simp] theorem State.setSeam_telemFt (d i : Nat) (a : Seam) : (s.setSeam d i a).telemFt = s.telemFt := (rfl)
@[simp] theorem State.setSeam_telem (d i : Nat) (a : Seam) : (s.setSeam d i a).telem = s.telem := (rfl)
@[simp] theorem State.setSeam_darns (d i : Nat) (a : Seam) : (s.setSeam d i a).darns = s.darns := (rfl)
@[simp] theorem State.setSeam_stalls (d i : Nat) (a : Seam) : (s.setSeam d i a).stalls = s.stalls := (rfl)
@[simp] theorem State.setSeam_kickFt (d i : Nat) (a : Seam) : (s.setSeam d i a).kickFt = s.kickFt := (rfl)
@[simp] theorem State.setSeam_dumps (d i : Nat) (a : Seam) : (s.setSeam d i a).dumps = s.dumps := (rfl)
@[simp] theorem State.setSeam_mpTrained (d i : Nat) (a : Seam) : (s.setSeam d i a).mpTrained = s.mpTrained := (rfl)
@[simp] theorem State.setSeam_stopNext (d i : Nat) (a : Seam) : (s.setSeam d i a).stopNext = s.stopNext := (rfl)
@[simp] theorem State.setSeam_armWait (d i : Nat) (a : Seam) : (s.setSeam d i a).armWait = s.armWait := (rfl)
@[simp] theorem State.setSeam_stls (d i : Nat) (a : Seam) : (s.setSeam d i a).stls = s.stls := (rfl)
@[simp] theorem State.setSeam_transitPos (d i : Nat) (a : Seam) : (s.setSeam d i a).transitPos = s.transitPos := (rfl)
@[simp] theorem State.setSeam_debugFt (d i : Nat) (a : Seam) : (s.setSeam d i a).debugFt = s.debugFt := (rfl)
@[simp] theorem State.setSeam_debugWait (d i : Nat) (a : Seam) : (s.setSeam d i a).debugWait = s.debugWait := (rfl)
@[simp] theorem State.setSeam_eraseOnly (d i : Nat) (a : Seam) : (s.setSeam d i a).eraseOnly = s.eraseOnly := (rfl)
@[simp] theorem State.setSeam_provision (d i : Nat) (a : Seam) : (s.setSeam d i a).provision = s.provision := (rfl)
@[simp] theorem State.setSeam_barJobs (d i : Nat) (a : Seam) : (s.setSeam d i a).barJobs = s.barJobs := (rfl)
@[simp] theorem State.setSeam_hostOut (d i : Nat) (a : Seam) : (s.setSeam d i a).hostOut = s.hostOut := (rfl)
@[simp] theorem State.setSeam_rcsr (d i : Nat) (a : Seam) : (s.setSeam d i a).rcsr = s.rcsr := (rfl)
@[simp] theorem State.setSeam_tileReset (d i : Nat) (a : Seam) : (s.setSeam d i a).tileReset = s.tileReset := (rfl)
@[simp] theorem State.setSeam_pkgMend (d i : Nat) (a : Seam) : (s.setSeam d i a).pkgMend = s.pkgMend := (rfl)
@[simp] theorem State.setSeam_rejoinFt (d i : Nat) (a : Seam) : (s.setSeam d i a).rejoinFt = s.rejoinFt := (rfl)
@[simp] theorem State.setSeam_testFails (d i : Nat) (a : Seam) : (s.setSeam d i a).testFails = s.testFails := (rfl)
@[simp] theorem State.setSeam_testReport (d i : Nat) (a : Seam) : (s.setSeam d i a).testReport = s.testReport := (rfl)

/-! `setNi` -/

@[simp] theorem State.setNi_pending (d p : Nat) (n : Ni) : (s.setNi d p n).pending = s.pending := (rfl)
@[simp] theorem State.setNi_free (d p : Nat) (n : Ni) : (s.setNi d p n).free = s.free := (rfl)
@[simp] theorem State.setNi_setNow (d p : Nat) (n : Ni) : (s.setNi d p n).setNow = s.setNow := (rfl)
@[simp] theorem State.setNi_wroteNow (d p : Nat) (n : Ni) : (s.setNi d p n).wroteNow = s.wroteNow := (rfl)
@[simp] theorem State.setNi_floor (d p : Nat) (n : Ni) : (s.setNi d p n).floor = s.floor := (rfl)
@[simp] theorem State.setNi_physical (d p : Nat) (n : Ni) : (s.setNi d p n).physical = s.physical := (rfl)
@[simp] theorem State.setNi_memOwned (d p : Nat) (n : Ni) : (s.setNi d p n).memOwned = s.memOwned := (rfl)
@[simp] theorem State.setNi_csr (d p : Nat) (n : Ni) : (s.setNi d p n).csr = s.csr := (rfl)
@[simp] theorem State.setNi_mem (d p : Nat) (n : Ni) : (s.setNi d p n).mem = s.mem := (rfl)
@[simp] theorem State.setNi_mode (d p : Nat) (n : Ni) : (s.setNi d p n).mode = s.mode := (rfl)
@[simp] theorem State.setNi_headDie (d p : Nat) (n : Ni) : (s.setNi d p n).headDie = s.headDie := (rfl)
@[simp] theorem State.setNi_mirrorDie (d p : Nat) (n : Ni) : (s.setNi d p n).mirrorDie = s.mirrorDie := (rfl)
@[simp] theorem State.setNi_slotTab (d p : Nat) (n : Ni) : (s.setNi d p n).slotTab = s.slotTab := (rfl)
@[simp] theorem State.setNi_treeTab (d p : Nat) (n : Ni) : (s.setNi d p n).treeTab = s.treeTab := (rfl)
@[simp] theorem State.setNi_joinTab (d p : Nat) (n : Ni) : (s.setNi d p n).joinTab = s.joinTab := (rfl)
@[simp] theorem State.setNi_routeTab (d p : Nat) (n : Ni) : (s.setNi d p n).routeTab = s.routeTab := (rfl)
@[simp] theorem State.setNi_routeStore (d p : Nat) (n : Ni) : (s.setNi d p n).routeStore = s.routeStore := (rfl)
@[simp] theorem State.setNi_arrivalTab (d p : Nat) (n : Ni) : (s.setNi d p n).arrivalTab = s.arrivalTab := (rfl)
@[simp] theorem State.setNi_gateTab (d p : Nat) (n : Ni) : (s.setNi d p n).gateTab = s.gateTab := (rfl)
@[simp] theorem State.setNi_keepers (d p : Nat) (n : Ni) : (s.setNi d p n).keepers = s.keepers := (rfl)
@[simp] theorem State.setNi_regions (d p : Nat) (n : Ni) : (s.setNi d p n).regions = s.regions := (rfl)
@[simp] theorem State.setNi_panelReq (d p : Nat) (n : Ni) : (s.setNi d p n).panelReq = s.panelReq := (rfl)
@[simp] theorem State.setNi_gates (d p : Nat) (n : Ni) : (s.setNi d p n).gates = s.gates := (rfl)
@[simp] theorem State.setNi_shapers (d p : Nat) (n : Ni) : (s.setNi d p n).shapers = s.shapers := (rfl)
@[simp] theorem State.setNi_sampleFrom (d p : Nat) (n : Ni) : (s.setNi d p n).sampleFrom = s.sampleFrom := (rfl)
@[simp] theorem State.setNi_govs (d p : Nat) (n : Ni) : (s.setNi d p n).govs = s.govs := (rfl)
@[simp] theorem State.setNi_routers (d p : Nat) (n : Ni) : (s.setNi d p n).routers = s.routers := (rfl)
@[simp] theorem State.setNi_wires (d p : Nat) (n : Ni) : (s.setNi d p n).wires = s.wires := (rfl)
@[simp] theorem State.setNi_credWires (d p : Nat) (n : Ni) : (s.setNi d p n).credWires = s.credWires := (rfl)
@[simp] theorem State.setNi_edgeHem (d p : Nat) (n : Ni) : (s.setNi d p n).edgeHem = s.edgeHem := (rfl)
@[simp] theorem State.setNi_seams (d p : Nat) (n : Ni) : (s.setNi d p n).seams = s.seams := (rfl)
@[simp] theorem State.setNi_inj (d p : Nat) (n : Ni) : (s.setNi d p n).inj = s.inj := (rfl)
@[simp] theorem State.setNi_stream (d p : Nat) (n : Ni) : (s.setNi d p n).stream = s.stream := (rfl)
@[simp] theorem State.setNi_injCount (d p : Nat) (n : Ni) : (s.setNi d p n).injCount = s.injCount := (rfl)
@[simp] theorem State.setNi_hints (d p : Nat) (n : Ni) : (s.setNi d p n).hints = s.hints := (rfl)
@[simp] theorem State.setNi_outTags (d p : Nat) (n : Ni) : (s.setNi d p n).outTags = s.outTags := (rfl)
@[simp] theorem State.setNi_bursts (d p : Nat) (n : Ni) : (s.setNi d p n).bursts = s.bursts := (rfl)
@[simp] theorem State.setNi_orderHold (d p : Nat) (n : Ni) : (s.setNi d p n).orderHold = s.orderHold := (rfl)
@[simp] theorem State.setNi_halted (d p : Nat) (n : Ni) : (s.setNi d p n).halted = s.halted := (rfl)
@[simp] theorem State.setNi_catchShut (d p : Nat) (n : Ni) : (s.setNi d p n).catchShut = s.catchShut := (rfl)
@[simp] theorem State.setNi_secCount (d p : Nat) (n : Ni) : (s.setNi d p n).secCount = s.secCount := (rfl)
@[simp] theorem State.setNi_dedCount (d p : Nat) (n : Ni) : (s.setNi d p n).dedCount = s.dedCount := (rfl)
@[simp] theorem State.setNi_flog (d p : Nat) (n : Ni) : (s.setNi d p n).flog = s.flog := (rfl)
@[simp] theorem State.setNi_flogFull (d p : Nat) (n : Ni) : (s.setNi d p n).flogFull = s.flogFull := (rfl)
@[simp] theorem State.setNi_fwd (d p : Nat) (n : Ni) : (s.setNi d p n).fwd = s.fwd := (rfl)
@[simp] theorem State.setNi_traces (d p : Nat) (n : Ni) : (s.setNi d p n).traces = s.traces := (rfl)
@[simp] theorem State.setNi_stats (d p : Nat) (n : Ni) : (s.setNi d p n).stats = s.stats := (rfl)
@[simp] theorem State.setNi_prbCount (d p : Nat) (n : Ni) : (s.setNi d p n).prbCount = s.prbCount := (rfl)
@[simp] theorem State.setNi_patRw (d p : Nat) (n : Ni) : (s.setNi d p n).patRw = s.patRw := (rfl)
@[simp] theorem State.setNi_svcAt (d p : Nat) (n : Ni) : (s.setNi d p n).svcAt = s.svcAt := (rfl)
@[simp] theorem State.setNi_timeReq (d p : Nat) (n : Ni) : (s.setNi d p n).timeReq = s.timeReq := (rfl)
@[simp] theorem State.setNi_syncObj (d p : Nat) (n : Ni) : (s.setNi d p n).syncObj = s.syncObj := (rfl)
@[simp] theorem State.setNi_syncInit (d p : Nat) (n : Ni) : (s.setNi d p n).syncInit = s.syncInit := (rfl)
@[simp] theorem State.setNi_syncDone (d p : Nat) (n : Ni) : (s.setNi d p n).syncDone = s.syncDone := (rfl)
@[simp] theorem State.setNi_syncUsed (d p : Nat) (n : Ni) : (s.setNi d p n).syncUsed = s.syncUsed := (rfl)
@[simp] theorem State.setNi_syncLeft (d p : Nat) (n : Ni) : (s.setNi d p n).syncLeft = s.syncLeft := (rfl)
@[simp] theorem State.setNi_syncBreak (d p : Nat) (n : Ni) : (s.setNi d p n).syncBreak = s.syncBreak := (rfl)
@[simp] theorem State.setNi_memports (d p : Nat) (n : Ni) : (s.setNi d p n).memports = s.memports := (rfl)
@[simp] theorem State.setNi_ces (d p : Nat) (n : Ni) : (s.setNi d p n).ces = s.ces := (rfl)
@[simp] theorem State.setNi_ledger (d p : Nat) (n : Ni) : (s.setNi d p n).ledger = s.ledger := (rfl)
@[simp] theorem State.setNi_stores (d p : Nat) (n : Ni) : (s.setNi d p n).stores = s.stores := (rfl)
@[simp] theorem State.setNi_boots (d p : Nat) (n : Ni) : (s.setNi d p n).boots = s.boots := (rfl)
@[simp] theorem State.setNi_msix (d p : Nat) (n : Ni) : (s.setNi d p n).msix = s.msix := (rfl)
@[simp] theorem State.setNi_wins (d p : Nat) (n : Ni) : (s.setNi d p n).wins = s.wins := (rfl)
@[simp] theorem State.setNi_cmtClosed (d p : Nat) (n : Ni) : (s.setNi d p n).cmtClosed = s.cmtClosed := (rfl)
@[simp] theorem State.setNi_coords (d p : Nat) (n : Ni) : (s.setNi d p n).coords = s.coords := (rfl)
@[simp] theorem State.setNi_loader (d p : Nat) (n : Ni) : (s.setNi d p n).loader = s.loader := (rfl)
@[simp] theorem State.setNi_patches (d p : Nat) (n : Ni) : (s.setNi d p n).patches = s.patches := (rfl)
@[simp] theorem State.setNi_patchNum (d p : Nat) (n : Ni) : (s.setNi d p n).patchNum = s.patchNum := (rfl)
@[simp] theorem State.setNi_patchLog (d p : Nat) (n : Ni) : (s.setNi d p n).patchLog = s.patchLog := (rfl)
@[simp] theorem State.setNi_areaUsed (d p : Nat) (n : Ni) : (s.setNi d p n).areaUsed = s.areaUsed := (rfl)
@[simp] theorem State.setNi_posted (d p : Nat) (n : Ni) : (s.setNi d p n).posted = s.posted := (rfl)
@[simp] theorem State.setNi_plWant (d p : Nat) (n : Ni) : (s.setNi d p n).plWant = s.plWant := (rfl)
@[simp] theorem State.setNi_hbs (d p : Nat) (n : Ni) : (s.setNi d p n).hbs = s.hbs := (rfl)
@[simp] theorem State.setNi_hbFrom (d p : Nat) (n : Ni) : (s.setNi d p n).hbFrom = s.hbFrom := (rfl)
@[simp] theorem State.setNi_hbSent (d p : Nat) (n : Ni) : (s.setNi d p n).hbSent = s.hbSent := (rfl)
@[simp] theorem State.setNi_pkgHbSent (d p : Nat) (n : Ni) : (s.setNi d p n).pkgHbSent = s.pkgHbSent := (rfl)
@[simp] theorem State.setNi_suspects (d p : Nat) (n : Ni) : (s.setNi d p n).suspects = s.suspects := (rfl)
@[simp] theorem State.setNi_vseq (d p : Nat) (n : Ni) : (s.setNi d p n).vseq = s.vseq := (rfl)
@[simp] theorem State.setNi_verdictsSeen (d p : Nat) (n : Ni) : (s.setNi d p n).verdictsSeen = s.verdictsSeen := (rfl)
@[simp] theorem State.setNi_deadPkgs (d p : Nat) (n : Ni) : (s.setNi d p n).deadPkgs = s.deadPkgs := (rfl)
@[simp] theorem State.setNi_selfDead (d p : Nat) (n : Ni) : (s.setNi d p n).selfDead = s.selfDead := (rfl)
@[simp] theorem State.setNi_deadUnits (d p : Nat) (n : Ni) : (s.setNi d p n).deadUnits = s.deadUnits := (rfl)
@[simp] theorem State.setNi_probeSeqs (d p : Nat) (n : Ni) : (s.setNi d p n).probeSeqs = s.probeSeqs := (rfl)
@[simp] theorem State.setNi_probeWires (d p : Nat) (n : Ni) : (s.setNi d p n).probeWires = s.probeWires := (rfl)
@[simp] theorem State.setNi_secWindow (d p : Nat) (n : Ni) : (s.setNi d p n).secWindow = s.secWindow := (rfl)
@[simp] theorem State.setNi_wearFt (d p : Nat) (n : Ni) : (s.setNi d p n).wearFt = s.wearFt := (rfl)
@[simp] theorem State.setNi_telemFt (d p : Nat) (n : Ni) : (s.setNi d p n).telemFt = s.telemFt := (rfl)
@[simp] theorem State.setNi_telem (d p : Nat) (n : Ni) : (s.setNi d p n).telem = s.telem := (rfl)
@[simp] theorem State.setNi_darns (d p : Nat) (n : Ni) : (s.setNi d p n).darns = s.darns := (rfl)
@[simp] theorem State.setNi_stalls (d p : Nat) (n : Ni) : (s.setNi d p n).stalls = s.stalls := (rfl)
@[simp] theorem State.setNi_kickFt (d p : Nat) (n : Ni) : (s.setNi d p n).kickFt = s.kickFt := (rfl)
@[simp] theorem State.setNi_dumps (d p : Nat) (n : Ni) : (s.setNi d p n).dumps = s.dumps := (rfl)
@[simp] theorem State.setNi_mpTrained (d p : Nat) (n : Ni) : (s.setNi d p n).mpTrained = s.mpTrained := (rfl)
@[simp] theorem State.setNi_stopNext (d p : Nat) (n : Ni) : (s.setNi d p n).stopNext = s.stopNext := (rfl)
@[simp] theorem State.setNi_armWait (d p : Nat) (n : Ni) : (s.setNi d p n).armWait = s.armWait := (rfl)
@[simp] theorem State.setNi_stls (d p : Nat) (n : Ni) : (s.setNi d p n).stls = s.stls := (rfl)
@[simp] theorem State.setNi_transitPos (d p : Nat) (n : Ni) : (s.setNi d p n).transitPos = s.transitPos := (rfl)
@[simp] theorem State.setNi_debugFt (d p : Nat) (n : Ni) : (s.setNi d p n).debugFt = s.debugFt := (rfl)
@[simp] theorem State.setNi_debugWait (d p : Nat) (n : Ni) : (s.setNi d p n).debugWait = s.debugWait := (rfl)
@[simp] theorem State.setNi_eraseOnly (d p : Nat) (n : Ni) : (s.setNi d p n).eraseOnly = s.eraseOnly := (rfl)
@[simp] theorem State.setNi_provision (d p : Nat) (n : Ni) : (s.setNi d p n).provision = s.provision := (rfl)
@[simp] theorem State.setNi_barJobs (d p : Nat) (n : Ni) : (s.setNi d p n).barJobs = s.barJobs := (rfl)
@[simp] theorem State.setNi_hostOut (d p : Nat) (n : Ni) : (s.setNi d p n).hostOut = s.hostOut := (rfl)
@[simp] theorem State.setNi_rcsr (d p : Nat) (n : Ni) : (s.setNi d p n).rcsr = s.rcsr := (rfl)
@[simp] theorem State.setNi_tileReset (d p : Nat) (n : Ni) : (s.setNi d p n).tileReset = s.tileReset := (rfl)
@[simp] theorem State.setNi_pkgMend (d p : Nat) (n : Ni) : (s.setNi d p n).pkgMend = s.pkgMend := (rfl)
@[simp] theorem State.setNi_rejoinFt (d p : Nat) (n : Ni) : (s.setNi d p n).rejoinFt = s.rejoinFt := (rfl)
@[simp] theorem State.setNi_testFails (d p : Nat) (n : Ni) : (s.setNi d p n).testFails = s.testFails := (rfl)
@[simp] theorem State.setNi_testReport (d p : Nat) (n : Ni) : (s.setNi d p n).testReport = s.testReport := (rfl)

/-! `setCe` -/

@[simp] theorem State.setCe_pending (d k : Nat) (c : Ce) : (s.setCe d k c).pending = s.pending := (rfl)
@[simp] theorem State.setCe_free (d k : Nat) (c : Ce) : (s.setCe d k c).free = s.free := (rfl)
@[simp] theorem State.setCe_setNow (d k : Nat) (c : Ce) : (s.setCe d k c).setNow = s.setNow := (rfl)
@[simp] theorem State.setCe_wroteNow (d k : Nat) (c : Ce) : (s.setCe d k c).wroteNow = s.wroteNow := (rfl)
@[simp] theorem State.setCe_floor (d k : Nat) (c : Ce) : (s.setCe d k c).floor = s.floor := (rfl)
@[simp] theorem State.setCe_physical (d k : Nat) (c : Ce) : (s.setCe d k c).physical = s.physical := (rfl)
@[simp] theorem State.setCe_memOwned (d k : Nat) (c : Ce) : (s.setCe d k c).memOwned = s.memOwned := (rfl)
@[simp] theorem State.setCe_csr (d k : Nat) (c : Ce) : (s.setCe d k c).csr = s.csr := (rfl)
@[simp] theorem State.setCe_mem (d k : Nat) (c : Ce) : (s.setCe d k c).mem = s.mem := (rfl)
@[simp] theorem State.setCe_mode (d k : Nat) (c : Ce) : (s.setCe d k c).mode = s.mode := (rfl)
@[simp] theorem State.setCe_headDie (d k : Nat) (c : Ce) : (s.setCe d k c).headDie = s.headDie := (rfl)
@[simp] theorem State.setCe_mirrorDie (d k : Nat) (c : Ce) : (s.setCe d k c).mirrorDie = s.mirrorDie := (rfl)
@[simp] theorem State.setCe_slotTab (d k : Nat) (c : Ce) : (s.setCe d k c).slotTab = s.slotTab := (rfl)
@[simp] theorem State.setCe_treeTab (d k : Nat) (c : Ce) : (s.setCe d k c).treeTab = s.treeTab := (rfl)
@[simp] theorem State.setCe_joinTab (d k : Nat) (c : Ce) : (s.setCe d k c).joinTab = s.joinTab := (rfl)
@[simp] theorem State.setCe_routeTab (d k : Nat) (c : Ce) : (s.setCe d k c).routeTab = s.routeTab := (rfl)
@[simp] theorem State.setCe_routeStore (d k : Nat) (c : Ce) : (s.setCe d k c).routeStore = s.routeStore := (rfl)
@[simp] theorem State.setCe_arrivalTab (d k : Nat) (c : Ce) : (s.setCe d k c).arrivalTab = s.arrivalTab := (rfl)
@[simp] theorem State.setCe_gateTab (d k : Nat) (c : Ce) : (s.setCe d k c).gateTab = s.gateTab := (rfl)
@[simp] theorem State.setCe_keepers (d k : Nat) (c : Ce) : (s.setCe d k c).keepers = s.keepers := (rfl)
@[simp] theorem State.setCe_regions (d k : Nat) (c : Ce) : (s.setCe d k c).regions = s.regions := (rfl)
@[simp] theorem State.setCe_panelReq (d k : Nat) (c : Ce) : (s.setCe d k c).panelReq = s.panelReq := (rfl)
@[simp] theorem State.setCe_gates (d k : Nat) (c : Ce) : (s.setCe d k c).gates = s.gates := (rfl)
@[simp] theorem State.setCe_shapers (d k : Nat) (c : Ce) : (s.setCe d k c).shapers = s.shapers := (rfl)
@[simp] theorem State.setCe_sampleFrom (d k : Nat) (c : Ce) : (s.setCe d k c).sampleFrom = s.sampleFrom := (rfl)
@[simp] theorem State.setCe_govs (d k : Nat) (c : Ce) : (s.setCe d k c).govs = s.govs := (rfl)
@[simp] theorem State.setCe_routers (d k : Nat) (c : Ce) : (s.setCe d k c).routers = s.routers := (rfl)
@[simp] theorem State.setCe_wires (d k : Nat) (c : Ce) : (s.setCe d k c).wires = s.wires := (rfl)
@[simp] theorem State.setCe_credWires (d k : Nat) (c : Ce) : (s.setCe d k c).credWires = s.credWires := (rfl)
@[simp] theorem State.setCe_edgeHem (d k : Nat) (c : Ce) : (s.setCe d k c).edgeHem = s.edgeHem := (rfl)
@[simp] theorem State.setCe_seams (d k : Nat) (c : Ce) : (s.setCe d k c).seams = s.seams := (rfl)
@[simp] theorem State.setCe_nis (d k : Nat) (c : Ce) : (s.setCe d k c).nis = s.nis := (rfl)
@[simp] theorem State.setCe_inj (d k : Nat) (c : Ce) : (s.setCe d k c).inj = s.inj := (rfl)
@[simp] theorem State.setCe_stream (d k : Nat) (c : Ce) : (s.setCe d k c).stream = s.stream := (rfl)
@[simp] theorem State.setCe_injCount (d k : Nat) (c : Ce) : (s.setCe d k c).injCount = s.injCount := (rfl)
@[simp] theorem State.setCe_hints (d k : Nat) (c : Ce) : (s.setCe d k c).hints = s.hints := (rfl)
@[simp] theorem State.setCe_outTags (d k : Nat) (c : Ce) : (s.setCe d k c).outTags = s.outTags := (rfl)
@[simp] theorem State.setCe_bursts (d k : Nat) (c : Ce) : (s.setCe d k c).bursts = s.bursts := (rfl)
@[simp] theorem State.setCe_orderHold (d k : Nat) (c : Ce) : (s.setCe d k c).orderHold = s.orderHold := (rfl)
@[simp] theorem State.setCe_halted (d k : Nat) (c : Ce) : (s.setCe d k c).halted = s.halted := (rfl)
@[simp] theorem State.setCe_catchShut (d k : Nat) (c : Ce) : (s.setCe d k c).catchShut = s.catchShut := (rfl)
@[simp] theorem State.setCe_secCount (d k : Nat) (c : Ce) : (s.setCe d k c).secCount = s.secCount := (rfl)
@[simp] theorem State.setCe_dedCount (d k : Nat) (c : Ce) : (s.setCe d k c).dedCount = s.dedCount := (rfl)
@[simp] theorem State.setCe_flog (d k : Nat) (c : Ce) : (s.setCe d k c).flog = s.flog := (rfl)
@[simp] theorem State.setCe_flogFull (d k : Nat) (c : Ce) : (s.setCe d k c).flogFull = s.flogFull := (rfl)
@[simp] theorem State.setCe_fwd (d k : Nat) (c : Ce) : (s.setCe d k c).fwd = s.fwd := (rfl)
@[simp] theorem State.setCe_traces (d k : Nat) (c : Ce) : (s.setCe d k c).traces = s.traces := (rfl)
@[simp] theorem State.setCe_stats (d k : Nat) (c : Ce) : (s.setCe d k c).stats = s.stats := (rfl)
@[simp] theorem State.setCe_prbCount (d k : Nat) (c : Ce) : (s.setCe d k c).prbCount = s.prbCount := (rfl)
@[simp] theorem State.setCe_patRw (d k : Nat) (c : Ce) : (s.setCe d k c).patRw = s.patRw := (rfl)
@[simp] theorem State.setCe_svcAt (d k : Nat) (c : Ce) : (s.setCe d k c).svcAt = s.svcAt := (rfl)
@[simp] theorem State.setCe_timeReq (d k : Nat) (c : Ce) : (s.setCe d k c).timeReq = s.timeReq := (rfl)
@[simp] theorem State.setCe_syncObj (d k : Nat) (c : Ce) : (s.setCe d k c).syncObj = s.syncObj := (rfl)
@[simp] theorem State.setCe_syncInit (d k : Nat) (c : Ce) : (s.setCe d k c).syncInit = s.syncInit := (rfl)
@[simp] theorem State.setCe_syncDone (d k : Nat) (c : Ce) : (s.setCe d k c).syncDone = s.syncDone := (rfl)
@[simp] theorem State.setCe_syncUsed (d k : Nat) (c : Ce) : (s.setCe d k c).syncUsed = s.syncUsed := (rfl)
@[simp] theorem State.setCe_syncLeft (d k : Nat) (c : Ce) : (s.setCe d k c).syncLeft = s.syncLeft := (rfl)
@[simp] theorem State.setCe_syncBreak (d k : Nat) (c : Ce) : (s.setCe d k c).syncBreak = s.syncBreak := (rfl)
@[simp] theorem State.setCe_memports (d k : Nat) (c : Ce) : (s.setCe d k c).memports = s.memports := (rfl)
@[simp] theorem State.setCe_ledger (d k : Nat) (c : Ce) : (s.setCe d k c).ledger = s.ledger := (rfl)
@[simp] theorem State.setCe_stores (d k : Nat) (c : Ce) : (s.setCe d k c).stores = s.stores := (rfl)
@[simp] theorem State.setCe_boots (d k : Nat) (c : Ce) : (s.setCe d k c).boots = s.boots := (rfl)
@[simp] theorem State.setCe_msix (d k : Nat) (c : Ce) : (s.setCe d k c).msix = s.msix := (rfl)
@[simp] theorem State.setCe_wins (d k : Nat) (c : Ce) : (s.setCe d k c).wins = s.wins := (rfl)
@[simp] theorem State.setCe_cmtClosed (d k : Nat) (c : Ce) : (s.setCe d k c).cmtClosed = s.cmtClosed := (rfl)
@[simp] theorem State.setCe_coords (d k : Nat) (c : Ce) : (s.setCe d k c).coords = s.coords := (rfl)
@[simp] theorem State.setCe_loader (d k : Nat) (c : Ce) : (s.setCe d k c).loader = s.loader := (rfl)
@[simp] theorem State.setCe_patches (d k : Nat) (c : Ce) : (s.setCe d k c).patches = s.patches := (rfl)
@[simp] theorem State.setCe_patchNum (d k : Nat) (c : Ce) : (s.setCe d k c).patchNum = s.patchNum := (rfl)
@[simp] theorem State.setCe_patchLog (d k : Nat) (c : Ce) : (s.setCe d k c).patchLog = s.patchLog := (rfl)
@[simp] theorem State.setCe_areaUsed (d k : Nat) (c : Ce) : (s.setCe d k c).areaUsed = s.areaUsed := (rfl)
@[simp] theorem State.setCe_posted (d k : Nat) (c : Ce) : (s.setCe d k c).posted = s.posted := (rfl)
@[simp] theorem State.setCe_plWant (d k : Nat) (c : Ce) : (s.setCe d k c).plWant = s.plWant := (rfl)
@[simp] theorem State.setCe_hbs (d k : Nat) (c : Ce) : (s.setCe d k c).hbs = s.hbs := (rfl)
@[simp] theorem State.setCe_hbFrom (d k : Nat) (c : Ce) : (s.setCe d k c).hbFrom = s.hbFrom := (rfl)
@[simp] theorem State.setCe_hbSent (d k : Nat) (c : Ce) : (s.setCe d k c).hbSent = s.hbSent := (rfl)
@[simp] theorem State.setCe_pkgHbSent (d k : Nat) (c : Ce) : (s.setCe d k c).pkgHbSent = s.pkgHbSent := (rfl)
@[simp] theorem State.setCe_suspects (d k : Nat) (c : Ce) : (s.setCe d k c).suspects = s.suspects := (rfl)
@[simp] theorem State.setCe_vseq (d k : Nat) (c : Ce) : (s.setCe d k c).vseq = s.vseq := (rfl)
@[simp] theorem State.setCe_verdictsSeen (d k : Nat) (c : Ce) : (s.setCe d k c).verdictsSeen = s.verdictsSeen := (rfl)
@[simp] theorem State.setCe_deadPkgs (d k : Nat) (c : Ce) : (s.setCe d k c).deadPkgs = s.deadPkgs := (rfl)
@[simp] theorem State.setCe_selfDead (d k : Nat) (c : Ce) : (s.setCe d k c).selfDead = s.selfDead := (rfl)
@[simp] theorem State.setCe_deadUnits (d k : Nat) (c : Ce) : (s.setCe d k c).deadUnits = s.deadUnits := (rfl)
@[simp] theorem State.setCe_probeSeqs (d k : Nat) (c : Ce) : (s.setCe d k c).probeSeqs = s.probeSeqs := (rfl)
@[simp] theorem State.setCe_probeWires (d k : Nat) (c : Ce) : (s.setCe d k c).probeWires = s.probeWires := (rfl)
@[simp] theorem State.setCe_secWindow (d k : Nat) (c : Ce) : (s.setCe d k c).secWindow = s.secWindow := (rfl)
@[simp] theorem State.setCe_wearFt (d k : Nat) (c : Ce) : (s.setCe d k c).wearFt = s.wearFt := (rfl)
@[simp] theorem State.setCe_telemFt (d k : Nat) (c : Ce) : (s.setCe d k c).telemFt = s.telemFt := (rfl)
@[simp] theorem State.setCe_telem (d k : Nat) (c : Ce) : (s.setCe d k c).telem = s.telem := (rfl)
@[simp] theorem State.setCe_darns (d k : Nat) (c : Ce) : (s.setCe d k c).darns = s.darns := (rfl)
@[simp] theorem State.setCe_stalls (d k : Nat) (c : Ce) : (s.setCe d k c).stalls = s.stalls := (rfl)
@[simp] theorem State.setCe_kickFt (d k : Nat) (c : Ce) : (s.setCe d k c).kickFt = s.kickFt := (rfl)
@[simp] theorem State.setCe_dumps (d k : Nat) (c : Ce) : (s.setCe d k c).dumps = s.dumps := (rfl)
@[simp] theorem State.setCe_mpTrained (d k : Nat) (c : Ce) : (s.setCe d k c).mpTrained = s.mpTrained := (rfl)
@[simp] theorem State.setCe_stopNext (d k : Nat) (c : Ce) : (s.setCe d k c).stopNext = s.stopNext := (rfl)
@[simp] theorem State.setCe_armWait (d k : Nat) (c : Ce) : (s.setCe d k c).armWait = s.armWait := (rfl)
@[simp] theorem State.setCe_stls (d k : Nat) (c : Ce) : (s.setCe d k c).stls = s.stls := (rfl)
@[simp] theorem State.setCe_transitPos (d k : Nat) (c : Ce) : (s.setCe d k c).transitPos = s.transitPos := (rfl)
@[simp] theorem State.setCe_debugFt (d k : Nat) (c : Ce) : (s.setCe d k c).debugFt = s.debugFt := (rfl)
@[simp] theorem State.setCe_debugWait (d k : Nat) (c : Ce) : (s.setCe d k c).debugWait = s.debugWait := (rfl)
@[simp] theorem State.setCe_eraseOnly (d k : Nat) (c : Ce) : (s.setCe d k c).eraseOnly = s.eraseOnly := (rfl)
@[simp] theorem State.setCe_provision (d k : Nat) (c : Ce) : (s.setCe d k c).provision = s.provision := (rfl)
@[simp] theorem State.setCe_barJobs (d k : Nat) (c : Ce) : (s.setCe d k c).barJobs = s.barJobs := (rfl)
@[simp] theorem State.setCe_hostOut (d k : Nat) (c : Ce) : (s.setCe d k c).hostOut = s.hostOut := (rfl)
@[simp] theorem State.setCe_rcsr (d k : Nat) (c : Ce) : (s.setCe d k c).rcsr = s.rcsr := (rfl)
@[simp] theorem State.setCe_tileReset (d k : Nat) (c : Ce) : (s.setCe d k c).tileReset = s.tileReset := (rfl)
@[simp] theorem State.setCe_pkgMend (d k : Nat) (c : Ce) : (s.setCe d k c).pkgMend = s.pkgMend := (rfl)
@[simp] theorem State.setCe_rejoinFt (d k : Nat) (c : Ce) : (s.setCe d k c).rejoinFt = s.rejoinFt := (rfl)
@[simp] theorem State.setCe_testFails (d k : Nat) (c : Ce) : (s.setCe d k c).testFails = s.testFails := (rfl)
@[simp] theorem State.setCe_testReport (d k : Nat) (c : Ce) : (s.setCe d k c).testReport = s.testReport := (rfl)

/-! `setEnt` -/

@[simp] theorem State.setEnt_pending (d k e : Nat) (x : CeEnt) : (s.setEnt d k e x).pending = s.pending := (rfl)
@[simp] theorem State.setEnt_free (d k e : Nat) (x : CeEnt) : (s.setEnt d k e x).free = s.free := (rfl)
@[simp] theorem State.setEnt_setNow (d k e : Nat) (x : CeEnt) : (s.setEnt d k e x).setNow = s.setNow := (rfl)
@[simp] theorem State.setEnt_wroteNow (d k e : Nat) (x : CeEnt) : (s.setEnt d k e x).wroteNow = s.wroteNow := (rfl)
@[simp] theorem State.setEnt_floor (d k e : Nat) (x : CeEnt) : (s.setEnt d k e x).floor = s.floor := (rfl)
@[simp] theorem State.setEnt_physical (d k e : Nat) (x : CeEnt) : (s.setEnt d k e x).physical = s.physical := (rfl)
@[simp] theorem State.setEnt_memOwned (d k e : Nat) (x : CeEnt) : (s.setEnt d k e x).memOwned = s.memOwned := (rfl)
@[simp] theorem State.setEnt_csr (d k e : Nat) (x : CeEnt) : (s.setEnt d k e x).csr = s.csr := (rfl)
@[simp] theorem State.setEnt_mem (d k e : Nat) (x : CeEnt) : (s.setEnt d k e x).mem = s.mem := (rfl)
@[simp] theorem State.setEnt_mode (d k e : Nat) (x : CeEnt) : (s.setEnt d k e x).mode = s.mode := (rfl)
@[simp] theorem State.setEnt_headDie (d k e : Nat) (x : CeEnt) : (s.setEnt d k e x).headDie = s.headDie := (rfl)
@[simp] theorem State.setEnt_mirrorDie (d k e : Nat) (x : CeEnt) : (s.setEnt d k e x).mirrorDie = s.mirrorDie := (rfl)
@[simp] theorem State.setEnt_slotTab (d k e : Nat) (x : CeEnt) : (s.setEnt d k e x).slotTab = s.slotTab := (rfl)
@[simp] theorem State.setEnt_treeTab (d k e : Nat) (x : CeEnt) : (s.setEnt d k e x).treeTab = s.treeTab := (rfl)
@[simp] theorem State.setEnt_joinTab (d k e : Nat) (x : CeEnt) : (s.setEnt d k e x).joinTab = s.joinTab := (rfl)
@[simp] theorem State.setEnt_routeTab (d k e : Nat) (x : CeEnt) : (s.setEnt d k e x).routeTab = s.routeTab := (rfl)
@[simp] theorem State.setEnt_routeStore (d k e : Nat) (x : CeEnt) : (s.setEnt d k e x).routeStore = s.routeStore := (rfl)
@[simp] theorem State.setEnt_arrivalTab (d k e : Nat) (x : CeEnt) : (s.setEnt d k e x).arrivalTab = s.arrivalTab := (rfl)
@[simp] theorem State.setEnt_gateTab (d k e : Nat) (x : CeEnt) : (s.setEnt d k e x).gateTab = s.gateTab := (rfl)
@[simp] theorem State.setEnt_keepers (d k e : Nat) (x : CeEnt) : (s.setEnt d k e x).keepers = s.keepers := (rfl)
@[simp] theorem State.setEnt_regions (d k e : Nat) (x : CeEnt) : (s.setEnt d k e x).regions = s.regions := (rfl)
@[simp] theorem State.setEnt_panelReq (d k e : Nat) (x : CeEnt) : (s.setEnt d k e x).panelReq = s.panelReq := (rfl)
@[simp] theorem State.setEnt_gates (d k e : Nat) (x : CeEnt) : (s.setEnt d k e x).gates = s.gates := (rfl)
@[simp] theorem State.setEnt_shapers (d k e : Nat) (x : CeEnt) : (s.setEnt d k e x).shapers = s.shapers := (rfl)
@[simp] theorem State.setEnt_sampleFrom (d k e : Nat) (x : CeEnt) : (s.setEnt d k e x).sampleFrom = s.sampleFrom := (rfl)
@[simp] theorem State.setEnt_govs (d k e : Nat) (x : CeEnt) : (s.setEnt d k e x).govs = s.govs := (rfl)
@[simp] theorem State.setEnt_routers (d k e : Nat) (x : CeEnt) : (s.setEnt d k e x).routers = s.routers := (rfl)
@[simp] theorem State.setEnt_wires (d k e : Nat) (x : CeEnt) : (s.setEnt d k e x).wires = s.wires := (rfl)
@[simp] theorem State.setEnt_credWires (d k e : Nat) (x : CeEnt) : (s.setEnt d k e x).credWires = s.credWires := (rfl)
@[simp] theorem State.setEnt_edgeHem (d k e : Nat) (x : CeEnt) : (s.setEnt d k e x).edgeHem = s.edgeHem := (rfl)
@[simp] theorem State.setEnt_seams (d k e : Nat) (x : CeEnt) : (s.setEnt d k e x).seams = s.seams := (rfl)
@[simp] theorem State.setEnt_nis (d k e : Nat) (x : CeEnt) : (s.setEnt d k e x).nis = s.nis := (rfl)
@[simp] theorem State.setEnt_inj (d k e : Nat) (x : CeEnt) : (s.setEnt d k e x).inj = s.inj := (rfl)
@[simp] theorem State.setEnt_stream (d k e : Nat) (x : CeEnt) : (s.setEnt d k e x).stream = s.stream := (rfl)
@[simp] theorem State.setEnt_injCount (d k e : Nat) (x : CeEnt) : (s.setEnt d k e x).injCount = s.injCount := (rfl)
@[simp] theorem State.setEnt_hints (d k e : Nat) (x : CeEnt) : (s.setEnt d k e x).hints = s.hints := (rfl)
@[simp] theorem State.setEnt_outTags (d k e : Nat) (x : CeEnt) : (s.setEnt d k e x).outTags = s.outTags := (rfl)
@[simp] theorem State.setEnt_bursts (d k e : Nat) (x : CeEnt) : (s.setEnt d k e x).bursts = s.bursts := (rfl)
@[simp] theorem State.setEnt_orderHold (d k e : Nat) (x : CeEnt) : (s.setEnt d k e x).orderHold = s.orderHold := (rfl)
@[simp] theorem State.setEnt_halted (d k e : Nat) (x : CeEnt) : (s.setEnt d k e x).halted = s.halted := (rfl)
@[simp] theorem State.setEnt_catchShut (d k e : Nat) (x : CeEnt) : (s.setEnt d k e x).catchShut = s.catchShut := (rfl)
@[simp] theorem State.setEnt_secCount (d k e : Nat) (x : CeEnt) : (s.setEnt d k e x).secCount = s.secCount := (rfl)
@[simp] theorem State.setEnt_dedCount (d k e : Nat) (x : CeEnt) : (s.setEnt d k e x).dedCount = s.dedCount := (rfl)
@[simp] theorem State.setEnt_flog (d k e : Nat) (x : CeEnt) : (s.setEnt d k e x).flog = s.flog := (rfl)
@[simp] theorem State.setEnt_flogFull (d k e : Nat) (x : CeEnt) : (s.setEnt d k e x).flogFull = s.flogFull := (rfl)
@[simp] theorem State.setEnt_fwd (d k e : Nat) (x : CeEnt) : (s.setEnt d k e x).fwd = s.fwd := (rfl)
@[simp] theorem State.setEnt_traces (d k e : Nat) (x : CeEnt) : (s.setEnt d k e x).traces = s.traces := (rfl)
@[simp] theorem State.setEnt_stats (d k e : Nat) (x : CeEnt) : (s.setEnt d k e x).stats = s.stats := (rfl)
@[simp] theorem State.setEnt_prbCount (d k e : Nat) (x : CeEnt) : (s.setEnt d k e x).prbCount = s.prbCount := (rfl)
@[simp] theorem State.setEnt_patRw (d k e : Nat) (x : CeEnt) : (s.setEnt d k e x).patRw = s.patRw := (rfl)
@[simp] theorem State.setEnt_svcAt (d k e : Nat) (x : CeEnt) : (s.setEnt d k e x).svcAt = s.svcAt := (rfl)
@[simp] theorem State.setEnt_timeReq (d k e : Nat) (x : CeEnt) : (s.setEnt d k e x).timeReq = s.timeReq := (rfl)
@[simp] theorem State.setEnt_syncObj (d k e : Nat) (x : CeEnt) : (s.setEnt d k e x).syncObj = s.syncObj := (rfl)
@[simp] theorem State.setEnt_syncInit (d k e : Nat) (x : CeEnt) : (s.setEnt d k e x).syncInit = s.syncInit := (rfl)
@[simp] theorem State.setEnt_syncDone (d k e : Nat) (x : CeEnt) : (s.setEnt d k e x).syncDone = s.syncDone := (rfl)
@[simp] theorem State.setEnt_syncUsed (d k e : Nat) (x : CeEnt) : (s.setEnt d k e x).syncUsed = s.syncUsed := (rfl)
@[simp] theorem State.setEnt_syncLeft (d k e : Nat) (x : CeEnt) : (s.setEnt d k e x).syncLeft = s.syncLeft := (rfl)
@[simp] theorem State.setEnt_syncBreak (d k e : Nat) (x : CeEnt) : (s.setEnt d k e x).syncBreak = s.syncBreak := (rfl)
@[simp] theorem State.setEnt_memports (d k e : Nat) (x : CeEnt) : (s.setEnt d k e x).memports = s.memports := (rfl)
@[simp] theorem State.setEnt_ledger (d k e : Nat) (x : CeEnt) : (s.setEnt d k e x).ledger = s.ledger := (rfl)
@[simp] theorem State.setEnt_stores (d k e : Nat) (x : CeEnt) : (s.setEnt d k e x).stores = s.stores := (rfl)
@[simp] theorem State.setEnt_boots (d k e : Nat) (x : CeEnt) : (s.setEnt d k e x).boots = s.boots := (rfl)
@[simp] theorem State.setEnt_msix (d k e : Nat) (x : CeEnt) : (s.setEnt d k e x).msix = s.msix := (rfl)
@[simp] theorem State.setEnt_wins (d k e : Nat) (x : CeEnt) : (s.setEnt d k e x).wins = s.wins := (rfl)
@[simp] theorem State.setEnt_cmtClosed (d k e : Nat) (x : CeEnt) : (s.setEnt d k e x).cmtClosed = s.cmtClosed := (rfl)
@[simp] theorem State.setEnt_coords (d k e : Nat) (x : CeEnt) : (s.setEnt d k e x).coords = s.coords := (rfl)
@[simp] theorem State.setEnt_loader (d k e : Nat) (x : CeEnt) : (s.setEnt d k e x).loader = s.loader := (rfl)
@[simp] theorem State.setEnt_patches (d k e : Nat) (x : CeEnt) : (s.setEnt d k e x).patches = s.patches := (rfl)
@[simp] theorem State.setEnt_patchNum (d k e : Nat) (x : CeEnt) : (s.setEnt d k e x).patchNum = s.patchNum := (rfl)
@[simp] theorem State.setEnt_patchLog (d k e : Nat) (x : CeEnt) : (s.setEnt d k e x).patchLog = s.patchLog := (rfl)
@[simp] theorem State.setEnt_areaUsed (d k e : Nat) (x : CeEnt) : (s.setEnt d k e x).areaUsed = s.areaUsed := (rfl)
@[simp] theorem State.setEnt_posted (d k e : Nat) (x : CeEnt) : (s.setEnt d k e x).posted = s.posted := (rfl)
@[simp] theorem State.setEnt_plWant (d k e : Nat) (x : CeEnt) : (s.setEnt d k e x).plWant = s.plWant := (rfl)
@[simp] theorem State.setEnt_hbs (d k e : Nat) (x : CeEnt) : (s.setEnt d k e x).hbs = s.hbs := (rfl)
@[simp] theorem State.setEnt_hbFrom (d k e : Nat) (x : CeEnt) : (s.setEnt d k e x).hbFrom = s.hbFrom := (rfl)
@[simp] theorem State.setEnt_hbSent (d k e : Nat) (x : CeEnt) : (s.setEnt d k e x).hbSent = s.hbSent := (rfl)
@[simp] theorem State.setEnt_pkgHbSent (d k e : Nat) (x : CeEnt) : (s.setEnt d k e x).pkgHbSent = s.pkgHbSent := (rfl)
@[simp] theorem State.setEnt_suspects (d k e : Nat) (x : CeEnt) : (s.setEnt d k e x).suspects = s.suspects := (rfl)
@[simp] theorem State.setEnt_vseq (d k e : Nat) (x : CeEnt) : (s.setEnt d k e x).vseq = s.vseq := (rfl)
@[simp] theorem State.setEnt_verdictsSeen (d k e : Nat) (x : CeEnt) : (s.setEnt d k e x).verdictsSeen = s.verdictsSeen := (rfl)
@[simp] theorem State.setEnt_deadPkgs (d k e : Nat) (x : CeEnt) : (s.setEnt d k e x).deadPkgs = s.deadPkgs := (rfl)
@[simp] theorem State.setEnt_selfDead (d k e : Nat) (x : CeEnt) : (s.setEnt d k e x).selfDead = s.selfDead := (rfl)
@[simp] theorem State.setEnt_deadUnits (d k e : Nat) (x : CeEnt) : (s.setEnt d k e x).deadUnits = s.deadUnits := (rfl)
@[simp] theorem State.setEnt_probeSeqs (d k e : Nat) (x : CeEnt) : (s.setEnt d k e x).probeSeqs = s.probeSeqs := (rfl)
@[simp] theorem State.setEnt_probeWires (d k e : Nat) (x : CeEnt) : (s.setEnt d k e x).probeWires = s.probeWires := (rfl)
@[simp] theorem State.setEnt_secWindow (d k e : Nat) (x : CeEnt) : (s.setEnt d k e x).secWindow = s.secWindow := (rfl)
@[simp] theorem State.setEnt_wearFt (d k e : Nat) (x : CeEnt) : (s.setEnt d k e x).wearFt = s.wearFt := (rfl)
@[simp] theorem State.setEnt_telemFt (d k e : Nat) (x : CeEnt) : (s.setEnt d k e x).telemFt = s.telemFt := (rfl)
@[simp] theorem State.setEnt_telem (d k e : Nat) (x : CeEnt) : (s.setEnt d k e x).telem = s.telem := (rfl)
@[simp] theorem State.setEnt_darns (d k e : Nat) (x : CeEnt) : (s.setEnt d k e x).darns = s.darns := (rfl)
@[simp] theorem State.setEnt_stalls (d k e : Nat) (x : CeEnt) : (s.setEnt d k e x).stalls = s.stalls := (rfl)
@[simp] theorem State.setEnt_kickFt (d k e : Nat) (x : CeEnt) : (s.setEnt d k e x).kickFt = s.kickFt := (rfl)
@[simp] theorem State.setEnt_dumps (d k e : Nat) (x : CeEnt) : (s.setEnt d k e x).dumps = s.dumps := (rfl)
@[simp] theorem State.setEnt_mpTrained (d k e : Nat) (x : CeEnt) : (s.setEnt d k e x).mpTrained = s.mpTrained := (rfl)
@[simp] theorem State.setEnt_stopNext (d k e : Nat) (x : CeEnt) : (s.setEnt d k e x).stopNext = s.stopNext := (rfl)
@[simp] theorem State.setEnt_armWait (d k e : Nat) (x : CeEnt) : (s.setEnt d k e x).armWait = s.armWait := (rfl)
@[simp] theorem State.setEnt_stls (d k e : Nat) (x : CeEnt) : (s.setEnt d k e x).stls = s.stls := (rfl)
@[simp] theorem State.setEnt_transitPos (d k e : Nat) (x : CeEnt) : (s.setEnt d k e x).transitPos = s.transitPos := (rfl)
@[simp] theorem State.setEnt_debugFt (d k e : Nat) (x : CeEnt) : (s.setEnt d k e x).debugFt = s.debugFt := (rfl)
@[simp] theorem State.setEnt_debugWait (d k e : Nat) (x : CeEnt) : (s.setEnt d k e x).debugWait = s.debugWait := (rfl)
@[simp] theorem State.setEnt_eraseOnly (d k e : Nat) (x : CeEnt) : (s.setEnt d k e x).eraseOnly = s.eraseOnly := (rfl)
@[simp] theorem State.setEnt_provision (d k e : Nat) (x : CeEnt) : (s.setEnt d k e x).provision = s.provision := (rfl)
@[simp] theorem State.setEnt_barJobs (d k e : Nat) (x : CeEnt) : (s.setEnt d k e x).barJobs = s.barJobs := (rfl)
@[simp] theorem State.setEnt_hostOut (d k e : Nat) (x : CeEnt) : (s.setEnt d k e x).hostOut = s.hostOut := (rfl)
@[simp] theorem State.setEnt_rcsr (d k e : Nat) (x : CeEnt) : (s.setEnt d k e x).rcsr = s.rcsr := (rfl)
@[simp] theorem State.setEnt_tileReset (d k e : Nat) (x : CeEnt) : (s.setEnt d k e x).tileReset = s.tileReset := (rfl)
@[simp] theorem State.setEnt_pkgMend (d k e : Nat) (x : CeEnt) : (s.setEnt d k e x).pkgMend = s.pkgMend := (rfl)
@[simp] theorem State.setEnt_rejoinFt (d k e : Nat) (x : CeEnt) : (s.setEnt d k e x).rejoinFt = s.rejoinFt := (rfl)
@[simp] theorem State.setEnt_testFails (d k e : Nat) (x : CeEnt) : (s.setEnt d k e x).testFails = s.testFails := (rfl)
@[simp] theorem State.setEnt_testReport (d k e : Nat) (x : CeEnt) : (s.setEnt d k e x).testReport = s.testReport := (rfl)

/-! `setMp` -/

@[simp] theorem State.setMp_pending (d : Nat) (m : Memport) : (s.setMp d m).pending = s.pending := (rfl)
@[simp] theorem State.setMp_free (d : Nat) (m : Memport) : (s.setMp d m).free = s.free := (rfl)
@[simp] theorem State.setMp_setNow (d : Nat) (m : Memport) : (s.setMp d m).setNow = s.setNow := (rfl)
@[simp] theorem State.setMp_wroteNow (d : Nat) (m : Memport) : (s.setMp d m).wroteNow = s.wroteNow := (rfl)
@[simp] theorem State.setMp_floor (d : Nat) (m : Memport) : (s.setMp d m).floor = s.floor := (rfl)
@[simp] theorem State.setMp_physical (d : Nat) (m : Memport) : (s.setMp d m).physical = s.physical := (rfl)
@[simp] theorem State.setMp_memOwned (d : Nat) (m : Memport) : (s.setMp d m).memOwned = s.memOwned := (rfl)
@[simp] theorem State.setMp_csr (d : Nat) (m : Memport) : (s.setMp d m).csr = s.csr := (rfl)
@[simp] theorem State.setMp_mem (d : Nat) (m : Memport) : (s.setMp d m).mem = s.mem := (rfl)
@[simp] theorem State.setMp_mode (d : Nat) (m : Memport) : (s.setMp d m).mode = s.mode := (rfl)
@[simp] theorem State.setMp_headDie (d : Nat) (m : Memport) : (s.setMp d m).headDie = s.headDie := (rfl)
@[simp] theorem State.setMp_mirrorDie (d : Nat) (m : Memport) : (s.setMp d m).mirrorDie = s.mirrorDie := (rfl)
@[simp] theorem State.setMp_slotTab (d : Nat) (m : Memport) : (s.setMp d m).slotTab = s.slotTab := (rfl)
@[simp] theorem State.setMp_treeTab (d : Nat) (m : Memport) : (s.setMp d m).treeTab = s.treeTab := (rfl)
@[simp] theorem State.setMp_joinTab (d : Nat) (m : Memport) : (s.setMp d m).joinTab = s.joinTab := (rfl)
@[simp] theorem State.setMp_routeTab (d : Nat) (m : Memport) : (s.setMp d m).routeTab = s.routeTab := (rfl)
@[simp] theorem State.setMp_routeStore (d : Nat) (m : Memport) : (s.setMp d m).routeStore = s.routeStore := (rfl)
@[simp] theorem State.setMp_arrivalTab (d : Nat) (m : Memport) : (s.setMp d m).arrivalTab = s.arrivalTab := (rfl)
@[simp] theorem State.setMp_gateTab (d : Nat) (m : Memport) : (s.setMp d m).gateTab = s.gateTab := (rfl)
@[simp] theorem State.setMp_keepers (d : Nat) (m : Memport) : (s.setMp d m).keepers = s.keepers := (rfl)
@[simp] theorem State.setMp_regions (d : Nat) (m : Memport) : (s.setMp d m).regions = s.regions := (rfl)
@[simp] theorem State.setMp_panelReq (d : Nat) (m : Memport) : (s.setMp d m).panelReq = s.panelReq := (rfl)
@[simp] theorem State.setMp_gates (d : Nat) (m : Memport) : (s.setMp d m).gates = s.gates := (rfl)
@[simp] theorem State.setMp_shapers (d : Nat) (m : Memport) : (s.setMp d m).shapers = s.shapers := (rfl)
@[simp] theorem State.setMp_sampleFrom (d : Nat) (m : Memport) : (s.setMp d m).sampleFrom = s.sampleFrom := (rfl)
@[simp] theorem State.setMp_govs (d : Nat) (m : Memport) : (s.setMp d m).govs = s.govs := (rfl)
@[simp] theorem State.setMp_routers (d : Nat) (m : Memport) : (s.setMp d m).routers = s.routers := (rfl)
@[simp] theorem State.setMp_wires (d : Nat) (m : Memport) : (s.setMp d m).wires = s.wires := (rfl)
@[simp] theorem State.setMp_credWires (d : Nat) (m : Memport) : (s.setMp d m).credWires = s.credWires := (rfl)
@[simp] theorem State.setMp_edgeHem (d : Nat) (m : Memport) : (s.setMp d m).edgeHem = s.edgeHem := (rfl)
@[simp] theorem State.setMp_seams (d : Nat) (m : Memport) : (s.setMp d m).seams = s.seams := (rfl)
@[simp] theorem State.setMp_nis (d : Nat) (m : Memport) : (s.setMp d m).nis = s.nis := (rfl)
@[simp] theorem State.setMp_inj (d : Nat) (m : Memport) : (s.setMp d m).inj = s.inj := (rfl)
@[simp] theorem State.setMp_stream (d : Nat) (m : Memport) : (s.setMp d m).stream = s.stream := (rfl)
@[simp] theorem State.setMp_injCount (d : Nat) (m : Memport) : (s.setMp d m).injCount = s.injCount := (rfl)
@[simp] theorem State.setMp_hints (d : Nat) (m : Memport) : (s.setMp d m).hints = s.hints := (rfl)
@[simp] theorem State.setMp_outTags (d : Nat) (m : Memport) : (s.setMp d m).outTags = s.outTags := (rfl)
@[simp] theorem State.setMp_bursts (d : Nat) (m : Memport) : (s.setMp d m).bursts = s.bursts := (rfl)
@[simp] theorem State.setMp_orderHold (d : Nat) (m : Memport) : (s.setMp d m).orderHold = s.orderHold := (rfl)
@[simp] theorem State.setMp_halted (d : Nat) (m : Memport) : (s.setMp d m).halted = s.halted := (rfl)
@[simp] theorem State.setMp_catchShut (d : Nat) (m : Memport) : (s.setMp d m).catchShut = s.catchShut := (rfl)
@[simp] theorem State.setMp_secCount (d : Nat) (m : Memport) : (s.setMp d m).secCount = s.secCount := (rfl)
@[simp] theorem State.setMp_dedCount (d : Nat) (m : Memport) : (s.setMp d m).dedCount = s.dedCount := (rfl)
@[simp] theorem State.setMp_flog (d : Nat) (m : Memport) : (s.setMp d m).flog = s.flog := (rfl)
@[simp] theorem State.setMp_flogFull (d : Nat) (m : Memport) : (s.setMp d m).flogFull = s.flogFull := (rfl)
@[simp] theorem State.setMp_fwd (d : Nat) (m : Memport) : (s.setMp d m).fwd = s.fwd := (rfl)
@[simp] theorem State.setMp_traces (d : Nat) (m : Memport) : (s.setMp d m).traces = s.traces := (rfl)
@[simp] theorem State.setMp_stats (d : Nat) (m : Memport) : (s.setMp d m).stats = s.stats := (rfl)
@[simp] theorem State.setMp_prbCount (d : Nat) (m : Memport) : (s.setMp d m).prbCount = s.prbCount := (rfl)
@[simp] theorem State.setMp_patRw (d : Nat) (m : Memport) : (s.setMp d m).patRw = s.patRw := (rfl)
@[simp] theorem State.setMp_svcAt (d : Nat) (m : Memport) : (s.setMp d m).svcAt = s.svcAt := (rfl)
@[simp] theorem State.setMp_timeReq (d : Nat) (m : Memport) : (s.setMp d m).timeReq = s.timeReq := (rfl)
@[simp] theorem State.setMp_syncObj (d : Nat) (m : Memport) : (s.setMp d m).syncObj = s.syncObj := (rfl)
@[simp] theorem State.setMp_syncInit (d : Nat) (m : Memport) : (s.setMp d m).syncInit = s.syncInit := (rfl)
@[simp] theorem State.setMp_syncDone (d : Nat) (m : Memport) : (s.setMp d m).syncDone = s.syncDone := (rfl)
@[simp] theorem State.setMp_syncUsed (d : Nat) (m : Memport) : (s.setMp d m).syncUsed = s.syncUsed := (rfl)
@[simp] theorem State.setMp_syncLeft (d : Nat) (m : Memport) : (s.setMp d m).syncLeft = s.syncLeft := (rfl)
@[simp] theorem State.setMp_syncBreak (d : Nat) (m : Memport) : (s.setMp d m).syncBreak = s.syncBreak := (rfl)
@[simp] theorem State.setMp_ces (d : Nat) (m : Memport) : (s.setMp d m).ces = s.ces := (rfl)
@[simp] theorem State.setMp_ledger (d : Nat) (m : Memport) : (s.setMp d m).ledger = s.ledger := (rfl)
@[simp] theorem State.setMp_stores (d : Nat) (m : Memport) : (s.setMp d m).stores = s.stores := (rfl)
@[simp] theorem State.setMp_boots (d : Nat) (m : Memport) : (s.setMp d m).boots = s.boots := (rfl)
@[simp] theorem State.setMp_msix (d : Nat) (m : Memport) : (s.setMp d m).msix = s.msix := (rfl)
@[simp] theorem State.setMp_wins (d : Nat) (m : Memport) : (s.setMp d m).wins = s.wins := (rfl)
@[simp] theorem State.setMp_cmtClosed (d : Nat) (m : Memport) : (s.setMp d m).cmtClosed = s.cmtClosed := (rfl)
@[simp] theorem State.setMp_coords (d : Nat) (m : Memport) : (s.setMp d m).coords = s.coords := (rfl)
@[simp] theorem State.setMp_loader (d : Nat) (m : Memport) : (s.setMp d m).loader = s.loader := (rfl)
@[simp] theorem State.setMp_patches (d : Nat) (m : Memport) : (s.setMp d m).patches = s.patches := (rfl)
@[simp] theorem State.setMp_patchNum (d : Nat) (m : Memport) : (s.setMp d m).patchNum = s.patchNum := (rfl)
@[simp] theorem State.setMp_patchLog (d : Nat) (m : Memport) : (s.setMp d m).patchLog = s.patchLog := (rfl)
@[simp] theorem State.setMp_areaUsed (d : Nat) (m : Memport) : (s.setMp d m).areaUsed = s.areaUsed := (rfl)
@[simp] theorem State.setMp_posted (d : Nat) (m : Memport) : (s.setMp d m).posted = s.posted := (rfl)
@[simp] theorem State.setMp_plWant (d : Nat) (m : Memport) : (s.setMp d m).plWant = s.plWant := (rfl)
@[simp] theorem State.setMp_hbs (d : Nat) (m : Memport) : (s.setMp d m).hbs = s.hbs := (rfl)
@[simp] theorem State.setMp_hbFrom (d : Nat) (m : Memport) : (s.setMp d m).hbFrom = s.hbFrom := (rfl)
@[simp] theorem State.setMp_hbSent (d : Nat) (m : Memport) : (s.setMp d m).hbSent = s.hbSent := (rfl)
@[simp] theorem State.setMp_pkgHbSent (d : Nat) (m : Memport) : (s.setMp d m).pkgHbSent = s.pkgHbSent := (rfl)
@[simp] theorem State.setMp_suspects (d : Nat) (m : Memport) : (s.setMp d m).suspects = s.suspects := (rfl)
@[simp] theorem State.setMp_vseq (d : Nat) (m : Memport) : (s.setMp d m).vseq = s.vseq := (rfl)
@[simp] theorem State.setMp_verdictsSeen (d : Nat) (m : Memport) : (s.setMp d m).verdictsSeen = s.verdictsSeen := (rfl)
@[simp] theorem State.setMp_deadPkgs (d : Nat) (m : Memport) : (s.setMp d m).deadPkgs = s.deadPkgs := (rfl)
@[simp] theorem State.setMp_selfDead (d : Nat) (m : Memport) : (s.setMp d m).selfDead = s.selfDead := (rfl)
@[simp] theorem State.setMp_deadUnits (d : Nat) (m : Memport) : (s.setMp d m).deadUnits = s.deadUnits := (rfl)
@[simp] theorem State.setMp_probeSeqs (d : Nat) (m : Memport) : (s.setMp d m).probeSeqs = s.probeSeqs := (rfl)
@[simp] theorem State.setMp_probeWires (d : Nat) (m : Memport) : (s.setMp d m).probeWires = s.probeWires := (rfl)
@[simp] theorem State.setMp_secWindow (d : Nat) (m : Memport) : (s.setMp d m).secWindow = s.secWindow := (rfl)
@[simp] theorem State.setMp_wearFt (d : Nat) (m : Memport) : (s.setMp d m).wearFt = s.wearFt := (rfl)
@[simp] theorem State.setMp_telemFt (d : Nat) (m : Memport) : (s.setMp d m).telemFt = s.telemFt := (rfl)
@[simp] theorem State.setMp_telem (d : Nat) (m : Memport) : (s.setMp d m).telem = s.telem := (rfl)
@[simp] theorem State.setMp_darns (d : Nat) (m : Memport) : (s.setMp d m).darns = s.darns := (rfl)
@[simp] theorem State.setMp_stalls (d : Nat) (m : Memport) : (s.setMp d m).stalls = s.stalls := (rfl)
@[simp] theorem State.setMp_kickFt (d : Nat) (m : Memport) : (s.setMp d m).kickFt = s.kickFt := (rfl)
@[simp] theorem State.setMp_dumps (d : Nat) (m : Memport) : (s.setMp d m).dumps = s.dumps := (rfl)
@[simp] theorem State.setMp_mpTrained (d : Nat) (m : Memport) : (s.setMp d m).mpTrained = s.mpTrained := (rfl)
@[simp] theorem State.setMp_stopNext (d : Nat) (m : Memport) : (s.setMp d m).stopNext = s.stopNext := (rfl)
@[simp] theorem State.setMp_armWait (d : Nat) (m : Memport) : (s.setMp d m).armWait = s.armWait := (rfl)
@[simp] theorem State.setMp_stls (d : Nat) (m : Memport) : (s.setMp d m).stls = s.stls := (rfl)
@[simp] theorem State.setMp_transitPos (d : Nat) (m : Memport) : (s.setMp d m).transitPos = s.transitPos := (rfl)
@[simp] theorem State.setMp_debugFt (d : Nat) (m : Memport) : (s.setMp d m).debugFt = s.debugFt := (rfl)
@[simp] theorem State.setMp_debugWait (d : Nat) (m : Memport) : (s.setMp d m).debugWait = s.debugWait := (rfl)
@[simp] theorem State.setMp_eraseOnly (d : Nat) (m : Memport) : (s.setMp d m).eraseOnly = s.eraseOnly := (rfl)
@[simp] theorem State.setMp_provision (d : Nat) (m : Memport) : (s.setMp d m).provision = s.provision := (rfl)
@[simp] theorem State.setMp_barJobs (d : Nat) (m : Memport) : (s.setMp d m).barJobs = s.barJobs := (rfl)
@[simp] theorem State.setMp_hostOut (d : Nat) (m : Memport) : (s.setMp d m).hostOut = s.hostOut := (rfl)
@[simp] theorem State.setMp_rcsr (d : Nat) (m : Memport) : (s.setMp d m).rcsr = s.rcsr := (rfl)
@[simp] theorem State.setMp_tileReset (d : Nat) (m : Memport) : (s.setMp d m).tileReset = s.tileReset := (rfl)
@[simp] theorem State.setMp_pkgMend (d : Nat) (m : Memport) : (s.setMp d m).pkgMend = s.pkgMend := (rfl)
@[simp] theorem State.setMp_rejoinFt (d : Nat) (m : Memport) : (s.setMp d m).rejoinFt = s.rejoinFt := (rfl)
@[simp] theorem State.setMp_testFails (d : Nat) (m : Memport) : (s.setMp d m).testFails = s.testFails := (rfl)
@[simp] theorem State.setMp_testReport (d : Nat) (m : Memport) : (s.setMp d m).testReport = s.testReport := (rfl)

/-! `setStore` -/

@[simp] theorem State.setStore_pending (d : Nat) (x : Store) : (s.setStore d x).pending = s.pending := (rfl)
@[simp] theorem State.setStore_free (d : Nat) (x : Store) : (s.setStore d x).free = s.free := (rfl)
@[simp] theorem State.setStore_setNow (d : Nat) (x : Store) : (s.setStore d x).setNow = s.setNow := (rfl)
@[simp] theorem State.setStore_wroteNow (d : Nat) (x : Store) : (s.setStore d x).wroteNow = s.wroteNow := (rfl)
@[simp] theorem State.setStore_floor (d : Nat) (x : Store) : (s.setStore d x).floor = s.floor := (rfl)
@[simp] theorem State.setStore_physical (d : Nat) (x : Store) : (s.setStore d x).physical = s.physical := (rfl)
@[simp] theorem State.setStore_memOwned (d : Nat) (x : Store) : (s.setStore d x).memOwned = s.memOwned := (rfl)
@[simp] theorem State.setStore_csr (d : Nat) (x : Store) : (s.setStore d x).csr = s.csr := (rfl)
@[simp] theorem State.setStore_mem (d : Nat) (x : Store) : (s.setStore d x).mem = s.mem := (rfl)
@[simp] theorem State.setStore_mode (d : Nat) (x : Store) : (s.setStore d x).mode = s.mode := (rfl)
@[simp] theorem State.setStore_headDie (d : Nat) (x : Store) : (s.setStore d x).headDie = s.headDie := (rfl)
@[simp] theorem State.setStore_mirrorDie (d : Nat) (x : Store) : (s.setStore d x).mirrorDie = s.mirrorDie := (rfl)
@[simp] theorem State.setStore_slotTab (d : Nat) (x : Store) : (s.setStore d x).slotTab = s.slotTab := (rfl)
@[simp] theorem State.setStore_treeTab (d : Nat) (x : Store) : (s.setStore d x).treeTab = s.treeTab := (rfl)
@[simp] theorem State.setStore_joinTab (d : Nat) (x : Store) : (s.setStore d x).joinTab = s.joinTab := (rfl)
@[simp] theorem State.setStore_routeTab (d : Nat) (x : Store) : (s.setStore d x).routeTab = s.routeTab := (rfl)
@[simp] theorem State.setStore_routeStore (d : Nat) (x : Store) : (s.setStore d x).routeStore = s.routeStore := (rfl)
@[simp] theorem State.setStore_arrivalTab (d : Nat) (x : Store) : (s.setStore d x).arrivalTab = s.arrivalTab := (rfl)
@[simp] theorem State.setStore_gateTab (d : Nat) (x : Store) : (s.setStore d x).gateTab = s.gateTab := (rfl)
@[simp] theorem State.setStore_keepers (d : Nat) (x : Store) : (s.setStore d x).keepers = s.keepers := (rfl)
@[simp] theorem State.setStore_regions (d : Nat) (x : Store) : (s.setStore d x).regions = s.regions := (rfl)
@[simp] theorem State.setStore_panelReq (d : Nat) (x : Store) : (s.setStore d x).panelReq = s.panelReq := (rfl)
@[simp] theorem State.setStore_gates (d : Nat) (x : Store) : (s.setStore d x).gates = s.gates := (rfl)
@[simp] theorem State.setStore_shapers (d : Nat) (x : Store) : (s.setStore d x).shapers = s.shapers := (rfl)
@[simp] theorem State.setStore_sampleFrom (d : Nat) (x : Store) : (s.setStore d x).sampleFrom = s.sampleFrom := (rfl)
@[simp] theorem State.setStore_govs (d : Nat) (x : Store) : (s.setStore d x).govs = s.govs := (rfl)
@[simp] theorem State.setStore_routers (d : Nat) (x : Store) : (s.setStore d x).routers = s.routers := (rfl)
@[simp] theorem State.setStore_wires (d : Nat) (x : Store) : (s.setStore d x).wires = s.wires := (rfl)
@[simp] theorem State.setStore_credWires (d : Nat) (x : Store) : (s.setStore d x).credWires = s.credWires := (rfl)
@[simp] theorem State.setStore_edgeHem (d : Nat) (x : Store) : (s.setStore d x).edgeHem = s.edgeHem := (rfl)
@[simp] theorem State.setStore_seams (d : Nat) (x : Store) : (s.setStore d x).seams = s.seams := (rfl)
@[simp] theorem State.setStore_nis (d : Nat) (x : Store) : (s.setStore d x).nis = s.nis := (rfl)
@[simp] theorem State.setStore_inj (d : Nat) (x : Store) : (s.setStore d x).inj = s.inj := (rfl)
@[simp] theorem State.setStore_stream (d : Nat) (x : Store) : (s.setStore d x).stream = s.stream := (rfl)
@[simp] theorem State.setStore_injCount (d : Nat) (x : Store) : (s.setStore d x).injCount = s.injCount := (rfl)
@[simp] theorem State.setStore_hints (d : Nat) (x : Store) : (s.setStore d x).hints = s.hints := (rfl)
@[simp] theorem State.setStore_outTags (d : Nat) (x : Store) : (s.setStore d x).outTags = s.outTags := (rfl)
@[simp] theorem State.setStore_bursts (d : Nat) (x : Store) : (s.setStore d x).bursts = s.bursts := (rfl)
@[simp] theorem State.setStore_orderHold (d : Nat) (x : Store) : (s.setStore d x).orderHold = s.orderHold := (rfl)
@[simp] theorem State.setStore_halted (d : Nat) (x : Store) : (s.setStore d x).halted = s.halted := (rfl)
@[simp] theorem State.setStore_catchShut (d : Nat) (x : Store) : (s.setStore d x).catchShut = s.catchShut := (rfl)
@[simp] theorem State.setStore_secCount (d : Nat) (x : Store) : (s.setStore d x).secCount = s.secCount := (rfl)
@[simp] theorem State.setStore_dedCount (d : Nat) (x : Store) : (s.setStore d x).dedCount = s.dedCount := (rfl)
@[simp] theorem State.setStore_flog (d : Nat) (x : Store) : (s.setStore d x).flog = s.flog := (rfl)
@[simp] theorem State.setStore_flogFull (d : Nat) (x : Store) : (s.setStore d x).flogFull = s.flogFull := (rfl)
@[simp] theorem State.setStore_fwd (d : Nat) (x : Store) : (s.setStore d x).fwd = s.fwd := (rfl)
@[simp] theorem State.setStore_traces (d : Nat) (x : Store) : (s.setStore d x).traces = s.traces := (rfl)
@[simp] theorem State.setStore_stats (d : Nat) (x : Store) : (s.setStore d x).stats = s.stats := (rfl)
@[simp] theorem State.setStore_prbCount (d : Nat) (x : Store) : (s.setStore d x).prbCount = s.prbCount := (rfl)
@[simp] theorem State.setStore_patRw (d : Nat) (x : Store) : (s.setStore d x).patRw = s.patRw := (rfl)
@[simp] theorem State.setStore_svcAt (d : Nat) (x : Store) : (s.setStore d x).svcAt = s.svcAt := (rfl)
@[simp] theorem State.setStore_timeReq (d : Nat) (x : Store) : (s.setStore d x).timeReq = s.timeReq := (rfl)
@[simp] theorem State.setStore_syncObj (d : Nat) (x : Store) : (s.setStore d x).syncObj = s.syncObj := (rfl)
@[simp] theorem State.setStore_syncInit (d : Nat) (x : Store) : (s.setStore d x).syncInit = s.syncInit := (rfl)
@[simp] theorem State.setStore_syncDone (d : Nat) (x : Store) : (s.setStore d x).syncDone = s.syncDone := (rfl)
@[simp] theorem State.setStore_syncUsed (d : Nat) (x : Store) : (s.setStore d x).syncUsed = s.syncUsed := (rfl)
@[simp] theorem State.setStore_syncLeft (d : Nat) (x : Store) : (s.setStore d x).syncLeft = s.syncLeft := (rfl)
@[simp] theorem State.setStore_syncBreak (d : Nat) (x : Store) : (s.setStore d x).syncBreak = s.syncBreak := (rfl)
@[simp] theorem State.setStore_memports (d : Nat) (x : Store) : (s.setStore d x).memports = s.memports := (rfl)
@[simp] theorem State.setStore_ces (d : Nat) (x : Store) : (s.setStore d x).ces = s.ces := (rfl)
@[simp] theorem State.setStore_ledger (d : Nat) (x : Store) : (s.setStore d x).ledger = s.ledger := (rfl)
@[simp] theorem State.setStore_boots (d : Nat) (x : Store) : (s.setStore d x).boots = s.boots := (rfl)
@[simp] theorem State.setStore_msix (d : Nat) (x : Store) : (s.setStore d x).msix = s.msix := (rfl)
@[simp] theorem State.setStore_wins (d : Nat) (x : Store) : (s.setStore d x).wins = s.wins := (rfl)
@[simp] theorem State.setStore_cmtClosed (d : Nat) (x : Store) : (s.setStore d x).cmtClosed = s.cmtClosed := (rfl)
@[simp] theorem State.setStore_coords (d : Nat) (x : Store) : (s.setStore d x).coords = s.coords := (rfl)
@[simp] theorem State.setStore_loader (d : Nat) (x : Store) : (s.setStore d x).loader = s.loader := (rfl)
@[simp] theorem State.setStore_patches (d : Nat) (x : Store) : (s.setStore d x).patches = s.patches := (rfl)
@[simp] theorem State.setStore_patchNum (d : Nat) (x : Store) : (s.setStore d x).patchNum = s.patchNum := (rfl)
@[simp] theorem State.setStore_patchLog (d : Nat) (x : Store) : (s.setStore d x).patchLog = s.patchLog := (rfl)
@[simp] theorem State.setStore_areaUsed (d : Nat) (x : Store) : (s.setStore d x).areaUsed = s.areaUsed := (rfl)
@[simp] theorem State.setStore_posted (d : Nat) (x : Store) : (s.setStore d x).posted = s.posted := (rfl)
@[simp] theorem State.setStore_plWant (d : Nat) (x : Store) : (s.setStore d x).plWant = s.plWant := (rfl)
@[simp] theorem State.setStore_hbs (d : Nat) (x : Store) : (s.setStore d x).hbs = s.hbs := (rfl)
@[simp] theorem State.setStore_hbFrom (d : Nat) (x : Store) : (s.setStore d x).hbFrom = s.hbFrom := (rfl)
@[simp] theorem State.setStore_hbSent (d : Nat) (x : Store) : (s.setStore d x).hbSent = s.hbSent := (rfl)
@[simp] theorem State.setStore_pkgHbSent (d : Nat) (x : Store) : (s.setStore d x).pkgHbSent = s.pkgHbSent := (rfl)
@[simp] theorem State.setStore_suspects (d : Nat) (x : Store) : (s.setStore d x).suspects = s.suspects := (rfl)
@[simp] theorem State.setStore_vseq (d : Nat) (x : Store) : (s.setStore d x).vseq = s.vseq := (rfl)
@[simp] theorem State.setStore_verdictsSeen (d : Nat) (x : Store) : (s.setStore d x).verdictsSeen = s.verdictsSeen := (rfl)
@[simp] theorem State.setStore_deadPkgs (d : Nat) (x : Store) : (s.setStore d x).deadPkgs = s.deadPkgs := (rfl)
@[simp] theorem State.setStore_selfDead (d : Nat) (x : Store) : (s.setStore d x).selfDead = s.selfDead := (rfl)
@[simp] theorem State.setStore_deadUnits (d : Nat) (x : Store) : (s.setStore d x).deadUnits = s.deadUnits := (rfl)
@[simp] theorem State.setStore_probeSeqs (d : Nat) (x : Store) : (s.setStore d x).probeSeqs = s.probeSeqs := (rfl)
@[simp] theorem State.setStore_probeWires (d : Nat) (x : Store) : (s.setStore d x).probeWires = s.probeWires := (rfl)
@[simp] theorem State.setStore_secWindow (d : Nat) (x : Store) : (s.setStore d x).secWindow = s.secWindow := (rfl)
@[simp] theorem State.setStore_wearFt (d : Nat) (x : Store) : (s.setStore d x).wearFt = s.wearFt := (rfl)
@[simp] theorem State.setStore_telemFt (d : Nat) (x : Store) : (s.setStore d x).telemFt = s.telemFt := (rfl)
@[simp] theorem State.setStore_telem (d : Nat) (x : Store) : (s.setStore d x).telem = s.telem := (rfl)
@[simp] theorem State.setStore_darns (d : Nat) (x : Store) : (s.setStore d x).darns = s.darns := (rfl)
@[simp] theorem State.setStore_stalls (d : Nat) (x : Store) : (s.setStore d x).stalls = s.stalls := (rfl)
@[simp] theorem State.setStore_kickFt (d : Nat) (x : Store) : (s.setStore d x).kickFt = s.kickFt := (rfl)
@[simp] theorem State.setStore_dumps (d : Nat) (x : Store) : (s.setStore d x).dumps = s.dumps := (rfl)
@[simp] theorem State.setStore_mpTrained (d : Nat) (x : Store) : (s.setStore d x).mpTrained = s.mpTrained := (rfl)
@[simp] theorem State.setStore_stopNext (d : Nat) (x : Store) : (s.setStore d x).stopNext = s.stopNext := (rfl)
@[simp] theorem State.setStore_armWait (d : Nat) (x : Store) : (s.setStore d x).armWait = s.armWait := (rfl)
@[simp] theorem State.setStore_stls (d : Nat) (x : Store) : (s.setStore d x).stls = s.stls := (rfl)
@[simp] theorem State.setStore_transitPos (d : Nat) (x : Store) : (s.setStore d x).transitPos = s.transitPos := (rfl)
@[simp] theorem State.setStore_debugFt (d : Nat) (x : Store) : (s.setStore d x).debugFt = s.debugFt := (rfl)
@[simp] theorem State.setStore_debugWait (d : Nat) (x : Store) : (s.setStore d x).debugWait = s.debugWait := (rfl)
@[simp] theorem State.setStore_eraseOnly (d : Nat) (x : Store) : (s.setStore d x).eraseOnly = s.eraseOnly := (rfl)
@[simp] theorem State.setStore_provision (d : Nat) (x : Store) : (s.setStore d x).provision = s.provision := (rfl)
@[simp] theorem State.setStore_barJobs (d : Nat) (x : Store) : (s.setStore d x).barJobs = s.barJobs := (rfl)
@[simp] theorem State.setStore_hostOut (d : Nat) (x : Store) : (s.setStore d x).hostOut = s.hostOut := (rfl)
@[simp] theorem State.setStore_rcsr (d : Nat) (x : Store) : (s.setStore d x).rcsr = s.rcsr := (rfl)
@[simp] theorem State.setStore_tileReset (d : Nat) (x : Store) : (s.setStore d x).tileReset = s.tileReset := (rfl)
@[simp] theorem State.setStore_pkgMend (d : Nat) (x : Store) : (s.setStore d x).pkgMend = s.pkgMend := (rfl)
@[simp] theorem State.setStore_rejoinFt (d : Nat) (x : Store) : (s.setStore d x).rejoinFt = s.rejoinFt := (rfl)
@[simp] theorem State.setStore_testFails (d : Nat) (x : Store) : (s.setStore d x).testFails = s.testFails := (rfl)
@[simp] theorem State.setStore_testReport (d : Nat) (x : Store) : (s.setStore d x).testReport = s.testReport := (rfl)

/-! `setWin` -/

@[simp] theorem State.setWin_pending (d n : Nat) (w : Win) : (s.setWin d n w).pending = s.pending := (rfl)
@[simp] theorem State.setWin_free (d n : Nat) (w : Win) : (s.setWin d n w).free = s.free := (rfl)
@[simp] theorem State.setWin_setNow (d n : Nat) (w : Win) : (s.setWin d n w).setNow = s.setNow := (rfl)
@[simp] theorem State.setWin_wroteNow (d n : Nat) (w : Win) : (s.setWin d n w).wroteNow = s.wroteNow := (rfl)
@[simp] theorem State.setWin_floor (d n : Nat) (w : Win) : (s.setWin d n w).floor = s.floor := (rfl)
@[simp] theorem State.setWin_physical (d n : Nat) (w : Win) : (s.setWin d n w).physical = s.physical := (rfl)
@[simp] theorem State.setWin_memOwned (d n : Nat) (w : Win) : (s.setWin d n w).memOwned = s.memOwned := (rfl)
@[simp] theorem State.setWin_csr (d n : Nat) (w : Win) : (s.setWin d n w).csr = s.csr := (rfl)
@[simp] theorem State.setWin_mem (d n : Nat) (w : Win) : (s.setWin d n w).mem = s.mem := (rfl)
@[simp] theorem State.setWin_mode (d n : Nat) (w : Win) : (s.setWin d n w).mode = s.mode := (rfl)
@[simp] theorem State.setWin_headDie (d n : Nat) (w : Win) : (s.setWin d n w).headDie = s.headDie := (rfl)
@[simp] theorem State.setWin_mirrorDie (d n : Nat) (w : Win) : (s.setWin d n w).mirrorDie = s.mirrorDie := (rfl)
@[simp] theorem State.setWin_slotTab (d n : Nat) (w : Win) : (s.setWin d n w).slotTab = s.slotTab := (rfl)
@[simp] theorem State.setWin_treeTab (d n : Nat) (w : Win) : (s.setWin d n w).treeTab = s.treeTab := (rfl)
@[simp] theorem State.setWin_joinTab (d n : Nat) (w : Win) : (s.setWin d n w).joinTab = s.joinTab := (rfl)
@[simp] theorem State.setWin_routeTab (d n : Nat) (w : Win) : (s.setWin d n w).routeTab = s.routeTab := (rfl)
@[simp] theorem State.setWin_routeStore (d n : Nat) (w : Win) : (s.setWin d n w).routeStore = s.routeStore := (rfl)
@[simp] theorem State.setWin_arrivalTab (d n : Nat) (w : Win) : (s.setWin d n w).arrivalTab = s.arrivalTab := (rfl)
@[simp] theorem State.setWin_gateTab (d n : Nat) (w : Win) : (s.setWin d n w).gateTab = s.gateTab := (rfl)
@[simp] theorem State.setWin_keepers (d n : Nat) (w : Win) : (s.setWin d n w).keepers = s.keepers := (rfl)
@[simp] theorem State.setWin_regions (d n : Nat) (w : Win) : (s.setWin d n w).regions = s.regions := (rfl)
@[simp] theorem State.setWin_panelReq (d n : Nat) (w : Win) : (s.setWin d n w).panelReq = s.panelReq := (rfl)
@[simp] theorem State.setWin_gates (d n : Nat) (w : Win) : (s.setWin d n w).gates = s.gates := (rfl)
@[simp] theorem State.setWin_shapers (d n : Nat) (w : Win) : (s.setWin d n w).shapers = s.shapers := (rfl)
@[simp] theorem State.setWin_sampleFrom (d n : Nat) (w : Win) : (s.setWin d n w).sampleFrom = s.sampleFrom := (rfl)
@[simp] theorem State.setWin_govs (d n : Nat) (w : Win) : (s.setWin d n w).govs = s.govs := (rfl)
@[simp] theorem State.setWin_routers (d n : Nat) (w : Win) : (s.setWin d n w).routers = s.routers := (rfl)
@[simp] theorem State.setWin_wires (d n : Nat) (w : Win) : (s.setWin d n w).wires = s.wires := (rfl)
@[simp] theorem State.setWin_credWires (d n : Nat) (w : Win) : (s.setWin d n w).credWires = s.credWires := (rfl)
@[simp] theorem State.setWin_edgeHem (d n : Nat) (w : Win) : (s.setWin d n w).edgeHem = s.edgeHem := (rfl)
@[simp] theorem State.setWin_seams (d n : Nat) (w : Win) : (s.setWin d n w).seams = s.seams := (rfl)
@[simp] theorem State.setWin_nis (d n : Nat) (w : Win) : (s.setWin d n w).nis = s.nis := (rfl)
@[simp] theorem State.setWin_inj (d n : Nat) (w : Win) : (s.setWin d n w).inj = s.inj := (rfl)
@[simp] theorem State.setWin_stream (d n : Nat) (w : Win) : (s.setWin d n w).stream = s.stream := (rfl)
@[simp] theorem State.setWin_injCount (d n : Nat) (w : Win) : (s.setWin d n w).injCount = s.injCount := (rfl)
@[simp] theorem State.setWin_hints (d n : Nat) (w : Win) : (s.setWin d n w).hints = s.hints := (rfl)
@[simp] theorem State.setWin_outTags (d n : Nat) (w : Win) : (s.setWin d n w).outTags = s.outTags := (rfl)
@[simp] theorem State.setWin_bursts (d n : Nat) (w : Win) : (s.setWin d n w).bursts = s.bursts := (rfl)
@[simp] theorem State.setWin_orderHold (d n : Nat) (w : Win) : (s.setWin d n w).orderHold = s.orderHold := (rfl)
@[simp] theorem State.setWin_halted (d n : Nat) (w : Win) : (s.setWin d n w).halted = s.halted := (rfl)
@[simp] theorem State.setWin_catchShut (d n : Nat) (w : Win) : (s.setWin d n w).catchShut = s.catchShut := (rfl)
@[simp] theorem State.setWin_secCount (d n : Nat) (w : Win) : (s.setWin d n w).secCount = s.secCount := (rfl)
@[simp] theorem State.setWin_dedCount (d n : Nat) (w : Win) : (s.setWin d n w).dedCount = s.dedCount := (rfl)
@[simp] theorem State.setWin_flog (d n : Nat) (w : Win) : (s.setWin d n w).flog = s.flog := (rfl)
@[simp] theorem State.setWin_flogFull (d n : Nat) (w : Win) : (s.setWin d n w).flogFull = s.flogFull := (rfl)
@[simp] theorem State.setWin_fwd (d n : Nat) (w : Win) : (s.setWin d n w).fwd = s.fwd := (rfl)
@[simp] theorem State.setWin_traces (d n : Nat) (w : Win) : (s.setWin d n w).traces = s.traces := (rfl)
@[simp] theorem State.setWin_stats (d n : Nat) (w : Win) : (s.setWin d n w).stats = s.stats := (rfl)
@[simp] theorem State.setWin_prbCount (d n : Nat) (w : Win) : (s.setWin d n w).prbCount = s.prbCount := (rfl)
@[simp] theorem State.setWin_patRw (d n : Nat) (w : Win) : (s.setWin d n w).patRw = s.patRw := (rfl)
@[simp] theorem State.setWin_svcAt (d n : Nat) (w : Win) : (s.setWin d n w).svcAt = s.svcAt := (rfl)
@[simp] theorem State.setWin_timeReq (d n : Nat) (w : Win) : (s.setWin d n w).timeReq = s.timeReq := (rfl)
@[simp] theorem State.setWin_syncObj (d n : Nat) (w : Win) : (s.setWin d n w).syncObj = s.syncObj := (rfl)
@[simp] theorem State.setWin_syncInit (d n : Nat) (w : Win) : (s.setWin d n w).syncInit = s.syncInit := (rfl)
@[simp] theorem State.setWin_syncDone (d n : Nat) (w : Win) : (s.setWin d n w).syncDone = s.syncDone := (rfl)
@[simp] theorem State.setWin_syncUsed (d n : Nat) (w : Win) : (s.setWin d n w).syncUsed = s.syncUsed := (rfl)
@[simp] theorem State.setWin_syncLeft (d n : Nat) (w : Win) : (s.setWin d n w).syncLeft = s.syncLeft := (rfl)
@[simp] theorem State.setWin_syncBreak (d n : Nat) (w : Win) : (s.setWin d n w).syncBreak = s.syncBreak := (rfl)
@[simp] theorem State.setWin_memports (d n : Nat) (w : Win) : (s.setWin d n w).memports = s.memports := (rfl)
@[simp] theorem State.setWin_ces (d n : Nat) (w : Win) : (s.setWin d n w).ces = s.ces := (rfl)
@[simp] theorem State.setWin_ledger (d n : Nat) (w : Win) : (s.setWin d n w).ledger = s.ledger := (rfl)
@[simp] theorem State.setWin_stores (d n : Nat) (w : Win) : (s.setWin d n w).stores = s.stores := (rfl)
@[simp] theorem State.setWin_boots (d n : Nat) (w : Win) : (s.setWin d n w).boots = s.boots := (rfl)
@[simp] theorem State.setWin_msix (d n : Nat) (w : Win) : (s.setWin d n w).msix = s.msix := (rfl)
@[simp] theorem State.setWin_cmtClosed (d n : Nat) (w : Win) : (s.setWin d n w).cmtClosed = s.cmtClosed := (rfl)
@[simp] theorem State.setWin_coords (d n : Nat) (w : Win) : (s.setWin d n w).coords = s.coords := (rfl)
@[simp] theorem State.setWin_loader (d n : Nat) (w : Win) : (s.setWin d n w).loader = s.loader := (rfl)
@[simp] theorem State.setWin_patches (d n : Nat) (w : Win) : (s.setWin d n w).patches = s.patches := (rfl)
@[simp] theorem State.setWin_patchNum (d n : Nat) (w : Win) : (s.setWin d n w).patchNum = s.patchNum := (rfl)
@[simp] theorem State.setWin_patchLog (d n : Nat) (w : Win) : (s.setWin d n w).patchLog = s.patchLog := (rfl)
@[simp] theorem State.setWin_areaUsed (d n : Nat) (w : Win) : (s.setWin d n w).areaUsed = s.areaUsed := (rfl)
@[simp] theorem State.setWin_posted (d n : Nat) (w : Win) : (s.setWin d n w).posted = s.posted := (rfl)
@[simp] theorem State.setWin_plWant (d n : Nat) (w : Win) : (s.setWin d n w).plWant = s.plWant := (rfl)
@[simp] theorem State.setWin_hbs (d n : Nat) (w : Win) : (s.setWin d n w).hbs = s.hbs := (rfl)
@[simp] theorem State.setWin_hbFrom (d n : Nat) (w : Win) : (s.setWin d n w).hbFrom = s.hbFrom := (rfl)
@[simp] theorem State.setWin_hbSent (d n : Nat) (w : Win) : (s.setWin d n w).hbSent = s.hbSent := (rfl)
@[simp] theorem State.setWin_pkgHbSent (d n : Nat) (w : Win) : (s.setWin d n w).pkgHbSent = s.pkgHbSent := (rfl)
@[simp] theorem State.setWin_suspects (d n : Nat) (w : Win) : (s.setWin d n w).suspects = s.suspects := (rfl)
@[simp] theorem State.setWin_vseq (d n : Nat) (w : Win) : (s.setWin d n w).vseq = s.vseq := (rfl)
@[simp] theorem State.setWin_verdictsSeen (d n : Nat) (w : Win) : (s.setWin d n w).verdictsSeen = s.verdictsSeen := (rfl)
@[simp] theorem State.setWin_deadPkgs (d n : Nat) (w : Win) : (s.setWin d n w).deadPkgs = s.deadPkgs := (rfl)
@[simp] theorem State.setWin_selfDead (d n : Nat) (w : Win) : (s.setWin d n w).selfDead = s.selfDead := (rfl)
@[simp] theorem State.setWin_deadUnits (d n : Nat) (w : Win) : (s.setWin d n w).deadUnits = s.deadUnits := (rfl)
@[simp] theorem State.setWin_probeSeqs (d n : Nat) (w : Win) : (s.setWin d n w).probeSeqs = s.probeSeqs := (rfl)
@[simp] theorem State.setWin_probeWires (d n : Nat) (w : Win) : (s.setWin d n w).probeWires = s.probeWires := (rfl)
@[simp] theorem State.setWin_secWindow (d n : Nat) (w : Win) : (s.setWin d n w).secWindow = s.secWindow := (rfl)
@[simp] theorem State.setWin_wearFt (d n : Nat) (w : Win) : (s.setWin d n w).wearFt = s.wearFt := (rfl)
@[simp] theorem State.setWin_telemFt (d n : Nat) (w : Win) : (s.setWin d n w).telemFt = s.telemFt := (rfl)
@[simp] theorem State.setWin_telem (d n : Nat) (w : Win) : (s.setWin d n w).telem = s.telem := (rfl)
@[simp] theorem State.setWin_darns (d n : Nat) (w : Win) : (s.setWin d n w).darns = s.darns := (rfl)
@[simp] theorem State.setWin_stalls (d n : Nat) (w : Win) : (s.setWin d n w).stalls = s.stalls := (rfl)
@[simp] theorem State.setWin_kickFt (d n : Nat) (w : Win) : (s.setWin d n w).kickFt = s.kickFt := (rfl)
@[simp] theorem State.setWin_dumps (d n : Nat) (w : Win) : (s.setWin d n w).dumps = s.dumps := (rfl)
@[simp] theorem State.setWin_mpTrained (d n : Nat) (w : Win) : (s.setWin d n w).mpTrained = s.mpTrained := (rfl)
@[simp] theorem State.setWin_stopNext (d n : Nat) (w : Win) : (s.setWin d n w).stopNext = s.stopNext := (rfl)
@[simp] theorem State.setWin_armWait (d n : Nat) (w : Win) : (s.setWin d n w).armWait = s.armWait := (rfl)
@[simp] theorem State.setWin_stls (d n : Nat) (w : Win) : (s.setWin d n w).stls = s.stls := (rfl)
@[simp] theorem State.setWin_transitPos (d n : Nat) (w : Win) : (s.setWin d n w).transitPos = s.transitPos := (rfl)
@[simp] theorem State.setWin_debugFt (d n : Nat) (w : Win) : (s.setWin d n w).debugFt = s.debugFt := (rfl)
@[simp] theorem State.setWin_debugWait (d n : Nat) (w : Win) : (s.setWin d n w).debugWait = s.debugWait := (rfl)
@[simp] theorem State.setWin_eraseOnly (d n : Nat) (w : Win) : (s.setWin d n w).eraseOnly = s.eraseOnly := (rfl)
@[simp] theorem State.setWin_provision (d n : Nat) (w : Win) : (s.setWin d n w).provision = s.provision := (rfl)
@[simp] theorem State.setWin_barJobs (d n : Nat) (w : Win) : (s.setWin d n w).barJobs = s.barJobs := (rfl)
@[simp] theorem State.setWin_hostOut (d n : Nat) (w : Win) : (s.setWin d n w).hostOut = s.hostOut := (rfl)
@[simp] theorem State.setWin_rcsr (d n : Nat) (w : Win) : (s.setWin d n w).rcsr = s.rcsr := (rfl)
@[simp] theorem State.setWin_tileReset (d n : Nat) (w : Win) : (s.setWin d n w).tileReset = s.tileReset := (rfl)
@[simp] theorem State.setWin_pkgMend (d n : Nat) (w : Win) : (s.setWin d n w).pkgMend = s.pkgMend := (rfl)
@[simp] theorem State.setWin_rejoinFt (d n : Nat) (w : Win) : (s.setWin d n w).rejoinFt = s.rejoinFt := (rfl)
@[simp] theorem State.setWin_testFails (d n : Nat) (w : Win) : (s.setWin d n w).testFails = s.testFails := (rfl)
@[simp] theorem State.setWin_testReport (d n : Nat) (w : Win) : (s.setWin d n w).testReport = s.testReport := (rfl)

/-! `setCoord` -/

@[simp] theorem State.setCoord_pending (d k : Nat) (c : Coord) : (s.setCoord d k c).pending = s.pending := (rfl)
@[simp] theorem State.setCoord_free (d k : Nat) (c : Coord) : (s.setCoord d k c).free = s.free := (rfl)
@[simp] theorem State.setCoord_setNow (d k : Nat) (c : Coord) : (s.setCoord d k c).setNow = s.setNow := (rfl)
@[simp] theorem State.setCoord_wroteNow (d k : Nat) (c : Coord) : (s.setCoord d k c).wroteNow = s.wroteNow := (rfl)
@[simp] theorem State.setCoord_floor (d k : Nat) (c : Coord) : (s.setCoord d k c).floor = s.floor := (rfl)
@[simp] theorem State.setCoord_physical (d k : Nat) (c : Coord) : (s.setCoord d k c).physical = s.physical := (rfl)
@[simp] theorem State.setCoord_memOwned (d k : Nat) (c : Coord) : (s.setCoord d k c).memOwned = s.memOwned := (rfl)
@[simp] theorem State.setCoord_csr (d k : Nat) (c : Coord) : (s.setCoord d k c).csr = s.csr := (rfl)
@[simp] theorem State.setCoord_mem (d k : Nat) (c : Coord) : (s.setCoord d k c).mem = s.mem := (rfl)
@[simp] theorem State.setCoord_mode (d k : Nat) (c : Coord) : (s.setCoord d k c).mode = s.mode := (rfl)
@[simp] theorem State.setCoord_headDie (d k : Nat) (c : Coord) : (s.setCoord d k c).headDie = s.headDie := (rfl)
@[simp] theorem State.setCoord_mirrorDie (d k : Nat) (c : Coord) : (s.setCoord d k c).mirrorDie = s.mirrorDie := (rfl)
@[simp] theorem State.setCoord_slotTab (d k : Nat) (c : Coord) : (s.setCoord d k c).slotTab = s.slotTab := (rfl)
@[simp] theorem State.setCoord_treeTab (d k : Nat) (c : Coord) : (s.setCoord d k c).treeTab = s.treeTab := (rfl)
@[simp] theorem State.setCoord_joinTab (d k : Nat) (c : Coord) : (s.setCoord d k c).joinTab = s.joinTab := (rfl)
@[simp] theorem State.setCoord_routeTab (d k : Nat) (c : Coord) : (s.setCoord d k c).routeTab = s.routeTab := (rfl)
@[simp] theorem State.setCoord_routeStore (d k : Nat) (c : Coord) : (s.setCoord d k c).routeStore = s.routeStore := (rfl)
@[simp] theorem State.setCoord_arrivalTab (d k : Nat) (c : Coord) : (s.setCoord d k c).arrivalTab = s.arrivalTab := (rfl)
@[simp] theorem State.setCoord_gateTab (d k : Nat) (c : Coord) : (s.setCoord d k c).gateTab = s.gateTab := (rfl)
@[simp] theorem State.setCoord_keepers (d k : Nat) (c : Coord) : (s.setCoord d k c).keepers = s.keepers := (rfl)
@[simp] theorem State.setCoord_regions (d k : Nat) (c : Coord) : (s.setCoord d k c).regions = s.regions := (rfl)
@[simp] theorem State.setCoord_panelReq (d k : Nat) (c : Coord) : (s.setCoord d k c).panelReq = s.panelReq := (rfl)
@[simp] theorem State.setCoord_gates (d k : Nat) (c : Coord) : (s.setCoord d k c).gates = s.gates := (rfl)
@[simp] theorem State.setCoord_shapers (d k : Nat) (c : Coord) : (s.setCoord d k c).shapers = s.shapers := (rfl)
@[simp] theorem State.setCoord_sampleFrom (d k : Nat) (c : Coord) : (s.setCoord d k c).sampleFrom = s.sampleFrom := (rfl)
@[simp] theorem State.setCoord_govs (d k : Nat) (c : Coord) : (s.setCoord d k c).govs = s.govs := (rfl)
@[simp] theorem State.setCoord_routers (d k : Nat) (c : Coord) : (s.setCoord d k c).routers = s.routers := (rfl)
@[simp] theorem State.setCoord_wires (d k : Nat) (c : Coord) : (s.setCoord d k c).wires = s.wires := (rfl)
@[simp] theorem State.setCoord_credWires (d k : Nat) (c : Coord) : (s.setCoord d k c).credWires = s.credWires := (rfl)
@[simp] theorem State.setCoord_edgeHem (d k : Nat) (c : Coord) : (s.setCoord d k c).edgeHem = s.edgeHem := (rfl)
@[simp] theorem State.setCoord_seams (d k : Nat) (c : Coord) : (s.setCoord d k c).seams = s.seams := (rfl)
@[simp] theorem State.setCoord_nis (d k : Nat) (c : Coord) : (s.setCoord d k c).nis = s.nis := (rfl)
@[simp] theorem State.setCoord_inj (d k : Nat) (c : Coord) : (s.setCoord d k c).inj = s.inj := (rfl)
@[simp] theorem State.setCoord_stream (d k : Nat) (c : Coord) : (s.setCoord d k c).stream = s.stream := (rfl)
@[simp] theorem State.setCoord_injCount (d k : Nat) (c : Coord) : (s.setCoord d k c).injCount = s.injCount := (rfl)
@[simp] theorem State.setCoord_hints (d k : Nat) (c : Coord) : (s.setCoord d k c).hints = s.hints := (rfl)
@[simp] theorem State.setCoord_outTags (d k : Nat) (c : Coord) : (s.setCoord d k c).outTags = s.outTags := (rfl)
@[simp] theorem State.setCoord_bursts (d k : Nat) (c : Coord) : (s.setCoord d k c).bursts = s.bursts := (rfl)
@[simp] theorem State.setCoord_orderHold (d k : Nat) (c : Coord) : (s.setCoord d k c).orderHold = s.orderHold := (rfl)
@[simp] theorem State.setCoord_halted (d k : Nat) (c : Coord) : (s.setCoord d k c).halted = s.halted := (rfl)
@[simp] theorem State.setCoord_catchShut (d k : Nat) (c : Coord) : (s.setCoord d k c).catchShut = s.catchShut := (rfl)
@[simp] theorem State.setCoord_secCount (d k : Nat) (c : Coord) : (s.setCoord d k c).secCount = s.secCount := (rfl)
@[simp] theorem State.setCoord_dedCount (d k : Nat) (c : Coord) : (s.setCoord d k c).dedCount = s.dedCount := (rfl)
@[simp] theorem State.setCoord_flog (d k : Nat) (c : Coord) : (s.setCoord d k c).flog = s.flog := (rfl)
@[simp] theorem State.setCoord_flogFull (d k : Nat) (c : Coord) : (s.setCoord d k c).flogFull = s.flogFull := (rfl)
@[simp] theorem State.setCoord_fwd (d k : Nat) (c : Coord) : (s.setCoord d k c).fwd = s.fwd := (rfl)
@[simp] theorem State.setCoord_traces (d k : Nat) (c : Coord) : (s.setCoord d k c).traces = s.traces := (rfl)
@[simp] theorem State.setCoord_stats (d k : Nat) (c : Coord) : (s.setCoord d k c).stats = s.stats := (rfl)
@[simp] theorem State.setCoord_prbCount (d k : Nat) (c : Coord) : (s.setCoord d k c).prbCount = s.prbCount := (rfl)
@[simp] theorem State.setCoord_patRw (d k : Nat) (c : Coord) : (s.setCoord d k c).patRw = s.patRw := (rfl)
@[simp] theorem State.setCoord_svcAt (d k : Nat) (c : Coord) : (s.setCoord d k c).svcAt = s.svcAt := (rfl)
@[simp] theorem State.setCoord_timeReq (d k : Nat) (c : Coord) : (s.setCoord d k c).timeReq = s.timeReq := (rfl)
@[simp] theorem State.setCoord_syncObj (d k : Nat) (c : Coord) : (s.setCoord d k c).syncObj = s.syncObj := (rfl)
@[simp] theorem State.setCoord_syncInit (d k : Nat) (c : Coord) : (s.setCoord d k c).syncInit = s.syncInit := (rfl)
@[simp] theorem State.setCoord_syncDone (d k : Nat) (c : Coord) : (s.setCoord d k c).syncDone = s.syncDone := (rfl)
@[simp] theorem State.setCoord_syncUsed (d k : Nat) (c : Coord) : (s.setCoord d k c).syncUsed = s.syncUsed := (rfl)
@[simp] theorem State.setCoord_syncLeft (d k : Nat) (c : Coord) : (s.setCoord d k c).syncLeft = s.syncLeft := (rfl)
@[simp] theorem State.setCoord_syncBreak (d k : Nat) (c : Coord) : (s.setCoord d k c).syncBreak = s.syncBreak := (rfl)
@[simp] theorem State.setCoord_memports (d k : Nat) (c : Coord) : (s.setCoord d k c).memports = s.memports := (rfl)
@[simp] theorem State.setCoord_ces (d k : Nat) (c : Coord) : (s.setCoord d k c).ces = s.ces := (rfl)
@[simp] theorem State.setCoord_ledger (d k : Nat) (c : Coord) : (s.setCoord d k c).ledger = s.ledger := (rfl)
@[simp] theorem State.setCoord_stores (d k : Nat) (c : Coord) : (s.setCoord d k c).stores = s.stores := (rfl)
@[simp] theorem State.setCoord_boots (d k : Nat) (c : Coord) : (s.setCoord d k c).boots = s.boots := (rfl)
@[simp] theorem State.setCoord_msix (d k : Nat) (c : Coord) : (s.setCoord d k c).msix = s.msix := (rfl)
@[simp] theorem State.setCoord_wins (d k : Nat) (c : Coord) : (s.setCoord d k c).wins = s.wins := (rfl)
@[simp] theorem State.setCoord_cmtClosed (d k : Nat) (c : Coord) : (s.setCoord d k c).cmtClosed = s.cmtClosed := (rfl)
@[simp] theorem State.setCoord_loader (d k : Nat) (c : Coord) : (s.setCoord d k c).loader = s.loader := (rfl)
@[simp] theorem State.setCoord_patches (d k : Nat) (c : Coord) : (s.setCoord d k c).patches = s.patches := (rfl)
@[simp] theorem State.setCoord_patchNum (d k : Nat) (c : Coord) : (s.setCoord d k c).patchNum = s.patchNum := (rfl)
@[simp] theorem State.setCoord_patchLog (d k : Nat) (c : Coord) : (s.setCoord d k c).patchLog = s.patchLog := (rfl)
@[simp] theorem State.setCoord_areaUsed (d k : Nat) (c : Coord) : (s.setCoord d k c).areaUsed = s.areaUsed := (rfl)
@[simp] theorem State.setCoord_posted (d k : Nat) (c : Coord) : (s.setCoord d k c).posted = s.posted := (rfl)
@[simp] theorem State.setCoord_plWant (d k : Nat) (c : Coord) : (s.setCoord d k c).plWant = s.plWant := (rfl)
@[simp] theorem State.setCoord_hbs (d k : Nat) (c : Coord) : (s.setCoord d k c).hbs = s.hbs := (rfl)
@[simp] theorem State.setCoord_hbFrom (d k : Nat) (c : Coord) : (s.setCoord d k c).hbFrom = s.hbFrom := (rfl)
@[simp] theorem State.setCoord_hbSent (d k : Nat) (c : Coord) : (s.setCoord d k c).hbSent = s.hbSent := (rfl)
@[simp] theorem State.setCoord_pkgHbSent (d k : Nat) (c : Coord) : (s.setCoord d k c).pkgHbSent = s.pkgHbSent := (rfl)
@[simp] theorem State.setCoord_suspects (d k : Nat) (c : Coord) : (s.setCoord d k c).suspects = s.suspects := (rfl)
@[simp] theorem State.setCoord_vseq (d k : Nat) (c : Coord) : (s.setCoord d k c).vseq = s.vseq := (rfl)
@[simp] theorem State.setCoord_verdictsSeen (d k : Nat) (c : Coord) : (s.setCoord d k c).verdictsSeen = s.verdictsSeen := (rfl)
@[simp] theorem State.setCoord_deadPkgs (d k : Nat) (c : Coord) : (s.setCoord d k c).deadPkgs = s.deadPkgs := (rfl)
@[simp] theorem State.setCoord_selfDead (d k : Nat) (c : Coord) : (s.setCoord d k c).selfDead = s.selfDead := (rfl)
@[simp] theorem State.setCoord_deadUnits (d k : Nat) (c : Coord) : (s.setCoord d k c).deadUnits = s.deadUnits := (rfl)
@[simp] theorem State.setCoord_probeSeqs (d k : Nat) (c : Coord) : (s.setCoord d k c).probeSeqs = s.probeSeqs := (rfl)
@[simp] theorem State.setCoord_probeWires (d k : Nat) (c : Coord) : (s.setCoord d k c).probeWires = s.probeWires := (rfl)
@[simp] theorem State.setCoord_secWindow (d k : Nat) (c : Coord) : (s.setCoord d k c).secWindow = s.secWindow := (rfl)
@[simp] theorem State.setCoord_wearFt (d k : Nat) (c : Coord) : (s.setCoord d k c).wearFt = s.wearFt := (rfl)
@[simp] theorem State.setCoord_telemFt (d k : Nat) (c : Coord) : (s.setCoord d k c).telemFt = s.telemFt := (rfl)
@[simp] theorem State.setCoord_telem (d k : Nat) (c : Coord) : (s.setCoord d k c).telem = s.telem := (rfl)
@[simp] theorem State.setCoord_darns (d k : Nat) (c : Coord) : (s.setCoord d k c).darns = s.darns := (rfl)
@[simp] theorem State.setCoord_stalls (d k : Nat) (c : Coord) : (s.setCoord d k c).stalls = s.stalls := (rfl)
@[simp] theorem State.setCoord_kickFt (d k : Nat) (c : Coord) : (s.setCoord d k c).kickFt = s.kickFt := (rfl)
@[simp] theorem State.setCoord_dumps (d k : Nat) (c : Coord) : (s.setCoord d k c).dumps = s.dumps := (rfl)
@[simp] theorem State.setCoord_mpTrained (d k : Nat) (c : Coord) : (s.setCoord d k c).mpTrained = s.mpTrained := (rfl)
@[simp] theorem State.setCoord_stopNext (d k : Nat) (c : Coord) : (s.setCoord d k c).stopNext = s.stopNext := (rfl)
@[simp] theorem State.setCoord_armWait (d k : Nat) (c : Coord) : (s.setCoord d k c).armWait = s.armWait := (rfl)
@[simp] theorem State.setCoord_stls (d k : Nat) (c : Coord) : (s.setCoord d k c).stls = s.stls := (rfl)
@[simp] theorem State.setCoord_transitPos (d k : Nat) (c : Coord) : (s.setCoord d k c).transitPos = s.transitPos := (rfl)
@[simp] theorem State.setCoord_debugFt (d k : Nat) (c : Coord) : (s.setCoord d k c).debugFt = s.debugFt := (rfl)
@[simp] theorem State.setCoord_debugWait (d k : Nat) (c : Coord) : (s.setCoord d k c).debugWait = s.debugWait := (rfl)
@[simp] theorem State.setCoord_eraseOnly (d k : Nat) (c : Coord) : (s.setCoord d k c).eraseOnly = s.eraseOnly := (rfl)
@[simp] theorem State.setCoord_provision (d k : Nat) (c : Coord) : (s.setCoord d k c).provision = s.provision := (rfl)
@[simp] theorem State.setCoord_barJobs (d k : Nat) (c : Coord) : (s.setCoord d k c).barJobs = s.barJobs := (rfl)
@[simp] theorem State.setCoord_hostOut (d k : Nat) (c : Coord) : (s.setCoord d k c).hostOut = s.hostOut := (rfl)
@[simp] theorem State.setCoord_rcsr (d k : Nat) (c : Coord) : (s.setCoord d k c).rcsr = s.rcsr := (rfl)
@[simp] theorem State.setCoord_tileReset (d k : Nat) (c : Coord) : (s.setCoord d k c).tileReset = s.tileReset := (rfl)
@[simp] theorem State.setCoord_pkgMend (d k : Nat) (c : Coord) : (s.setCoord d k c).pkgMend = s.pkgMend := (rfl)
@[simp] theorem State.setCoord_rejoinFt (d k : Nat) (c : Coord) : (s.setCoord d k c).rejoinFt = s.rejoinFt := (rfl)
@[simp] theorem State.setCoord_testFails (d k : Nat) (c : Coord) : (s.setCoord d k c).testFails = s.testFails := (rfl)
@[simp] theorem State.setCoord_testReport (d k : Nat) (c : Coord) : (s.setCoord d k c).testReport = s.testReport := (rfl)

/-! `setStl` -/

@[simp] theorem State.setStl_pending (d : Nat) (x : Stl) : (s.setStl d x).pending = s.pending := (rfl)
@[simp] theorem State.setStl_free (d : Nat) (x : Stl) : (s.setStl d x).free = s.free := (rfl)
@[simp] theorem State.setStl_setNow (d : Nat) (x : Stl) : (s.setStl d x).setNow = s.setNow := (rfl)
@[simp] theorem State.setStl_wroteNow (d : Nat) (x : Stl) : (s.setStl d x).wroteNow = s.wroteNow := (rfl)
@[simp] theorem State.setStl_floor (d : Nat) (x : Stl) : (s.setStl d x).floor = s.floor := (rfl)
@[simp] theorem State.setStl_physical (d : Nat) (x : Stl) : (s.setStl d x).physical = s.physical := (rfl)
@[simp] theorem State.setStl_memOwned (d : Nat) (x : Stl) : (s.setStl d x).memOwned = s.memOwned := (rfl)
@[simp] theorem State.setStl_csr (d : Nat) (x : Stl) : (s.setStl d x).csr = s.csr := (rfl)
@[simp] theorem State.setStl_mem (d : Nat) (x : Stl) : (s.setStl d x).mem = s.mem := (rfl)
@[simp] theorem State.setStl_mode (d : Nat) (x : Stl) : (s.setStl d x).mode = s.mode := (rfl)
@[simp] theorem State.setStl_headDie (d : Nat) (x : Stl) : (s.setStl d x).headDie = s.headDie := (rfl)
@[simp] theorem State.setStl_mirrorDie (d : Nat) (x : Stl) : (s.setStl d x).mirrorDie = s.mirrorDie := (rfl)
@[simp] theorem State.setStl_slotTab (d : Nat) (x : Stl) : (s.setStl d x).slotTab = s.slotTab := (rfl)
@[simp] theorem State.setStl_treeTab (d : Nat) (x : Stl) : (s.setStl d x).treeTab = s.treeTab := (rfl)
@[simp] theorem State.setStl_joinTab (d : Nat) (x : Stl) : (s.setStl d x).joinTab = s.joinTab := (rfl)
@[simp] theorem State.setStl_routeTab (d : Nat) (x : Stl) : (s.setStl d x).routeTab = s.routeTab := (rfl)
@[simp] theorem State.setStl_routeStore (d : Nat) (x : Stl) : (s.setStl d x).routeStore = s.routeStore := (rfl)
@[simp] theorem State.setStl_arrivalTab (d : Nat) (x : Stl) : (s.setStl d x).arrivalTab = s.arrivalTab := (rfl)
@[simp] theorem State.setStl_gateTab (d : Nat) (x : Stl) : (s.setStl d x).gateTab = s.gateTab := (rfl)
@[simp] theorem State.setStl_keepers (d : Nat) (x : Stl) : (s.setStl d x).keepers = s.keepers := (rfl)
@[simp] theorem State.setStl_regions (d : Nat) (x : Stl) : (s.setStl d x).regions = s.regions := (rfl)
@[simp] theorem State.setStl_panelReq (d : Nat) (x : Stl) : (s.setStl d x).panelReq = s.panelReq := (rfl)
@[simp] theorem State.setStl_gates (d : Nat) (x : Stl) : (s.setStl d x).gates = s.gates := (rfl)
@[simp] theorem State.setStl_shapers (d : Nat) (x : Stl) : (s.setStl d x).shapers = s.shapers := (rfl)
@[simp] theorem State.setStl_sampleFrom (d : Nat) (x : Stl) : (s.setStl d x).sampleFrom = s.sampleFrom := (rfl)
@[simp] theorem State.setStl_govs (d : Nat) (x : Stl) : (s.setStl d x).govs = s.govs := (rfl)
@[simp] theorem State.setStl_routers (d : Nat) (x : Stl) : (s.setStl d x).routers = s.routers := (rfl)
@[simp] theorem State.setStl_wires (d : Nat) (x : Stl) : (s.setStl d x).wires = s.wires := (rfl)
@[simp] theorem State.setStl_credWires (d : Nat) (x : Stl) : (s.setStl d x).credWires = s.credWires := (rfl)
@[simp] theorem State.setStl_edgeHem (d : Nat) (x : Stl) : (s.setStl d x).edgeHem = s.edgeHem := (rfl)
@[simp] theorem State.setStl_seams (d : Nat) (x : Stl) : (s.setStl d x).seams = s.seams := (rfl)
@[simp] theorem State.setStl_nis (d : Nat) (x : Stl) : (s.setStl d x).nis = s.nis := (rfl)
@[simp] theorem State.setStl_inj (d : Nat) (x : Stl) : (s.setStl d x).inj = s.inj := (rfl)
@[simp] theorem State.setStl_stream (d : Nat) (x : Stl) : (s.setStl d x).stream = s.stream := (rfl)
@[simp] theorem State.setStl_injCount (d : Nat) (x : Stl) : (s.setStl d x).injCount = s.injCount := (rfl)
@[simp] theorem State.setStl_hints (d : Nat) (x : Stl) : (s.setStl d x).hints = s.hints := (rfl)
@[simp] theorem State.setStl_outTags (d : Nat) (x : Stl) : (s.setStl d x).outTags = s.outTags := (rfl)
@[simp] theorem State.setStl_bursts (d : Nat) (x : Stl) : (s.setStl d x).bursts = s.bursts := (rfl)
@[simp] theorem State.setStl_orderHold (d : Nat) (x : Stl) : (s.setStl d x).orderHold = s.orderHold := (rfl)
@[simp] theorem State.setStl_halted (d : Nat) (x : Stl) : (s.setStl d x).halted = s.halted := (rfl)
@[simp] theorem State.setStl_catchShut (d : Nat) (x : Stl) : (s.setStl d x).catchShut = s.catchShut := (rfl)
@[simp] theorem State.setStl_secCount (d : Nat) (x : Stl) : (s.setStl d x).secCount = s.secCount := (rfl)
@[simp] theorem State.setStl_dedCount (d : Nat) (x : Stl) : (s.setStl d x).dedCount = s.dedCount := (rfl)
@[simp] theorem State.setStl_flog (d : Nat) (x : Stl) : (s.setStl d x).flog = s.flog := (rfl)
@[simp] theorem State.setStl_flogFull (d : Nat) (x : Stl) : (s.setStl d x).flogFull = s.flogFull := (rfl)
@[simp] theorem State.setStl_fwd (d : Nat) (x : Stl) : (s.setStl d x).fwd = s.fwd := (rfl)
@[simp] theorem State.setStl_traces (d : Nat) (x : Stl) : (s.setStl d x).traces = s.traces := (rfl)
@[simp] theorem State.setStl_stats (d : Nat) (x : Stl) : (s.setStl d x).stats = s.stats := (rfl)
@[simp] theorem State.setStl_prbCount (d : Nat) (x : Stl) : (s.setStl d x).prbCount = s.prbCount := (rfl)
@[simp] theorem State.setStl_patRw (d : Nat) (x : Stl) : (s.setStl d x).patRw = s.patRw := (rfl)
@[simp] theorem State.setStl_svcAt (d : Nat) (x : Stl) : (s.setStl d x).svcAt = s.svcAt := (rfl)
@[simp] theorem State.setStl_timeReq (d : Nat) (x : Stl) : (s.setStl d x).timeReq = s.timeReq := (rfl)
@[simp] theorem State.setStl_syncObj (d : Nat) (x : Stl) : (s.setStl d x).syncObj = s.syncObj := (rfl)
@[simp] theorem State.setStl_syncInit (d : Nat) (x : Stl) : (s.setStl d x).syncInit = s.syncInit := (rfl)
@[simp] theorem State.setStl_syncDone (d : Nat) (x : Stl) : (s.setStl d x).syncDone = s.syncDone := (rfl)
@[simp] theorem State.setStl_syncUsed (d : Nat) (x : Stl) : (s.setStl d x).syncUsed = s.syncUsed := (rfl)
@[simp] theorem State.setStl_syncLeft (d : Nat) (x : Stl) : (s.setStl d x).syncLeft = s.syncLeft := (rfl)
@[simp] theorem State.setStl_syncBreak (d : Nat) (x : Stl) : (s.setStl d x).syncBreak = s.syncBreak := (rfl)
@[simp] theorem State.setStl_memports (d : Nat) (x : Stl) : (s.setStl d x).memports = s.memports := (rfl)
@[simp] theorem State.setStl_ces (d : Nat) (x : Stl) : (s.setStl d x).ces = s.ces := (rfl)
@[simp] theorem State.setStl_ledger (d : Nat) (x : Stl) : (s.setStl d x).ledger = s.ledger := (rfl)
@[simp] theorem State.setStl_stores (d : Nat) (x : Stl) : (s.setStl d x).stores = s.stores := (rfl)
@[simp] theorem State.setStl_boots (d : Nat) (x : Stl) : (s.setStl d x).boots = s.boots := (rfl)
@[simp] theorem State.setStl_msix (d : Nat) (x : Stl) : (s.setStl d x).msix = s.msix := (rfl)
@[simp] theorem State.setStl_wins (d : Nat) (x : Stl) : (s.setStl d x).wins = s.wins := (rfl)
@[simp] theorem State.setStl_cmtClosed (d : Nat) (x : Stl) : (s.setStl d x).cmtClosed = s.cmtClosed := (rfl)
@[simp] theorem State.setStl_coords (d : Nat) (x : Stl) : (s.setStl d x).coords = s.coords := (rfl)
@[simp] theorem State.setStl_loader (d : Nat) (x : Stl) : (s.setStl d x).loader = s.loader := (rfl)
@[simp] theorem State.setStl_patches (d : Nat) (x : Stl) : (s.setStl d x).patches = s.patches := (rfl)
@[simp] theorem State.setStl_patchNum (d : Nat) (x : Stl) : (s.setStl d x).patchNum = s.patchNum := (rfl)
@[simp] theorem State.setStl_patchLog (d : Nat) (x : Stl) : (s.setStl d x).patchLog = s.patchLog := (rfl)
@[simp] theorem State.setStl_areaUsed (d : Nat) (x : Stl) : (s.setStl d x).areaUsed = s.areaUsed := (rfl)
@[simp] theorem State.setStl_posted (d : Nat) (x : Stl) : (s.setStl d x).posted = s.posted := (rfl)
@[simp] theorem State.setStl_plWant (d : Nat) (x : Stl) : (s.setStl d x).plWant = s.plWant := (rfl)
@[simp] theorem State.setStl_hbs (d : Nat) (x : Stl) : (s.setStl d x).hbs = s.hbs := (rfl)
@[simp] theorem State.setStl_hbFrom (d : Nat) (x : Stl) : (s.setStl d x).hbFrom = s.hbFrom := (rfl)
@[simp] theorem State.setStl_hbSent (d : Nat) (x : Stl) : (s.setStl d x).hbSent = s.hbSent := (rfl)
@[simp] theorem State.setStl_pkgHbSent (d : Nat) (x : Stl) : (s.setStl d x).pkgHbSent = s.pkgHbSent := (rfl)
@[simp] theorem State.setStl_suspects (d : Nat) (x : Stl) : (s.setStl d x).suspects = s.suspects := (rfl)
@[simp] theorem State.setStl_vseq (d : Nat) (x : Stl) : (s.setStl d x).vseq = s.vseq := (rfl)
@[simp] theorem State.setStl_verdictsSeen (d : Nat) (x : Stl) : (s.setStl d x).verdictsSeen = s.verdictsSeen := (rfl)
@[simp] theorem State.setStl_deadPkgs (d : Nat) (x : Stl) : (s.setStl d x).deadPkgs = s.deadPkgs := (rfl)
@[simp] theorem State.setStl_selfDead (d : Nat) (x : Stl) : (s.setStl d x).selfDead = s.selfDead := (rfl)
@[simp] theorem State.setStl_deadUnits (d : Nat) (x : Stl) : (s.setStl d x).deadUnits = s.deadUnits := (rfl)
@[simp] theorem State.setStl_probeSeqs (d : Nat) (x : Stl) : (s.setStl d x).probeSeqs = s.probeSeqs := (rfl)
@[simp] theorem State.setStl_probeWires (d : Nat) (x : Stl) : (s.setStl d x).probeWires = s.probeWires := (rfl)
@[simp] theorem State.setStl_secWindow (d : Nat) (x : Stl) : (s.setStl d x).secWindow = s.secWindow := (rfl)
@[simp] theorem State.setStl_wearFt (d : Nat) (x : Stl) : (s.setStl d x).wearFt = s.wearFt := (rfl)
@[simp] theorem State.setStl_telemFt (d : Nat) (x : Stl) : (s.setStl d x).telemFt = s.telemFt := (rfl)
@[simp] theorem State.setStl_telem (d : Nat) (x : Stl) : (s.setStl d x).telem = s.telem := (rfl)
@[simp] theorem State.setStl_darns (d : Nat) (x : Stl) : (s.setStl d x).darns = s.darns := (rfl)
@[simp] theorem State.setStl_stalls (d : Nat) (x : Stl) : (s.setStl d x).stalls = s.stalls := (rfl)
@[simp] theorem State.setStl_kickFt (d : Nat) (x : Stl) : (s.setStl d x).kickFt = s.kickFt := (rfl)
@[simp] theorem State.setStl_dumps (d : Nat) (x : Stl) : (s.setStl d x).dumps = s.dumps := (rfl)
@[simp] theorem State.setStl_mpTrained (d : Nat) (x : Stl) : (s.setStl d x).mpTrained = s.mpTrained := (rfl)
@[simp] theorem State.setStl_stopNext (d : Nat) (x : Stl) : (s.setStl d x).stopNext = s.stopNext := (rfl)
@[simp] theorem State.setStl_armWait (d : Nat) (x : Stl) : (s.setStl d x).armWait = s.armWait := (rfl)
@[simp] theorem State.setStl_transitPos (d : Nat) (x : Stl) : (s.setStl d x).transitPos = s.transitPos := (rfl)
@[simp] theorem State.setStl_debugFt (d : Nat) (x : Stl) : (s.setStl d x).debugFt = s.debugFt := (rfl)
@[simp] theorem State.setStl_debugWait (d : Nat) (x : Stl) : (s.setStl d x).debugWait = s.debugWait := (rfl)
@[simp] theorem State.setStl_eraseOnly (d : Nat) (x : Stl) : (s.setStl d x).eraseOnly = s.eraseOnly := (rfl)
@[simp] theorem State.setStl_provision (d : Nat) (x : Stl) : (s.setStl d x).provision = s.provision := (rfl)
@[simp] theorem State.setStl_barJobs (d : Nat) (x : Stl) : (s.setStl d x).barJobs = s.barJobs := (rfl)
@[simp] theorem State.setStl_hostOut (d : Nat) (x : Stl) : (s.setStl d x).hostOut = s.hostOut := (rfl)
@[simp] theorem State.setStl_rcsr (d : Nat) (x : Stl) : (s.setStl d x).rcsr = s.rcsr := (rfl)
@[simp] theorem State.setStl_tileReset (d : Nat) (x : Stl) : (s.setStl d x).tileReset = s.tileReset := (rfl)
@[simp] theorem State.setStl_pkgMend (d : Nat) (x : Stl) : (s.setStl d x).pkgMend = s.pkgMend := (rfl)
@[simp] theorem State.setStl_rejoinFt (d : Nat) (x : Stl) : (s.setStl d x).rejoinFt = s.rejoinFt := (rfl)
@[simp] theorem State.setStl_testFails (d : Nat) (x : Stl) : (s.setStl d x).testFails = s.testFails := (rfl)
@[simp] theorem State.setStl_testReport (d : Nat) (x : Stl) : (s.setStl d x).testReport = s.testReport := (rfl)

/-! `setDarn` -/

@[simp] theorem State.setDarn_pending (d : Nat) (x : Darn) : (s.setDarn d x).pending = s.pending := (rfl)
@[simp] theorem State.setDarn_free (d : Nat) (x : Darn) : (s.setDarn d x).free = s.free := (rfl)
@[simp] theorem State.setDarn_setNow (d : Nat) (x : Darn) : (s.setDarn d x).setNow = s.setNow := (rfl)
@[simp] theorem State.setDarn_wroteNow (d : Nat) (x : Darn) : (s.setDarn d x).wroteNow = s.wroteNow := (rfl)
@[simp] theorem State.setDarn_floor (d : Nat) (x : Darn) : (s.setDarn d x).floor = s.floor := (rfl)
@[simp] theorem State.setDarn_physical (d : Nat) (x : Darn) : (s.setDarn d x).physical = s.physical := (rfl)
@[simp] theorem State.setDarn_memOwned (d : Nat) (x : Darn) : (s.setDarn d x).memOwned = s.memOwned := (rfl)
@[simp] theorem State.setDarn_csr (d : Nat) (x : Darn) : (s.setDarn d x).csr = s.csr := (rfl)
@[simp] theorem State.setDarn_mem (d : Nat) (x : Darn) : (s.setDarn d x).mem = s.mem := (rfl)
@[simp] theorem State.setDarn_mode (d : Nat) (x : Darn) : (s.setDarn d x).mode = s.mode := (rfl)
@[simp] theorem State.setDarn_headDie (d : Nat) (x : Darn) : (s.setDarn d x).headDie = s.headDie := (rfl)
@[simp] theorem State.setDarn_mirrorDie (d : Nat) (x : Darn) : (s.setDarn d x).mirrorDie = s.mirrorDie := (rfl)
@[simp] theorem State.setDarn_slotTab (d : Nat) (x : Darn) : (s.setDarn d x).slotTab = s.slotTab := (rfl)
@[simp] theorem State.setDarn_treeTab (d : Nat) (x : Darn) : (s.setDarn d x).treeTab = s.treeTab := (rfl)
@[simp] theorem State.setDarn_joinTab (d : Nat) (x : Darn) : (s.setDarn d x).joinTab = s.joinTab := (rfl)
@[simp] theorem State.setDarn_routeTab (d : Nat) (x : Darn) : (s.setDarn d x).routeTab = s.routeTab := (rfl)
@[simp] theorem State.setDarn_routeStore (d : Nat) (x : Darn) : (s.setDarn d x).routeStore = s.routeStore := (rfl)
@[simp] theorem State.setDarn_arrivalTab (d : Nat) (x : Darn) : (s.setDarn d x).arrivalTab = s.arrivalTab := (rfl)
@[simp] theorem State.setDarn_gateTab (d : Nat) (x : Darn) : (s.setDarn d x).gateTab = s.gateTab := (rfl)
@[simp] theorem State.setDarn_keepers (d : Nat) (x : Darn) : (s.setDarn d x).keepers = s.keepers := (rfl)
@[simp] theorem State.setDarn_regions (d : Nat) (x : Darn) : (s.setDarn d x).regions = s.regions := (rfl)
@[simp] theorem State.setDarn_panelReq (d : Nat) (x : Darn) : (s.setDarn d x).panelReq = s.panelReq := (rfl)
@[simp] theorem State.setDarn_gates (d : Nat) (x : Darn) : (s.setDarn d x).gates = s.gates := (rfl)
@[simp] theorem State.setDarn_shapers (d : Nat) (x : Darn) : (s.setDarn d x).shapers = s.shapers := (rfl)
@[simp] theorem State.setDarn_sampleFrom (d : Nat) (x : Darn) : (s.setDarn d x).sampleFrom = s.sampleFrom := (rfl)
@[simp] theorem State.setDarn_govs (d : Nat) (x : Darn) : (s.setDarn d x).govs = s.govs := (rfl)
@[simp] theorem State.setDarn_routers (d : Nat) (x : Darn) : (s.setDarn d x).routers = s.routers := (rfl)
@[simp] theorem State.setDarn_wires (d : Nat) (x : Darn) : (s.setDarn d x).wires = s.wires := (rfl)
@[simp] theorem State.setDarn_credWires (d : Nat) (x : Darn) : (s.setDarn d x).credWires = s.credWires := (rfl)
@[simp] theorem State.setDarn_edgeHem (d : Nat) (x : Darn) : (s.setDarn d x).edgeHem = s.edgeHem := (rfl)
@[simp] theorem State.setDarn_seams (d : Nat) (x : Darn) : (s.setDarn d x).seams = s.seams := (rfl)
@[simp] theorem State.setDarn_nis (d : Nat) (x : Darn) : (s.setDarn d x).nis = s.nis := (rfl)
@[simp] theorem State.setDarn_inj (d : Nat) (x : Darn) : (s.setDarn d x).inj = s.inj := (rfl)
@[simp] theorem State.setDarn_stream (d : Nat) (x : Darn) : (s.setDarn d x).stream = s.stream := (rfl)
@[simp] theorem State.setDarn_injCount (d : Nat) (x : Darn) : (s.setDarn d x).injCount = s.injCount := (rfl)
@[simp] theorem State.setDarn_hints (d : Nat) (x : Darn) : (s.setDarn d x).hints = s.hints := (rfl)
@[simp] theorem State.setDarn_outTags (d : Nat) (x : Darn) : (s.setDarn d x).outTags = s.outTags := (rfl)
@[simp] theorem State.setDarn_bursts (d : Nat) (x : Darn) : (s.setDarn d x).bursts = s.bursts := (rfl)
@[simp] theorem State.setDarn_orderHold (d : Nat) (x : Darn) : (s.setDarn d x).orderHold = s.orderHold := (rfl)
@[simp] theorem State.setDarn_halted (d : Nat) (x : Darn) : (s.setDarn d x).halted = s.halted := (rfl)
@[simp] theorem State.setDarn_catchShut (d : Nat) (x : Darn) : (s.setDarn d x).catchShut = s.catchShut := (rfl)
@[simp] theorem State.setDarn_secCount (d : Nat) (x : Darn) : (s.setDarn d x).secCount = s.secCount := (rfl)
@[simp] theorem State.setDarn_dedCount (d : Nat) (x : Darn) : (s.setDarn d x).dedCount = s.dedCount := (rfl)
@[simp] theorem State.setDarn_flog (d : Nat) (x : Darn) : (s.setDarn d x).flog = s.flog := (rfl)
@[simp] theorem State.setDarn_flogFull (d : Nat) (x : Darn) : (s.setDarn d x).flogFull = s.flogFull := (rfl)
@[simp] theorem State.setDarn_fwd (d : Nat) (x : Darn) : (s.setDarn d x).fwd = s.fwd := (rfl)
@[simp] theorem State.setDarn_traces (d : Nat) (x : Darn) : (s.setDarn d x).traces = s.traces := (rfl)
@[simp] theorem State.setDarn_stats (d : Nat) (x : Darn) : (s.setDarn d x).stats = s.stats := (rfl)
@[simp] theorem State.setDarn_prbCount (d : Nat) (x : Darn) : (s.setDarn d x).prbCount = s.prbCount := (rfl)
@[simp] theorem State.setDarn_patRw (d : Nat) (x : Darn) : (s.setDarn d x).patRw = s.patRw := (rfl)
@[simp] theorem State.setDarn_svcAt (d : Nat) (x : Darn) : (s.setDarn d x).svcAt = s.svcAt := (rfl)
@[simp] theorem State.setDarn_timeReq (d : Nat) (x : Darn) : (s.setDarn d x).timeReq = s.timeReq := (rfl)
@[simp] theorem State.setDarn_syncObj (d : Nat) (x : Darn) : (s.setDarn d x).syncObj = s.syncObj := (rfl)
@[simp] theorem State.setDarn_syncInit (d : Nat) (x : Darn) : (s.setDarn d x).syncInit = s.syncInit := (rfl)
@[simp] theorem State.setDarn_syncDone (d : Nat) (x : Darn) : (s.setDarn d x).syncDone = s.syncDone := (rfl)
@[simp] theorem State.setDarn_syncUsed (d : Nat) (x : Darn) : (s.setDarn d x).syncUsed = s.syncUsed := (rfl)
@[simp] theorem State.setDarn_syncLeft (d : Nat) (x : Darn) : (s.setDarn d x).syncLeft = s.syncLeft := (rfl)
@[simp] theorem State.setDarn_syncBreak (d : Nat) (x : Darn) : (s.setDarn d x).syncBreak = s.syncBreak := (rfl)
@[simp] theorem State.setDarn_memports (d : Nat) (x : Darn) : (s.setDarn d x).memports = s.memports := (rfl)
@[simp] theorem State.setDarn_ces (d : Nat) (x : Darn) : (s.setDarn d x).ces = s.ces := (rfl)
@[simp] theorem State.setDarn_ledger (d : Nat) (x : Darn) : (s.setDarn d x).ledger = s.ledger := (rfl)
@[simp] theorem State.setDarn_stores (d : Nat) (x : Darn) : (s.setDarn d x).stores = s.stores := (rfl)
@[simp] theorem State.setDarn_boots (d : Nat) (x : Darn) : (s.setDarn d x).boots = s.boots := (rfl)
@[simp] theorem State.setDarn_msix (d : Nat) (x : Darn) : (s.setDarn d x).msix = s.msix := (rfl)
@[simp] theorem State.setDarn_wins (d : Nat) (x : Darn) : (s.setDarn d x).wins = s.wins := (rfl)
@[simp] theorem State.setDarn_cmtClosed (d : Nat) (x : Darn) : (s.setDarn d x).cmtClosed = s.cmtClosed := (rfl)
@[simp] theorem State.setDarn_coords (d : Nat) (x : Darn) : (s.setDarn d x).coords = s.coords := (rfl)
@[simp] theorem State.setDarn_loader (d : Nat) (x : Darn) : (s.setDarn d x).loader = s.loader := (rfl)
@[simp] theorem State.setDarn_patches (d : Nat) (x : Darn) : (s.setDarn d x).patches = s.patches := (rfl)
@[simp] theorem State.setDarn_patchNum (d : Nat) (x : Darn) : (s.setDarn d x).patchNum = s.patchNum := (rfl)
@[simp] theorem State.setDarn_patchLog (d : Nat) (x : Darn) : (s.setDarn d x).patchLog = s.patchLog := (rfl)
@[simp] theorem State.setDarn_areaUsed (d : Nat) (x : Darn) : (s.setDarn d x).areaUsed = s.areaUsed := (rfl)
@[simp] theorem State.setDarn_posted (d : Nat) (x : Darn) : (s.setDarn d x).posted = s.posted := (rfl)
@[simp] theorem State.setDarn_plWant (d : Nat) (x : Darn) : (s.setDarn d x).plWant = s.plWant := (rfl)
@[simp] theorem State.setDarn_hbs (d : Nat) (x : Darn) : (s.setDarn d x).hbs = s.hbs := (rfl)
@[simp] theorem State.setDarn_hbFrom (d : Nat) (x : Darn) : (s.setDarn d x).hbFrom = s.hbFrom := (rfl)
@[simp] theorem State.setDarn_hbSent (d : Nat) (x : Darn) : (s.setDarn d x).hbSent = s.hbSent := (rfl)
@[simp] theorem State.setDarn_pkgHbSent (d : Nat) (x : Darn) : (s.setDarn d x).pkgHbSent = s.pkgHbSent := (rfl)
@[simp] theorem State.setDarn_suspects (d : Nat) (x : Darn) : (s.setDarn d x).suspects = s.suspects := (rfl)
@[simp] theorem State.setDarn_vseq (d : Nat) (x : Darn) : (s.setDarn d x).vseq = s.vseq := (rfl)
@[simp] theorem State.setDarn_verdictsSeen (d : Nat) (x : Darn) : (s.setDarn d x).verdictsSeen = s.verdictsSeen := (rfl)
@[simp] theorem State.setDarn_deadPkgs (d : Nat) (x : Darn) : (s.setDarn d x).deadPkgs = s.deadPkgs := (rfl)
@[simp] theorem State.setDarn_selfDead (d : Nat) (x : Darn) : (s.setDarn d x).selfDead = s.selfDead := (rfl)
@[simp] theorem State.setDarn_deadUnits (d : Nat) (x : Darn) : (s.setDarn d x).deadUnits = s.deadUnits := (rfl)
@[simp] theorem State.setDarn_probeSeqs (d : Nat) (x : Darn) : (s.setDarn d x).probeSeqs = s.probeSeqs := (rfl)
@[simp] theorem State.setDarn_probeWires (d : Nat) (x : Darn) : (s.setDarn d x).probeWires = s.probeWires := (rfl)
@[simp] theorem State.setDarn_secWindow (d : Nat) (x : Darn) : (s.setDarn d x).secWindow = s.secWindow := (rfl)
@[simp] theorem State.setDarn_wearFt (d : Nat) (x : Darn) : (s.setDarn d x).wearFt = s.wearFt := (rfl)
@[simp] theorem State.setDarn_telemFt (d : Nat) (x : Darn) : (s.setDarn d x).telemFt = s.telemFt := (rfl)
@[simp] theorem State.setDarn_telem (d : Nat) (x : Darn) : (s.setDarn d x).telem = s.telem := (rfl)
@[simp] theorem State.setDarn_stalls (d : Nat) (x : Darn) : (s.setDarn d x).stalls = s.stalls := (rfl)
@[simp] theorem State.setDarn_kickFt (d : Nat) (x : Darn) : (s.setDarn d x).kickFt = s.kickFt := (rfl)
@[simp] theorem State.setDarn_dumps (d : Nat) (x : Darn) : (s.setDarn d x).dumps = s.dumps := (rfl)
@[simp] theorem State.setDarn_mpTrained (d : Nat) (x : Darn) : (s.setDarn d x).mpTrained = s.mpTrained := (rfl)
@[simp] theorem State.setDarn_stopNext (d : Nat) (x : Darn) : (s.setDarn d x).stopNext = s.stopNext := (rfl)
@[simp] theorem State.setDarn_armWait (d : Nat) (x : Darn) : (s.setDarn d x).armWait = s.armWait := (rfl)
@[simp] theorem State.setDarn_stls (d : Nat) (x : Darn) : (s.setDarn d x).stls = s.stls := (rfl)
@[simp] theorem State.setDarn_transitPos (d : Nat) (x : Darn) : (s.setDarn d x).transitPos = s.transitPos := (rfl)
@[simp] theorem State.setDarn_debugFt (d : Nat) (x : Darn) : (s.setDarn d x).debugFt = s.debugFt := (rfl)
@[simp] theorem State.setDarn_debugWait (d : Nat) (x : Darn) : (s.setDarn d x).debugWait = s.debugWait := (rfl)
@[simp] theorem State.setDarn_eraseOnly (d : Nat) (x : Darn) : (s.setDarn d x).eraseOnly = s.eraseOnly := (rfl)
@[simp] theorem State.setDarn_provision (d : Nat) (x : Darn) : (s.setDarn d x).provision = s.provision := (rfl)
@[simp] theorem State.setDarn_barJobs (d : Nat) (x : Darn) : (s.setDarn d x).barJobs = s.barJobs := (rfl)
@[simp] theorem State.setDarn_hostOut (d : Nat) (x : Darn) : (s.setDarn d x).hostOut = s.hostOut := (rfl)
@[simp] theorem State.setDarn_rcsr (d : Nat) (x : Darn) : (s.setDarn d x).rcsr = s.rcsr := (rfl)
@[simp] theorem State.setDarn_tileReset (d : Nat) (x : Darn) : (s.setDarn d x).tileReset = s.tileReset := (rfl)
@[simp] theorem State.setDarn_pkgMend (d : Nat) (x : Darn) : (s.setDarn d x).pkgMend = s.pkgMend := (rfl)
@[simp] theorem State.setDarn_rejoinFt (d : Nat) (x : Darn) : (s.setDarn d x).rejoinFt = s.rejoinFt := (rfl)
@[simp] theorem State.setDarn_testFails (d : Nat) (x : Darn) : (s.setDarn d x).testFails = s.testFails := (rfl)
@[simp] theorem State.setDarn_testReport (d : Nat) (x : Darn) : (s.setDarn d x).testReport = s.testReport := (rfl)

/-! `setProbeSeq` -/

@[simp] theorem State.setProbeSeq_pending (d p : Nat) (x : ProbeSeq) : (s.setProbeSeq d p x).pending = s.pending := (rfl)
@[simp] theorem State.setProbeSeq_free (d p : Nat) (x : ProbeSeq) : (s.setProbeSeq d p x).free = s.free := (rfl)
@[simp] theorem State.setProbeSeq_setNow (d p : Nat) (x : ProbeSeq) : (s.setProbeSeq d p x).setNow = s.setNow := (rfl)
@[simp] theorem State.setProbeSeq_wroteNow (d p : Nat) (x : ProbeSeq) : (s.setProbeSeq d p x).wroteNow = s.wroteNow := (rfl)
@[simp] theorem State.setProbeSeq_floor (d p : Nat) (x : ProbeSeq) : (s.setProbeSeq d p x).floor = s.floor := (rfl)
@[simp] theorem State.setProbeSeq_physical (d p : Nat) (x : ProbeSeq) : (s.setProbeSeq d p x).physical = s.physical := (rfl)
@[simp] theorem State.setProbeSeq_memOwned (d p : Nat) (x : ProbeSeq) : (s.setProbeSeq d p x).memOwned = s.memOwned := (rfl)
@[simp] theorem State.setProbeSeq_csr (d p : Nat) (x : ProbeSeq) : (s.setProbeSeq d p x).csr = s.csr := (rfl)
@[simp] theorem State.setProbeSeq_mem (d p : Nat) (x : ProbeSeq) : (s.setProbeSeq d p x).mem = s.mem := (rfl)
@[simp] theorem State.setProbeSeq_mode (d p : Nat) (x : ProbeSeq) : (s.setProbeSeq d p x).mode = s.mode := (rfl)
@[simp] theorem State.setProbeSeq_headDie (d p : Nat) (x : ProbeSeq) : (s.setProbeSeq d p x).headDie = s.headDie := (rfl)
@[simp] theorem State.setProbeSeq_mirrorDie (d p : Nat) (x : ProbeSeq) : (s.setProbeSeq d p x).mirrorDie = s.mirrorDie := (rfl)
@[simp] theorem State.setProbeSeq_slotTab (d p : Nat) (x : ProbeSeq) : (s.setProbeSeq d p x).slotTab = s.slotTab := (rfl)
@[simp] theorem State.setProbeSeq_treeTab (d p : Nat) (x : ProbeSeq) : (s.setProbeSeq d p x).treeTab = s.treeTab := (rfl)
@[simp] theorem State.setProbeSeq_joinTab (d p : Nat) (x : ProbeSeq) : (s.setProbeSeq d p x).joinTab = s.joinTab := (rfl)
@[simp] theorem State.setProbeSeq_routeTab (d p : Nat) (x : ProbeSeq) : (s.setProbeSeq d p x).routeTab = s.routeTab := (rfl)
@[simp] theorem State.setProbeSeq_routeStore (d p : Nat) (x : ProbeSeq) : (s.setProbeSeq d p x).routeStore = s.routeStore := (rfl)
@[simp] theorem State.setProbeSeq_arrivalTab (d p : Nat) (x : ProbeSeq) : (s.setProbeSeq d p x).arrivalTab = s.arrivalTab := (rfl)
@[simp] theorem State.setProbeSeq_gateTab (d p : Nat) (x : ProbeSeq) : (s.setProbeSeq d p x).gateTab = s.gateTab := (rfl)
@[simp] theorem State.setProbeSeq_keepers (d p : Nat) (x : ProbeSeq) : (s.setProbeSeq d p x).keepers = s.keepers := (rfl)
@[simp] theorem State.setProbeSeq_regions (d p : Nat) (x : ProbeSeq) : (s.setProbeSeq d p x).regions = s.regions := (rfl)
@[simp] theorem State.setProbeSeq_panelReq (d p : Nat) (x : ProbeSeq) : (s.setProbeSeq d p x).panelReq = s.panelReq := (rfl)
@[simp] theorem State.setProbeSeq_gates (d p : Nat) (x : ProbeSeq) : (s.setProbeSeq d p x).gates = s.gates := (rfl)
@[simp] theorem State.setProbeSeq_shapers (d p : Nat) (x : ProbeSeq) : (s.setProbeSeq d p x).shapers = s.shapers := (rfl)
@[simp] theorem State.setProbeSeq_sampleFrom (d p : Nat) (x : ProbeSeq) : (s.setProbeSeq d p x).sampleFrom = s.sampleFrom := (rfl)
@[simp] theorem State.setProbeSeq_govs (d p : Nat) (x : ProbeSeq) : (s.setProbeSeq d p x).govs = s.govs := (rfl)
@[simp] theorem State.setProbeSeq_routers (d p : Nat) (x : ProbeSeq) : (s.setProbeSeq d p x).routers = s.routers := (rfl)
@[simp] theorem State.setProbeSeq_wires (d p : Nat) (x : ProbeSeq) : (s.setProbeSeq d p x).wires = s.wires := (rfl)
@[simp] theorem State.setProbeSeq_credWires (d p : Nat) (x : ProbeSeq) : (s.setProbeSeq d p x).credWires = s.credWires := (rfl)
@[simp] theorem State.setProbeSeq_edgeHem (d p : Nat) (x : ProbeSeq) : (s.setProbeSeq d p x).edgeHem = s.edgeHem := (rfl)
@[simp] theorem State.setProbeSeq_seams (d p : Nat) (x : ProbeSeq) : (s.setProbeSeq d p x).seams = s.seams := (rfl)
@[simp] theorem State.setProbeSeq_nis (d p : Nat) (x : ProbeSeq) : (s.setProbeSeq d p x).nis = s.nis := (rfl)
@[simp] theorem State.setProbeSeq_inj (d p : Nat) (x : ProbeSeq) : (s.setProbeSeq d p x).inj = s.inj := (rfl)
@[simp] theorem State.setProbeSeq_stream (d p : Nat) (x : ProbeSeq) : (s.setProbeSeq d p x).stream = s.stream := (rfl)
@[simp] theorem State.setProbeSeq_injCount (d p : Nat) (x : ProbeSeq) : (s.setProbeSeq d p x).injCount = s.injCount := (rfl)
@[simp] theorem State.setProbeSeq_hints (d p : Nat) (x : ProbeSeq) : (s.setProbeSeq d p x).hints = s.hints := (rfl)
@[simp] theorem State.setProbeSeq_outTags (d p : Nat) (x : ProbeSeq) : (s.setProbeSeq d p x).outTags = s.outTags := (rfl)
@[simp] theorem State.setProbeSeq_bursts (d p : Nat) (x : ProbeSeq) : (s.setProbeSeq d p x).bursts = s.bursts := (rfl)
@[simp] theorem State.setProbeSeq_orderHold (d p : Nat) (x : ProbeSeq) : (s.setProbeSeq d p x).orderHold = s.orderHold := (rfl)
@[simp] theorem State.setProbeSeq_halted (d p : Nat) (x : ProbeSeq) : (s.setProbeSeq d p x).halted = s.halted := (rfl)
@[simp] theorem State.setProbeSeq_catchShut (d p : Nat) (x : ProbeSeq) : (s.setProbeSeq d p x).catchShut = s.catchShut := (rfl)
@[simp] theorem State.setProbeSeq_secCount (d p : Nat) (x : ProbeSeq) : (s.setProbeSeq d p x).secCount = s.secCount := (rfl)
@[simp] theorem State.setProbeSeq_dedCount (d p : Nat) (x : ProbeSeq) : (s.setProbeSeq d p x).dedCount = s.dedCount := (rfl)
@[simp] theorem State.setProbeSeq_flog (d p : Nat) (x : ProbeSeq) : (s.setProbeSeq d p x).flog = s.flog := (rfl)
@[simp] theorem State.setProbeSeq_flogFull (d p : Nat) (x : ProbeSeq) : (s.setProbeSeq d p x).flogFull = s.flogFull := (rfl)
@[simp] theorem State.setProbeSeq_fwd (d p : Nat) (x : ProbeSeq) : (s.setProbeSeq d p x).fwd = s.fwd := (rfl)
@[simp] theorem State.setProbeSeq_traces (d p : Nat) (x : ProbeSeq) : (s.setProbeSeq d p x).traces = s.traces := (rfl)
@[simp] theorem State.setProbeSeq_stats (d p : Nat) (x : ProbeSeq) : (s.setProbeSeq d p x).stats = s.stats := (rfl)
@[simp] theorem State.setProbeSeq_prbCount (d p : Nat) (x : ProbeSeq) : (s.setProbeSeq d p x).prbCount = s.prbCount := (rfl)
@[simp] theorem State.setProbeSeq_patRw (d p : Nat) (x : ProbeSeq) : (s.setProbeSeq d p x).patRw = s.patRw := (rfl)
@[simp] theorem State.setProbeSeq_svcAt (d p : Nat) (x : ProbeSeq) : (s.setProbeSeq d p x).svcAt = s.svcAt := (rfl)
@[simp] theorem State.setProbeSeq_timeReq (d p : Nat) (x : ProbeSeq) : (s.setProbeSeq d p x).timeReq = s.timeReq := (rfl)
@[simp] theorem State.setProbeSeq_syncObj (d p : Nat) (x : ProbeSeq) : (s.setProbeSeq d p x).syncObj = s.syncObj := (rfl)
@[simp] theorem State.setProbeSeq_syncInit (d p : Nat) (x : ProbeSeq) : (s.setProbeSeq d p x).syncInit = s.syncInit := (rfl)
@[simp] theorem State.setProbeSeq_syncDone (d p : Nat) (x : ProbeSeq) : (s.setProbeSeq d p x).syncDone = s.syncDone := (rfl)
@[simp] theorem State.setProbeSeq_syncUsed (d p : Nat) (x : ProbeSeq) : (s.setProbeSeq d p x).syncUsed = s.syncUsed := (rfl)
@[simp] theorem State.setProbeSeq_syncLeft (d p : Nat) (x : ProbeSeq) : (s.setProbeSeq d p x).syncLeft = s.syncLeft := (rfl)
@[simp] theorem State.setProbeSeq_syncBreak (d p : Nat) (x : ProbeSeq) : (s.setProbeSeq d p x).syncBreak = s.syncBreak := (rfl)
@[simp] theorem State.setProbeSeq_memports (d p : Nat) (x : ProbeSeq) : (s.setProbeSeq d p x).memports = s.memports := (rfl)
@[simp] theorem State.setProbeSeq_ces (d p : Nat) (x : ProbeSeq) : (s.setProbeSeq d p x).ces = s.ces := (rfl)
@[simp] theorem State.setProbeSeq_ledger (d p : Nat) (x : ProbeSeq) : (s.setProbeSeq d p x).ledger = s.ledger := (rfl)
@[simp] theorem State.setProbeSeq_stores (d p : Nat) (x : ProbeSeq) : (s.setProbeSeq d p x).stores = s.stores := (rfl)
@[simp] theorem State.setProbeSeq_boots (d p : Nat) (x : ProbeSeq) : (s.setProbeSeq d p x).boots = s.boots := (rfl)
@[simp] theorem State.setProbeSeq_msix (d p : Nat) (x : ProbeSeq) : (s.setProbeSeq d p x).msix = s.msix := (rfl)
@[simp] theorem State.setProbeSeq_wins (d p : Nat) (x : ProbeSeq) : (s.setProbeSeq d p x).wins = s.wins := (rfl)
@[simp] theorem State.setProbeSeq_cmtClosed (d p : Nat) (x : ProbeSeq) : (s.setProbeSeq d p x).cmtClosed = s.cmtClosed := (rfl)
@[simp] theorem State.setProbeSeq_coords (d p : Nat) (x : ProbeSeq) : (s.setProbeSeq d p x).coords = s.coords := (rfl)
@[simp] theorem State.setProbeSeq_loader (d p : Nat) (x : ProbeSeq) : (s.setProbeSeq d p x).loader = s.loader := (rfl)
@[simp] theorem State.setProbeSeq_patches (d p : Nat) (x : ProbeSeq) : (s.setProbeSeq d p x).patches = s.patches := (rfl)
@[simp] theorem State.setProbeSeq_patchNum (d p : Nat) (x : ProbeSeq) : (s.setProbeSeq d p x).patchNum = s.patchNum := (rfl)
@[simp] theorem State.setProbeSeq_patchLog (d p : Nat) (x : ProbeSeq) : (s.setProbeSeq d p x).patchLog = s.patchLog := (rfl)
@[simp] theorem State.setProbeSeq_areaUsed (d p : Nat) (x : ProbeSeq) : (s.setProbeSeq d p x).areaUsed = s.areaUsed := (rfl)
@[simp] theorem State.setProbeSeq_posted (d p : Nat) (x : ProbeSeq) : (s.setProbeSeq d p x).posted = s.posted := (rfl)
@[simp] theorem State.setProbeSeq_plWant (d p : Nat) (x : ProbeSeq) : (s.setProbeSeq d p x).plWant = s.plWant := (rfl)
@[simp] theorem State.setProbeSeq_hbs (d p : Nat) (x : ProbeSeq) : (s.setProbeSeq d p x).hbs = s.hbs := (rfl)
@[simp] theorem State.setProbeSeq_hbFrom (d p : Nat) (x : ProbeSeq) : (s.setProbeSeq d p x).hbFrom = s.hbFrom := (rfl)
@[simp] theorem State.setProbeSeq_hbSent (d p : Nat) (x : ProbeSeq) : (s.setProbeSeq d p x).hbSent = s.hbSent := (rfl)
@[simp] theorem State.setProbeSeq_pkgHbSent (d p : Nat) (x : ProbeSeq) : (s.setProbeSeq d p x).pkgHbSent = s.pkgHbSent := (rfl)
@[simp] theorem State.setProbeSeq_suspects (d p : Nat) (x : ProbeSeq) : (s.setProbeSeq d p x).suspects = s.suspects := (rfl)
@[simp] theorem State.setProbeSeq_vseq (d p : Nat) (x : ProbeSeq) : (s.setProbeSeq d p x).vseq = s.vseq := (rfl)
@[simp] theorem State.setProbeSeq_verdictsSeen (d p : Nat) (x : ProbeSeq) : (s.setProbeSeq d p x).verdictsSeen = s.verdictsSeen := (rfl)
@[simp] theorem State.setProbeSeq_deadPkgs (d p : Nat) (x : ProbeSeq) : (s.setProbeSeq d p x).deadPkgs = s.deadPkgs := (rfl)
@[simp] theorem State.setProbeSeq_selfDead (d p : Nat) (x : ProbeSeq) : (s.setProbeSeq d p x).selfDead = s.selfDead := (rfl)
@[simp] theorem State.setProbeSeq_deadUnits (d p : Nat) (x : ProbeSeq) : (s.setProbeSeq d p x).deadUnits = s.deadUnits := (rfl)
@[simp] theorem State.setProbeSeq_probeWires (d p : Nat) (x : ProbeSeq) : (s.setProbeSeq d p x).probeWires = s.probeWires := (rfl)
@[simp] theorem State.setProbeSeq_secWindow (d p : Nat) (x : ProbeSeq) : (s.setProbeSeq d p x).secWindow = s.secWindow := (rfl)
@[simp] theorem State.setProbeSeq_wearFt (d p : Nat) (x : ProbeSeq) : (s.setProbeSeq d p x).wearFt = s.wearFt := (rfl)
@[simp] theorem State.setProbeSeq_telemFt (d p : Nat) (x : ProbeSeq) : (s.setProbeSeq d p x).telemFt = s.telemFt := (rfl)
@[simp] theorem State.setProbeSeq_telem (d p : Nat) (x : ProbeSeq) : (s.setProbeSeq d p x).telem = s.telem := (rfl)
@[simp] theorem State.setProbeSeq_darns (d p : Nat) (x : ProbeSeq) : (s.setProbeSeq d p x).darns = s.darns := (rfl)
@[simp] theorem State.setProbeSeq_stalls (d p : Nat) (x : ProbeSeq) : (s.setProbeSeq d p x).stalls = s.stalls := (rfl)
@[simp] theorem State.setProbeSeq_kickFt (d p : Nat) (x : ProbeSeq) : (s.setProbeSeq d p x).kickFt = s.kickFt := (rfl)
@[simp] theorem State.setProbeSeq_dumps (d p : Nat) (x : ProbeSeq) : (s.setProbeSeq d p x).dumps = s.dumps := (rfl)
@[simp] theorem State.setProbeSeq_mpTrained (d p : Nat) (x : ProbeSeq) : (s.setProbeSeq d p x).mpTrained = s.mpTrained := (rfl)
@[simp] theorem State.setProbeSeq_stopNext (d p : Nat) (x : ProbeSeq) : (s.setProbeSeq d p x).stopNext = s.stopNext := (rfl)
@[simp] theorem State.setProbeSeq_armWait (d p : Nat) (x : ProbeSeq) : (s.setProbeSeq d p x).armWait = s.armWait := (rfl)
@[simp] theorem State.setProbeSeq_stls (d p : Nat) (x : ProbeSeq) : (s.setProbeSeq d p x).stls = s.stls := (rfl)
@[simp] theorem State.setProbeSeq_transitPos (d p : Nat) (x : ProbeSeq) : (s.setProbeSeq d p x).transitPos = s.transitPos := (rfl)
@[simp] theorem State.setProbeSeq_debugFt (d p : Nat) (x : ProbeSeq) : (s.setProbeSeq d p x).debugFt = s.debugFt := (rfl)
@[simp] theorem State.setProbeSeq_debugWait (d p : Nat) (x : ProbeSeq) : (s.setProbeSeq d p x).debugWait = s.debugWait := (rfl)
@[simp] theorem State.setProbeSeq_eraseOnly (d p : Nat) (x : ProbeSeq) : (s.setProbeSeq d p x).eraseOnly = s.eraseOnly := (rfl)
@[simp] theorem State.setProbeSeq_provision (d p : Nat) (x : ProbeSeq) : (s.setProbeSeq d p x).provision = s.provision := (rfl)
@[simp] theorem State.setProbeSeq_barJobs (d p : Nat) (x : ProbeSeq) : (s.setProbeSeq d p x).barJobs = s.barJobs := (rfl)
@[simp] theorem State.setProbeSeq_hostOut (d p : Nat) (x : ProbeSeq) : (s.setProbeSeq d p x).hostOut = s.hostOut := (rfl)
@[simp] theorem State.setProbeSeq_rcsr (d p : Nat) (x : ProbeSeq) : (s.setProbeSeq d p x).rcsr = s.rcsr := (rfl)
@[simp] theorem State.setProbeSeq_tileReset (d p : Nat) (x : ProbeSeq) : (s.setProbeSeq d p x).tileReset = s.tileReset := (rfl)
@[simp] theorem State.setProbeSeq_pkgMend (d p : Nat) (x : ProbeSeq) : (s.setProbeSeq d p x).pkgMend = s.pkgMend := (rfl)
@[simp] theorem State.setProbeSeq_rejoinFt (d p : Nat) (x : ProbeSeq) : (s.setProbeSeq d p x).rejoinFt = s.rejoinFt := (rfl)
@[simp] theorem State.setProbeSeq_testFails (d p : Nat) (x : ProbeSeq) : (s.setProbeSeq d p x).testFails = s.testFails := (rfl)
@[simp] theorem State.setProbeSeq_testReport (d p : Nat) (x : ProbeSeq) : (s.setProbeSeq d p x).testReport = s.testReport := (rfl)

/-! `setDump` -/

@[simp] theorem State.setDump_pending (q : Nat) (x : Dump) : (s.setDump q x).pending = s.pending := (rfl)
@[simp] theorem State.setDump_free (q : Nat) (x : Dump) : (s.setDump q x).free = s.free := (rfl)
@[simp] theorem State.setDump_setNow (q : Nat) (x : Dump) : (s.setDump q x).setNow = s.setNow := (rfl)
@[simp] theorem State.setDump_wroteNow (q : Nat) (x : Dump) : (s.setDump q x).wroteNow = s.wroteNow := (rfl)
@[simp] theorem State.setDump_floor (q : Nat) (x : Dump) : (s.setDump q x).floor = s.floor := (rfl)
@[simp] theorem State.setDump_physical (q : Nat) (x : Dump) : (s.setDump q x).physical = s.physical := (rfl)
@[simp] theorem State.setDump_memOwned (q : Nat) (x : Dump) : (s.setDump q x).memOwned = s.memOwned := (rfl)
@[simp] theorem State.setDump_csr (q : Nat) (x : Dump) : (s.setDump q x).csr = s.csr := (rfl)
@[simp] theorem State.setDump_mem (q : Nat) (x : Dump) : (s.setDump q x).mem = s.mem := (rfl)
@[simp] theorem State.setDump_mode (q : Nat) (x : Dump) : (s.setDump q x).mode = s.mode := (rfl)
@[simp] theorem State.setDump_headDie (q : Nat) (x : Dump) : (s.setDump q x).headDie = s.headDie := (rfl)
@[simp] theorem State.setDump_mirrorDie (q : Nat) (x : Dump) : (s.setDump q x).mirrorDie = s.mirrorDie := (rfl)
@[simp] theorem State.setDump_slotTab (q : Nat) (x : Dump) : (s.setDump q x).slotTab = s.slotTab := (rfl)
@[simp] theorem State.setDump_treeTab (q : Nat) (x : Dump) : (s.setDump q x).treeTab = s.treeTab := (rfl)
@[simp] theorem State.setDump_joinTab (q : Nat) (x : Dump) : (s.setDump q x).joinTab = s.joinTab := (rfl)
@[simp] theorem State.setDump_routeTab (q : Nat) (x : Dump) : (s.setDump q x).routeTab = s.routeTab := (rfl)
@[simp] theorem State.setDump_routeStore (q : Nat) (x : Dump) : (s.setDump q x).routeStore = s.routeStore := (rfl)
@[simp] theorem State.setDump_arrivalTab (q : Nat) (x : Dump) : (s.setDump q x).arrivalTab = s.arrivalTab := (rfl)
@[simp] theorem State.setDump_gateTab (q : Nat) (x : Dump) : (s.setDump q x).gateTab = s.gateTab := (rfl)
@[simp] theorem State.setDump_keepers (q : Nat) (x : Dump) : (s.setDump q x).keepers = s.keepers := (rfl)
@[simp] theorem State.setDump_regions (q : Nat) (x : Dump) : (s.setDump q x).regions = s.regions := (rfl)
@[simp] theorem State.setDump_panelReq (q : Nat) (x : Dump) : (s.setDump q x).panelReq = s.panelReq := (rfl)
@[simp] theorem State.setDump_gates (q : Nat) (x : Dump) : (s.setDump q x).gates = s.gates := (rfl)
@[simp] theorem State.setDump_shapers (q : Nat) (x : Dump) : (s.setDump q x).shapers = s.shapers := (rfl)
@[simp] theorem State.setDump_sampleFrom (q : Nat) (x : Dump) : (s.setDump q x).sampleFrom = s.sampleFrom := (rfl)
@[simp] theorem State.setDump_govs (q : Nat) (x : Dump) : (s.setDump q x).govs = s.govs := (rfl)
@[simp] theorem State.setDump_routers (q : Nat) (x : Dump) : (s.setDump q x).routers = s.routers := (rfl)
@[simp] theorem State.setDump_wires (q : Nat) (x : Dump) : (s.setDump q x).wires = s.wires := (rfl)
@[simp] theorem State.setDump_credWires (q : Nat) (x : Dump) : (s.setDump q x).credWires = s.credWires := (rfl)
@[simp] theorem State.setDump_edgeHem (q : Nat) (x : Dump) : (s.setDump q x).edgeHem = s.edgeHem := (rfl)
@[simp] theorem State.setDump_seams (q : Nat) (x : Dump) : (s.setDump q x).seams = s.seams := (rfl)
@[simp] theorem State.setDump_nis (q : Nat) (x : Dump) : (s.setDump q x).nis = s.nis := (rfl)
@[simp] theorem State.setDump_inj (q : Nat) (x : Dump) : (s.setDump q x).inj = s.inj := (rfl)
@[simp] theorem State.setDump_stream (q : Nat) (x : Dump) : (s.setDump q x).stream = s.stream := (rfl)
@[simp] theorem State.setDump_injCount (q : Nat) (x : Dump) : (s.setDump q x).injCount = s.injCount := (rfl)
@[simp] theorem State.setDump_hints (q : Nat) (x : Dump) : (s.setDump q x).hints = s.hints := (rfl)
@[simp] theorem State.setDump_outTags (q : Nat) (x : Dump) : (s.setDump q x).outTags = s.outTags := (rfl)
@[simp] theorem State.setDump_bursts (q : Nat) (x : Dump) : (s.setDump q x).bursts = s.bursts := (rfl)
@[simp] theorem State.setDump_orderHold (q : Nat) (x : Dump) : (s.setDump q x).orderHold = s.orderHold := (rfl)
@[simp] theorem State.setDump_halted (q : Nat) (x : Dump) : (s.setDump q x).halted = s.halted := (rfl)
@[simp] theorem State.setDump_catchShut (q : Nat) (x : Dump) : (s.setDump q x).catchShut = s.catchShut := (rfl)
@[simp] theorem State.setDump_secCount (q : Nat) (x : Dump) : (s.setDump q x).secCount = s.secCount := (rfl)
@[simp] theorem State.setDump_dedCount (q : Nat) (x : Dump) : (s.setDump q x).dedCount = s.dedCount := (rfl)
@[simp] theorem State.setDump_flog (q : Nat) (x : Dump) : (s.setDump q x).flog = s.flog := (rfl)
@[simp] theorem State.setDump_flogFull (q : Nat) (x : Dump) : (s.setDump q x).flogFull = s.flogFull := (rfl)
@[simp] theorem State.setDump_fwd (q : Nat) (x : Dump) : (s.setDump q x).fwd = s.fwd := (rfl)
@[simp] theorem State.setDump_traces (q : Nat) (x : Dump) : (s.setDump q x).traces = s.traces := (rfl)
@[simp] theorem State.setDump_stats (q : Nat) (x : Dump) : (s.setDump q x).stats = s.stats := (rfl)
@[simp] theorem State.setDump_prbCount (q : Nat) (x : Dump) : (s.setDump q x).prbCount = s.prbCount := (rfl)
@[simp] theorem State.setDump_patRw (q : Nat) (x : Dump) : (s.setDump q x).patRw = s.patRw := (rfl)
@[simp] theorem State.setDump_svcAt (q : Nat) (x : Dump) : (s.setDump q x).svcAt = s.svcAt := (rfl)
@[simp] theorem State.setDump_timeReq (q : Nat) (x : Dump) : (s.setDump q x).timeReq = s.timeReq := (rfl)
@[simp] theorem State.setDump_syncObj (q : Nat) (x : Dump) : (s.setDump q x).syncObj = s.syncObj := (rfl)
@[simp] theorem State.setDump_syncInit (q : Nat) (x : Dump) : (s.setDump q x).syncInit = s.syncInit := (rfl)
@[simp] theorem State.setDump_syncDone (q : Nat) (x : Dump) : (s.setDump q x).syncDone = s.syncDone := (rfl)
@[simp] theorem State.setDump_syncUsed (q : Nat) (x : Dump) : (s.setDump q x).syncUsed = s.syncUsed := (rfl)
@[simp] theorem State.setDump_syncLeft (q : Nat) (x : Dump) : (s.setDump q x).syncLeft = s.syncLeft := (rfl)
@[simp] theorem State.setDump_syncBreak (q : Nat) (x : Dump) : (s.setDump q x).syncBreak = s.syncBreak := (rfl)
@[simp] theorem State.setDump_memports (q : Nat) (x : Dump) : (s.setDump q x).memports = s.memports := (rfl)
@[simp] theorem State.setDump_ces (q : Nat) (x : Dump) : (s.setDump q x).ces = s.ces := (rfl)
@[simp] theorem State.setDump_ledger (q : Nat) (x : Dump) : (s.setDump q x).ledger = s.ledger := (rfl)
@[simp] theorem State.setDump_stores (q : Nat) (x : Dump) : (s.setDump q x).stores = s.stores := (rfl)
@[simp] theorem State.setDump_boots (q : Nat) (x : Dump) : (s.setDump q x).boots = s.boots := (rfl)
@[simp] theorem State.setDump_msix (q : Nat) (x : Dump) : (s.setDump q x).msix = s.msix := (rfl)
@[simp] theorem State.setDump_wins (q : Nat) (x : Dump) : (s.setDump q x).wins = s.wins := (rfl)
@[simp] theorem State.setDump_cmtClosed (q : Nat) (x : Dump) : (s.setDump q x).cmtClosed = s.cmtClosed := (rfl)
@[simp] theorem State.setDump_coords (q : Nat) (x : Dump) : (s.setDump q x).coords = s.coords := (rfl)
@[simp] theorem State.setDump_loader (q : Nat) (x : Dump) : (s.setDump q x).loader = s.loader := (rfl)
@[simp] theorem State.setDump_patches (q : Nat) (x : Dump) : (s.setDump q x).patches = s.patches := (rfl)
@[simp] theorem State.setDump_patchNum (q : Nat) (x : Dump) : (s.setDump q x).patchNum = s.patchNum := (rfl)
@[simp] theorem State.setDump_patchLog (q : Nat) (x : Dump) : (s.setDump q x).patchLog = s.patchLog := (rfl)
@[simp] theorem State.setDump_areaUsed (q : Nat) (x : Dump) : (s.setDump q x).areaUsed = s.areaUsed := (rfl)
@[simp] theorem State.setDump_posted (q : Nat) (x : Dump) : (s.setDump q x).posted = s.posted := (rfl)
@[simp] theorem State.setDump_plWant (q : Nat) (x : Dump) : (s.setDump q x).plWant = s.plWant := (rfl)
@[simp] theorem State.setDump_hbs (q : Nat) (x : Dump) : (s.setDump q x).hbs = s.hbs := (rfl)
@[simp] theorem State.setDump_hbFrom (q : Nat) (x : Dump) : (s.setDump q x).hbFrom = s.hbFrom := (rfl)
@[simp] theorem State.setDump_hbSent (q : Nat) (x : Dump) : (s.setDump q x).hbSent = s.hbSent := (rfl)
@[simp] theorem State.setDump_pkgHbSent (q : Nat) (x : Dump) : (s.setDump q x).pkgHbSent = s.pkgHbSent := (rfl)
@[simp] theorem State.setDump_suspects (q : Nat) (x : Dump) : (s.setDump q x).suspects = s.suspects := (rfl)
@[simp] theorem State.setDump_vseq (q : Nat) (x : Dump) : (s.setDump q x).vseq = s.vseq := (rfl)
@[simp] theorem State.setDump_verdictsSeen (q : Nat) (x : Dump) : (s.setDump q x).verdictsSeen = s.verdictsSeen := (rfl)
@[simp] theorem State.setDump_deadPkgs (q : Nat) (x : Dump) : (s.setDump q x).deadPkgs = s.deadPkgs := (rfl)
@[simp] theorem State.setDump_selfDead (q : Nat) (x : Dump) : (s.setDump q x).selfDead = s.selfDead := (rfl)
@[simp] theorem State.setDump_deadUnits (q : Nat) (x : Dump) : (s.setDump q x).deadUnits = s.deadUnits := (rfl)
@[simp] theorem State.setDump_probeSeqs (q : Nat) (x : Dump) : (s.setDump q x).probeSeqs = s.probeSeqs := (rfl)
@[simp] theorem State.setDump_probeWires (q : Nat) (x : Dump) : (s.setDump q x).probeWires = s.probeWires := (rfl)
@[simp] theorem State.setDump_secWindow (q : Nat) (x : Dump) : (s.setDump q x).secWindow = s.secWindow := (rfl)
@[simp] theorem State.setDump_wearFt (q : Nat) (x : Dump) : (s.setDump q x).wearFt = s.wearFt := (rfl)
@[simp] theorem State.setDump_telemFt (q : Nat) (x : Dump) : (s.setDump q x).telemFt = s.telemFt := (rfl)
@[simp] theorem State.setDump_telem (q : Nat) (x : Dump) : (s.setDump q x).telem = s.telem := (rfl)
@[simp] theorem State.setDump_darns (q : Nat) (x : Dump) : (s.setDump q x).darns = s.darns := (rfl)
@[simp] theorem State.setDump_stalls (q : Nat) (x : Dump) : (s.setDump q x).stalls = s.stalls := (rfl)
@[simp] theorem State.setDump_kickFt (q : Nat) (x : Dump) : (s.setDump q x).kickFt = s.kickFt := (rfl)
@[simp] theorem State.setDump_mpTrained (q : Nat) (x : Dump) : (s.setDump q x).mpTrained = s.mpTrained := (rfl)
@[simp] theorem State.setDump_stopNext (q : Nat) (x : Dump) : (s.setDump q x).stopNext = s.stopNext := (rfl)
@[simp] theorem State.setDump_armWait (q : Nat) (x : Dump) : (s.setDump q x).armWait = s.armWait := (rfl)
@[simp] theorem State.setDump_stls (q : Nat) (x : Dump) : (s.setDump q x).stls = s.stls := (rfl)
@[simp] theorem State.setDump_transitPos (q : Nat) (x : Dump) : (s.setDump q x).transitPos = s.transitPos := (rfl)
@[simp] theorem State.setDump_debugFt (q : Nat) (x : Dump) : (s.setDump q x).debugFt = s.debugFt := (rfl)
@[simp] theorem State.setDump_debugWait (q : Nat) (x : Dump) : (s.setDump q x).debugWait = s.debugWait := (rfl)
@[simp] theorem State.setDump_eraseOnly (q : Nat) (x : Dump) : (s.setDump q x).eraseOnly = s.eraseOnly := (rfl)
@[simp] theorem State.setDump_provision (q : Nat) (x : Dump) : (s.setDump q x).provision = s.provision := (rfl)
@[simp] theorem State.setDump_barJobs (q : Nat) (x : Dump) : (s.setDump q x).barJobs = s.barJobs := (rfl)
@[simp] theorem State.setDump_hostOut (q : Nat) (x : Dump) : (s.setDump q x).hostOut = s.hostOut := (rfl)
@[simp] theorem State.setDump_rcsr (q : Nat) (x : Dump) : (s.setDump q x).rcsr = s.rcsr := (rfl)
@[simp] theorem State.setDump_tileReset (q : Nat) (x : Dump) : (s.setDump q x).tileReset = s.tileReset := (rfl)
@[simp] theorem State.setDump_pkgMend (q : Nat) (x : Dump) : (s.setDump q x).pkgMend = s.pkgMend := (rfl)
@[simp] theorem State.setDump_rejoinFt (q : Nat) (x : Dump) : (s.setDump q x).rejoinFt = s.rejoinFt := (rfl)
@[simp] theorem State.setDump_testFails (q : Nat) (x : Dump) : (s.setDump q x).testFails = s.testFails := (rfl)
@[simp] theorem State.setDump_testReport (q : Nat) (x : Dump) : (s.setDump q x).testReport = s.testReport := (rfl)

end Sys2Proof.Machine
end

