-- ==== Sys2Proof/Laws/Outcomes.lean ====
section
/-! SUPPORT. What every next state of an outcome satisfies, and what a fold of steps leaves as it was. -/

set_option Elab.async false

namespace Sys2Proof.Machine

open Sys2Proof

@[simp] theorem always_next (P : State → Prop) (t : State) : Always P (.next t) ↔ P t := Iff.rfl
@[simp] theorem always_fault (P : State → Prop) (r : Fault) : Always P (.fault r) := trivial
@[simp] theorem always_refused (P : State → Prop) (r : Refusal) : Always P (.refused r) := trivial
@[simp] theorem always_onUnit (P : State → Prop) (b : Bool) (t : State) : Always P (onUnit b t) ↔ (b = true → P t) := by
  cases b <;> simp [onUnit]

@[simp] theorem foldl_pending {β : Type} (f : State → β → State) (hf : ∀ s b, (f s b).pending = s.pending) (l : List β) (s : State) :
    (l.foldl f s).pending = s.pending := by
  induction l generalizing s with
  | nil => rfl
  | cons b l ih => simp [ih, hf]

@[simp] theorem foldl_mem {β : Type} (f : State → β → State) (hf : ∀ s b, (f s b).mem = s.mem) (l : List β) (s : State) :
    (l.foldl f s).mem = s.mem := by
  induction l generalizing s with
  | nil => rfl
  | cons b l ih => simp [ih, hf]

@[simp] theorem foldl_memwf {β : Type} (f : State → β → State) (hf : ∀ s b, Memory.wf s.mem = true → Memory.wf (f s b).mem = true)
    (l : List β) (s : State) (h : Memory.wf s.mem = true) : Memory.wf (l.foldl f s).mem = true := by
  induction l generalizing s with
  | nil => exact h
  | cons b l ih => exact ih _ (hf _ _ h)

@[simp] theorem foldl_memorywf {β : Type} (f : List Host.Cell → β → List Host.Cell)
    (hf : ∀ m b, Memory.wf m = true → Memory.wf (f m b) = true) (l : List β) (m : List Host.Cell) (h : Memory.wf m = true) :
    Memory.wf (l.foldl f m) = true := foldl_wf f hf l h

end Sys2Proof.Machine
end

