-- ==== Sys2Proof/Laws/PerInstr.lean ====
section
/-! SUPPORT. What well-formedness says of every command, one lemma per command. -/

set_option Elab.async false

namespace Sys2Proof.Laws.WellFormed

/-- A well-formed command that names a die names one that DEST.DIE can hold (R65). -/
def Statement (i : Instr) : Prop := i.wf = true → ∀ x, i.die = some x → x < 128

theorem coldReset (d : Nat) : Statement (.coldReset d) := by
  simp +contextual [Statement, Instr.wf, Instr.die]

theorem timeKeeperTick (d : Nat) (w : Clk) (e : Clk) : Statement (.timeKeeperTick d w e) := by
  simp +contextual [Statement, Instr.wf, Instr.die]

theorem roundBoundary (d : Nat) : Statement (.roundBoundary d) := by
  simp +contextual [Statement, Instr.wf, Instr.die]

theorem reservedSlotStart (d : Nat) (p : Nat) (o : Nat) : Statement (.reservedSlotStart d p o) := by
  simp +contextual [Statement, Instr.wf, Instr.die]

theorem outputArbitration (d : Nat) (p : Nat) (o : Nat) : Statement (.outputArbitration d p o) := by
  simp +contextual [Statement, Instr.wf, Instr.die]

theorem routerHeaderArrival (d : Nat) (p : Nat) (j : Nat) : Statement (.routerHeaderArrival d p j) := by
  simp +contextual [Statement, Instr.wf, Instr.die]

theorem linkUnitArrival (d : Nat) (p : Nat) (i : Nat) (u : LinkUnit) : Statement (.linkUnitArrival d p i u) := by
  simp +contextual [Statement, Instr.wf, Instr.die]

theorem contextCeiling (d : Nat) (p : Nat) (c : Nat) : Statement (.contextCeiling d p c) := by
  simp +contextual [Statement, Instr.wf, Instr.die]

theorem tpInjectUnit (d : Nat) (p : Nat) (v : Nat) (last : Bool) (u : DataUnit) : Statement (.tpInjectUnit d p v last u) := by
  simp +contextual [Statement, Instr.wf, Instr.die]

theorem niInject (d : Nat) (att : Nat) (v : Nat) : Statement (.niInject d att v) := by
  simp +contextual [Statement, Instr.wf, Instr.die]

theorem orderedDrainEnd (d : Nat) (att : Nat) : Statement (.orderedDrainEnd d att) := by
  simp +contextual [Statement, Instr.wf, Instr.die]

theorem tpDeliver (d : Nat) (p : Nat) (v : Nat) : Statement (.tpDeliver d p v) := by
  simp +contextual [Statement, Instr.wf, Instr.die]

theorem tpGenLoaded (d : Nat) (p : Nat) (gen : Nat) : Statement (.tpGenLoaded d p gen) := by
  simp +contextual [Statement, Instr.wf, Instr.die]

theorem tpReadData (d : Nat) (p : Nat) (tag : Nat) : Statement (.tpReadData d p tag) := by
  simp +contextual [Statement, Instr.wf, Instr.die]

theorem twinNotice (d : Nat) (p : Nat) (addr : Nat) (be : Nat) (u : DataUnit) : Statement (.twinNotice d p addr be u) := by
  simp +contextual [Statement, Instr.wf, Instr.die]

theorem write (d : Nat) (att : Nat) (p : Packet) : Statement (.write d att p) := by
  simp +contextual [Statement, Instr.wf, Instr.die]

theorem writeAck (d : Nat) (att : Nat) (p : Packet) : Statement (.writeAck d att p) := by
  simp +contextual [Statement, Instr.wf, Instr.die]

theorem write8 (d : Nat) (att : Nat) (p : Packet) : Statement (.write8 d att p) := by
  simp +contextual [Statement, Instr.wf, Instr.die]

theorem read (d : Nat) (att : Nat) (p : Packet) : Statement (.read d att p) := by
  simp +contextual [Statement, Instr.wf, Instr.die]

theorem readData (d : Nat) (att : Nat) (p : Packet) : Statement (.readData d att p) := by
  simp +contextual [Statement, Instr.wf, Instr.die]

theorem ack (d : Nat) (att : Nat) (p : Packet) : Statement (.ack d att p) := by
  simp +contextual [Statement, Instr.wf, Instr.die]

theorem syncRead (d : Nat) (h : Hdr) : Statement (.syncRead d h) := by
  simp +contextual [Statement, Instr.wf, Instr.die]

theorem syncInit (d : Nat) (h : Hdr) : Statement (.syncInit d h) := by
  simp +contextual [Statement, Instr.wf, Instr.die]

theorem syncAdd (d : Nat) (h : Hdr) : Statement (.syncAdd d h) := by
  simp +contextual [Statement, Instr.wf, Instr.die]

theorem syncArrive (d : Nat) (h : Hdr) : Statement (.syncArrive d h) := by
  simp +contextual [Statement, Instr.wf, Instr.die]

theorem syncTake (d : Nat) (h : Hdr) : Statement (.syncTake d h) := by
  simp +contextual [Statement, Instr.wf, Instr.die]

theorem syncAcquire (d : Nat) (h : Hdr) : Statement (.syncAcquire d h) := by
  simp +contextual [Statement, Instr.wf, Instr.die]

theorem syncUnlock (d : Nat) (h : Hdr) : Statement (.syncUnlock d h) := by
  simp +contextual [Statement, Instr.wf, Instr.die]

theorem syncSet (d : Nat) (h : Hdr) : Statement (.syncSet d h) := by
  simp +contextual [Statement, Instr.wf, Instr.die]

theorem syncSetMax (d : Nat) (h : Hdr) : Statement (.syncSetMax d h) := by
  simp +contextual [Statement, Instr.wf, Instr.die]

theorem syncWait (d : Nat) (h : Hdr) : Statement (.syncWait d h) := by
  simp +contextual [Statement, Instr.wf, Instr.die]

theorem syncCancel (d : Nat) (h : Hdr) : Statement (.syncCancel d h) := by
  simp +contextual [Statement, Instr.wf, Instr.die]

theorem syncRelease (d : Nat) (k : Nat) (h : Hdr) : Statement (.syncRelease d k h) := by
  simp +contextual [Statement, Instr.wf, Instr.die]

theorem commitStage (d : Nat) (p : Packet) : Statement (.commitStage d p) := by
  simp +contextual [Statement, Instr.wf, Instr.die]

theorem commitAck (d : Nat) (k : Nat) (h : Hdr) : Statement (.commitAck d k h) := by
  simp +contextual [Statement, Instr.wf, Instr.die]

theorem confirm (d : Nat) (h : Hdr) : Statement (.confirm d h) := by
  simp +contextual [Statement, Instr.wf, Instr.die]

theorem targetReport (d : Nat) (att : Nat) (h : Hdr) : Statement (.targetReport d att h) := by
  simp +contextual [Statement, Instr.wf, Instr.die]

theorem commitOutcome (d : Nat) (k : Nat) (h : Hdr) : Statement (.commitOutcome d k h) := by
  simp +contextual [Statement, Instr.wf, Instr.die]

theorem collData (d : Nat) (att : Nat) (p : Packet) : Statement (.collData d att p) := by
  simp +contextual [Statement, Instr.wf, Instr.die]

theorem a2aData (d : Nat) (att : Nat) (p : Packet) : Statement (.a2aData d att p) := by
  simp +contextual [Statement, Instr.wf, Instr.die]

theorem a2aCount (d : Nat) (att : Nat) (p : Packet) : Statement (.a2aCount d att p) := by
  simp +contextual [Statement, Instr.wf, Instr.die]

theorem pour (d : Nat) (att : Nat) (p : Packet) : Statement (.pour d att p) := by
  simp +contextual [Statement, Instr.wf, Instr.die]

theorem chunkNack (d : Nat) (k : Nat) (h : Hdr) : Statement (.chunkNack d k h) := by
  simp +contextual [Statement, Instr.wf, Instr.die]

theorem abort (d : Nat) (k : Nat) (h : Hdr) : Statement (.abort d k h) := by
  simp +contextual [Statement, Instr.wf, Instr.die]

theorem redSum (d : Nat) (att : Nat) (p : Packet) (residue : Bool) : Statement (.redSum d att p residue) := by
  simp +contextual [Statement, Instr.wf, Instr.die]

theorem redMax (d : Nat) (att : Nat) (p : Packet) (residue : Bool) : Statement (.redMax d att p residue) := by
  simp +contextual [Statement, Instr.wf, Instr.die]

theorem redMin (d : Nat) (att : Nat) (p : Packet) (residue : Bool) : Statement (.redMin d att p residue) := by
  simp +contextual [Statement, Instr.wf, Instr.die]

theorem redProd (d : Nat) (att : Nat) (p : Packet) (residue : Bool) : Statement (.redProd d att p residue) := by
  simp +contextual [Statement, Instr.wf, Instr.die]

theorem redAnd (d : Nat) (att : Nat) (p : Packet) (residue : Bool) : Statement (.redAnd d att p residue) := by
  simp +contextual [Statement, Instr.wf, Instr.die]

theorem redOr (d : Nat) (att : Nat) (p : Packet) (residue : Bool) : Statement (.redOr d att p residue) := by
  simp +contextual [Statement, Instr.wf, Instr.die]

theorem redXor (d : Nat) (att : Nat) (p : Packet) (residue : Bool) : Statement (.redXor d att p residue) := by
  simp +contextual [Statement, Instr.wf, Instr.die]

theorem dieHeartbeat (d : Nat) (att : Nat) (h : Hdr) : Statement (.dieHeartbeat d att h) := by
  simp +contextual [Statement, Instr.wf, Instr.die]

theorem packageHeartbeat (d : Nat) (att : Nat) (h : Hdr) : Statement (.packageHeartbeat d att h) := by
  simp +contextual [Statement, Instr.wf, Instr.die]

theorem verdict (d : Nat) (att : Nat) (h : Hdr) : Statement (.verdict d att h) := by
  simp +contextual [Statement, Instr.wf, Instr.die]

theorem suspect (d : Nat) (att : Nat) (h : Hdr) : Statement (.suspect d att h) := by
  simp +contextual [Statement, Instr.wf, Instr.die]

theorem timeXferRequest (d : Nat) (att : Nat) (p : Packet) : Statement (.timeXferRequest d att p) := by
  simp +contextual [Statement, Instr.wf, Instr.die]

theorem timeXferResponse (d : Nat) (att : Nat) (p : Packet) : Statement (.timeXferResponse d att p) := by
  simp +contextual [Statement, Instr.wf, Instr.die]

theorem probe (d : Nat) (p : Nat) (i : Nat) (pk : Packet) : Statement (.probe d p i pk) := by
  simp +contextual [Statement, Instr.wf, Instr.die]

theorem genToken (d : Nat) (p : Nat) (h : Hdr) : Statement (.genToken d p h) := by
  simp +contextual [Statement, Instr.wf, Instr.die]

theorem csrRead (d : Nat) (att : Nat) (p : Packet) : Statement (.csrRead d att p) := by
  simp +contextual [Statement, Instr.wf, Instr.die]

theorem csrWrite (d : Nat) (att : Nat) (p : Packet) : Statement (.csrWrite d att p) := by
  simp +contextual [Statement, Instr.wf, Instr.die]

theorem csrData (d : Nat) (att : Nat) (p : Packet) : Statement (.csrData d att p) := by
  simp +contextual [Statement, Instr.wf, Instr.die]

theorem trace (d : Nat) (att : Nat) (p : Packet) : Statement (.trace d att p) := by
  simp +contextual [Statement, Instr.wf, Instr.die]

theorem descriptorFetch (d : Nat) (k : Nat) (e : Nat) : Statement (.descriptorFetch d k e) := by
  simp +contextual [Statement, Instr.wf, Instr.die]

theorem descriptorFetchRetry (d : Nat) (k : Nat) (e : Nat) : Statement (.descriptorFetchRetry d k e) := by
  simp +contextual [Statement, Instr.wf, Instr.die]

theorem nop (d : Nat) (k : Nat) (e : Nat) : Statement (.nop d k e) := by
  simp +contextual [Statement, Instr.wf, Instr.die]

theorem allReduce (d : Nat) (k : Nat) (e : Nat) : Statement (.allReduce d k e) := by
  simp +contextual [Statement, Instr.wf, Instr.die]

theorem reduce (d : Nat) (k : Nat) (e : Nat) : Statement (.reduce d k e) := by
  simp +contextual [Statement, Instr.wf, Instr.die]

theorem reduceScatter (d : Nat) (k : Nat) (e : Nat) : Statement (.reduceScatter d k e) := by
  simp +contextual [Statement, Instr.wf, Instr.die]

theorem allGather (d : Nat) (k : Nat) (e : Nat) : Statement (.allGather d k e) := by
  simp +contextual [Statement, Instr.wf, Instr.die]

theorem broadcast (d : Nat) (k : Nat) (e : Nat) : Statement (.broadcast d k e) := by
  simp +contextual [Statement, Instr.wf, Instr.die]

theorem allToAll (d : Nat) (k : Nat) (e : Nat) : Statement (.allToAll d k e) := by
  simp +contextual [Statement, Instr.wf, Instr.die]

theorem allToAllV (d : Nat) (k : Nat) (e : Nat) : Statement (.allToAllV d k e) := by
  simp +contextual [Statement, Instr.wf, Instr.die]

theorem barrier (d : Nat) (k : Nat) (e : Nat) : Statement (.barrier d k e) := by
  simp +contextual [Statement, Instr.wf, Instr.die]

theorem chunkStart (d : Nat) (k : Nat) (e : Nat) (tag : Nat) : Statement (.chunkStart d k e tag) := by
  simp +contextual [Statement, Instr.wf, Instr.die]

theorem stagingWaitEnd (d : Nat) (k : Nat) : Statement (.stagingWaitEnd d k) := by
  simp +contextual [Statement, Instr.wf, Instr.die]

theorem orderSend (d : Nat) (p : Nat) : Statement (.orderSend d p) := by
  simp +contextual [Statement, Instr.wf, Instr.die]

theorem orderClear (d : Nat) (p : Nat) : Statement (.orderClear d p) := by
  simp +contextual [Statement, Instr.wf, Instr.die]

theorem orderCancel (d : Nat) (p : Nat) : Statement (.orderCancel d p) := by
  simp +contextual [Statement, Instr.wf, Instr.die]

theorem orderReport (d : Nat) (p : Nat) : Statement (.orderReport d p) := by
  simp +contextual [Statement, Instr.wf, Instr.die]

theorem chunkTimeout (d : Nat) (att : Nat) (n : Nat) : Statement (.chunkTimeout d att n) := by
  simp +contextual [Statement, Instr.wf, Instr.die]

theorem chunkResend (d : Nat) (k : Nat) (e : Nat) (tag : Nat) : Statement (.chunkResend d k e tag) := by
  simp +contextual [Statement, Instr.wf, Instr.die]

theorem ceHang (d : Nat) (k : Nat) (e : Nat) (tag : Nat) : Statement (.ceHang d k e tag) := by
  simp +contextual [Statement, Instr.wf, Instr.die]

theorem operationEnd (d : Nat) (k : Nat) (e : Nat) (tag : Nat) : Statement (.operationEnd d k e tag) := by
  simp +contextual [Statement, Instr.wf, Instr.die]

theorem ceGroupCtlSkip (d : Nat) (k : Nat) (e : Nat) : Statement (.ceGroupCtlSkip d k e) := by
  simp +contextual [Statement, Instr.wf, Instr.die]

theorem ceGroupCtlResume (d : Nat) (k : Nat) (e : Nat) : Statement (.ceGroupCtlResume d k e) := by
  simp +contextual [Statement, Instr.wf, Instr.die]

theorem ceGtDataWrite (d : Nat) (k : Nat) (v : Word) : Statement (.ceGtDataWrite d k v) := by
  simp +contextual [Statement, Instr.wf, Instr.die]

theorem lockCeilingExamine (d : Nat) : Statement (.lockCeilingExamine d) := by
  simp +contextual [Statement, Instr.wf, Instr.die]

theorem synBreak (d : Nat) (v : Word) : Statement (.synBreak d v) := by
  simp +contextual [Statement, Instr.wf, Instr.die]

theorem synObjLoWrite (d : Nat) (o : Nat) (v : Word) : Statement (.synObjLoWrite d o v) := by
  simp +contextual [Statement, Instr.wf, Instr.die]

theorem commitRequestFetch (d : Nat) (k : Nat) : Statement (.commitRequestFetch d k) := by
  simp +contextual [Statement, Instr.wf, Instr.die]

theorem confirmDeadline (d : Nat) (k : Nat) (n : Nat) : Statement (.confirmDeadline d k n) := by
  simp +contextual [Statement, Instr.wf, Instr.die]

theorem outcomeWaitExpiry (d : Nat) (k : Nat) (n : Nat) : Statement (.outcomeWaitExpiry d k n) := by
  simp +contextual [Statement, Instr.wf, Instr.die]

theorem commitApply (d : Nat) : Statement (.commitApply d) := by
  simp +contextual [Statement, Instr.wf, Instr.die]

theorem recorderDecision (d : Nat) : Statement (.recorderDecision d) := by
  simp +contextual [Statement, Instr.wf, Instr.die]

theorem frameTransmit (d : Nat) : Statement (.frameTransmit d) := by
  simp +contextual [Statement, Instr.wf, Instr.die]

theorem idleFrame (d : Nat) (f : StRx) : Statement (.idleFrame d f) := by
  simp +contextual [Statement, Instr.wf, Instr.die]

theorem dataFrame (d : Nat) (f : StRx) : Statement (.dataFrame d f) := by
  simp +contextual [Statement, Instr.wf, Instr.die]

theorem ingressForward (d : Nat) : Statement (.ingressForward d) := by
  simp +contextual [Statement, Instr.wf, Instr.die]

theorem stitchTimeRequest (d : Nat) (f : StRx) : Statement (.stitchTimeRequest d f) := by
  simp +contextual [Statement, Instr.wf, Instr.die]

theorem stitchTimeResponse (d : Nat) (f : StRx) : Statement (.stitchTimeResponse d f) := by
  simp +contextual [Statement, Instr.wf, Instr.die]

theorem fenceFrame (d : Nat) (f : StRx) : Statement (.fenceFrame d f) := by
  simp +contextual [Statement, Instr.wf, Instr.die]

theorem laneRequest (d : Nat) (f : StRx) : Statement (.laneRequest d f) := by
  simp +contextual [Statement, Instr.wf, Instr.die]

theorem laneAck (d : Nat) (f : StRx) : Statement (.laneAck d f) := by
  simp +contextual [Statement, Instr.wf, Instr.die]

theorem initFrame (d : Nat) (f : StRx) : Statement (.initFrame d f) := by
  simp +contextual [Statement, Instr.wf, Instr.die]

theorem fecLockLoss (d : Nat) : Statement (.fecLockLoss d) := by
  simp +contextual [Statement, Instr.wf, Instr.die]

theorem noFrameTimeout (d : Nat) : Statement (.noFrameTimeout d) := by
  simp +contextual [Statement, Instr.wf, Instr.die]

theorem pmaSignalDetect (d : Nat) (lanes : Nat) : Statement (.pmaSignalDetect d lanes) := by
  simp +contextual [Statement, Instr.wf, Instr.die]

theorem pmaLock (d : Nat) (lanes : Nat) : Statement (.pmaLock d lanes) := by
  simp +contextual [Statement, Instr.wf, Instr.die]

theorem alignmentLock (d : Nat) (group : Nat) : Statement (.alignmentLock d group) := by
  simp +contextual [Statement, Instr.wf, Instr.die]

theorem detectTimeout (d : Nat) : Statement (.detectTimeout d) := by
  simp +contextual [Statement, Instr.wf, Instr.die]

theorem equaliseTimeout (d : Nat) : Statement (.equaliseTimeout d) := by
  simp +contextual [Statement, Instr.wf, Instr.die]

theorem alignTimeout (d : Nat) : Statement (.alignTimeout d) := by
  simp +contextual [Statement, Instr.wf, Instr.die]

theorem retrainTimeout (d : Nat) : Statement (.retrainTimeout d) := by
  simp +contextual [Statement, Instr.wf, Instr.die]

theorem laneErrorWindow (d : Nat) : Statement (.laneErrorWindow d) := by
  simp +contextual [Statement, Instr.wf, Instr.die]

theorem switchGroupReached (d : Nat) (group : Nat) : Statement (.switchGroupReached d group) := by
  simp +contextual [Statement, Instr.wf, Instr.die]

theorem stlCtlFence (d : Nat) : Statement (.stlCtlFence d) := by
  simp +contextual [Statement, Instr.wf, Instr.die]

theorem stlCtlRetrain (d : Nat) : Statement (.stlCtlRetrain d) := by
  simp +contextual [Statement, Instr.wf, Instr.die]

theorem portRetrainRetry (d : Nat) : Statement (.portRetrainRetry d) := by
  simp +contextual [Statement, Instr.wf, Instr.die]

theorem seamFrame (d : Nat) (i : Nat) (f : SeamRx) : Statement (.seamFrame d i f) := by
  simp +contextual [Statement, Instr.wf, Instr.die]

theorem ucieStateChange (d : Nat) (i : Nat) (active : Bool) (fullRate : Bool) (extra : Nat) : Statement (.ucieStateChange d i active fullRate extra) := by
  simp +contextual [Statement, Instr.wf, Instr.die]

theorem seamPanelWrite (d : Nat) (v : Word) : Statement (.seamPanelWrite d v) := by
  simp +contextual [Statement, Instr.wf, Instr.die]

theorem gateEntryEnd (d : Nat) (g : Nat) : Statement (.gateEntryEnd d g) := by
  simp +contextual [Statement, Instr.wf, Instr.die]

theorem gateTakeover (d : Nat) (g : Nat) : Statement (.gateTakeover d g) := by
  simp +contextual [Statement, Instr.wf, Instr.die]

theorem shaperRefill (d : Nat) (g : Nat) (v : Nat) : Statement (.shaperRefill d g v) := by
  simp +contextual [Statement, Instr.wf, Instr.die]

theorem meterRefill (d : Nat) (g : Nat) (v : Nat) : Statement (.meterRefill d g v) := by
  simp +contextual [Statement, Instr.wf, Instr.die]

theorem queueSample (d : Nat) (pt : SamplePoint) : Statement (.queueSample d pt) := by
  simp +contextual [Statement, Instr.wf, Instr.die]

theorem qsampleClear (d : Nat) (pt : SamplePoint) (v : Word) : Statement (.qsampleClear d pt v) := by
  simp +contextual [Statement, Instr.wf, Instr.die]

theorem ppsEdge (d : Nat) : Statement (.ppsEdge d) := by
  simp +contextual [Statement, Instr.wf, Instr.die]

theorem ppsMissing (d : Nat) : Statement (.ppsMissing d) := by
  simp +contextual [Statement, Instr.wf, Instr.die]

theorem ptpSubmit (d : Nat) : Statement (.ptpSubmit d) := by
  simp +contextual [Statement, Instr.wf, Instr.die]

theorem timeXferPeriod (d : Nat) : Statement (.timeXferPeriod d) := by
  simp +contextual [Statement, Instr.wf, Instr.die]

theorem parentLost (d : Nat) : Statement (.parentLost d) := by
  simp +contextual [Statement, Instr.wf, Instr.die]

theorem timFtRead (d : Nat) : Statement (.timFtRead d) := by
  simp +contextual [Statement, Instr.wf, Instr.die]

theorem niGovCapWrite (d : Nat) (v : Word) : Statement (.niGovCapWrite d v) := by
  simp +contextual [Statement, Instr.wf, Instr.die]

theorem linkSecWindowEnd (d : Nat) (p : Nat) (i : Nat) : Statement (.linkSecWindowEnd d p i) := by
  simp +contextual [Statement, Instr.wf, Instr.die]

theorem probeSend (d : Nat) (p : Nat) (len : Nat) (seed : Word) : Statement (.probeSend d p len seed) := by
  simp +contextual [Statement, Instr.wf, Instr.die]

theorem probeTimeout (d : Nat) (p : Nat) : Statement (.probeTimeout d p) := by
  simp +contextual [Statement, Instr.wf, Instr.die]

theorem probeRepeat (d : Nat) (p : Nat) : Statement (.probeRepeat d p) := by
  simp +contextual [Statement, Instr.wf, Instr.die]

theorem scrubWord (d : Nat) (w : ScrubAt) (err : WordErr) : Statement (.scrubWord d w err) := by
  simp +contextual [Statement, Instr.wf, Instr.die]

theorem wearRotation (d : Nat) : Statement (.wearRotation d) := by
  simp +contextual [Statement, Instr.wf, Instr.die]

theorem telemetrySend (d : Nat) (temp : Nat) : Statement (.telemetrySend d temp) := by
  simp +contextual [Statement, Instr.wf, Instr.die]

theorem heartbeatSend (d : Nat) : Statement (.heartbeatSend d) := by
  simp +contextual [Statement, Instr.wf, Instr.die]

theorem heartbeatMiss (d : Nat) (x : Nat) : Statement (.heartbeatMiss d x) := by
  simp +contextual [Statement, Instr.wf, Instr.die]

theorem packageHeartbeatSend : Statement (.packageHeartbeatSend) := by
  simp +contextual [Statement, Instr.wf, Instr.die]

theorem packageHeartbeatMiss (d : Nat) : Statement (.packageHeartbeatMiss d) := by
  simp +contextual [Statement, Instr.wf, Instr.die]

theorem interimRoutePatch (d : Nat) : Statement (.interimRoutePatch d) := by
  simp +contextual [Statement, Instr.wf, Instr.die]

theorem kerexPatch (t : Nat) (ss : PStreams) : Statement (.kerexPatch t ss) := by
  simp +contextual [Statement, Instr.wf, Instr.die]

theorem twinReadComplete (d : Nat) (ok : Bool) : Statement (.twinReadComplete d ok) := by
  simp +contextual [Statement, Instr.wf, Instr.die]

theorem shiftComplete (d : Nat) : Statement (.shiftComplete d) := by
  simp +contextual [Statement, Instr.wf, Instr.die]

theorem clkFault (d : Nat) (panel : Nat) : Statement (.clkFault d panel) := by
  simp +contextual [Statement, Instr.wf, Instr.die]

theorem pnlDownAck (d : Nat) (panel : Nat) : Statement (.pnlDownAck d panel) := by
  simp +contextual [Statement, Instr.wf, Instr.die]

theorem pnlAckTimeout (d : Nat) (panel : Nat) : Statement (.pnlAckTimeout d panel) := by
  simp +contextual [Statement, Instr.wf, Instr.die]

theorem stallThreshold (d : Nat) (kind : Nat) (unit : Nat) (port : Nat) : Statement (.stallThreshold d kind unit port) := by
  simp +contextual [Statement, Instr.wf, Instr.die]

theorem stallEscalate (d : Nat) (kind : Nat) (unit : Nat) (port : Nat) : Statement (.stallEscalate d kind unit port) := by
  simp +contextual [Statement, Instr.wf, Instr.die]

theorem tailorWatchdog (d : Nat) : Statement (.tailorWatchdog d) := by
  simp +contextual [Statement, Instr.wf, Instr.die]

theorem mndTailorKick (d : Nat) : Statement (.mndTailorKick d) := by
  simp +contextual [Statement, Instr.wf, Instr.die]

theorem mndPartCtlMend (q : Nat) : Statement (.mndPartCtlMend q) := by
  simp +contextual [Statement, Instr.wf, Instr.die]

theorem mndPartCtlAll : Statement (.mndPartCtlAll) := by
  simp +contextual [Statement, Instr.wf, Instr.die]

theorem mendIsolate (q : Nat) : Statement (.mendIsolate q) := by
  simp +contextual [Statement, Instr.wf, Instr.die]

theorem mendFlush (q : Nat) : Statement (.mendFlush q) := by
  simp +contextual [Statement, Instr.wf, Instr.die]

theorem mendDump (q : Nat) : Statement (.mendDump q) := by
  simp +contextual [Statement, Instr.wf, Instr.die]

theorem mendReset (q : Nat) : Statement (.mendReset q) := by
  simp +contextual [Statement, Instr.wf, Instr.die]

theorem mendRetrain (q : Nat) : Statement (.mendRetrain q) := by
  simp +contextual [Statement, Instr.wf, Instr.die]

theorem mendTest (q : Nat) (fails : TestFails) : Statement (.mendTest q fails) := by
  simp +contextual [Statement, Instr.wf, Instr.die]

theorem mendRelock (q : Nat) : Statement (.mendRelock q) := by
  simp +contextual [Statement, Instr.wf, Instr.die]

theorem mendRestore (q : Nat) : Statement (.mendRestore q) := by
  simp +contextual [Statement, Instr.wf, Instr.die]

theorem mendRejoin (q : Nat) : Statement (.mendRejoin q) := by
  simp +contextual [Statement, Instr.wf, Instr.die]

theorem dumpEntry (d : Nat) : Statement (.dumpEntry d) := by
  simp +contextual [Statement, Instr.wf, Instr.die]

theorem dumpReadTimeout (d : Nat) : Statement (.dumpReadTimeout d) := by
  simp +contextual [Statement, Instr.wf, Instr.die]

theorem dumpWriteTimeout (d : Nat) : Statement (.dumpWriteTimeout d) := by
  simp +contextual [Statement, Instr.wf, Instr.die]

theorem dumpEngineTimeout (q : Nat) : Statement (.dumpEngineTimeout q) := by
  simp +contextual [Statement, Instr.wf, Instr.die]

theorem mndStopArm (d : Nat) : Statement (.mndStopArm d) := by
  simp +contextual [Statement, Instr.wf, Instr.die]

theorem stopHalt (d : Nat) (panel : Nat) : Statement (.stopHalt d panel) := by
  simp +contextual [Statement, Instr.wf, Instr.die]

theorem catchWindowEnd (d : Nat) (panel : Nat) : Statement (.catchWindowEnd d panel) := by
  simp +contextual [Statement, Instr.wf, Instr.die]

theorem mndStopRelease : Statement (.mndStopRelease) := by
  simp +contextual [Statement, Instr.wf, Instr.die]

theorem mndStopCancel (d : Nat) : Statement (.mndStopCancel d) := by
  simp +contextual [Statement, Instr.wf, Instr.die]

theorem patLoadStartCold : Statement (.patLoadStartCold) := by
  simp +contextual [Statement, Instr.wf, Instr.die]

theorem patLoadStartPatch : Statement (.patLoadStartPatch) := by
  simp +contextual [Statement, Instr.wf, Instr.die]

theorem patLoadStartArea : Statement (.patLoadStartArea) := by
  simp +contextual [Statement, Instr.wf, Instr.die]

theorem patLoadAbort : Statement (.patLoadAbort) := by
  simp +contextual [Statement, Instr.wf, Instr.die]

theorem loadPortWrite (v : Word) : Statement (.loadPortWrite v) := by
  simp +contextual [Statement, Instr.wf, Instr.die]

theorem loadVerifyDone (ok : Bool) : Statement (.loadVerifyDone ok) := by
  simp +contextual [Statement, Instr.wf, Instr.die]

theorem areaCopyDone (ok0 : Bool) (ok1 : Bool) : Statement (.areaCopyDone ok0 ok1) := by
  simp +contextual [Statement, Instr.wf, Instr.die]

theorem patchVerifyDone : Statement (.patchVerifyDone) := by
  simp +contextual [Statement, Instr.wf, Instr.die]

theorem permitsWritten (num : Nat) : Statement (.permitsWritten num) := by
  simp +contextual [Statement, Instr.wf, Instr.die]

theorem permitWrite (d : Nat) (off : Nat) (src : Src) (v : Word) : Statement (.permitWrite d off src v) := by
  simp +contextual [Statement, Instr.wf, Instr.die]

theorem patchCompletionRead (num : Nat) : Statement (.patchCompletionRead num) := by
  simp +contextual [Statement, Instr.wf, Instr.die]

theorem patchTPassed (num : Nat) : Statement (.patchTPassed num) := by
  simp +contextual [Statement, Instr.wf, Instr.die]

theorem builtinTestComplete (fails : TestFails) : Statement (.builtinTestComplete fails) := by
  simp +contextual [Statement, Instr.wf, Instr.die]

theorem trainComplete : Statement (.trainComplete) := by
  simp +contextual [Statement, Instr.wf, Instr.die]

theorem ledgerChain : Statement (.ledgerChain) := by
  simp +contextual [Statement, Instr.wf, Instr.die]

theorem mirrorAck : Statement (.mirrorAck) := by
  simp +contextual [Statement, Instr.wf, Instr.die]

theorem sealDue : Statement (.sealDue) := by
  simp +contextual [Statement, Instr.wf, Instr.die]

theorem sealNow : Statement (.sealNow) := by
  simp +contextual [Statement, Instr.wf, Instr.die]

theorem sealSigned : Statement (.sealSigned) := by
  simp +contextual [Statement, Instr.wf, Instr.die]

theorem traceFlush (d : Nat) : Statement (.traceFlush d) := by
  simp +contextual [Statement, Instr.wf, Instr.die]

theorem countPeriod (d : Nat) : Statement (.countPeriod d) := by
  simp +contextual [Statement, Instr.wf, Instr.die]

theorem obsPrbCfgWrite (d : Nat) (n : Nat) (v : Word) : Statement (.obsPrbCfgWrite d n v) := by
  simp +contextual [Statement, Instr.wf, Instr.die]

theorem obsStatClear (d : Nat) (v : Word) : Statement (.obsStatClear d v) := by
  simp +contextual [Statement, Instr.wf, Instr.die]

theorem bootResetRelease (d : Nat) (primary : Bool) : Statement (.bootResetRelease d primary) := by
  simp +contextual [Statement, Instr.wf, Instr.die]

theorem pcieLinkUp (d : Nat) : Statement (.pcieLinkUp d) := by
  simp +contextual [Statement, Instr.wf, Instr.die]

theorem bootGo (d : Nat) : Statement (.bootGo d) := by
  simp +contextual [Statement, Instr.wf, Instr.die]

theorem bootVerifyDone (d : Nat) : Statement (.bootVerifyDone d) := by
  simp +contextual [Statement, Instr.wf, Instr.die]

theorem svnAdvance (d : Nat) : Statement (.svnAdvance d) := by
  simp +contextual [Statement, Instr.wf, Instr.die]

theorem provision (d : Nat) : Statement (.provision d) := by
  simp +contextual [Statement, Instr.wf, Instr.die]

theorem provisionDone (d : Nat) (ok : Bool) : Statement (.provisionDone d ok) := by
  simp +contextual [Statement, Instr.wf, Instr.die]

theorem erase (d : Nat) : Statement (.erase d) := by
  simp +contextual [Statement, Instr.wf, Instr.die]

theorem debugOpen (d : Nat) : Statement (.debugOpen d) := by
  simp +contextual [Statement, Instr.wf, Instr.die]

theorem dbgOpenReq (d : Nat) : Statement (.dbgOpenReq d) := by
  simp +contextual [Statement, Instr.wf, Instr.die]

theorem ledgerDone (d : Nat) : Statement (.ledgerDone d) := by
  simp +contextual [Statement, Instr.wf, Instr.die]

theorem debugLedgerTimeout : Statement (.debugLedgerTimeout) := by
  simp +contextual [Statement, Instr.wf, Instr.die]

theorem zeroiseDone : Statement (.zeroiseDone) := by
  simp +contextual [Statement, Instr.wf, Instr.die]

theorem zeroiseRetry : Statement (.zeroiseRetry) := by
  simp +contextual [Statement, Instr.wf, Instr.die]

theorem lockstepMismatch (d : Nat) (pairB : Bool) : Statement (.lockstepMismatch d pairB) := by
  simp +contextual [Statement, Instr.wf, Instr.die]

theorem tlrMirrorFence (d : Nat) : Statement (.tlrMirrorFence d) := by
  simp +contextual [Statement, Instr.wf, Instr.die]

theorem mirrorFenceComplete : Statement (.mirrorFenceComplete) := by
  simp +contextual [Statement, Instr.wf, Instr.die]

theorem tlrSend (d : Nat) (p : Packet) : Statement (.tlrSend d p) := by
  simp +contextual [Statement, Instr.wf, Instr.die]

theorem bar2Write (d : Nat) (off : Nat) (bs : Bytes) : Statement (.bar2Write d off bs) := by
  simp +contextual [Statement, Instr.wf, Instr.die]

theorem bar2Read (d : Nat) (off : Nat) (n : Nat) : Statement (.bar2Read d off n) := by
  simp +contextual [Statement, Instr.wf, Instr.die]

theorem bar2ReadTimeout (d : Nat) (slot : Nat) : Statement (.bar2ReadTimeout d slot) := by
  simp +contextual [Statement, Instr.wf, Instr.die]

theorem rcsrRead (d : Nat) : Statement (.rcsrRead d) := by
  simp +contextual [Statement, Instr.wf, Instr.die]

theorem rcsrWrite (d : Nat) : Statement (.rcsrWrite d) := by
  simp +contextual [Statement, Instr.wf, Instr.die]

theorem rcsrTimeout (d : Nat) : Statement (.rcsrTimeout d) := by
  simp +contextual [Statement, Instr.wf, Instr.die]

theorem svcRequest : Statement (.svcRequest) := by
  simp +contextual [Statement, Instr.wf, Instr.die]

theorem mpResponse (d : Nat) (tag : Nat) (err : Bool) : Statement (.mpResponse d tag err) := by
  simp +contextual [Statement, Instr.wf, Instr.die]

theorem mpTimeout (d : Nat) (tag : Nat) : Statement (.mpTimeout d tag) := by
  simp +contextual [Statement, Instr.wf, Instr.die]

theorem mpTrainDone (d : Nat) : Statement (.mpTrainDone d) := by
  simp +contextual [Statement, Instr.wf, Instr.die]

theorem csrRegisterWrite (d : Nat) (off : Nat) (a : RegAccess) (v : Word) : Statement (.csrRegisterWrite d off a v) := by
  simp +contextual [Statement, Instr.wf, Instr.die]

theorem synBreakExamine (d : Nat) : Statement (.synBreakExamine d) := by
  simp +contextual [Statement, Instr.wf, Instr.die]

theorem seamRecalibration (d : Nat) (i : Nat) (temp : Nat) : Statement (.seamRecalibration d i temp) := by
  simp +contextual [Statement, Instr.wf, Instr.die]

end Sys2Proof.Laws.WellFormed
end

