-- ==== Sys2Proof/Tests/Slice0.lean ====
section
/-! SUPPORT. Tests of the author's own: ill-formed commands that well-formedness refuses, a state and operands that meet the
hypotheses of each statement, and single steps on small states. -/

set_option Elab.async false
set_option linter.unusedVariables false
set_option maxRecDepth 100000

namespace Sys2Proof.Tests

open Sys2Proof Sys2Proof.Machine

/-! ## Well-formedness -/

/-- Commands with a die number of 128 are ill formed. -/
theorem test_wf_refuses_die_1 : ([
    .coldReset 128, .timeKeeperTick 128 .none .none, .roundBoundary 128, .reservedSlotStart 128 0 0,
    .outputArbitration 128 0 0, .routerHeaderArrival 128 0 0, .linkUnitArrival 128 0 0 ({ type := 1 } : LinkUnit), .contextCeiling 128 0 0,
    .tpInjectUnit 128 0 0 false 0, .niInject 128 0 0, .orderedDrainEnd 128 0, .tpDeliver 128 0 0,
    .tpGenLoaded 128 0 0, .tpReadData 128 0 0, .twinNotice 128 0 0 0 0, .write 128 0 ({ hdr := {} } : Packet),
    .writeAck 128 0 ({ hdr := {} } : Packet), .write8 128 0 ({ hdr := {} } : Packet), .read 128 0 ({ hdr := {} } : Packet), .readData 128 0 ({ hdr := {} } : Packet),
    .ack 128 0 ({ hdr := {} } : Packet), .syncRead 128 ({} : Hdr), .syncInit 128 ({} : Hdr), .syncAdd 128 ({} : Hdr),
    .syncArrive 128 ({} : Hdr), .syncTake 128 ({} : Hdr), .syncAcquire 128 ({} : Hdr), .syncUnlock 128 ({} : Hdr),
    .syncSet 128 ({} : Hdr), .syncSetMax 128 ({} : Hdr), .syncWait 128 ({} : Hdr), .syncCancel 128 ({} : Hdr),
    .syncRelease 128 0 ({} : Hdr), .commitStage 128 ({ hdr := {} } : Packet), .commitAck 128 0 ({} : Hdr), .confirm 128 ({} : Hdr),
    .targetReport 128 0 ({} : Hdr), .commitOutcome 128 0 ({} : Hdr), .collData 128 0 ({ hdr := {} } : Packet), .a2aData 128 0 ({ hdr := {} } : Packet)] : List Instr).all (fun c => !c.wf) = true := by decide +kernel

/-- Commands with a die number of 128 are ill formed. -/
theorem test_wf_refuses_die_2 : ([
    .a2aCount 128 0 ({ hdr := {} } : Packet), .pour 128 0 ({ hdr := {} } : Packet), .chunkNack 128 0 ({} : Hdr), .abort 128 0 ({} : Hdr),
    .redSum 128 0 ({ hdr := {} } : Packet) false, .redMax 128 0 ({ hdr := {} } : Packet) false, .redMin 128 0 ({ hdr := {} } : Packet) false, .redProd 128 0 ({ hdr := {} } : Packet) false,
    .redAnd 128 0 ({ hdr := {} } : Packet) false, .redOr 128 0 ({ hdr := {} } : Packet) false, .redXor 128 0 ({ hdr := {} } : Packet) false, .dieHeartbeat 128 0 ({} : Hdr),
    .packageHeartbeat 128 0 ({} : Hdr), .verdict 128 0 ({} : Hdr), .suspect 128 0 ({} : Hdr), .timeXferRequest 128 0 ({ hdr := {} } : Packet),
    .timeXferResponse 128 0 ({ hdr := {} } : Packet), .probe 128 0 0 ({ hdr := {} } : Packet), .genToken 128 0 ({} : Hdr), .csrRead 128 0 ({ hdr := {} } : Packet),
    .csrWrite 128 0 ({ hdr := {} } : Packet), .csrData 128 0 ({ hdr := {} } : Packet), .trace 128 0 ({ hdr := {} } : Packet), .descriptorFetch 128 0 0,
    .descriptorFetchRetry 128 0 0, .nop 128 0 0, .allReduce 128 0 0, .reduce 128 0 0,
    .reduceScatter 128 0 0, .allGather 128 0 0, .broadcast 128 0 0, .allToAll 128 0 0,
    .allToAllV 128 0 0, .barrier 128 0 0, .chunkStart 128 0 0 0, .stagingWaitEnd 128 0,
    .orderSend 128 0, .orderClear 128 0, .orderCancel 128 0, .orderReport 128 0] : List Instr).all (fun c => !c.wf) = true := by decide +kernel

/-- Commands with a die number of 128 are ill formed. -/
theorem test_wf_refuses_die_3 : ([
    .chunkTimeout 128 0 0, .chunkResend 128 0 0 0, .ceHang 128 0 0 0, .operationEnd 128 0 0 0,
    .ceGroupCtlSkip 128 0 0, .ceGroupCtlResume 128 0 0, .ceGtDataWrite 128 0 0, .lockCeilingExamine 128,
    .synBreak 128 0, .synObjLoWrite 128 0 0, .commitRequestFetch 128 0, .confirmDeadline 128 0 0,
    .outcomeWaitExpiry 128 0 0, .commitApply 128, .recorderDecision 128, .frameTransmit 128,
    .idleFrame 128 ({ frame := { ftype := 0 } } : StRx), .dataFrame 128 ({ frame := { ftype := 0 } } : StRx), .ingressForward 128, .stitchTimeRequest 128 ({ frame := { ftype := 0 } } : StRx),
    .stitchTimeResponse 128 ({ frame := { ftype := 0 } } : StRx), .fenceFrame 128 ({ frame := { ftype := 0 } } : StRx), .laneRequest 128 ({ frame := { ftype := 0 } } : StRx), .laneAck 128 ({ frame := { ftype := 0 } } : StRx),
    .initFrame 128 ({ frame := { ftype := 0 } } : StRx), .fecLockLoss 128, .noFrameTimeout 128, .pmaSignalDetect 128 0,
    .pmaLock 128 0, .alignmentLock 128 0, .detectTimeout 128, .equaliseTimeout 128,
    .alignTimeout 128, .retrainTimeout 128, .laneErrorWindow 128, .switchGroupReached 128 0,
    .stlCtlFence 128, .stlCtlRetrain 128, .portRetrainRetry 128, .seamFrame 128 0 ({ body := { type := 0 } } : SeamRx)] : List Instr).all (fun c => !c.wf) = true := by decide +kernel

/-- Commands with a die number of 128 are ill formed. -/
theorem test_wf_refuses_die_4 : ([
    .ucieStateChange 128 0 false false 0, .seamPanelWrite 128 0, .gateEntryEnd 128 0, .gateTakeover 128 0,
    .shaperRefill 128 0 1, .meterRefill 128 0 1, .queueSample 128 (.router 0), .qsampleClear 128 (.router 0) 0,
    .ppsEdge 128, .ppsMissing 128, .ptpSubmit 128, .timeXferPeriod 128,
    .parentLost 128, .timFtRead 128, .niGovCapWrite 128 0, .linkSecWindowEnd 128 0 0,
    .probeSend 128 0 0 0, .probeTimeout 128 0, .probeRepeat 128 0, .scrubWord 128 (.object 0) .clean,
    .wearRotation 128, .telemetrySend 128 0, .heartbeatSend 128, .heartbeatMiss 128 0,
    .packageHeartbeatMiss 128, .interimRoutePatch 128, .twinReadComplete 128 false, .shiftComplete 128,
    .clkFault 128 0, .pnlDownAck 128 0, .pnlAckTimeout 128 0, .stallThreshold 128 0 0 0,
    .stallEscalate 128 0 0 0, .tailorWatchdog 128, .mndTailorKick 128, .dumpEntry 128,
    .dumpReadTimeout 128, .dumpWriteTimeout 128, .mndStopArm 128, .stopHalt 128 0] : List Instr).all (fun c => !c.wf) = true := by decide +kernel

/-- Commands with a die number of 128 are ill formed. -/
theorem test_wf_refuses_die_5 : ([
    .catchWindowEnd 128 0, .mndStopCancel 128, .permitWrite 128 0 0 0, .traceFlush 128,
    .countPeriod 128, .obsPrbCfgWrite 128 0 0, .obsStatClear 128 0, .bootResetRelease 128 false,
    .pcieLinkUp 128, .bootGo 128, .bootVerifyDone 128, .svnAdvance 128,
    .provision 128, .provisionDone 128 false, .erase 128, .debugOpen 128,
    .dbgOpenReq 128, .ledgerDone 128, .lockstepMismatch 128 false, .tlrMirrorFence 128,
    .tlrSend 128 ({ hdr := {} } : Packet), .bar2Write 128 0 [], .bar2Read 128 0 1, .bar2ReadTimeout 128 0,
    .rcsrRead 128, .rcsrWrite 128, .rcsrTimeout 128, .mpResponse 128 0 false,
    .mpTimeout 128 0, .mpTrainDone 128, .csrRegisterWrite 128 0 {} 0, .synBreakExamine 128,
    .seamRecalibration 128 0 0] : List Instr).all (fun c => !c.wf) = true := by decide +kernel

/-- Commands with a unit, port or attachment number past its range are ill formed. -/
theorem test_wf_refuses_unit_1 : ([
    .reservedSlotStart 0 624 0, .reservedSlotStart 0 0 6, .outputArbitration 0 624 0, .outputArbitration 0 0 6,
    .routerHeaderArrival 0 624 0, .linkUnitArrival 0 624 0 ({ type := 1 } : LinkUnit), .linkUnitArrival 0 0 6 ({ type := 1 } : LinkUnit), .contextCeiling 0 624 0,
    .tpInjectUnit 0 624 0 false 0, .niInject 0 4096 0, .orderedDrainEnd 0 4096, .tpDeliver 0 624 0,
    .tpGenLoaded 0 624 0, .tpReadData 0 624 0, .twinNotice 0 624 0 0 0, .write 0 4096 ({ hdr := {} } : Packet),
    .writeAck 0 4096 ({ hdr := {} } : Packet), .write8 0 4096 ({ hdr := {} } : Packet), .read 0 4096 ({ hdr := {} } : Packet), .readData 0 4096 ({ hdr := {} } : Packet),
    .ack 0 4096 ({ hdr := {} } : Packet), .syncRelease 0 8 ({} : Hdr), .commitAck 0 8 ({} : Hdr), .targetReport 0 4096 ({} : Hdr),
    .commitOutcome 0 8 ({} : Hdr), .collData 0 4096 ({ hdr := {} } : Packet), .a2aData 0 4096 ({ hdr := {} } : Packet), .a2aCount 0 4096 ({ hdr := {} } : Packet),
    .pour 0 4096 ({ hdr := {} } : Packet), .chunkNack 0 8 ({} : Hdr), .abort 0 8 ({} : Hdr), .redSum 0 4096 ({ hdr := {} } : Packet) false,
    .redMax 0 4096 ({ hdr := {} } : Packet) false, .redMin 0 4096 ({ hdr := {} } : Packet) false, .redProd 0 4096 ({ hdr := {} } : Packet) false, .redAnd 0 4096 ({ hdr := {} } : Packet) false,
    .redOr 0 4096 ({ hdr := {} } : Packet) false, .redXor 0 4096 ({ hdr := {} } : Packet) false, .dieHeartbeat 0 4096 ({} : Hdr), .packageHeartbeat 0 4096 ({} : Hdr)] : List Instr).all (fun c => !c.wf) = true := by decide +kernel

/-- Commands with a unit, port or attachment number past its range are ill formed. -/
theorem test_wf_refuses_unit_2 : ([
    .verdict 0 4096 ({} : Hdr), .suspect 0 4096 ({} : Hdr), .timeXferRequest 0 4096 ({ hdr := {} } : Packet), .timeXferResponse 0 4096 ({ hdr := {} } : Packet),
    .probe 0 624 0 ({ hdr := {} } : Packet), .probe 0 0 6 ({ hdr := {} } : Packet), .genToken 0 624 ({} : Hdr), .csrRead 0 4096 ({ hdr := {} } : Packet),
    .csrWrite 0 4096 ({ hdr := {} } : Packet), .csrData 0 4096 ({ hdr := {} } : Packet), .trace 0 4096 ({ hdr := {} } : Packet), .descriptorFetch 0 8 0,
    .descriptorFetch 0 0 64, .descriptorFetchRetry 0 8 0, .descriptorFetchRetry 0 0 64, .nop 0 8 0,
    .nop 0 0 64, .allReduce 0 8 0, .allReduce 0 0 64, .reduce 0 8 0,
    .reduce 0 0 64, .reduceScatter 0 8 0, .reduceScatter 0 0 64, .allGather 0 8 0,
    .allGather 0 0 64, .broadcast 0 8 0, .broadcast 0 0 64, .allToAll 0 8 0,
    .allToAll 0 0 64, .allToAllV 0 8 0, .allToAllV 0 0 64, .barrier 0 8 0,
    .barrier 0 0 64, .chunkStart 0 8 0 0, .chunkStart 0 0 64 0, .stagingWaitEnd 0 8,
    .orderSend 0 624, .orderClear 0 624, .orderCancel 0 624, .orderReport 0 624] : List Instr).all (fun c => !c.wf) = true := by decide +kernel

/-- Commands with a unit, port or attachment number past its range are ill formed. -/
theorem test_wf_refuses_unit_3 : ([
    .chunkTimeout 0 4096 0, .chunkResend 0 8 0 0, .chunkResend 0 0 64 0, .ceHang 0 8 0 0,
    .ceHang 0 0 64 0, .operationEnd 0 8 0 0, .operationEnd 0 0 64 0, .ceGroupCtlSkip 0 8 0,
    .ceGroupCtlSkip 0 0 64, .ceGroupCtlResume 0 8 0, .ceGroupCtlResume 0 0 64, .ceGtDataWrite 0 8 0,
    .synObjLoWrite 0 16384 0, .commitRequestFetch 0 8, .confirmDeadline 0 8 0, .outcomeWaitExpiry 0 8 0,
    .seamFrame 0 96 ({ body := { type := 0 } } : SeamRx), .ucieStateChange 0 96 false false 0, .gateEntryEnd 0 9, .gateTakeover 0 9,
    .shaperRefill 0 9 1, .meterRefill 0 9 1, .linkSecWindowEnd 0 624 0, .linkSecWindowEnd 0 0 6,
    .probeSend 0 624 0 0, .probeTimeout 0 624, .probeRepeat 0 624, .mndPartCtlMend 64,
    .mendIsolate 64, .mendFlush 64, .mendDump 64, .mendReset 64,
    .mendRetrain 64, .mendTest 64 [], .mendRelock 64, .mendRestore 64,
    .mendRejoin 64, .dumpEngineTimeout 64, .seamRecalibration 0 96 0] : List Instr).all (fun c => !c.wf) = true := by decide +kernel

/-- Commands with a field past its width or a part that is ill formed are ill formed. -/
theorem test_wf_refuses_field_1 : ([
    .routerHeaderArrival 0 0 6, .linkUnitArrival 0 0 0 ({ type := 4 } : LinkUnit), .contextCeiling 0 0 4, .tpInjectUnit 0 0 6 false 0,
    .niInject 0 0 6, .tpDeliver 0 0 6, .tpGenLoaded 0 0 16, .tpReadData 0 0 32,
    .twinNotice 0 0 (2 ^ 17) 0 0, .twinNotice 0 0 0 (2 ^ 64) 0, .write 0 0 ({ hdr := {}, data := List.replicate 33 0 } : Packet), .writeAck 0 0 ({ hdr := {}, data := List.replicate 33 0 } : Packet),
    .write8 0 0 ({ hdr := {}, data := List.replicate 33 0 } : Packet), .read 0 0 ({ hdr := {}, data := List.replicate 33 0 } : Packet), .readData 0 0 ({ hdr := {}, data := List.replicate 33 0 } : Packet), .ack 0 0 ({ hdr := {}, data := List.replicate 33 0 } : Packet),
    .commitStage 0 ({ hdr := {}, data := List.replicate 33 0 } : Packet), .collData 0 0 ({ hdr := {}, data := List.replicate 33 0 } : Packet), .a2aData 0 0 ({ hdr := {}, data := List.replicate 33 0 } : Packet), .a2aCount 0 0 ({ hdr := {}, data := List.replicate 33 0 } : Packet),
    .pour 0 0 ({ hdr := {}, data := List.replicate 33 0 } : Packet), .redSum 0 0 ({ hdr := {}, data := List.replicate 33 0 } : Packet) false, .redMax 0 0 ({ hdr := {}, data := List.replicate 33 0 } : Packet) false, .redMin 0 0 ({ hdr := {}, data := List.replicate 33 0 } : Packet) false,
    .redProd 0 0 ({ hdr := {}, data := List.replicate 33 0 } : Packet) false, .redAnd 0 0 ({ hdr := {}, data := List.replicate 33 0 } : Packet) false, .redOr 0 0 ({ hdr := {}, data := List.replicate 33 0 } : Packet) false, .redXor 0 0 ({ hdr := {}, data := List.replicate 33 0 } : Packet) false,
    .timeXferRequest 0 0 ({ hdr := {}, data := List.replicate 33 0 } : Packet), .timeXferResponse 0 0 ({ hdr := {}, data := List.replicate 33 0 } : Packet), .probe 0 0 0 ({ hdr := {}, data := List.replicate 33 0 } : Packet), .csrRead 0 0 ({ hdr := {}, data := List.replicate 33 0 } : Packet),
    .csrWrite 0 0 ({ hdr := {}, data := List.replicate 33 0 } : Packet), .csrData 0 0 ({ hdr := {}, data := List.replicate 33 0 } : Packet), .trace 0 0 ({ hdr := {}, data := List.replicate 33 0 } : Packet), .chunkStart 0 0 0 (2 ^ 16),
    .chunkResend 0 0 0 (2 ^ 16), .ceHang 0 0 0 (2 ^ 16), .operationEnd 0 0 0 (2 ^ 16), .confirmDeadline 0 0 256] : List Instr).all (fun c => !c.wf) = true := by decide +kernel

/-- Commands with a field past its width or a part that is ill formed are ill formed. -/
theorem test_wf_refuses_field_2 : ([
    .outcomeWaitExpiry 0 0 256, .idleFrame 0 ({ frame := { ftype := 16 } } : StRx), .dataFrame 0 ({ frame := { ftype := 16 } } : StRx), .stitchTimeRequest 0 ({ frame := { ftype := 16 } } : StRx),
    .stitchTimeResponse 0 ({ frame := { ftype := 16 } } : StRx), .fenceFrame 0 ({ frame := { ftype := 16 } } : StRx), .laneRequest 0 ({ frame := { ftype := 16 } } : StRx), .laneAck 0 ({ frame := { ftype := 16 } } : StRx),
    .initFrame 0 ({ frame := { ftype := 16 } } : StRx), .pmaSignalDetect 0 (2 ^ 20), .pmaLock 0 (2 ^ 20), .alignmentLock 0 (2 ^ 16),
    .switchGroupReached 0 (2 ^ 16), .seamFrame 0 0 ({ body := { type := 4 } } : SeamRx), .ucieStateChange 0 0 false false 256, .shaperRefill 0 0 6,
    .meterRefill 0 0 6, .queueSample 0 (.router 624), .qsampleClear 0 (.router 624) 0, .probeSend 0 0 33 0,
    .scrubWord 0 (.object 16384) .clean, .telemetrySend 0 (2 ^ 16), .heartbeatMiss 0 128, .kerexPatch (2 ^ 64) [],
    .kerexPatch 0 [({ pkg := 8192, die := 0, words := [] } : PStream)], .clkFault 0 2, .pnlDownAck 0 2, .pnlAckTimeout 0 2,
    .stallThreshold 0 7 0 0, .stallThreshold 0 0 624 0, .stallThreshold 0 0 0 6, .stallEscalate 0 7 0 0,
    .stallEscalate 0 0 624 0, .stallEscalate 0 0 0 6, .mendTest 0 [.tile 128 0], .stopHalt 0 2,
    .catchWindowEnd 0 2, .permitsWritten (2 ^ 32), .permitWrite 0 (2 ^ 24) 0 0, .patchCompletionRead (2 ^ 32)] : List Instr).all (fun c => !c.wf) = true := by decide +kernel

/-- Commands with a field past its width or a part that is ill formed are ill formed. -/
theorem test_wf_refuses_field_3 : ([
    .patchTPassed (2 ^ 32), .builtinTestComplete [.tile 128 0], .obsPrbCfgWrite 0 16 0, .tlrSend 0 ({ hdr := {}, data := List.replicate 33 0 } : Packet),
    .bar2Write 0 (2 ^ 28 + 1) [], .bar2Read 0 (2 ^ 28 + 1) 1, .bar2ReadTimeout 0 3840, .mpResponse 0 256 false,
    .mpTimeout 0 256, .csrRegisterWrite 0 (2 ^ 24) {} 0, .seamRecalibration 0 0 (2 ^ 16)] : List Instr).all (fun c => !c.wf) = true := by decide +kernel

/-- Commands with an operand below its range are ill formed. -/
theorem test_wf_refuses_low_1 : ([
    .shaperRefill 0 0 0, .meterRefill 0 0 0, .bar2Read 0 0 0] : List Instr).all (fun c => !c.wf) = true := by decide +kernel

/-- Commands whose operands are in range are well formed. -/
theorem test_wf_accepts_1 : ([
    .coldReset 0, .timeKeeperTick 0 .none .none, .roundBoundary 0, .reservedSlotStart 0 0 0,
    .outputArbitration 0 0 0, .routerHeaderArrival 0 0 0, .linkUnitArrival 0 0 0 ({ type := 1 } : LinkUnit), .contextCeiling 0 0 0,
    .tpInjectUnit 0 0 0 false 0, .niInject 0 0 0, .orderedDrainEnd 0 0, .tpDeliver 0 0 0,
    .tpGenLoaded 0 0 0, .tpReadData 0 0 0, .twinNotice 0 0 0 0 0, .write 0 0 ({ hdr := {} } : Packet),
    .writeAck 0 0 ({ hdr := {} } : Packet), .write8 0 0 ({ hdr := {} } : Packet), .read 0 0 ({ hdr := {} } : Packet), .readData 0 0 ({ hdr := {} } : Packet),
    .ack 0 0 ({ hdr := {} } : Packet), .syncRead 0 ({} : Hdr), .syncInit 0 ({} : Hdr), .syncAdd 0 ({} : Hdr),
    .syncArrive 0 ({} : Hdr), .syncTake 0 ({} : Hdr), .syncAcquire 0 ({} : Hdr), .syncUnlock 0 ({} : Hdr),
    .syncSet 0 ({} : Hdr), .syncSetMax 0 ({} : Hdr), .syncWait 0 ({} : Hdr), .syncCancel 0 ({} : Hdr),
    .syncRelease 0 0 ({} : Hdr), .commitStage 0 ({ hdr := {} } : Packet), .commitAck 0 0 ({} : Hdr), .confirm 0 ({} : Hdr),
    .targetReport 0 0 ({} : Hdr), .commitOutcome 0 0 ({} : Hdr), .collData 0 0 ({ hdr := {} } : Packet), .a2aData 0 0 ({ hdr := {} } : Packet),
    .a2aCount 0 0 ({ hdr := {} } : Packet), .pour 0 0 ({ hdr := {} } : Packet), .chunkNack 0 0 ({} : Hdr), .abort 0 0 ({} : Hdr),
    .redSum 0 0 ({ hdr := {} } : Packet) false, .redMax 0 0 ({ hdr := {} } : Packet) false, .redMin 0 0 ({ hdr := {} } : Packet) false, .redProd 0 0 ({ hdr := {} } : Packet) false,
    .redAnd 0 0 ({ hdr := {} } : Packet) false, .redOr 0 0 ({ hdr := {} } : Packet) false, .redXor 0 0 ({ hdr := {} } : Packet) false, .dieHeartbeat 0 0 ({} : Hdr),
    .packageHeartbeat 0 0 ({} : Hdr), .verdict 0 0 ({} : Hdr), .suspect 0 0 ({} : Hdr), .timeXferRequest 0 0 ({ hdr := {} } : Packet),
    .timeXferResponse 0 0 ({ hdr := {} } : Packet), .probe 0 0 0 ({ hdr := {} } : Packet), .genToken 0 0 ({} : Hdr), .csrRead 0 0 ({ hdr := {} } : Packet)] : List Instr).all Instr.wf = true := by decide +kernel

/-- Commands whose operands are in range are well formed. -/
theorem test_wf_accepts_2 : ([
    .csrWrite 0 0 ({ hdr := {} } : Packet), .csrData 0 0 ({ hdr := {} } : Packet), .trace 0 0 ({ hdr := {} } : Packet), .descriptorFetch 0 0 0,
    .descriptorFetchRetry 0 0 0, .nop 0 0 0, .allReduce 0 0 0, .reduce 0 0 0,
    .reduceScatter 0 0 0, .allGather 0 0 0, .broadcast 0 0 0, .allToAll 0 0 0,
    .allToAllV 0 0 0, .barrier 0 0 0, .chunkStart 0 0 0 0, .stagingWaitEnd 0 0,
    .orderSend 0 0, .orderClear 0 0, .orderCancel 0 0, .orderReport 0 0,
    .chunkTimeout 0 0 0, .chunkResend 0 0 0 0, .ceHang 0 0 0 0, .operationEnd 0 0 0 0,
    .ceGroupCtlSkip 0 0 0, .ceGroupCtlResume 0 0 0, .ceGtDataWrite 0 0 0, .lockCeilingExamine 0,
    .synBreak 0 0, .synObjLoWrite 0 0 0, .commitRequestFetch 0 0, .confirmDeadline 0 0 0,
    .outcomeWaitExpiry 0 0 0, .commitApply 0, .recorderDecision 0, .frameTransmit 0,
    .idleFrame 0 ({ frame := { ftype := 0 } } : StRx), .dataFrame 0 ({ frame := { ftype := 0 } } : StRx), .ingressForward 0, .stitchTimeRequest 0 ({ frame := { ftype := 0 } } : StRx),
    .stitchTimeResponse 0 ({ frame := { ftype := 0 } } : StRx), .fenceFrame 0 ({ frame := { ftype := 0 } } : StRx), .laneRequest 0 ({ frame := { ftype := 0 } } : StRx), .laneAck 0 ({ frame := { ftype := 0 } } : StRx),
    .initFrame 0 ({ frame := { ftype := 0 } } : StRx), .fecLockLoss 0, .noFrameTimeout 0, .pmaSignalDetect 0 0,
    .pmaLock 0 0, .alignmentLock 0 0, .detectTimeout 0, .equaliseTimeout 0,
    .alignTimeout 0, .retrainTimeout 0, .laneErrorWindow 0, .switchGroupReached 0 0,
    .stlCtlFence 0, .stlCtlRetrain 0, .portRetrainRetry 0, .seamFrame 0 0 ({ body := { type := 0 } } : SeamRx)] : List Instr).all Instr.wf = true := by decide +kernel

/-- Commands whose operands are in range are well formed. -/
theorem test_wf_accepts_3 : ([
    .ucieStateChange 0 0 false false 0, .seamPanelWrite 0 0, .gateEntryEnd 0 0, .gateTakeover 0 0,
    .shaperRefill 0 0 1, .meterRefill 0 0 1, .queueSample 0 (.router 0), .qsampleClear 0 (.router 0) 0,
    .ppsEdge 0, .ppsMissing 0, .ptpSubmit 0, .timeXferPeriod 0,
    .parentLost 0, .timFtRead 0, .niGovCapWrite 0 0, .linkSecWindowEnd 0 0 0,
    .probeSend 0 0 0 0, .probeTimeout 0 0, .probeRepeat 0 0, .scrubWord 0 (.object 0) .clean,
    .wearRotation 0, .telemetrySend 0 0, .heartbeatSend 0, .heartbeatMiss 0 0,
    .packageHeartbeatSend, .packageHeartbeatMiss 0, .interimRoutePatch 0, .kerexPatch 0 [],
    .twinReadComplete 0 false, .shiftComplete 0, .clkFault 0 0, .pnlDownAck 0 0,
    .pnlAckTimeout 0 0, .stallThreshold 0 0 0 0, .stallEscalate 0 0 0 0, .tailorWatchdog 0,
    .mndTailorKick 0, .mndPartCtlMend 0, .mndPartCtlAll, .mendIsolate 0,
    .mendFlush 0, .mendDump 0, .mendReset 0, .mendRetrain 0,
    .mendTest 0 [], .mendRelock 0, .mendRestore 0, .mendRejoin 0,
    .dumpEntry 0, .dumpReadTimeout 0, .dumpWriteTimeout 0, .dumpEngineTimeout 0,
    .mndStopArm 0, .stopHalt 0 0, .catchWindowEnd 0 0, .mndStopRelease,
    .mndStopCancel 0, .patLoadStartCold, .patLoadStartPatch, .patLoadStartArea] : List Instr).all Instr.wf = true := by decide +kernel

/-- Commands whose operands are in range are well formed. -/
theorem test_wf_accepts_4 : ([
    .patLoadAbort, .loadPortWrite 0, .loadVerifyDone false, .areaCopyDone false false,
    .patchVerifyDone, .permitsWritten 0, .permitWrite 0 0 0 0, .patchCompletionRead 0,
    .patchTPassed 0, .builtinTestComplete [], .trainComplete, .ledgerChain,
    .mirrorAck, .sealDue, .sealNow, .sealSigned,
    .traceFlush 0, .countPeriod 0, .obsPrbCfgWrite 0 0 0, .obsStatClear 0 0,
    .bootResetRelease 0 false, .pcieLinkUp 0, .bootGo 0, .bootVerifyDone 0,
    .svnAdvance 0, .provision 0, .provisionDone 0 false, .erase 0,
    .debugOpen 0, .dbgOpenReq 0, .ledgerDone 0, .debugLedgerTimeout,
    .zeroiseDone, .zeroiseRetry, .lockstepMismatch 0 false, .tlrMirrorFence 0,
    .mirrorFenceComplete, .tlrSend 0 ({ hdr := {} } : Packet), .bar2Write 0 0 [], .bar2Read 0 0 1,
    .bar2ReadTimeout 0 0, .rcsrRead 0, .rcsrWrite 0, .rcsrTimeout 0,
    .svcRequest, .mpResponse 0 0 false, .mpTimeout 0 0, .mpTrainDone 0,
    .csrRegisterWrite 0 0 {} 0, .synBreakExamine 0, .seamRecalibration 0 0 0] : List Instr).all Instr.wf = true := by decide +kernel

/-- Each check on the parts of a command refuses a part that breaks it alone. -/
theorem test_wf_parts_refused :
    ([{ type := 1, vc := 6 }, { type := 1, laOut := 8 }, { type := 1, phase := 4 }, { type := 1, seg := 8 }, { type := 1, hops := 64 },
      { type := 1, credit := some 6 }] : List LinkUnit).all (fun u => !u.wf) = true ∧
    ([{ body := { type := 0 }, credVc := 6 }, { body := { type := 0 }, credN := 8 }, { body := { type := 0 }, seq := 256 },
      { body := { type := 0 }, ack := 256 }] : List SeamRx).all (fun f => !f.wf) = true ∧
    ([{ frame := { ftype := 1, seq := 4096 } }, { frame := { ftype := 1, ack := 4096 } }, { frame := { ftype := 1 }, group := 65536 },
      { frame := { ftype := 1, slots := List.replicate 5 { type := 1 } } }] : List StRx).all (fun f => !f.wf) = true ∧
    ([.shape 9 1, .shape 0 0, .shape 0 6] : List SamplePoint).all (fun x => !x.wf) = true ∧
    ([.table 16 0 0, .group 8 0, .group 0 64, .staging 8 0 0 0, .staging 0 64 0 0, .staging 0 0 65536 0, .window 16] :
      List ScrubAt).all (fun x => !x.wf) = true ∧
    ([.tile 0 624, .seam 128 0, .seam 0 96, .unit 128 0, .unit 0 10, .die 128] : List TestFail).all (fun x => !x.wf) = true ∧
    ({ pkg := 0, die := 128, words := [] } : PStream).wf = false := by decide +kernel

/-! ## Small states and packets -/

/-- The state after reset, in SERVICE. -/
def svc : State := { State.reset with mode := .service }
/-- A state whose time keeper of die `d` shows `t` ns. -/
def timeAt (s : State) (d t : Nat) : State := s.setKeeper d { s.keeper d with ft := BitVec.ofNat 64 t }
/-- A sealed header. -/
def hd (cmd vc : Nat) (inl : Nat := 0) (dest : Nat := 0) : Hdr :=
  ({ cmd := BitVec.ofNat 8 cmd, vc := BitVec.ofNat 3 vc, dest := BitVec.ofNat 64 dest, inl := BitVec.ofNat 128 inl } : Hdr).seal
/-- A sealed packet of `n` data units of zeros. -/
def pk (cmd vc n : Nat) (inl : Nat := 0) (dest : Nat := 0) (flags : Nat := 0) : Packet :=
  { hdr := ({ cmd := BitVec.ofNat 8 cmd, vc := BitVec.ofNat 3 vc, len := BitVec.ofNat 6 n, dest := BitVec.ofNat 64 dest,
              inl := BitVec.ofNat 128 inl, flags := BitVec.ofNat 7 flags } : Hdr).seal, data := List.replicate n 0 }
/-- The next state of an outcome. -/
def nextOf (o : Host.Outcome State Fault Refusal) (s : State) : State :=
  match o with
  | .next t => t
  | _ => s

/-- The NI of an attachment delivers. -/
def niOn (s : State) (d att : Nat) : State :=
  match arrivalNi s d att with
  | some t => s.setFld d (niw t NI_CFG) 0 0 1
  | none => s

/-- A root that has a time of day pending, in TRAIN and in SERVICE. -/
def ppsTrain : State :=
  ({ State.reset with mode := .train }.setFld 96 TIM_CFG 1 0 2).setKeeper 96 { tod := some 65536 }
/-- The same in SERVICE, with FT 1,000 ns ahead. -/
def ppsService : State := (svc.setFld 96 TIM_CFG 1 0 2).setKeeper 96 { tod := some 0, ft := 1000 }
/-- A tile that is taking a packet of two units or more. -/
def tileTaking : State :=
  (svc.setFld 0 (niw 0 NI_CFG) 0 0 1).setNi 0 0
    { ej := { rows := [(2, [{ vc := 2, last := false }])] }, cur := { rows := [(2, some { hdr := {} })] } }
/-- An order to a send engine. -/
def anOrder (clear : Bool) : Order := { ce := 0, clear := clear, group := 1, tag := 2, chunk := 0, off := 0, units := 1 }
/-- A report of a send engine. -/
def aReport : Report := { ce := 0, kind := 0, key := { cmd := 0x30, group := 1, tag := 2, chunk := 0 } }
/-- A request of a memory port. -/
def aReq (dead : Bool) : MpReq := { tag := 5, job := 0, idx := 0, off := 0, write := false, issued := 0, dead := dead }
/-- A router with a SLOT unit at input W and slot 0 of output LOCAL reserved for it. -/
def slotHere : State :=
  { ((svc.setFld 0 (trt 0 TRT_CFG) 0 0 1).setKeeper 0 { roundsOn := true }).setRouter 0 0
      { bufs := { rows := [(bk 3 0, [{ hdr := some { cmd := 1, flags := 32 } }])] } } with
    slotTab := { rows := [((rk 0 0 * 8 + 4) * 512, 13)] } }
/-- A router with a packet on VC2 at input W for its tile. -/
def headerHere : State :=
  (svc.setFld 0 (trt 0 TRT_CFG) 0 0 1).setRouter 0 0 { bufs := { rows := [(bk 3 2, [{ vc := 2, hdr := some { cmd := 1, vc := 2 } }])] } }
/-- The same after the reduction unit and the hems have run. -/
def headerReady : State := cycleStart headerHere 0 0
/-- A router with a header in the latch of input W. -/
def latchHere (h : Hdr) : State :=
  { svc.setRouter 0 0 { links := { rows := [(3, { latch := some { hdr := some h } })] } } with treeTab := { rows := [(0, BitVec.ofNat 128 (2 ^ 75))] } }
/-- A reduction context. -/
def aCtx : Ctx := { key := { group := 0, tag := 0, chunkNo := 0, epoch := 0, entry := 0 }, word := 0, side := false, heldIn := 0 }
/-- A seam adapter that is up. -/
def seamUp : State := (svc.setFld 0 (smw 95 SEAM_CFG) 0 0 1).setSeam 0 95 { link := 2 }
/-- One with a frame that is not acknowledged. -/
def seamSent : State := seamUp.setSeam 0 95 { link := 2, replay := [{}], txSeq := 1 }
/-- A CE that runs, with one group of one tile member in entry 0. -/
def ceOn : State :=
  ((svc.setFld 0 (cew 0 CE_CFG) 0 0 1).setFld 0 (cew 0 CE_STAGE_CFG) 58 32 1).setCe 0 0
    { gt := { rows := [(0, BitVec.ofNat 64 (2 ^ 63 + 2 ^ 40)), (3, BitVec.ofNat 64 (2 ^ 33))] } }
/-- A descriptor of one data unit. -/
def opDesc (op : Nat) : BitVec 512 := BitVec.ofNat 512 (op + 2 ^ 12 + 2 ^ 70 + 2 ^ 208 + 2 ^ 354)
/-- A CE with a descriptor at the front of its queue. -/
def ceQueue (op : Nat) : State := ceOn.setEnt 0 0 0 { queue := [(0, opDesc op)] }
/-- The same in a halted group. -/
def ceQueueHalted (op : Nat) : State := ceOn.setEnt 0 0 0 { queue := [(0, opDesc op)], halted := true }
/-- The same with the descriptor's operation aborted before its start. -/
def ceQueueAborted (op : Nat) : State := ceOn.setEnt 0 0 0 { queue := [(0, opDesc op)], future := [(0, 0, 3)] }
/-- What the front descriptor of that queue starts. -/
def frontOp (op : Nat) : CeOp := { tag := 0, desc := opDesc op, cfg := (ceQueue op).reg 0 (cew 0 CE_CFG), startFt := 0, progressFt := 0 }
/-- An active operation. -/
def anOp (op : Nat) : CeOp := { tag := 0, desc := opDesc op, cfg := 0, startFt := 0, progressFt := 0 }
/-- A CE with an active operation. -/
def ceOp (op : Nat) : State := ceOn.setEnt 0 0 0 { ops := [anOp op] }
/-- A transfer being received. -/
def aXfer : Xfer := { key := { cmd := 0x30, group := 0, tag := 0, chunk := 0 }, epoch := 0 }
/-- A slot of a coordinator. -/
def aSlot (st : Nat) : CoSlot := { group := 0, order := 0, req := 0, st := st, t := 0 }
/-- A coordinator with an open slot. -/
def coOpen (st : Nat) : State := svc.setCoord 0 0 { slots := { rows := [(0, some (aSlot st))] } }
/-- A port in state `st`. -/
def portAt (st : Nat) : State := (svc.setFld 64 STL_STATUS 3 0 st).setFld 64 STL_CFG 0 0 1
/-- A stitch port's record changed. -/
def portWith (st : Nat) (x : Stl) : State := (portAt st).setStl 64 x
/-- A packet on VC2 for die `die` in the ingress buffer of a port. -/
def inPacket (route : Nat) (pos : PkgStep) (die off : Nat := 0) : StPk :=
  { pk := { hdr := ({ cmd := 1, vc := 2, dest := fabricAddr 0 die 0 0 off, routePkg := BitVec.ofNat 24 route } : Hdr).seal }, pos := pos }
/-- That packet is the only one of the buffer. -/
def portIn (s : State) (p : StPk) : State := s.setStl 64 { s.stl 64 with inBuf := [p] }
/-- The port when the packet has been taken out. -/
def portOut (s : State) (p : StPk) : State :=
  (portIn s p).setStl 64 { (portIn s p).stl 64 with inBuf := [], owed := ((portIn s p).stl 64).owed.set 0 4 (((portIn s p).stl 64).owed.get 0 4 + 1) }
/-- The same after the ingress probe. -/
def passed (s : State) (p : StPk) : State := probeEval (portOut s p) 64 7 0 0 0 p.pk.hdr
/-- A port whose ingress meter discards what is red. -/
def portRed : State := (portAt 5).setShp 64 8 2 { mcfg := BitVec.ofNat 64 (2 ^ 20 + 1) }
/-- A port whose map names port 0 for every direction. -/
def portMap : State := (portAt 5).setReg 64 STL_DIR_MAP 0
/-- A port with LOCAL_ARRIVAL set, and an arrival route to die 0 or none. -/
def portLands (route : Bool) : State :=
  { (portAt 5).setFld 64 STL_CFG 1 1 1 with
    arrivalTab := if route then { rows := [((64 * 8 + portNum svc 64) * 128, BitVec.ofNat 64 (2 ^ 48 + 5))] } else {} }
/-- A router that forwards, with a probe on its way to it. -/
def probeHere (k : Nat) : State := { svc.setFld 0 (trt 0 TRT_CFG) 0 0 1 with probeWires := { rows := [(k, [{ hdr := {} }])] } }
/-- A package in TEST. -/
def testing : State := { svc with mode := .test }
/-- An idle frame. -/
def aFrame : StRx := { frame := { ftype := 0 } }
/-- A router that forwards and probes. -/
def probing : State := (svc.setFld 0 (trt 0 TRT_CFG) 0 0 1).setFld 0 HLT_CFG 1 1 1
/-- A probe that a router waits for. -/
def aProbe (failed : Bool) : ProbeJob := { out := 1, pk := { hdr := { cmd := 0x52 } }, sentFt := 0, failed := failed }
/-- A package in SERVICE whose head tailor runs. -/
def headOn : State := svc.setFld 96 TLR_BOOT_STATUS 2 0 4
/-- A darn in progress whose failed tile has a twin. -/
def aDarn (st : Nat) : State :=
  (svc.setDarn 0 { job := some { p := 0, row := 0, panel := 0, col := 0, twin := some (30, 1) } }).setFld 0 HLT_DARN_STATUS 2 0 st
/-- The darn of that state. -/
def aDarnJob : DarnJob := { p := 0, row := 0, panel := 0, col := 0, twin := some (30, 1) }
/-- A route of tile 0 of die 0 to the east over a hemmed output, with another to the south. -/
def cutRoute : State :=
  { headOn.setFld 0 HLT_HEM_0 1 1 1 with
    routeTab := { rows := [(rk 0 0 * 128, BitVec.ofNat 128 (0x41 + 2 ^ 48 + 0x81 * 2 ^ 64 + 2 ^ 112))] } }
/-- A stall under way. -/
def aStall : Stall := { kind := 5, unit := 0, port := 0, ft := 0 }
/-- A tile with an order that waits, and its stall. -/
def stalled (orders : List Order) : State := { svc.setNi 0 0 { orders := orders } with stalls := { rows := [(0, [aStall])] } }
/-- A package of one compute die that is locked. -/
def small (m : Mode) : State :=
  { State.reset with floor := { w := 1, h := 1, others := [] }, mode := m }.setKeeper 0 { lock := true }
/-- A partition's mend at step `n`. -/
def mending (n : Nat) : State := (small .service).setFld 96 (partReg 0) 3 0 n
/-- An entry of a dump in progress. -/
def aDump : DumpJob := { entry := 0, readFt := some 0, write := some 0 }
/-- A die in DUMP. -/
def dumpOn : State := timeAt ((svc.setFld 96 (partReg 0) 3 0 3).setDump 0 { on := true, jobs := { rows := [(0, some aDump)] } }) 0 10000
/-- A state in which the loader is at STATE `st` of a load in MODE `m`. -/
def loading (st m : Nat) : State := { State.reset with loader := { mode := m } }.setFld 96 PAT_LOAD_STATUS 3 0 st
/-- A patch. -/
def aPatch (st : Nat) : Patch := { num := 0, id := 0, t := 0, st := st, streams := [] }
/-- A posted patch whose completion record has been written to the scratchpad of tile 0. -/
def patchDone : State :=
  { svc with patches := [aPatch 4], mem := [(scratchKey 0 0 31, 0x80)] }
/-- A ledger with a record on its way to the mirror. -/
def aChained : Chained := { lseq := 0, quads := [], chain := [] }
/-- A ledger with records that are not sealed. -/
def unsealedLedger : State := { headOn with ledger := { next := 1, unsealed := 2 ^ 40 } }
/-- A service die whose boot ROM is in state `st`. -/
def bootAt (st : Nat) : State := State.reset.setFld 98 TLR_BOOT_STATUS 2 0 st
/-- The words of an owner key: 0x04 and the generator of P-384. -/
def ownerWords : List Word := [0x58bbe22ca87aa04, 0xad20f31ec7b18e37, 0x9ba78b623b1d6e74, 0x2a5482e041f75998, 0x2955bf5df2025538,
  0xa7672385e543a6c, 0x2c26964ade1736b7, 0xdc9292bf989e5d6f, 0x149a28bd1df4f829, 0xb8f0b51331dae97c,
  0x817e1dceb1600ac0, 0xeea907c1d437a9d, 0x5f]
/-- A service die that has been given that key. -/
def ownerGiven : State :=
  (List.range 13).foldl (fun s i => s.setReg 96 (SEC_OWNER_KEY0 + 8 * i) (ownerWords.getD i 0)) (State.reset.setFld 96 TLR_BOOT_STATUS 2 0 4)
/-- A package whose debug sequence is at step `st`. -/
def debugAt (st : Nat) : State := State.reset.setFld 96 SEC_DEBUG_STATUS 2 0 st
/-- A read of the host in flight. -/
def aHostJob : HostJob := { kind := 0, addr := 0 }

/-! ## Single steps -/

/-- One step from a state with one command waiting. -/
def stepOf (c : Instr) (s : State) : State := nextOf (step { s with pending := [c] }) s

/-- A store that performs operations, with object 5 at `x`. -/
def syncOn (x : BitVec 128) : State := (svc.setFld 0 SYN_CFG 0 0 1).setSobj 0 5 x

/-- R210: a cycle of the reference adds 0 ns and fraction 0xA000. -/
theorem test_tick_adds_0625_ns :
    ((stepOf (.timeKeeperTick 5 .cycle .none) svc).keeper 5).ft = 0 ∧
    ((stepOf (.timeKeeperTick 5 .cycle .none) svc).keeper 5).frac = 0xA000 ∧
    ((stepOf (.timeKeeperTick 5 .cycle .none) (svc.setKeeper 5 { frac := 0xA000 })).keeper 5).ft = 1 := by decide +kernel

/-- The queue is taken from its front. -/
theorem test_step_takes_front :
    (nextOf (step { State.reset with pending := [.mndTailorKick 3, .mndTailorKick 4] }) svc).pending = [.mndTailorKick 4] := by
  decide +kernel

/-- R37, R39: the reference floor has dies 0 to 99 and no others. -/
theorem test_absent_die_stops :
    (match step { State.reset with pending := [.coldReset 100] } with
      | .fault .noSuchUnit => true
      | _ => false) = true := by decide +kernel

/-- R451: ADD adds ARG0 to a counter, TAKE takes it from a semaphore. -/
theorem test_sync_add_and_take :
    (stepOf (.syncAdd 0 (hd 0x12 1 7 0x50)) (syncOn (BitVec.ofNat 128 (2 ^ 125 + 3)))).sobj 0 5 =
      BitVec.ofNat 128 (2 ^ 125 + 10) ∧
    (stepOf (.syncTake 0 (hd 0x14 1 2 0x50)) (syncOn (BitVec.ofNat 128 (2 ^ 126 + 3)))).sobj 0 5 =
      BitVec.ofNat 128 (2 ^ 126 + 1) := by decide +kernel

/-- R463: UNLOCK by another engine than the owner leaves the lock held. -/
theorem test_unlock_by_other :
    (stepOf (.syncUnlock 0 (hd 0x16 1 0 0x50)) (syncOn (BitVec.ofNat 128 (3 * 2 ^ 125 + 2 ^ 32 + 9)))).sobj 0 5 =
      BitVec.ofNat 128 (3 * 2 ^ 125 + 2 ^ 32 + 9) := by decide +kernel

/-- R69, R837: a WRITE of one unit with byte mask 0b10 at a memory port writes byte 1 of the aligned unit alone. -/
theorem test_masked_write :
    (stepOf (.write 72 attMem { pk 1 2 1 2 0x45 with data := [0xAABBCC] }) (niOn svc 72 attMem)).mem = [(dramKey 72 0x41, 0xBB)] := by
  decide +kernel

/-- R27: the tailor core may write PL fields directly in COLD. -/
theorem test_pl_field_write_in_cold :
    (stepOf (.csrRegisterWrite 0 (niw 0 NI_CFG) {} 0xFFFFFFFFFFFFFFFF) State.reset).reg 0 (niw 0 NI_CFG) ≠
      State.reset.reg 0 (niw 0 NI_CFG) := by decide +kernel

/-- R707: a CANCEL written at T is ignored. -/
theorem test_cancel_at_t :
    armed (stepOf (.mndStopCancel 96) (svc.setFld 96 MND_STOP_STATUS 0 0 1)) 96 = true := by decide +kernel

/-- R530: in DETECT, signal on 20 lanes takes the port to EQUALISE, on 19 it does not. -/
theorem test_signal_detect :
    stlState (stepOf (.pmaSignalDetect 64 (2 ^ 20 - 1)) (portAt 1)) 64 = 2 ∧
    stlState (stepOf (.pmaSignalDetect 64 (2 ^ 19 - 1)) (portAt 1)) 64 = 1 := by decide +kernel

/-- R610: a second detection of the same CLASS and INDEX counts in the first record. -/
theorem test_fault_merges :
    bitsOf ((stepOf (.scrubWord 0 (.object 3) .single) (stepOf (.scrubWord 0 (.object 3) .single)
      (svc.setFld 0 HLT_CFG 2 2 1))).flog.get 0 0) 15 8 = 1 := by decide +kernel

/-- R516: 514 message symbols and their 30 parity symbols are 0 at a root of the code, and a changed symbol is not. -/
theorem test_codeword_has_roots :
    (rsEval (List.range 514 ++ rsParity (List.range 514)) 2 == 0) = true ∧
    (rsEval (List.range 513 ++ 0 :: rsParity (List.range 514)) 2 == 0) = false := by decide +kernel

/-! ## Witnesses -/

/-- A case that meets the hypotheses of StepRunsFrontCommand. -/
theorem witness_StepRunsFrontCommand : ∃ (c : Instr) (cs : List Instr) (s : State), s.pending = c :: cs :=
  ⟨.trainComplete, [], { State.reset with pending := [.trainComplete] }, rfl⟩

/-- A case that meets the hypotheses of EmptyQueueIdles. -/
theorem witness_EmptyQueueIdles : ∃ (s : State), s.pending = [] :=
  ⟨State.reset, rfl⟩

/-- A case that meets the hypotheses of CanonicalMemoryUnique. -/
theorem witness_CanonicalMemoryUnique : ∃ (m n : List Host.Cell), Memory.wf m = true ∧
      Memory.wf n = true ∧
      (∀ a, readByte m a = readByte n a) :=
  ⟨[(0, 1)], [(0, 1)], by decide +kernel, by decide +kernel, fun _ => rfl⟩

/-- For each clause of UnitWriteReadsBack, a case that meets its hypotheses. -/
theorem witness_UnitWriteReadsBack :
    (∃ (m : List Host.Cell) (key : Nat → Nat) (limit off mask : Nat) (u : DataUnit), ∃ i, off + 64 ≤ limit ∧
      i < 64) ∧
    (∃ (m : List Host.Cell) (key : Nat → Nat) (limit off mask : Nat) (u : DataUnit), ∃ x, off + 64 ≤ limit ∧
      (x < key off ∨ key off + 64 ≤ x)) ∧
    (∃ (m : List Host.Cell) (key : Nat → Nat) (limit off mask : Nat) (u : DataUnit), limit < off + 64) :=
  ⟨⟨[], id, 128, 64, 1, 0, 63, by decide +kernel⟩,
    ⟨[], id, 128, 64, 1, 0, 63, by decide +kernel⟩,
    ⟨[], id, 128, 65, 1, 0, by decide +kernel⟩⟩

/-- For each clause of FieldWriteReadsBack, a case that meets its hypotheses. -/
theorem witness_FieldWriteReadsBack :
    (∃ (s : State) (d off hi lo v : Nat), lo ≤ hi ∧
      hi < 64) ∧
    (∃ (s : State) (d off hi lo v : Nat), ∃ b, lo ≤ hi ∧
      hi < 64 ∧
      (b < lo ∨ hi < b)) ∧
    (∃ (s : State) (d off hi lo v : Nat), ∃ d' off', lo ≤ hi ∧
      hi < 64 ∧
      ck d' off' ≠ ck d off) :=
  ⟨⟨State.reset, 0, 0, 63, 0, 0, by decide +kernel⟩,
    ⟨State.reset, 0, 0, 15, 8, 0, 16, by decide +kernel⟩,
    ⟨State.reset, 0, 0, 15, 8, 0, 1, 8, by decide +kernel⟩⟩

/-- A case that meets the hypotheses of CountersWrapOrSaturate. -/
theorem witness_CountersWrapOrSaturate : ∃ (s : State) (d off hi lo n : Nat), lo ≤ hi ∧
      hi < 64 ∧
      s.wrote d off hi lo = false :=
  ⟨State.reset, 0, 0, 63, 0, 1, by decide +kernel⟩

/-- A case that meets the hypotheses of StepKeepsMemoryCanonical. -/
theorem witness_StepKeepsMemoryCanonical : ∃ (s t : State), s.Inv ∧
      step s = .next t :=
  ⟨State.reset, State.reset, by and_intros <;> first | decide +kernel | rfl⟩

/-- For each clause of KeeperTickAdds, a case that meets its hypotheses. -/
theorem witness_KeeperTickAdds :
    (∃ (k : Keeper), k.slew = 0) ∧
    (∃ (k : Keeper), 0 < k.slew) ∧
    (∃ (k : Keeper), k.slew < 0) :=
  ⟨⟨{}, by decide +kernel⟩,
    ⟨{ slew := 1 }, by decide +kernel⟩,
    ⟨{ slew := -1 }, by decide +kernel⟩⟩

/-- For each clause of TimeEventsComplete, a case that meets its hypotheses. -/
theorem witness_TimeEventsComplete :
    (∃ (d : Nat) (w e : Clk) (s : State), dieExists s d = true) ∧
    (∃ (d : Nat) (s : State), dieExists s d = true) ∧
    (∃ (d : Nat) (s : State), dieExists s d = true ∧
      actsAsRoot s d = true ∧
      ptpOk s d = true) ∧
    (∃ (d : Nat) (s : State), dieExists s d = true ∧
      actsAsRoot s d = true) ∧
    (∃ (d : Nat) (s : State), dieExists s d = true ∧
      actsAsRoot s d = true ∧
      (s.keeper d).lastPps + ppsLimit ≤ s.now d ∧
      (s.keeper d).tod = none ∧
      (s.keeper d).holdover = false) ∧
    (∃ (d : Nat) (s : State), dieExists s d = true ∧
      s.fld d TIM_CFG 1 0 = 0 ∧
      (s.keeper d).lastXfer + xferPeriod s d ≤ s.now d / roundNs) ∧
    (∃ (d : Nat) (s : State), dieExists s d = true ∧
      3 ≤ (s.keeper d).noResp ∧
      s.fld d TIM_CFG 1 0 ≠ 1) ∧
    (∃ (d : Nat) (s t : State) (tod : Int), dieExists s d = true ∧
      actsAsRoot s d = true ∧
      (s.keeper d).tod = some tod ∧
      exec (.ppsEdge d) s = .next t ∧
      s.mode = .train) ∧
    (∃ (d : Nat) (s t : State) (tod : Int), dieExists s d = true ∧
      actsAsRoot s d = true ∧
      (s.keeper d).tod = some tod ∧
      exec (.ppsEdge d) s = .next t ∧
      s.mode = .service ∧
      (((s.keeper d).ft.toNat * 65536 : Nat) : Int) - tod ≤ 65536000 ∧
      -65536000 ≤ (((s.keeper d).ft.toNat * 65536 : Nat) : Int) - tod) :=
  ⟨⟨0, .cycle, .none, State.reset, by decide +kernel⟩,
    ⟨99, State.reset, by decide +kernel⟩,
    ⟨96, (State.reset.setFld 96 TIM_CFG 1 0 2).setReg 96 TIM_PTP_BUF0 (BitVec.ofNat 64 (2 ^ 59 + 2 ^ 9)), by decide +kernel⟩,
    ⟨96, State.reset.setFld 96 TIM_CFG 1 0 2, by decide +kernel⟩,
    ⟨96, timeAt (State.reset.setFld 96 TIM_CFG 1 0 2) 96 1100000000, by decide +kernel⟩,
    ⟨5, timeAt State.reset 5 163840, by decide +kernel⟩,
    ⟨5, State.reset.setKeeper 5 { noResp := 3 }, by decide +kernel⟩,
    ⟨96, ppsTrain, ppsEdge ppsTrain 96, 65536, by and_intros <;> first | decide +kernel | rfl⟩,
    ⟨96, ppsService, ppsEdge ppsService 96, 0, by and_intros <;> first | decide +kernel | rfl⟩⟩

/-- A case that meets the hypotheses of ThetaOfSymmetricExchange. -/
theorem witness_ThetaOfSymmetricExchange : ∃ (t1 gap turn off : Nat), t1 + 2 * gap + turn + off < 2 ^ 42 :=
  ⟨10, 5, 3, 7, by decide +kernel⟩

/-- For each clause of RoundAndPanelCommandsComplete, a case that meets its hypotheses. -/
theorem witness_RoundAndPanelCommandsComplete :
    (∃ (d : Nat) (s : State), dieExists s d = true ∧
      s.now d / roundNs ≠ (s.keeper d).round) ∧
    (∃ (d : Nat) (p : Packet) (s : State), taken s d attCtl 0x51 p = true ∧
      p.hdr.inlBits 355 352 = 0) ∧
    (∃ (d : Nat) (p : Packet) (s : State), taken s d attCtl 0x51 p = true ∧
      p.hdr.inlBits 355 352 = 1) ∧
    (∃ (d panel : Nat) (s : State), isKind s d .compute = true ∧
      panel < 2) ∧
    (∃ (d panel : Nat) (s : State), isKind s d .compute = true ∧
      panel < 2 ∧
      (s.region d panel).ack ≠ (s.region d panel).down ∧
      (s.region d panel).ackLate = false ∧
      (s.region d panel).reqFt + 40 * 65536 ≤ s.fine d) ∧
    (∃ (d : Nat) (v : Word) (s : State), isKind s d .compute = true) :=
  ⟨⟨5, timeAt State.reset 5 2560, by decide +kernel⟩,
    ⟨5, pk 0x51 0 0, State.reset, by decide +kernel⟩,
    ⟨5, pk 0x51 0 0 1, State.reset, by decide +kernel⟩,
    ⟨0, 1, State.reset, by decide +kernel⟩,
    ⟨0, 1, timeAt (State.reset.setRegion 0 1 { down := true }) 0 40, by decide +kernel⟩,
    ⟨63, 3, State.reset, by decide +kernel⟩⟩

/-- For each clause of ShapingCommandsComplete, a case that meets its hypotheses. -/
theorem witness_ShapingCommandsComplete :
    (∃ (d g : Nat) (s : State), hasGate s d g = true ∧
      (s.gate d g).openAll = false ∧
      gateEnd s d g ≤ s.now d ∧
      (s.gate d g).startFt + (s.gate d g).period * 2560 ≤ s.now d) ∧
    (∃ (d g : Nat) (s : State), hasGate s d g = true ∧
      (s.gate d g).openAll = false ∧
      gateEnd s d g ≤ s.now d ∧
      s.now d < (s.gate d g).startFt + (s.gate d g).period * 2560) ∧
    (∃ (d g a : Nat) (s : State), hasGate s d g = true ∧
      (s.gate d g).armedAt = some a ∧
      (takeoverAt s d g a).1 ≤ s.now d) ∧
    (∃ (d g v : Nat) (s : State), hasShaper s d g v = true ∧
      refillSlot (s.now d / 5) (s.fld d (shw g v SHP_SHAPE_CFG) 19 16) = true ∧
      (s.shp d g v).slotAt ≠ s.now d / 5 ∧
      (s.flag d (shw g v SHP_SHAPE_CFG) 0 = true → s.fld d (shw g v SHP_SHAPE_CFG) 19 16 < 10 ∧ s.fld d (shw g v SHP_SHAPE_CFG) 63 48 ≠ 0)) ∧
    (∃ (d g v : Nat) (s : State), hasShaper s d g v = true ∧
      refillSlot (s.now d / 5) (s.fld d (shw g v SHP_METER_RATE) 19 16) = true ∧
      (s.shp d g v).mslotAt ≠ s.now d / 5 ∧
      (s.flag d (shw g v SHP_METER_RATE) 0 = true → s.fld d (shw g v SHP_METER_RATE) 19 16 < 10)) ∧
    (∃ (d p : Nat) (s : State), routerExists s d p = true ∧
      s.flag d (trt p TRT_QSAMPLE_CFG) 0 = true ∧
      (s.regionOf d p).c = 8 * s.fld d (trt p TRT_QSAMPLE_CFG) 20 12 ∧
      (s.now d / 2560 - s.sampleFrom.get 0 (ck d (trt p TRT_QSAMPLE_CFG))) % (s.fld d (trt p TRT_QSAMPLE_CFG) 31 24 + 1) = 0 ∧
      s.flag d OBS_CFG 2 = false) ∧
    (∃ (d p : Nat) (v : Word) (s : State), routerExists s d p = true) :=
  ⟨⟨0, 0, timeAt (State.reset.setGate 0 0 { openAll := false }) 0 2560, by decide +kernel⟩,
    ⟨0, 0, timeAt (State.reset.setGate 0 0 { openAll := false, last := 1 }) 0 0, by decide +kernel⟩,
    ⟨0, 0, 5, timeAt (State.reset.setGate 0 0 { armedAt := some 5 }) 0 5120, by decide +kernel⟩,
    ⟨0, 0, 1, timeAt (State.reset.setFld 0 (shw 0 1 SHP_SHAPE_CFG) 63 48 1) 0 5, by decide +kernel⟩,
    ⟨0, 0, 5, timeAt State.reset 0 5, by decide +kernel⟩,
    ⟨0, 623, State.reset.setFld 0 (trt 623 TRT_QSAMPLE_CFG) 0 0 1, by decide +kernel⟩,
    ⟨0, 623, 0, State.reset, by decide +kernel⟩⟩

/-- For each clause of ShapersAndMeters, a case that meets its hypotheses. -/
theorem witness_ShapersAndMeters :
    (∃ (x : Shp) (cfg : Word) (slot : Nat), x.cfg.getLsbD 0 = true) ∧
    (∃ (x : Shp) (cfg : Word) (slot : Nat), x.cfg.getLsbD 0 = false ∧
      cfg.getLsbD 0 = true) ∧
    (∃ (x : Shp) (len : Nat), x.tp < 64 * (1 + len)) ∧
    (∃ (x : Shp) (len : Nat), 64 * (1 + len) ≤ x.tp ∧
      x.tc < 64 * (1 + len)) ∧
    (∃ (x : Shp) (len : Nat), 64 * (1 + len) ≤ x.tp ∧
      64 * (1 + len) ≤ x.tc) :=
  ⟨⟨{ cfg := 1 }, 0, 0, by decide +kernel⟩,
    ⟨{}, 1, 0, by decide +kernel⟩,
    ⟨{}, 0, by decide +kernel⟩,
    ⟨{ tp := 64 }, 0, by decide +kernel⟩,
    ⟨{ tp := 64, tc := 64 }, 0, by decide +kernel⟩⟩

/-- For each clause of GovernorPermitBounds, a case that meets its hypotheses. -/
theorem witness_GovernorPermitBounds :
    (∃ (model ctl : Word) (cap : Nat) (g : Gov), permitMin ctl ≤ g.permit ∧
      g.permit ≤ 4096) ∧
    (∃ (model ctl : Word) (cap : Nat) (g : Gov), permitMin ctl ≤ g.permit ∧
      g.permit ≤ 4096 ∧
      ctl.getLsbD 0 = false) :=
  ⟨⟨0, 1, 0, {}, by decide +kernel⟩,
    ⟨0, 0, 0, {}, by decide +kernel⟩⟩

/-- For each clause of AccessesComplete, a case that meets its hypotheses. -/
theorem witness_AccessesComplete :
    (∃ (d p : Nat) (pk : Packet) (s : State), isTile s d p = true ∧
      taken s d p 0x01 pk = true) ∧
    (∃ (d p : Nat) (pk : Packet) (s : State), isTile s d p = true ∧
      taken s d p 0x02 pk = true) ∧
    (∃ (d p : Nat) (pk : Packet) (s : State), isTile s d p = true ∧
      taken s d p 0x03 pk = true) ∧
    (∃ (d p : Nat) (pk : Packet) (s : State), isTile s d p = true ∧
      taken s d p 0x04 pk = true) ∧
    (∃ (d : Nat) (pk : Packet) (s : State), isKind s d .memif = true ∧
      taken s d attMem 0x01 pk = true) ∧
    (∃ (d : Nat) (pk : Packet) (s : State), isKind s d .memif = true ∧
      taken s d attMem 0x02 pk = true) ∧
    (∃ (d : Nat) (pk : Packet) (s : State), isKind s d .memif = true ∧
      taken s d attMem 0x03 pk = true) ∧
    (∃ (d : Nat) (pk : Packet) (s : State), isKind s d .memif = true ∧
      taken s d attMem 0x04 pk = true) ∧
    (∃ (d k : Nat) (pk : Packet) (s : State), ceExists s d k = true ∧
      natBit pk.hdr.destOff 33 = true ∧
      (s.shp d k pk.hdr.vc.toNat).mcfg.getLsbD 0 = false ∧
      sharesBad (takeArrival s d (attCe k) pk) d = false ∧
      taken s d (attCe k) 0x01 pk = true) ∧
    (∃ (d k : Nat) (pk : Packet) (s : State), ceExists s d k = true ∧
      natBit pk.hdr.destOff 33 = true ∧
      (s.shp d k pk.hdr.vc.toNat).mcfg.getLsbD 0 = false ∧
      sharesBad (takeArrival s d (attCe k) pk) d = false ∧
      taken s d (attCe k) 0x02 pk = true) ∧
    (∃ (d k : Nat) (pk : Packet) (s : State), ceExists s d k = true ∧
      natBit pk.hdr.destOff 33 = true ∧
      (s.shp d k pk.hdr.vc.toNat).mcfg.getLsbD 0 = false ∧
      sharesBad (takeArrival s d (attCe k) pk) d = false ∧
      taken s d (attCe k) 0x03 pk = true) ∧
    (∃ (d k : Nat) (pk : Packet) (s : State), ceExists s d k = true ∧
      natBit pk.hdr.destOff 33 = true ∧
      (s.shp d k pk.hdr.vc.toNat).mcfg.getLsbD 0 = false ∧
      sharesBad (takeArrival s d (attCe k) pk) d = false ∧
      taken s d (attCe k) 0x04 pk = true) :=
  ⟨⟨0, 0, pk 1 2 1, State.reset, by decide +kernel⟩,
    ⟨0, 623, pk 2 2 32, State.reset, by decide +kernel⟩,
    ⟨0, 0, pk 3 1 0, State.reset, by decide +kernel⟩,
    ⟨0, 0, pk 4 2 0 32, State.reset, by decide +kernel⟩,
    ⟨72, pk 1 4 32, niOn State.reset 72 attMem, by decide +kernel⟩,
    ⟨72, pk 2 2 1, niOn State.reset 72 attMem, by decide +kernel⟩,
    ⟨72, pk 3 2 0, niOn State.reset 72 attMem, by decide +kernel⟩,
    ⟨95, pk 4 2 0 1, niOn State.reset 95 attMem, by decide +kernel⟩,
    ⟨0, 7, pk 1 2 1 0 (2 ^ 33), State.reset, by decide +kernel⟩,
    ⟨0, 7, pk 2 2 1 0 (2 ^ 33), State.reset, by decide +kernel⟩,
    ⟨64, 0, pk 3 2 0 0 (2 ^ 33), niOn State.reset 64 (attCe 0), by decide +kernel⟩,
    ⟨64, 3, pk 4 2 0 1 (2 ^ 33), niOn State.reset 64 (attCe 3), by decide +kernel⟩⟩

/-- A case that meets the hypotheses of TileWriteLandsInScratchpad. -/
theorem witness_TileWriteLandsInScratchpad : ∃ (d p : Nat) (pk : Packet) (s t : State), isTile s d p = true ∧
      taken s d p 0x01 pk = true ∧
      pk.hdr.sparse = false ∧
      (s.ni d p).ej.get [] pk.hdr.vc.toNat = [] ∧
      (s.ni d p).cur.get none pk.hdr.vc.toNat = none ∧
      genHeld s d p pk.hdr = false ∧
      tileInReset s d = false ∧
      s.flag d (niw p NI_CFG) 0 = true ∧
      s.flag d SLC_MODE 0 = false ∧
      exec (.write d p pk) s = .next t :=
  ⟨0, 0, pk 1 2 1, svc.setFld 0 (niw 0 NI_CFG) 0 0 1, nextOf (exec (.write 0 0 (pk 1 2 1)) (svc.setFld 0 (niw 0 NI_CFG) 0 0 1)) svc, by and_intros <;> first | decide +kernel | rfl⟩

/-- A case that meets the hypotheses of WriteAckAnswered. -/
theorem witness_WriteAckAnswered : ∃ (h : Hdr) (src : BitVec 32) (n : Nat), n < 256 :=
  ⟨{}, 0, 255, by decide +kernel⟩

/-- For each clause of ResponsesAndTileMessagesComplete, a case that meets its hypotheses. -/
theorem witness_ResponsesAndTileMessagesComplete :
    (∃ (d p : Nat) (pk : Packet) (s : State), isTile s d p = true ∧
      pk.hdr.destOff % 4 = 0 ∧
      taken s d p 0x05 pk = true) ∧
    (∃ (d p : Nat) (pk : Packet) (s : State), isTile s d p = true ∧
      pk.hdr.destOff % 4 = 0 ∧
      taken s d p 0x06 pk = true) ∧
    (∃ (d p : Nat) (pk : Packet) (s : State), isTile s d p = true ∧
      pk.hdr.destOff % 4 = 0 ∧
      taken s d p 0x62 pk = true) ∧
    (∃ (d : Nat) (pk : Packet) (s : State), dieExists s d = true ∧
      pk.hdr.destOff % 4 = 2 ∧
      taken s d attCtl 0x62 pk = true) ∧
    (∃ (d p : Nat) (h : Hdr) (s : State), isTile s d p = true ∧
      taken s d p 0x53 { hdr := h } = true) ∧
    (∃ (d p : Nat) (pk : Packet) (s : State), isTile s d p = true ∧
      taken s d p 0x33 pk = true) ∧
    (∃ (d p : Nat) (pk : Packet) (s : State), isTile s d p = true ∧
      taken s d p 0x63 pk = true) :=
  ⟨⟨0, 0, pk 5 3 1, State.reset, by decide +kernel⟩,
    ⟨0, 0, pk 6 3 0, State.reset, by decide +kernel⟩,
    ⟨0, 0, pk 0x62 5 0, State.reset, by decide +kernel⟩,
    ⟨99, pk 0x62 5 0 0 2, niOn State.reset 99 attCtl, by decide +kernel⟩,
    ⟨0, 0, hd 0x53 1, State.reset, by decide +kernel⟩,
    ⟨0, 0, pk 0x33 4 1 0 0 2, State.reset, by decide +kernel⟩,
    ⟨0, 0, pk 0x63 5 1, State.reset, by decide +kernel⟩⟩

/-- For each clause of TilePortCommandsComplete, a case that meets its hypotheses. -/
theorem witness_TilePortCommandsComplete :
    (∃ (d p v : Nat) (u : DataUnit) (s : State), isTile s d p = true ∧
      v < 6 ∧
      tileInReset s d = false ∧
      isHalted s d p = false ∧
      queuedUnits s d p v + ((s.ni d p).part.get [] v ++ [u]).length ≤ 33) ∧
    (∃ (d p v : Nat) (u : DataUnit) (s : State) (us : List DataUnit) (pk : Packet), isTile s d p = true ∧
      v < 6 ∧
      tileInReset s d = false ∧
      isHalted s d p = false ∧
      us = (s.ni d p).part.get [] v ++ [u] ∧
      queuedUnits s d p v + us.length ≤ 33 ∧
      pk = { hdr := Hdr.unpack (us.headD 0), data := us.drop 1 } ∧
      pk.hdr.vc.toNat = v ∧
      launchMisuse s d v = false ∧
      packetMisuse pk = none) ∧
    (∃ (d p v : Nat) (s : State) (f : Flit) (fs : List Flit) (c : Dlv), isTile s d p = true ∧
      v < 6 ∧
      tileInReset s d = false ∧
      isHalted s d p = false ∧
      s.flag d (niw p NI_CFG) 0 = true ∧
      (s.ni d p).ej.get [] v = f :: fs ∧
      (s.ni d p).cur.get none v = some c ∧
      c.drop = false ∧
      f.last = false) ∧
    (∃ (d p gen : Nat) (s : State), isTile s d p = true ∧
      gen < 16) ∧
    (∃ (d p tag : Nat) (s : State), isTile s d p = true ∧
      tag < 32 ∧
      tileInReset s d = false) ∧
    (∃ (d p addr be : Nat) (u : DataUnit) (s : State) (w : Word), isTile s d p = true ∧
      isHalted s d p = false ∧
      tileInReset s d = false ∧
      be % 2 ^ 64 ≠ 0 ∧
      twinOf s d p = some w ∧
      inTwin w (addr % 2 ^ 17 * 8 / 64 * 64) = true) ∧
    (∃ (d att v : Nat) (s : State), attExists s d att = true ∧
      v < 6) ∧
    (∃ (d att : Nat) (s : State), attExists s d att = true) ∧
    (∃ (d p : Nat) (s : State) (o : Order) (os : List Order), isTile s d p = true ∧
      (s.ni d p).orders = o :: os ∧
      o.clear = true ∧
      o.busy = false ∧
      o.start ≤ s.now d ∧
      tileInReset s d = false ∧
      attHalted s d p = false) ∧
    (∃ (d p : Nat) (s : State) (o : Order) (os : List Order), isTile s d p = true ∧
      (s.ni d p).orders = o :: os ∧
      o.clear = false ∧
      o.busy = false ∧
      o.start ≤ s.now d ∧
      tileInReset s d = false ∧
      attHalted s d p = false) ∧
    (∃ (d p g tag : Nat) (s : State) (cs : List (Nat × Nat)), isTile s d p = true ∧
      (s.ni d p).cancels = (g, tag) :: cs) ∧
    (∃ (d p : Nat) (s : State) (r : Report) (rs : List Report), isTile s d p = true ∧
      (s.ni d p).reports = r :: rs) :=
  ⟨⟨0, 0, 5, 0, svc, by decide +kernel⟩,
    ⟨0, 0, 2, (hd 4 2 32).pack, svc, [(hd 4 2 32).pack], { hdr := Hdr.unpack (hd 4 2 32).pack, data := [] }, by and_intros <;> first | decide +kernel | rfl⟩,
    ⟨0, 0, 2, tileTaking, { vc := 2, last := false }, [], { hdr := {} }, by decide +kernel⟩,
    ⟨0, 0, 15, State.reset, by decide +kernel⟩,
    ⟨0, 0, 31, svc, by decide +kernel⟩,
    ⟨0, 0, 0, 1, 0, svc.setReg 0 (HLT_TWIN_0 + 8 * 0) 0x10001, 0x10001, by decide +kernel⟩,
    ⟨0, 0, 5, State.reset, by decide +kernel⟩,
    ⟨0, 0, State.reset, by decide +kernel⟩,
    ⟨0, 0, svc.setNi 0 0 { orders := [anOrder true] }, anOrder true, [], by decide +kernel⟩,
    ⟨0, 0, svc.setNi 0 0 { orders := [anOrder false] }, anOrder false, [], by decide +kernel⟩,
    ⟨0, 0, 1, 2, State.reset.setNi 0 0 { cancels := [(1, 2)] }, [], by decide +kernel⟩,
    ⟨0, 0, State.reset.setNi 0 0 { reports := [aReport] }, aReport, [], by decide +kernel⟩⟩

/-- For each clause of MemoryPortCommandsComplete, a case that meets its hypotheses. -/
theorem witness_MemoryPortCommandsComplete :
    (∃ (d tag : Nat) (err : Bool) (s : State) (r : MpReq), isKind s d .memif = true ∧
      attHalted s d attMem = false ∧
      (s.mp d).reqs.find? (fun r => r.tag == tag) = some r ∧
      r.dead = true) ∧
    (∃ (d tag : Nat) (s s1 : State) (r : MpReq), isKind s d .memif = true ∧
      attHalted s d attMem = false ∧
      (s.mp d).reqs.find? (fun r => r.tag == tag) = some r ∧
      r.dead = false ∧
      s1 = s.setMp d { s.mp d with reqs := (s.mp d).reqs.filter (fun q => q.tag != tag) }) ∧
    (∃ (d tag : Nat) (s s1 : State) (r : MpReq), isKind s d .memif = true ∧
      attHalted s d attMem = false ∧
      (s.mp d).reqs.find? (fun r => r.tag == tag) = some r ∧
      r.dead = false ∧
      s1 = s.setMp d { s.mp d with reqs := (s.mp d).reqs.filter (fun q => q.tag != tag) } ∧
      r.write = true) ∧
    (∃ (d tag : Nat) (s s1 : State) (r : MpReq), isKind s d .memif = true ∧
      attHalted s d attMem = false ∧
      (s.mp d).reqs.find? (fun r => r.tag == tag) = some r ∧
      r.dead = false ∧
      s1 = s.setMp d { s.mp d with reqs := (s.mp d).reqs.filter (fun q => q.tag != tag) } ∧
      r.write = false) ∧
    (∃ (d tag : Nat) (s : State) (r : MpReq), isKind s d .memif = true ∧
      attHalted s d attMem = false ∧
      (s.mp d).reqs.find? (fun r => r.tag == tag) = some r ∧
      r.dead = false ∧
      r.issued + 10000 ≤ s.now d) ∧
    (∃ (d : Nat) (s : State), isKind s d .memif = true) ∧
    (∃ (d tag : Nat) (err : Bool) (s : State), isKind s d .memif = true ∧
      attHalted s d attMem = true) :=
  ⟨⟨72, 5, false, State.reset.setMp 72 { reqs := [aReq true] }, aReq true, by decide +kernel⟩,
    ⟨72, 5, State.reset.setMp 72 { reqs := [aReq false] }, State.reset.setMp 72 {}, aReq false, by and_intros <;> first | decide +kernel | rfl⟩,
    ⟨72, 5, State.reset.setMp 72 { reqs := [{ aReq false with write := true }] }, State.reset.setMp 72 {}, { aReq false with write := true }, by and_intros <;> first | decide +kernel | rfl⟩,
    ⟨72, 5, State.reset.setMp 72 { reqs := [aReq false] }, State.reset.setMp 72 {}, aReq false, by and_intros <;> first | decide +kernel | rfl⟩,
    ⟨72, 5, timeAt (State.reset.setMp 72 { reqs := [aReq false] }) 72 10000, aReq false, by decide +kernel⟩,
    ⟨95, State.reset, by decide +kernel⟩,
    ⟨72, 5, false, { State.reset with halted := { rows := [(144, some 0)] } }, by decide +kernel⟩⟩

/-- For each clause of SyncOpsComplete, a case that meets its hypotheses. -/
theorem witness_SyncOpsComplete :
    (∃ (d : Nat) (h : Hdr) (s : State), taken s d attSync 0x10 { hdr := h } = true) ∧
    (∃ (d : Nat) (h : Hdr) (s : State), taken s d attSync 0x11 { hdr := h } = true) ∧
    (∃ (d : Nat) (h : Hdr) (s : State), taken s d attSync 0x12 { hdr := h } = true) ∧
    (∃ (d : Nat) (h : Hdr) (s : State), taken s d attSync 0x13 { hdr := h } = true) ∧
    (∃ (d : Nat) (h : Hdr) (s : State), taken s d attSync 0x14 { hdr := h } = true) ∧
    (∃ (d : Nat) (h : Hdr) (s : State), taken s d attSync 0x15 { hdr := h } = true) ∧
    (∃ (d : Nat) (h : Hdr) (s : State), taken s d attSync 0x16 { hdr := h } = true) ∧
    (∃ (d : Nat) (h : Hdr) (s : State), taken s d attSync 0x17 { hdr := h } = true) ∧
    (∃ (d : Nat) (h : Hdr) (s : State), taken s d attSync 0x18 { hdr := h } = true) ∧
    (∃ (d : Nat) (h : Hdr) (s : State), taken s d attSync 0x19 { hdr := h } = true) ∧
    (∃ (d : Nat) (h : Hdr) (s : State), taken s d attSync 0x1A { hdr := h } = true) :=
  ⟨⟨0, hd 0x10 0, State.reset, by decide +kernel⟩,
    ⟨0, hd 0x11 1, State.reset, by decide +kernel⟩,
    ⟨0, hd 0x12 2, State.reset, by decide +kernel⟩,
    ⟨0, hd 0x13 0, State.reset, by decide +kernel⟩,
    ⟨0, hd 0x14 1, State.reset, by decide +kernel⟩,
    ⟨0, hd 0x15 2, State.reset, by decide +kernel⟩,
    ⟨0, hd 0x16 0, State.reset, by decide +kernel⟩,
    ⟨0, hd 0x17 1, State.reset, by decide +kernel⟩,
    ⟨0, hd 0x18 2, State.reset, by decide +kernel⟩,
    ⟨0, hd 0x19 0, State.reset, by decide +kernel⟩,
    ⟨0, hd 0x1A 1, State.reset, by decide +kernel⟩⟩

/-- A case that meets the hypotheses of SyncOpFrame. -/
theorem witness_SyncOpFrame : ∃ (s : State) (d cmd : Nat) (h : Hdr), ∃ (x y : Nat), ok x y ≠ ok d (syncTarget s d h) :=
  ⟨State.reset, 0, 0x12, {}, 0, 1, by decide +kernel⟩

/-- For each clause of CountersAndSemaphores, a case that meets its hypotheses. -/
theorem witness_CountersAndSemaphores :
    (∃ (x : BitVec 128) (n : Nat), objType x = 1 ∧
      objHigh x = 0) ∧
    (∃ (x : BitVec 128) (n : Nat), objType x = 1 ∧
      objHigh x ≠ 0 ∧
      (objLow x + n) % 2 ^ 32 < objHigh x) ∧
    (∃ (x : BitVec 128) (n : Nat), objType x = 1 ∧
      objHigh x ≠ 0 ∧
      objHigh x ≤ (objLow x + n) % 2 ^ 32 ∧
      objAuto x = true) ∧
    (∃ (x : BitVec 128) (n : Nat), objType x = 1 ∧
      objHigh x ≠ 0 ∧
      objHigh x ≤ (objLow x + n) % 2 ^ 32 ∧
      objAuto x = true ∧
      objPaired x = true) ∧
    (∃ (x : BitVec 128) (n : Nat), objType x = 2 ∧
      n ≤ objLow x) ∧
    (∃ (x : BitVec 128) (n : Nat), objType x = 2 ∧
      objLow x < n) ∧
    (∃ (x : BitVec 128) (n : Nat), objType x = 2 ∧
      objHigh x ≠ 0) ∧
    (∃ (x : BitVec 128) (n : Nat), objType x = 2 ∧
      objHigh x = 0) :=
  ⟨⟨BitVec.ofNat 128 (2 ^ 125), 0, by decide +kernel⟩,
    ⟨BitVec.ofNat 128 (2 ^ 125 + 2 ^ 32), 0, by decide +kernel⟩,
    ⟨BitVec.ofNat 128 (2 ^ 125 + 2 ^ 123 + 2 ^ 32), 1, by decide +kernel⟩,
    ⟨BitVec.ofNat 128 (2 ^ 125 + 2 ^ 124 + 2 ^ 123 + 2 ^ 32), 1, by decide +kernel⟩,
    ⟨BitVec.ofNat 128 (2 ^ 126 + 5), 5, by decide +kernel⟩,
    ⟨BitVec.ofNat 128 (2 ^ 126 + 4), 5, by decide +kernel⟩,
    ⟨BitVec.ofNat 128 (2 ^ 126 + 2 ^ 32), 0, by decide +kernel⟩,
    ⟨BitVec.ofNat 128 (2 ^ 126), 0, by decide +kernel⟩⟩

/-- For each clause of LockStates, a case that meets its hypotheses. -/
theorem witness_LockStates :
    (∃ (x : BitVec 128) (src : BitVec 32) (t hold : Nat), lockHeld x = false) ∧
    (∃ (x : BitVec 128) (src : BitVec 32) (t hold : Nat), lockHeld x = true) ∧
    (∃ (x : BitVec 128) (src : BitVec 32) (t hold : Nat), lockHeld x = true ∧
      objLow x = src.toNat) ∧
    (∃ (x : BitVec 128) (src : BitVec 32) (t hold : Nat), (lockHeld x = false ∨ objLow x ≠ src.toNat)) :=
  ⟨⟨0, 0, 0, 0, by decide +kernel⟩,
    ⟨BitVec.ofNat 128 (2 ^ 32), 0, 0, 0, by decide +kernel⟩,
    ⟨BitVec.ofNat 128 (2 ^ 32 + 7), 7, 0, 0, by decide +kernel⟩,
    ⟨BitVec.ofNat 128 (2 ^ 32 + 7), 8, 0, 0, by decide +kernel⟩⟩

/-- For each clause of SyncRegisterCommandsComplete, a case that meets its hypotheses. -/
theorem witness_SyncRegisterCommandsComplete :
    (∃ (d : Nat) (s : State), isKind s d .compute = true ∧
      attHalted s d attSync = false) ∧
    (∃ (d : Nat) (v : Word) (s : State), isKind s d .compute = true) ∧
    (∃ (d pkg die next o : Nat) (rest : List (Nat × Nat × Nat)) (s : State), isKind s d .compute = true ∧
      attHalted s d attSync = false ∧
      s.syncBreak.get [] d = (pkg, die, next) :: rest ∧
      (lockObjects s d).find? (fun o => next ≤ o) = some o) ∧
    (∃ (d o : Nat) (v : Word) (s : State), isKind s d .compute = true ∧
      o < 16384) :=
  ⟨⟨0, State.reset, by decide +kernel⟩,
    ⟨63, 0, State.reset, by decide +kernel⟩,
    ⟨0, 0, 0, 0, 5, [], { State.reset with syncBreak := { rows := [(0, [(0, 0, 0)])] }, syncObj := { rows := [(5, BitVec.ofNat 128 (3 * 2 ^ 125))] } }, by decide +kernel⟩,
    ⟨0, 16383, 0, State.reset, by decide +kernel⟩⟩

/-- A case that meets the hypotheses of ColdResetRestores. -/
theorem witness_ColdResetRestores : ∃ (d : Nat) (s : State), dieExists s d = true :=
  ⟨99, svc, by decide +kernel⟩

/-- For each clause of RouterCommandsComplete, a case that meets its hypotheses. -/
theorem witness_RouterCommandsComplete :
    (∃ (d p o : Nat) (s : State) (q : Req), routerExists s d p = true ∧
      o < 6 ∧
      routerRuns s d p = true ∧
      (s.keeper d).roundsOn = true ∧
      (s.regionOf d p).c % 8 = 0 ∧
      slotReserved s d p o (curEntry (s.regionOf d p)) = true ∧
      panelWaits (s.regionOf d p) = false ∧
      ((s.router d p).out o).released ≠ curEntry (s.regionOf d p) ∧
      (s.router d p).held.get none o = none ∧
      slotUnit s d p o (slotInPort s d p o (curEntry (s.regionOf d p))) = some q ∧
      (hemmedFor s d p o q.hdr = true ∨ hasCredit s d p o 0 = true)) ∧
    (∃ (d p o : Nat) (s s1 : State) (q : Req) (df : List Nat), routerExists s d p = true ∧
      o < 6 ∧
      routerRuns s d p = true ∧
      s1 = cycleStart s d p ∧
      (s1.router d p).held.get none o = none ∧
      512 ≤ ((s1.router d p).out o).lateEntry ∧
      grantOf s1 d p o 37 (reqsAt s1 d p o) = some (q, df)) ∧
    (∃ (d p i : Nat) (s : State) (f g : Flit) (h : Hdr) (o : Nat) (os : List Nat), routerExists s d p = true ∧
      i < 6 ∧
      ((s.router d p).link i).latch = some f ∧
      f.hdr = some h ∧
      outsOf s d p i h f = some (o :: os, g)) ∧
    (∃ (d p i : Nat) (s : State) (f g : Flit) (h : Hdr), routerExists s d p = true ∧
      i < 6 ∧
      ((s.router d p).link i).latch = some f ∧
      f.hdr = some h ∧
      outsOf s d p i h f = some ([], g)) ∧
    (∃ (d p i : Nat) (u : LinkUnit) (s : State), routerExists s d p = true ∧
      i < 6 ∧
      u.vc < 6 ∧
      u.type = 1 ∧
      u.err = .clean ∧
      u.credit = none ∧
      isHalted s d p = false ∧
      inputFenced s d p i = false ∧
      joinedSource s d p i = none ∧
      feederOf s d p i = none ∧
      linkOf s d p i = .none ∧
      ((s.router d p).link i).busy = false) ∧
    (∃ (d p c : Nat) (s : State) (x : Ctx), isKind s d .compute = true ∧
      p < 624 ∧
      c < 4 ∧
      ctxAt (s.router d p) c = some x ∧
      isHalted s d p = false ∧
      x.cut = false ∧
      x.claimAt + ceilingOf s d p ≤ (s.regionOf d p).cycles) ∧
    (∃ (s : State) (d p i v : Nat), i < 6 ∧
      v < 6 ∧
      feederOf s d p i = none) :=
  ⟨⟨0, 0, 4, slotHere, (slotUnit slotHere 0 0 4 3).getD ⟨0, 0, {}, {}, []⟩, by decide +kernel⟩,
    ⟨0, 0, 4, headerHere, headerReady, ((grantOf headerReady 0 0 4 37 (reqsAt headerReady 0 0 4)).getD (⟨0, 0, {}, {}, []⟩, [])).1, ((grantOf headerReady 0 0 4 37 (reqsAt headerReady 0 0 4)).getD (⟨0, 0, {}, {}, []⟩, [])).2, by decide +kernel⟩,
    ⟨0, 0, 3, latchHere {}, { hdr := some {} }, ((outsOf (latchHere {}) 0 0 3 {} { hdr := some {} }).getD ([], {})).2, {}, 4, [], by decide +kernel⟩,
    ⟨0, 0, 3, latchHere { flags := 2 }, { hdr := some { flags := 2 } }, { hdr := some { flags := 2 } }, { flags := 2 }, by decide +kernel⟩,
    ⟨0, 0, 4, { type := 1, vc := 5 }, svc, by decide +kernel⟩,
    ⟨0, 0, 3, (svc.setRouter 0 0 { ctxs := [none, none, none, some aCtx] }).setRegion 0 0 { cycles := 4194304 }, aCtx, by decide +kernel⟩,
    ⟨svc, 0, 0, 4, 5, by decide +kernel⟩⟩

/-- For each clause of SeamCommandsComplete, a case that meets its hypotheses. -/
theorem witness_SeamCommandsComplete :
    (∃ (d i : Nat) (f : SeamRx) (s s1 : State), hasSeam s d i = true ∧
      f.body.vc < 6 ∧
      f.credVc < 6 ∧
      f.credN < 8 ∧
      f.seq < 256 ∧
      f.ack < 256 ∧
      s1 = takeSeamWire s d i ∧
      seamLive s1 d i (s1.seam d i) = true ∧
      f.fcrcOk = false) ∧
    (∃ (d i : Nat) (f : SeamRx) (s s1 : State), hasSeam s d i = true ∧
      f.body.vc < 6 ∧
      f.credVc < 6 ∧
      f.credN < 8 ∧
      f.seq < 256 ∧
      f.ack < 256 ∧
      s1 = takeSeamWire s d i ∧
      seamLive s1 d i (s1.seam d i) = true ∧
      f.fcrcOk = true ∧
      f.body.type ≠ 0 ∧
      f.seq ≠ (s1.seam d i).rxSeq) ∧
    (∃ (d i : Nat) (f : SeamRx) (s s1 : State) (x : Seam), hasSeam s d i = true ∧
      f.body.vc < 6 ∧
      f.credVc < 6 ∧
      f.credN < 8 ∧
      f.seq < 256 ∧
      f.ack < 256 ∧
      s1 = takeSeamWire s d i ∧
      seamLive s1 d i (s1.seam d i) = true ∧
      f.fcrcOk = true ∧
      (f.body.type = 0 ∨ f.seq = (s1.seam d i).rxSeq) ∧
      f.nak = true ∧
      x = takeFrame s1 d i (s1.seam d i) f ∧
      x.replay ≠ [] ∧
      (∀ fr ∈ x.replay, fr.tries < 15)) ∧
    (∃ (d i : Nat) (f : SeamRx) (s s1 : State), hasSeam s d i = true ∧
      f.body.vc < 6 ∧
      f.credVc < 6 ∧
      f.credN < 8 ∧
      f.seq < 256 ∧
      f.ack < 256 ∧
      s1 = takeSeamWire s d i ∧
      seamLive s1 d i (s1.seam d i) = true ∧
      f.fcrcOk = true ∧
      f.nak = false ∧
      f.body.type = 0 ∧
      (s1.seam d i).replay = []) ∧
    (∃ (d i : Nat) (f : SeamRx) (s s1 : State), hasSeam s d i = true ∧
      f.body.vc < 6 ∧
      f.credVc < 6 ∧
      f.credN < 8 ∧
      f.seq < 256 ∧
      f.ack < 256 ∧
      s1 = takeSeamWire s d i ∧
      seamLive s1 d i (s1.seam d i) = true ∧
      f.fcrcOk = true ∧
      f.nak = false ∧
      f.body.type ≠ 0 ∧
      (s1.seam d i).replay = [] ∧
      f.seq = (s1.seam d i).rxSeq ∧
      seamHem s1 d i = false) ∧
    (∃ (d i extra : Nat) (s : State), hasSeam s d i = true ∧
      (seamPeer s d i).isSome = true ∧
      s.flag d (smw i SEAM_CFG) 1 = false ∧
      s.flag d (smw i SEAM_CFG) 0 = true) ∧
    (∃ (d i extra : Nat) (full : Bool) (s : State), hasSeam s d i = true ∧
      (seamPeer s d i).isSome = true ∧
      s.flag d (smw i SEAM_CFG) 1 = false ∧
      s.flag d (smw i SEAM_CFG) 0 = true ∧
      (s.seam d i).link ≠ 4) ∧
    (∃ (d i temp : Nat) (s : State), hasSeam s d i = true ∧
      (s.seam d i).link = 2 ∧
      s.fld d HLT_CAL_CFG 7 0 < (temp - (s.seam d i).calTemp) + ((s.seam d i).calTemp - temp)) :=
  ⟨⟨0, 95, { body := { type := 0 }, fcrc := 1 }, seamUp, takeSeamWire seamUp 0 95, by and_intros <;> first | decide +kernel | rfl⟩,
    ⟨0, 95, ({ body := { type := 1 }, seq := 255 } : SeamRx).seal, seamUp, takeSeamWire seamUp 0 95, by and_intros <;> first | decide +kernel | rfl⟩,
    ⟨0, 95, ({ body := { type := 0 }, ack := 255, nak := true } : SeamRx).seal, seamSent, takeSeamWire seamSent 0 95, takeFrame (takeSeamWire seamSent 0 95) 0 95 ((takeSeamWire seamSent 0 95).seam 0 95) ({ body := { type := 0 }, ack := 255, nak := true } : SeamRx).seal, by and_intros <;> first | decide +kernel | rfl⟩,
    ⟨0, 95, ({ body := { type := 0 }, credN := 7 } : SeamRx).seal, seamUp, takeSeamWire seamUp 0 95, by and_intros <;> first | decide +kernel | rfl⟩,
    ⟨0, 95, ({ body := { type := 1 } } : SeamRx).seal, seamUp, takeSeamWire seamUp 0 95, by and_intros <;> first | decide +kernel | rfl⟩,
    ⟨0, 95, 255, svc.setFld 0 (smw 95 SEAM_CFG) 0 0 1, by decide +kernel⟩,
    ⟨0, 95, 0, true, svc.setFld 0 (smw 95 SEAM_CFG) 0 0 1, by decide +kernel⟩,
    ⟨0, 95, 300, seamUp, by decide +kernel⟩⟩

/-- For each clause of RegisterCommandsComplete, a case that meets its hypotheses. -/
theorem witness_RegisterCommandsComplete :
    (∃ (d : Nat) (p : Packet) (s : State), taken s d attCtl 0x60 p = true) ∧
    (∃ (d off : Nat) (p : Packet) (s s1 : State) (v : Word), taken s d attCtl 0x61 p = true ∧
      s1 = takeArrival s d attCtl p ∧
      off = p.hdr.destOff % 2 ^ 24 ∧
      v = BitVec.ofNat 64 (p.hdr.inlBits 415 352) ∧
      dieExists s1 d = true ∧
      off % 8 = 0 ∧
      off ≠ TLR_RCSR_CTL ∧
      (descOf s1 d off).isSome = true ∧
      synOffset off = none ∧
      hemReg off = false ∧
      permitOff off = false ∧
      actFabric s1 d off v = none ∧
      actHealth s1 d off v = none ∧
      actTailor s1 d off v p.hdr.src = none) ∧
    (∃ (d off : Nat) (host : Bool) (s : State) (v : Word), dieExists s d = true ∧
      (host = true → isKind s d .service = true) ∧
      off % 8 = 0 ∧
      off ≠ TLR_RCSR_CTL ∧
      (descOf s d off).isSome = true ∧
      synOffset off = none ∧
      hemReg off = false ∧
      permitOff off = false ∧
      actFabric s d off v = none ∧
      actHealth s d off v = none ∧
      actTailor s d off v (if host then portSrc s d else ctlSrc s d) = none) ∧
    (∃ (d off : Nat) (host narrow : Bool) (s : State) (v : Word), dieExists s d = true ∧
      (host = true → isKind s d .service = true) ∧
      (narrow = true ∨ off % 8 ≠ 0)) :=
  ⟨⟨0, pk 0x60 5 0, State.reset, by decide +kernel⟩,
    ⟨0, OBS_TRACE_SINK, pk 0x61 5 0 7 OBS_TRACE_SINK, State.reset, State.reset, 7, by decide +kernel⟩,
    ⟨96, OBS_TRACE_SINK, true, State.reset, 7, by decide +kernel⟩,
    ⟨0, 4, false, false, State.reset, 0, by decide +kernel⟩⟩

/-- For each clause of StoredBits, a case that meets its hypotheses. -/
theorem witness_StoredBits :
    (∃ (s : State) (d off hi lo n : Nat), s.wrote d off hi lo = true) ∧
    (∃ (r : RegDesc) (old v set : Word) (pl : Bool) (b : Nat), b < 64 ∧
      natBit r.rw b = true) ∧
    (∃ (r : RegDesc) (old v set : Word) (pl : Bool) (b : Nat), b < 64 ∧
      natBit r.rw b = false ∧
      natBit r.pl b = true ∧
      pl = true) ∧
    (∃ (r : RegDesc) (old v set : Word) (pl : Bool) (b : Nat), b < 64 ∧
      natBit r.rw b = false ∧
      natBit r.pl b = true ∧
      natBit r.w1c b = false ∧
      pl = false) ∧
    (∃ (r : RegDesc) (old v set : Word) (pl : Bool) (b : Nat), b < 64 ∧
      natBit r.rw b = false ∧
      natBit r.pl b = false ∧
      natBit r.w1c b = true) ∧
    (∃ (r : RegDesc) (old v set : Word) (pl : Bool) (b : Nat), b < 64 ∧
      natBit r.rw b = false ∧
      natBit r.pl b = false ∧
      natBit r.w1c b = false) :=
  ⟨⟨{ State.reset with wroteNow := { rows := [(0, 1)] } }, 0, 0, 63, 0, 1, by decide +kernel⟩,
    ⟨⟨0, 2 ^ 63, 0, 0, 0⟩, 0, 0, 0, false, 63, by decide +kernel⟩,
    ⟨⟨0, 0, 1, 0, 0⟩, 0, 0, 0, true, 0, by decide +kernel⟩,
    ⟨⟨0, 0, 1, 0, 0⟩, 0, 0, 0, false, 0, by decide +kernel⟩,
    ⟨⟨0, 0, 0, 1, 0⟩, 1, 1, 1, true, 0, by decide +kernel⟩,
    ⟨⟨0, 0, 0, 0, 0⟩, 0, 0, 0, true, 63, by decide +kernel⟩⟩

/-- For each clause of CollectiveDataComplete, a case that meets its hypotheses. -/
theorem witness_CollectiveDataComplete :
    (isTile State.reset 0 0 = true ∧
      ∀ c ∈ [0x30, 0x31, 0x32, 0x40, 0x41, 0x42, 0x43, 0x44, 0x45, 0x46],
        taken State.reset 0 0 c (pk c 4 (if c = 0x32 then 0 else 1)) = true) ∧
    (ceExists (niOn State.reset 64 (attCe 0)) 64 0 = true ∧ ∀ c ∈ [0x30, 0x31, 0x32, 0x40, 0x41, 0x42, 0x43, 0x44, 0x45, 0x46],
      natBit (pk c 4 (if c = 0x32 then 0 else 1) 0 (2 ^ 33)).hdr.destOff 33 = true ∧
        taken (niOn State.reset 64 (attCe 0)) 64 (attCe 0) c (pk c 4 (if c = 0x32 then 0 else 1) 0 (2 ^ 33)) = true) :=
  ⟨by decide +kernel,
    by decide +kernel⟩

/-- For each clause of QueueCommandsComplete, a case that meets its hypotheses. -/
theorem witness_QueueCommandsComplete :
    (∃ (d k e : Nat) (s : State), ceExists s d k = true ∧
      e < 64 ∧
      ceEnabled s d k = true ∧
      (s.grp d k e).valid = true ∧
      (s.ent d k e).halted = false ∧
      (s.ent d k e).fetch = none ∧
      (s.ent d k e).retryAt = none ∧
      0 < tailGap (s.ent d k e)) ∧
    (∃ (d k e t : Nat) (s : State), ceExists s d k = true ∧
      e < 64 ∧
      (s.ent d k e).retryAt = some t ∧
      t ≤ s.now d ∧
      ceEnabled s d k = true ∧
      (s.grp d k e).valid = true ∧
      (s.ent d k e).halted = false ∧
      0 < tailGap (s.ent d k e)) ∧
    (∀ n < 9, dOp (opDesc n) = n ∧ ceExists (ceQueue n) 0 0 = true ∧
      0 < 64 ∧
      ((ceQueue n).ent 0 0 0).queue = (0, (opDesc n)) :: [] ∧
      mayStart (ceQueue n) 0 0 0 (opDesc n) = true ∧
      ((ceQueue n).ent 0 0 0).future.find? (fun f => f.1 == 0) = none ∧
      ((ceQueue n).ent 0 0 0).halted = false ∧
      startMisuse (ceQueue n) ⟨0, 0, 0, 0⟩ (frontOp n) = none ∧
      startFits (ceQueue n) ⟨0, 0, 0, 0⟩ (frontOp n) = true) ∧
    (∀ n < 9, dOp (opDesc n) = n ∧ ceExists (ceQueueHalted n) 0 0 = true ∧
      0 < 64 ∧
      ((ceQueueHalted n).ent 0 0 0).queue = (0, (opDesc n)) :: [] ∧
      mayStart (ceQueueHalted n) 0 0 0 (opDesc n) = true ∧
      ((ceQueueHalted n).ent 0 0 0).future.find? (fun f => f.1 == 0) = none ∧
      ((ceQueueHalted n).ent 0 0 0).halted = true) ∧
    (∀ n < 9, dOp (opDesc n) = n ∧ ceExists (ceQueueAborted n) 0 0 = true ∧
      0 < 64 ∧
      ((ceQueueAborted n).ent 0 0 0).queue = (0, (opDesc n)) :: [] ∧
      mayStart (ceQueueAborted n) 0 0 0 (opDesc n) = true ∧
      ((ceQueueAborted n).ent 0 0 0).future.find? (fun f => f.1 == 0) = some (0, 0, 3)) :=
  ⟨⟨0, 0, 0, ceOn.setEnt 0 0 0 { tail := 1 }, by decide +kernel⟩,
    ⟨0, 0, 0, 0, ceOn.setEnt 0 0 0 { tail := 1, retryAt := some 0 }, by decide +kernel⟩,
    by decide +kernel,
    by decide +kernel,
    by decide +kernel⟩

/-- For each clause of OperationCommandsComplete, a case that meets its hypotheses. -/
theorem witness_OperationCommandsComplete :
    (∃ (d k e tag : Nat) (s : State) (o : CeOp), ceExists s d k = true ∧
      ceEnabled s d k = true ∧
      s.op ⟨d, k, e, tag⟩ = some o ∧
      o.next < nChunks (s.grp d k e) o.desc) ∧
    (∃ (d k : Nat) (s : State), ceExists s d k = true ∧
      (s.ce d k).stall ≠ []) ∧
    (∃ (d p n k e : Nat) (s : State) (x : Xfer), isTile s d p = true ∧
      (s.ni d p).rx[n]? = some x ∧
      homeCeOf s d x.key.group p = some (k, e) ∧
      x.firstFt + (s.grp d k e).tmo ≤ s.now d) ∧
    (∃ (d k n : Nat) (s : State) (i : OpId) (x : Xfer), ceExists s d k = true ∧
      (ceTransfers s d k)[n]? = some (i, x) ∧
      x.firstFt + (s.grpOp i).tmo ≤ s.now d) ∧
    (∃ (d k e tag : Nat) (s : State) (o : CeOp), ceExists s d k = true ∧
      s.op ⟨d, k, e, tag⟩ = some o) ∧
    (∃ (d k e tag : Nat) (s : State) (o : CeOp), ceExists s d k = true ∧
      s.op ⟨d, k, e, tag⟩ = some o ∧
      o.progressFt + (s.grp d k e).hang ≤ s.now d) ∧
    (∃ (d k e tag : Nat) (s : State) (o : CeOp), ceExists s d k = true ∧
      s.op ⟨d, k, e, tag⟩ = some o ∧
      opDone s ⟨d, k, e, tag⟩ o = true) ∧
    (∃ (s t : State) (d k : Nat) (h : Hdr), ceExists s d k = true ∧
      ceIngress (takeArrival s d (attCe k) { hdr := h }) d k h = some t ∧
      taken s d (attCe k) 0x34 { hdr := h } = true) ∧
    (∃ (s t : State) (d k : Nat) (h : Hdr), ceExists s d k = true ∧
      ceIngress (takeArrival s d (attCe k) { hdr := h }) d k h = some t ∧
      taken s d (attCe k) 0x35 { hdr := h } = true) ∧
    (∃ (s t : State) (d k : Nat) (h : Hdr), ceExists s d k = true ∧
      ceIngress (takeArrival s d (attCe k) { hdr := h }) d k h = some t ∧
      taken s d (attCe k) 0x1E { hdr := h } = true) :=
  ⟨⟨0, 0, 0, 0, ceOp 1, anOp 1, by decide +kernel⟩,
    ⟨0, 0, svc.setCe 0 0 { stall := [{ pk := pk 0x30 4 1 }] }, by decide +kernel⟩,
    ⟨0, 0, 0, 0, 0, timeAt (ceOn.setNi 0 0 { rx := [aXfer] }) 0 6553600, aXfer, by decide +kernel⟩,
    ⟨0, 0, 0, timeAt (ceOn.setEnt 0 0 0 { ops := [{ anOp 1 with rx := [aXfer] }] }) 0 6553600, ⟨0, 0, 0, 0⟩, aXfer, by decide +kernel⟩,
    ⟨0, 0, 0, 0, ceOp 1, anOp 1, by decide +kernel⟩,
    ⟨0, 0, 0, 0, timeAt (ceOp 1) 0 65536000, anOp 1, by decide +kernel⟩,
    ⟨0, 0, 0, 0, ceOp 0, anOp 0, by decide +kernel⟩,
    ⟨svc, (ceIngress (takeArrival svc 0 (attCe 0) { hdr := hd 0x34 1 }) 0 0 (hd 0x34 1)).getD svc, 0, 0, hd 0x34 1, by and_intros <;> first | decide +kernel | rfl⟩,
    ⟨svc, (ceIngress (takeArrival svc 0 (attCe 0) { hdr := hd 0x35 0 }) 0 0 (hd 0x35 0)).getD svc, 0, 0, hd 0x35 0, by and_intros <;> first | decide +kernel | rfl⟩,
    ⟨svc, (ceIngress (takeArrival svc 0 (attCe 0) { hdr := hd 0x1E 0 }) 0 0 (hd 0x1E 0)).getD svc, 0, 0, hd 0x1E 0, by and_intros <;> first | decide +kernel | rfl⟩⟩

/-- For each clause of GroupControlComplete, a case that meets its hypotheses. -/
theorem witness_GroupControlComplete :
    (∃ (d k e : Nat) (s : State), ceExists s d k = true ∧
      e < 64 ∧
      (s.ent d k e).queue = []) ∧
    (∃ (d k e : Nat) (s : State), ceExists s d k = true ∧
      e < 64) ∧
    (∃ (d k : Nat) (v : Word) (s : State), ceExists s d k = true ∧
      s.fld d (cew k CE_GT_ADDR) 2 0 = 7) ∧
    (∃ (d k e w : Nat) (v : Word) (s s1 : State), ceExists s d k = true ∧
      s.fld d (cew k CE_GT_ADDR) 8 3 = e ∧
      s.fld d (cew k CE_GT_ADDR) 2 0 = w ∧
      w ≠ 7 ∧
      (s.grp d k e).valid = false ∧
      s1 = s.setCe d k { s.ce d k with gt := (s.ce d k).gt.set 0 (e * 8 + w) v } ∧
      (s1.grp d k e).valid = false) ∧
    (∃ (d k e : Nat) (v : Word) (s : State), ceExists s d k = true ∧
      s.fld d (cew k CE_GT_ADDR) 8 3 = e ∧
      s.fld d (cew k CE_GT_ADDR) 2 0 ≠ 7 ∧
      (s.grp d k e).valid = true ∧
      entryBusy (s.ent d k e) = true) :=
  ⟨⟨0, 7, 63, State.reset, by decide +kernel⟩,
    ⟨64, 0, 63, State.reset, by decide +kernel⟩,
    ⟨0, 0, 0, State.reset.setFld 0 (cew 0 CE_GT_ADDR) 2 0 7, by decide +kernel⟩,
    ⟨0, 0, 0, 0, 5, State.reset, State.reset.setCe 0 0 { State.reset.ce 0 0 with gt := (State.reset.ce 0 0).gt.set 0 0 5 }, by decide +kernel⟩,
    ⟨0, 0, 0, 0, ceOn.setEnt 0 0 0 { tail := 1 }, by decide +kernel⟩⟩

/-- For each clause of CommitPacketsComplete, a case that meets its hypotheses. -/
theorem witness_CommitPacketsComplete :
    (∃ (d : Nat) (p : Packet) (s : State), taken s d attCtl 0x20 p = true ∧
      commitOpen (takeArrival s d attCtl p) d = true) ∧
    (∃ (d : Nat) (h : Hdr) (s : State), taken s d attCtl 0x22 { hdr := h } = true ∧
      commitOpen (takeArrival s d attCtl { hdr := h }) d = true) ∧
    (∃ (d : Nat) (h : Hdr) (s : State), taken s d attCtl 0x23 { hdr := h } = true ∧
      h.inlBits 359 352 ≠ 1 ∧
      commitOpen (takeArrival s d attCtl { hdr := h }) d = true) ∧
    (∃ (d k : Nat) (h : Hdr) (s t : State), ceExists s d k = true ∧
      ceIngress (takeArrival s d (attCe k) { hdr := h }) d k h = some t ∧
      taken s d (attCe k) 0x21 { hdr := h } = true) ∧
    (∃ (d k : Nat) (h : Hdr) (s t : State), ceExists s d k = true ∧
      ceIngress (takeArrival s d (attCe k) { hdr := h }) d k h = some t ∧
      taken s d (attCe k) 0x23 { hdr := h } = true ∧
      h.inlBits 359 352 ≠ 1) ∧
    (∃ (d k : Nat) (h : Hdr) (s t : State), ∃ x, ceExists s d k = true ∧
      ceIngress (takeArrival s d (attCe k) { hdr := h }) d k h = some t ∧
      taken s d (attCe k) 0x23 { hdr := h } = true ∧
      h.inlBits 359 352 ≠ 0 ∧
      coSlot t d k (h.group.toNat % 256) = some x ∧
      x.group = h.group.toNat ∧
      x.st ≠ 1 ∧
      x.req.getLsbD 214 = false ∧
      (t.coord d k).queue = []) :=
  ⟨⟨0, pk 0x20 2 1, State.reset.setFld 0 CMT_CFG 0 0 1, by decide +kernel⟩,
    ⟨64, hd 0x22 0, niOn (State.reset.setFld 64 CMT_CFG 0 0 1) 64 attCtl, by decide +kernel⟩,
    ⟨0, hd 0x23 1, State.reset.setFld 0 CMT_CFG 0 0 1, by decide +kernel⟩,
    ⟨0, 0, hd 0x21 3, svc, (ceIngress (takeArrival svc 0 (attCe 0) { hdr := hd 0x21 3 }) 0 0 (hd 0x21 3)).getD svc, by and_intros <;> first | decide +kernel | rfl⟩,
    ⟨0, 0, hd 0x23 1, svc, (ceIngress (takeArrival svc 0 (attCe 0) { hdr := hd 0x23 1 }) 0 0 (hd 0x23 1)).getD svc, by and_intros <;> first | decide +kernel | rfl⟩,
    ⟨0, 0, hd 0x23 1 1, coOpen 2, (ceIngress (takeArrival (coOpen 2) 0 (attCe 0) { hdr := hd 0x23 1 1 }) 0 0 (hd 0x23 1 1)).getD svc, aSlot 2, by and_intros <;> first | decide +kernel | rfl⟩⟩

/-- For each clause of CommitEventsComplete, a case that meets its hypotheses. -/
theorem witness_CommitEventsComplete :
    (∃ (d k z m : Nat) (s : State), ceExists s d k = true ∧
      s.flag d (ccw k CMT_Q_CFG) 0 = true ∧
      attHalted s d (attCe k) = false ∧
      (s.coord d k).fetch = none ∧
      (∀ t, (s.coord d k).retryAt = some t → t ≤ s.now d) ∧
      coGap (s.coord d k) ≠ 0 ∧
      z = 2 ^ s.fld d (ccw k CMT_Q_CFG) 11 8 ∧
      m = min (min 8 (coGap (s.coord d k))) (z - (s.coord d k).head % z)) ∧
    (∃ (d k n : Nat) (s : State) (x : CoSlot), ceExists s d k = true ∧
      coSlot s d k n = some x ∧
      slotD s d k x ≤ s.now d ∧
      x.st = 1) ∧
    (∃ (d k n : Nat) (s : State) (x : CoSlot), ceExists s d k = true ∧
      coSlot s d k n = some x ∧
      slotD s d k x ≤ s.now d ∧
      x.st = 2) ∧
    (∃ (d k n : Nat) (s : State) (x : CoSlot), ceExists s d k = true ∧
      coSlot s d k n = some x ∧
      x.t + 1000 * s.fld d CMT_CFG 47 32 + 1000 * s.fld d (ccw k CMT_CE_CFG) 31 16 ≤ s.now d ∧
      x.req.getLsbD 214 = false ∧
      (s.coord d k).queue = []) ∧
    (∃ (d : Nat) (s : State), dieExists s d = true ∧
      attHalted s d attCtl = false ∧
      unitFenced s d 9 = false ∧
      fabricOnDie s d = true) ∧
    (∃ (d : Nat) (s : State), dieExists s d = true ∧
      attHalted s d attCtl = false) :=
  ⟨⟨0, 0, 1, 1, (svc.setFld 0 (ccw 0 CMT_Q_CFG) 0 0 1).setCoord 0 0 { tail := 1 }, by and_intros <;> first | decide +kernel | rfl⟩,
    ⟨0, 0, 0, coOpen 1, aSlot 1, by decide +kernel⟩,
    ⟨0, 0, 0, coOpen 2, aSlot 2, by decide +kernel⟩,
    ⟨0, 0, 0, coOpen 3, aSlot 3, by decide +kernel⟩,
    ⟨0, svc, by decide +kernel⟩,
    ⟨95, svc, by decide +kernel⟩⟩

/-- For each clause of ConfirmAccepted, a case that meets its hypotheses. -/
theorem witness_ConfirmAccepted :
    (∃ (s : State) (d n : Nat) (h : Hdr), (List.range 16).find? (fun n => (s.win d n).st == 2 && (s.win d n).src == h.src && (s.win d n).group == h.group.toNat && (s.win d n).tag == h.tag.toNat) = some n ∧
      applyFt40 h ≠ (s.win d n).t % 2 ^ 40) ∧
    (∃ (s : State) (d n : Nat) (h : Hdr), (List.range 16).find? (fun n => (s.win d n).st == 2 && (s.win d n).src == h.src && (s.win d n).group == h.group.toNat && (s.win d n).tag == h.tag.toNat) = some n ∧
      applyFt40 h = (s.win d n).t % 2 ^ 40 ∧
      s.now d + guardNs s d < (s.win d n).t) ∧
    (∃ (s : State) (d n : Nat) (h : Hdr), (List.range 16).find? (fun n => (s.win d n).st == 2 && (s.win d n).src == h.src && (s.win d n).group == h.group.toNat && (s.win d n).tag == h.tag.toNat) = some n ∧
      applyFt40 h = (s.win d n).t % 2 ^ 40 ∧
      (s.win d n).t ≤ s.now d + guardNs s d ∧
      s.wrote d CMT_LATE 47 0 = false) :=
  ⟨⟨svc.setWin 0 15 { st := 2 }, 0, 15, { inl := 1 }, by decide +kernel⟩,
    ⟨svc.setWin 0 0 { st := 2, t := 50001 }, 0, 0, { inl := 50001 }, by decide +kernel⟩,
    ⟨svc.setWin 0 0 { st := 2, t := 50000 }, 0, 0, { inl := 50000 }, by decide +kernel⟩⟩

/-- For each clause of StitchFrameCommandsComplete, a case that meets its hypotheses. -/
theorem witness_StitchFrameCommandsComplete :
    (∃ (d : Nat) (s t : State), isKind s d .port = true ∧
      egressFill s d = .next t) ∧
    (∃ (d : Nat) (f : StRx) (s x : State), isKind s d .port = true ∧
      portLive s d = true ∧
      isHalted s d 12 = false ∧
      frameTake s d f = (x, true) ∧
      portLive x d = true) ∧
    (∃ (d : Nat) (f : StRx) (s x : State), isKind s d .port = true ∧
      portLive s d = true ∧
      isHalted s d 12 = false ∧
      frameTake s d f = (x, true) ∧
      portLive x d = true ∧
      (x.stl d).timeSeq = some (bitsOf f.frame.slot0 7 4) ∧
      (∀ m ∈ allDies x, x.fld m TIM_CFG 1 0 ≠ 1)) ∧
    (∃ (d : Nat) (f : StRx) (s : State), isKind s d .port = true ∧
      stlState s d = 5 ∧
      isHalted s d 12 = false) ∧
    (∃ (d : Nat) (s t : State) (p : StPk) (ps : List StPk), isKind s d .port = true ∧
      isHalted s d 12 = false ∧
      (s.stl d).inBuf = p :: ps ∧
      ingressForward s d = .next t) ∧
    (∃ (d c n : Nat) (s s1 : State) (p : StPk) (ps : List StPk), isKind s d .port = true ∧
      isHalted s d 12 = false ∧
      (s.stl d).inBuf = p :: ps ∧
      c = cls p.pk.hdr.vc.toNat p.dl ∧
      n = 1 + p.pk.data.length ∧
      s1 = s.setStl d { s.stl d with inBuf := ps, owed := (s.stl d).owed.set 0 c ((s.stl d).owed.get 0 c + n) } ∧
      p.pk.hdr.crcOk = false) ∧
    (∃ (d c n : Nat) (s s1 : State) (p : StPk) (ps : List StPk), ∃ (colour : Nat) (s2 : State), isKind s d .port = true ∧
      isHalted s d 12 = false ∧
      (s.stl d).inBuf = p :: ps ∧
      c = cls p.pk.hdr.vc.toNat p.dl ∧
      n = 1 + p.pk.data.length ∧
      s1 = s.setStl d { s.stl d with inBuf := ps, owed := (s.stl d).owed.set 0 c ((s.stl d).owed.get 0 c + n) } ∧
      p.pk.hdr.crcOk = true ∧
      meterPass s1 d 8 p.pk.hdr.vc.toNat p.pk.hdr.len.toNat = (colour, true, s2)) ∧
    (∃ (d c n : Nat) (s s1 : State) (p : StPk) (ps : List StPk), ∃ (colour : Nat) (s2 s3 : State), ∃ q, isKind s d .port = true ∧
      isHalted s d 12 = false ∧
      (s.stl d).inBuf = p :: ps ∧
      c = cls p.pk.hdr.vc.toNat p.dl ∧
      n = 1 + p.pk.data.length ∧
      s1 = s.setStl d { s.stl d with inBuf := ps, owed := (s.stl d).owed.set 0 c ((s.stl d).owed.get 0 c + n) } ∧
      p.pk.hdr.crcOk = true ∧
      meterPass s1 d 8 p.pk.hdr.vc.toNat p.pk.hdr.len.toNat = (colour, false, s2) ∧
      s3 = probeEval s2 d 7 0 0 colour p.pk.hdr ∧
      0 < p.pos.hops ∧
      dirPort s3 d (segDir p.pk.hdr p.pos.seg) = some q) ∧
    (∃ (d c n : Nat) (s s1 : State) (p : StPk) (ps : List StPk), ∃ (colour : Nat) (s2 s3 : State), ∃ q, isKind s d .port = true ∧
      isHalted s d 12 = false ∧
      (s.stl d).inBuf = p :: ps ∧
      c = cls p.pk.hdr.vc.toNat p.dl ∧
      n = 1 + p.pk.data.length ∧
      s1 = s.setStl d { s.stl d with inBuf := ps, owed := (s.stl d).owed.set 0 c ((s.stl d).owed.get 0 c + n) } ∧
      p.pk.hdr.crcOk = true ∧
      meterPass s1 d 8 p.pk.hdr.vc.toNat p.pk.hdr.len.toNat = (colour, false, s2) ∧
      s3 = probeEval s2 d 7 0 0 colour p.pk.hdr ∧
      p.pos.hops = 0 ∧
      p.pos.seg ≠ 2 ∧
      (pkgSeg p.pk.hdr (p.pos.seg + 1)).1 ≠ 0 ∧
      dirPort s3 d (segDir p.pk.hdr (p.pos.seg + 1)) = some q) ∧
    (∃ (d c n : Nat) (s s1 : State) (p : StPk) (ps : List StPk), ∃ (colour : Nat) (s2 s3 : State), isKind s d .port = true ∧
      isHalted s d 12 = false ∧
      (s.stl d).inBuf = p :: ps ∧
      c = cls p.pk.hdr.vc.toNat p.dl ∧
      n = 1 + p.pk.data.length ∧
      s1 = s.setStl d { s.stl d with inBuf := ps, owed := (s.stl d).owed.set 0 c ((s.stl d).owed.get 0 c + n) } ∧
      p.pk.hdr.crcOk = true ∧
      meterPass s1 d 8 p.pk.hdr.vc.toNat p.pk.hdr.len.toNat = (colour, false, s2) ∧
      s3 = probeEval s2 d 7 0 0 colour p.pk.hdr ∧
      p.pos.hops = 0 ∧
      (p.pos.seg = 2 ∨ (pkgSeg p.pk.hdr (p.pos.seg + 1)).1 = 0) ∧
      p.pk.hdr.destPkg = s3.pkgOf d ∧
      p.pk.hdr.destDie = d ∧
      boundOn s3 .port d p.pk.hdr = .ce (p.pk.hdr.destOff / 2 ^ 30 % 8) ∧
      natBit p.pk.hdr.destOff 33 = true ∧
      p.pk.hdr.destOff / 2 ^ 30 % 8 < 4) ∧
    (∃ (d c n : Nat) (s s1 : State) (p : StPk) (ps : List StPk), ∃ (colour : Nat) (s2 s3 : State), isKind s d .port = true ∧
      isHalted s d 12 = false ∧
      (s.stl d).inBuf = p :: ps ∧
      c = cls p.pk.hdr.vc.toNat p.dl ∧
      n = 1 + p.pk.data.length ∧
      s1 = s.setStl d { s.stl d with inBuf := ps, owed := (s.stl d).owed.set 0 c ((s.stl d).owed.get 0 c + n) } ∧
      p.pk.hdr.crcOk = true ∧
      meterPass s1 d 8 p.pk.hdr.vc.toNat p.pk.hdr.len.toNat = (colour, false, s2) ∧
      s3 = probeEval s2 d 7 0 0 colour p.pk.hdr ∧
      p.pos.hops = 0 ∧
      (p.pos.seg = 2 ∨ (pkgSeg p.pk.hdr (p.pos.seg + 1)).1 = 0) ∧
      p.pk.hdr.destPkg = s3.pkgOf d ∧
      ¬(p.pk.hdr.destDie = d ∧ natBit p.pk.hdr.destOff 33 = true ∧ p.pk.hdr.destOff / 2 ^ 30 % 8 < 4 ∧ boundOn s3 .port d p.pk.hdr = .ce (p.pk.hdr.destOff / 2 ^ 30 % 8)) ∧
      s3.flag d STL_CFG 1 = false) ∧
    (∃ (d c n : Nat) (s s1 : State) (p : StPk) (ps : List StPk), ∃ (colour : Nat) (s2 s3 : State), ∃ (a : BitVec 64), isKind s d .port = true ∧
      isHalted s d 12 = false ∧
      (s.stl d).inBuf = p :: ps ∧
      c = cls p.pk.hdr.vc.toNat p.dl ∧
      n = 1 + p.pk.data.length ∧
      s1 = s.setStl d { s.stl d with inBuf := ps, owed := (s.stl d).owed.set 0 c ((s.stl d).owed.get 0 c + n) } ∧
      p.pk.hdr.crcOk = true ∧
      meterPass s1 d 8 p.pk.hdr.vc.toNat p.pk.hdr.len.toNat = (colour, false, s2) ∧
      s3 = probeEval s2 d 7 0 0 colour p.pk.hdr ∧
      p.pos.hops = 0 ∧
      (p.pos.seg = 2 ∨ (pkgSeg p.pk.hdr (p.pos.seg + 1)).1 = 0) ∧
      p.pk.hdr.destPkg = s3.pkgOf d ∧
      ¬(p.pk.hdr.destDie = d ∧ natBit p.pk.hdr.destOff 33 = true ∧ p.pk.hdr.destOff / 2 ^ 30 % 8 < 4 ∧ boundOn s3 .port d p.pk.hdr = .ce (p.pk.hdr.destOff / 2 ^ 30 % 8)) ∧
      s3.flag d STL_CFG 1 = true ∧
      s3.arrivalTab.get 0 ((d * 8 + portNum s3 d) * 128 + p.pk.hdr.destDie) = a ∧
      a.getLsbD 48 = true) ∧
    (∃ (d c n : Nat) (s s1 : State) (p : StPk) (ps : List StPk), ∃ (colour : Nat) (s2 s3 : State), ∃ (a : BitVec 64), isKind s d .port = true ∧
      isHalted s d 12 = false ∧
      (s.stl d).inBuf = p :: ps ∧
      c = cls p.pk.hdr.vc.toNat p.dl ∧
      n = 1 + p.pk.data.length ∧
      s1 = s.setStl d { s.stl d with inBuf := ps, owed := (s.stl d).owed.set 0 c ((s.stl d).owed.get 0 c + n) } ∧
      p.pk.hdr.crcOk = true ∧
      meterPass s1 d 8 p.pk.hdr.vc.toNat p.pk.hdr.len.toNat = (colour, false, s2) ∧
      s3 = probeEval s2 d 7 0 0 colour p.pk.hdr ∧
      p.pos.hops = 0 ∧
      (p.pos.seg = 2 ∨ (pkgSeg p.pk.hdr (p.pos.seg + 1)).1 = 0) ∧
      p.pk.hdr.destPkg = s3.pkgOf d ∧
      ¬(p.pk.hdr.destDie = d ∧ natBit p.pk.hdr.destOff 33 = true ∧ p.pk.hdr.destOff / 2 ^ 30 % 8 < 4 ∧ boundOn s3 .port d p.pk.hdr = .ce (p.pk.hdr.destOff / 2 ^ 30 % 8)) ∧
      s3.flag d STL_CFG 1 = true ∧
      s3.arrivalTab.get 0 ((d * 8 + portNum s3 d) * 128 + p.pk.hdr.destDie) = a ∧
      a.getLsbD 48 = false) ∧
    (∃ (d : Nat) (f : StRx) (s x : State), isKind s d .port = true ∧
      stlState s d = 4 ∧
      isHalted s d 12 = false ∧
      splitBad s d = false ∧
      frameTake s d f = (x, true) ∧
      bitsOf f.frame.slot0 15 0 = s.fld d STL_PEER_EXP 15 0) ∧
    (∃ (d : Nat) (f : StRx) (s x : State), isKind s d .port = true ∧
      stlState s d = 4 ∧
      isHalted s d 12 = false ∧
      splitBad s d = false ∧
      frameTake s d f = (x, true) ∧
      bitsOf f.frame.slot0 15 0 ≠ s.fld d STL_PEER_EXP 15 0) :=
  ⟨⟨64, svc, nextOf (egressFill svc 64) svc, by and_intros <;> first | decide +kernel | rfl⟩,
    ⟨64, aFrame, portAt 6, (frameTake (portAt 6) 64 aFrame).1, by and_intros <;> first | decide +kernel | rfl⟩,
    ⟨64, aFrame, portWith 5 { timeSeq := some 0 }, (frameTake (portWith 5 { timeSeq := some 0 }) 64 aFrame).1, by and_intros <;> first | decide +kernel | rfl⟩,
    ⟨71, aFrame, svc.setFld 71 STL_STATUS 3 0 5, by decide +kernel⟩,
    ⟨64, portIn (portAt 5) (inPacket 0 {}), nextOf (ingressForward (portIn (portAt 5) (inPacket 0 {})) 64) svc, inPacket 0 {}, [], by and_intros <;> first | decide +kernel | rfl⟩,
    ⟨64, 4, 1, portIn (portAt 5) { pk := { hdr := { vc := 2 } } }, portOut (portAt 5) { pk := { hdr := { vc := 2 } } }, { pk := { hdr := { vc := 2 } } }, [], by and_intros <;> first | decide +kernel | rfl⟩,
    ⟨64, 4, 1, portIn portRed (inPacket 0 {}), portOut portRed (inPacket 0 {}), inPacket 0 {}, [], 3, (meterPass (portOut portRed (inPacket 0 {})) 64 8 2 0).2.2, by and_intros <;> first | decide +kernel | rfl⟩,
    ⟨64, 4, 1, portIn portMap (inPacket 0 ⟨0, 1⟩), portOut portMap (inPacket 0 ⟨0, 1⟩), inPacket 0 ⟨0, 1⟩, [], 0, portOut portMap (inPacket 0 ⟨0, 1⟩), passed portMap (inPacket 0 ⟨0, 1⟩), 0, by and_intros <;> first | decide +kernel | rfl⟩,
    ⟨64, 4, 1, portIn portMap (inPacket 256 {}), portOut portMap (inPacket 256 {}), inPacket 256 {}, [], 0, portOut portMap (inPacket 256 {}), passed portMap (inPacket 256 {}), 0, by and_intros <;> first | decide +kernel | rfl⟩,
    ⟨64, 4, 1, portIn (portAt 5) (inPacket 0 {} 64 (2 ^ 33)), portOut (portAt 5) (inPacket 0 {} 64 (2 ^ 33)), inPacket 0 {} 64 (2 ^ 33), [], 0, portOut (portAt 5) (inPacket 0 {} 64 (2 ^ 33)), passed (portAt 5) (inPacket 0 {} 64 (2 ^ 33)), by and_intros <;> first | decide +kernel | rfl⟩,
    ⟨64, 4, 1, portIn (portAt 5) (inPacket 0 {}), portOut (portAt 5) (inPacket 0 {}), inPacket 0 {}, [], 0, portOut (portAt 5) (inPacket 0 {}), passed (portAt 5) (inPacket 0 {}), by and_intros <;> first | decide +kernel | rfl⟩,
    ⟨64, 4, 1, portIn (portLands true) (inPacket 0 {}), portOut (portLands true) (inPacket 0 {}), inPacket 0 {}, [], 0, portOut (portLands true) (inPacket 0 {}), passed (portLands true) (inPacket 0 {}), BitVec.ofNat 64 (2 ^ 48 + 5), by and_intros <;> first | decide +kernel | rfl⟩,
    ⟨64, 4, 1, portIn (portLands false) (inPacket 0 {}), portOut (portLands false) (inPacket 0 {}), inPacket 0 {}, [], 0, portOut (portLands false) (inPacket 0 {}), passed (portLands false) (inPacket 0 {}), 0, by and_intros <;> first | decide +kernel | rfl⟩,
    ⟨64, aFrame, portAt 4, (frameTake (portAt 4) 64 aFrame).1, by and_intros <;> first | decide +kernel | rfl⟩,
    ⟨64, { frame := { ftype := 1, slot0 := 1 } }, portAt 4, (frameTake (portAt 4) 64 { frame := { ftype := 1, slot0 := 1 } }).1, by and_intros <;> first | decide +kernel | rfl⟩⟩

/-- For each clause of PortTrainingComplete, a case that meets its hypotheses. -/
theorem witness_PortTrainingComplete :
    (∃ (d : Nat) (s : State), isKind s d .port = true ∧
      portLive s d = true) ∧
    (∃ (d : Nat) (s : State), isKind s d .port = true ∧
      stlState s d = 5 ∧
      (s.stl d).goodFt + 2000 ≤ s.now d) ∧
    (∃ (d : Nat) (s : State), ∃ (lanes : Nat), isKind s d .port = true ∧
      stlState s d = 1 ∧
      20 ≤ (laneList lanes).length) ∧
    (∃ (d : Nat) (s : State), ∃ (lanes : Nat), isKind s d .port = true ∧
      (stlState s d = 2 ∨ stlState s d = 7) ∧
      20 ≤ (laneList lanes).length) ∧
    (∃ (d : Nat) (s : State), ∃ (group : Nat), isKind s d .port = true ∧
      stlState s d = 3) ∧
    (∃ (d : Nat) (s : State), isKind s d .port = true ∧
      stlState s d = 1 ∧
      (s.stl d).sinceFt + 10000000 ≤ s.now d) ∧
    (∃ (d : Nat) (s : State), isKind s d .port = true ∧
      (stlState s d = 2 ∨ stlState s d = 7) ∧
      (s.stl d).sinceFt + 50000000 ≤ s.now d) ∧
    (∃ (d : Nat) (s : State), isKind s d .port = true ∧
      stlState s d = 3 ∧
      (s.stl d).sinceFt + 1000000 ≤ s.now d ∧
      3 ≤ (s.stl d).tries) ∧
    (∃ (d : Nat) (s : State), isKind s d .port = true ∧
      stlState s d = 3 ∧
      (s.stl d).sinceFt + 1000000 ≤ s.now d ∧
      (s.stl d).tries < 3) ∧
    (∃ (d : Nat) (s : State), isKind s d .port = true ∧
      (s.stl d).resume = true ∧
      stlState s d = 7 ∧
      (s.stl d).retrainFt + 400000000 ≤ s.now d) ∧
    (∃ (d : Nat) (s : State), ∃ (group : Nat), isKind s d .port = true ∧
      portLive s d = true) ∧
    (∃ (d : Nat) (s : State), isKind s d .port = true ∧
      (stlState s d = 8 ∨ stlState s d = 9)) ∧
    (∃ (d : Nat) (s : State), isKind s d .port = true ∧
      (s.stl d).fenceIn = some 1 ∧
      (s.stl d).sinceFt + 100000000 ≤ s.now d ∧
      stlState s d = 8) :=
  ⟨⟨64, portAt 6, by decide +kernel⟩,
    ⟨64, timeAt (portAt 5) 64 2000, by decide +kernel⟩,
    ⟨64, portAt 1, 2 ^ 20 - 1, by decide +kernel⟩,
    ⟨64, portAt 7, 2 ^ 22 - 4, by decide +kernel⟩,
    ⟨64, portAt 3, 65535, by decide +kernel⟩,
    ⟨64, timeAt (portAt 1) 64 10000000, by decide +kernel⟩,
    ⟨64, timeAt (portAt 2) 64 50000000, by decide +kernel⟩,
    ⟨64, timeAt (portWith 3 { tries := 3 }) 64 1000000, by decide +kernel⟩,
    ⟨64, timeAt (portWith 3 { tries := 2 }) 64 1000000, by decide +kernel⟩,
    ⟨64, timeAt (portWith 7 { resume := true }) 64 400000000, by decide +kernel⟩,
    ⟨64, portAt 5, 1, by decide +kernel⟩,
    ⟨64, portAt 9, by decide +kernel⟩,
    ⟨64, timeAt (portWith 8 { fenceIn := some 1 }) 64 100000000, by decide +kernel⟩⟩

/-- For each clause of FramesInSequence, a case that meets its hypotheses. -/
theorem witness_FramesInSequence :
    (∃ (d : Nat) (f : StRx) (s x : State) (good : Bool), frameTake s d f = (x, good) ∧
      portLive x d = true ∧
      good = true ∧
      f.frame.seq = ((x.stl d).rxSeq + 1) % 4096) ∧
    (∃ (d : Nat) (f : StRx) (s x : State) (good : Bool), frameTake s d f = (x, good) ∧
      portLive x d = true ∧
      (good = false ∨ f.frame.seq ≠ ((x.stl d).rxSeq + 1) % 4096)) ∧
    (∃ (x : Stl) (a : Nat), 0 < seqPast a x.acked ∧
      seqPast a x.acked ≤ x.retry.length) ∧
    (∃ (x : Stl) (a : Nat), (seqPast a x.acked = 0 ∨ x.retry.length < seqPast a x.acked)) :=
  ⟨⟨64, aFrame, portAt 5, (frameTake (portAt 5) 64 aFrame).1, true, by and_intros <;> first | decide +kernel | rfl⟩,
    ⟨64, { aFrame with lcrcOk := false }, portAt 5, (frameTake (portAt 5) 64 { aFrame with lcrcOk := false }).1, false, by and_intros <;> first | decide +kernel | rfl⟩,
    ⟨{ retry := [(0, { ftype := 1 })] }, 0, by decide +kernel⟩,
    ⟨{}, 4095, by decide +kernel⟩⟩

/-- For each clause of LinkHealthComplete, a case that meets its hypotheses. -/
theorem witness_LinkHealthComplete :
    (∃ (d p i : Nat) (s : State), routerExists s d p = true ∧
      i < 6 ∧
      s.secWindow.get 0 (ek d p i) < (s.regionOf d p).cycles / 2 ^ secLog s d ∧
      s.secCount.get 0 (ek d p i) ≤ s.fld d HLT_THRESH 31 16) ∧
    (∃ (d p i k : Nat) (pk q : Packet) (qs : List Packet) (s : State), routerExists s d p = true ∧
      i < 6 ∧
      pk.hdr.cmd = 0x52 ∧
      (if i < 4 then probeSource s d p i else some (pwk d p (if pk.hdr.inlBits 419 419 = 1 then i + 2 else i))) = some k ∧
      s.probeWires.get [] k = q :: qs ∧
      isHalted s d p = false ∧
      inputFenced s d p i = false ∧
      routerRuns s d p = true ∧
      pk.hdr.inlBits 419 419 = 0) ∧
    (∃ (d p i k : Nat) (pk q : Packet) (qs : List Packet) (s : State), routerExists s d p = true ∧
      i < 6 ∧
      pk.hdr.cmd = 0x52 ∧
      (if i < 4 then probeSource s d p i else some (pwk d p (if pk.hdr.inlBits 419 419 = 1 then i + 2 else i))) = some k ∧
      s.probeWires.get [] k = q :: qs ∧
      isHalted s d p = false ∧
      inputFenced s d p i = false ∧
      routerRuns s d p = true ∧
      pk.hdr.inlBits 419 419 = 1) ∧
    (∃ (d p len o : Nat) (seed : Word) (s : State), routerExists s d p = true ∧
      probesRun s d p = true ∧
      (s.probeSeq d p).job = none ∧
      nextProbe s d p = some o ∧
      probeFree s d p o (min 32 len) = true ∧
      min 32 len + 1 ≤ probeBudget (s.probeSeq d p) o (s.regionOf d p).cycles) ∧
    (∃ (d p : Nat) (s : State) (j : ProbeJob), routerExists s d p = true ∧
      (s.probeSeq d p).job = some j ∧
      j.failed = false ∧
      s.fld d HLT_PROBE_CFG 43 32 * (if (s.regionOf d p).down then 10 else 5) ≤ (s.now d - j.sentFt) * 8) ∧
    (∃ (d p : Nat) (s : State) (j : ProbeJob), routerExists s d p = true ∧
      (s.probeSeq d p).job = some j ∧
      j.failed = true ∧
      j.sentFt + 1000 ≤ s.now d ∧
      probesRun s d p = true ∧
      probeFree s d p j.out j.pk.data.length = true) :=
  ⟨⟨0, 0, 5, svc.setRegion 0 0 { cycles := 65536 }, by decide +kernel⟩,
    ⟨0, 0, 1, (probeSource svc 0 0 1).getD 0, { hdr := { cmd := 0x52 } }, { hdr := {} }, [], probeHere ((probeSource svc 0 0 1).getD 0), by decide +kernel⟩,
    ⟨0, 0, 5, pwk 0 0 7, { hdr := { cmd := 0x52, inl := BitVec.ofNat 128 (2 ^ 67) } }, { hdr := {} }, [], probeHere (pwk 0 0 7), by decide +kernel⟩,
    ⟨0, 0, 40, (nextProbe probing 0 0).getD 9, 1, probing, by decide +kernel⟩,
    ⟨0, 0, timeAt (svc.setProbeSeq 0 0 { job := some (aProbe false) }) 0 10000, aProbe false, by decide +kernel⟩,
    ⟨0, 0, timeAt (probing.setProbeSeq 0 0 { job := some (aProbe true) }) 0 1000, aProbe true, by decide +kernel⟩⟩

/-- For each clause of UpkeepCommandsComplete, a case that meets its hypotheses. -/
theorem witness_UpkeepCommandsComplete :
    (∃ (d : Nat) (w : ScrubAt) (s : State), scrubExists s d w = true ∧
      s.mode = .service ∧
      s.flag d HLT_CFG 2 = true ∧
      s.halted.get none (d * 2) = none) ∧
    (∃ (d : Nat) (s : State), dieExists s d = true ∧
      s.mode = .service ∧
      s.flag d HLT_CFG 3 = true ∧
      s.fld d HLT_WEAR_CFG 15 0 ≠ 0 ∧
      s.wearFt.get 0 d + 1000000000 * s.fld d HLT_WEAR_CFG 15 0 ≤ s.now d ∧
      s.flag d HLT_STATUS 0 = false ∧
      (s.darn d).job = none ∧
      kerexMay s (kerexT s) true = true) ∧
    (∃ (d : Nat) (s : State), dieExists s d = true ∧
      (cutRoutes s d).filter (mayTurn s d) ≠ [] ∧
      kerexMay s (kerexT s) true = true ∧
      (∀ e ∈ cutRoutes s d, mayTurn s d e = true)) ∧
    (∃ (t : Nat) (ss : PStreams) (s : State), kerexMay s t false = true) ∧
    (∃ (d : Nat) (s : State) (j : DarnJob) (w : Nat × Word), isKind s d .compute = true ∧
      (s.darn d).job = some j ∧
      darnState s d = 2 ∧
      j.twin = some w) ∧
    (∃ (d : Nat) (s : State) (j : DarnJob) (q : Nat) (w : Word), isKind s d .compute = true ∧
      (s.darn d).job = some j ∧
      darnState s d = 2 ∧
      j.twin = some (q, w) ∧
      partnerBad s d j q = false ∧
      unitFenced s d j.ce = false) ∧
    (∃ (d : Nat) (s : State) (j : DarnJob), isKind s d .compute = true ∧
      (s.darn d).job = some j ∧
      darnState s d = 4) ∧
    (∃ (d panel : Nat) (s x : State), dieExists s d = true ∧
      (isKind s d .compute = true → panel < 2) ∧
      (isKind s d .compute = false → panel = 0) ∧
      x = (if isKind s d .compute then fencePanel (faultRec s d 0x10 panel 0 6) d panel else fenceDie (faultRec s d 0x10 panel 0 6) d) ∧
      headRuns x = false ∧
      d ≠ x.headDie ∧
      x.headDie = s.headDie) :=
  ⟨⟨0, .object 16383, svc.setFld 0 HLT_CFG 2 2 1, by decide +kernel⟩,
    ⟨5, timeAt (timeAt ((headOn.setFld 5 HLT_CFG 3 3 1).setFld 5 HLT_WEAR_CFG 15 0 1) 5 1000000000) 96 1000000000, by decide +kernel⟩,
    ⟨0, cutRoute, by decide +kernel⟩,
    ⟨0, [], headOn, by decide +kernel⟩,
    ⟨0, aDarn 2, aDarnJob, (30, 1), by decide +kernel⟩,
    ⟨0, aDarn 2, aDarnJob, 30, 1, by decide +kernel⟩,
    ⟨0, aDarn 4, aDarnJob, by decide +kernel⟩,
    ⟨64, 0, svc, fenceDie (faultRec svc 64 0x10 0 0 6) 64, by and_intros <;> first | decide +kernel | rfl⟩⟩

/-- For each clause of HeartbeatCommandsComplete, a case that meets its hypotheses. -/
theorem witness_HeartbeatCommandsComplete :
    (∃ (d : Nat) (s : State), dieExists s d = true ∧
      (s.keeper d).roundsOn = true ∧
      s.mode ≠ .stop ∧
      tailorRuns s d = true ∧
      s.hbSent.get 0 d ≤ s.now d / 10000) ∧
    (∃ (d : Nat) (h : Hdr) (s x : State), taken s d attCtl 0x50 { hdr := h } = true ∧
      x = takeArrival s d attCtl { hdr := h } ∧
      h.inlBits 359 352 = 0 ∧
      isKind x d .service = true ∧
      h.srcPkg = x.pkgOf d ∧
      dieDead x h.srcDie = false) ∧
    (∃ (d : Nat) (h : Hdr) (s x : State), taken s d attCtl 0x50 { hdr := h } = true ∧
      x = takeArrival s d attCtl { hdr := h } ∧
      h.inlBits 359 352 = 1 ∧
      isKind x d .port = true ∧
      x.deadPkgs.contains h.srcPkg = false) ∧
    (∃ (d : Nat) (h : Hdr) (s x : State), taken s d attCtl 0x50 { hdr := h } = true ∧
      x = takeArrival s d attCtl { hdr := h } ∧
      h.inlBits 359 352 = 2 ∧
      d = x.headDie ∧
      headRuns x = true ∧
      h.inlBits 429 426 = 2) ∧
    (∃ (d : Nat) (h : Hdr) (s x : State), taken s d attCtl 0x50 { hdr := h } = true ∧
      x = takeArrival s d attCtl { hdr := h } ∧
      h.inlBits 359 352 = 3 ∧
      d = x.headDie ∧
      headRuns x = true ∧
      actsAsRoot x d = true) ∧
    (∃ (d k : Nat) (h : Hdr) (s x : State), ceExists s d k = true ∧
      taken s d (attCe k) 0x50 { hdr := h } = true ∧
      ceIngress (takeArrival s d (attCe k) { hdr := h }) d k h = some x ∧
      h.inlBits 359 352 = 2) ∧
    (∃ (d x k : Nat) (s : State), isKind s d .service = true ∧
      dieExists s x = true ∧
      judges s d x = true ∧
      k = max (s.hbs.get {} (d * 128 + x)).next ((s.hbFrom.get 0 x + 9999) / 10000) ∧
      10000 * k + 10 * s.fld d HLT_HB_CFG 15 0 ≤ s.now d ∧
      k < (s.hbs.get {} (d * 128 + x)).last) ∧
    (∃ (d x k : Nat) (s : State), isKind s d .service = true ∧
      dieExists s x = true ∧
      judges s d x = true ∧
      k = max (s.hbs.get {} (d * 128 + x)).next ((s.hbFrom.get 0 x + 9999) / 10000) ∧
      10000 * k + 10 * s.fld d HLT_HB_CFG 15 0 ≤ s.now d ∧
      (s.hbs.get {} (d * 128 + x)).last ≤ k) ∧
    (∃ (s : State), headRuns s = true ∧
      s.mode ≠ .stop ∧
      s.pkgHbSent ≤ s.now s.headDie / 100000) ∧
    (∃ (d : Nat) (s : State), isKind s d .port = true ∧
      s.mode = .service ∧
      portLive s d = true ∧
      (s.hbs.get {} (d * 128 + 127)).last ≠ 0 ∧
      100000 * (s.hbs.get {} (d * 128 + 127)).next + 100 * s.fld d HLT_HB_CFG 31 16 ≤ s.now d ∧
      (s.hbs.get {} (d * 128 + 127)).last ≤ (s.hbs.get {} (d * 128 + 127)).next ∧
      (s.hbs.get {} (d * 128 + 127)).miss < 2) ∧
    (∃ (d temp : Nat) (s : State), dieExists s d = true ∧
      s.mode = .service ∧
      s.telemFt.get 0 d + 1000 * s.fld d HLT_WEAR_CFG 31 16 ≤ s.now d) ∧
    (∃ (s : State) (d x miss : Nat), d ≠ s.headDie ∧
      miss < 3) ∧
    (∃ (s : State) (d x miss : Nat), d ≠ s.headDie ∧
      3 ≤ miss ∧
      (declareDie s x).headDie = s.headDie) :=
  ⟨⟨5, (svc.setKeeper 5 { roundsOn := true }).setFld 5 TLR_STATUS 1 1 1, by decide +kernel⟩,
    ⟨96, hd 0x50 0, niOn svc 96 attCtl, takeArrival (niOn svc 96 attCtl) 96 attCtl { hdr := hd 0x50 0 }, by and_intros <;> first | decide +kernel | rfl⟩,
    ⟨64, hd 0x50 0 1, niOn svc 64 attCtl, takeArrival (niOn svc 64 attCtl) 64 attCtl { hdr := hd 0x50 0 1 }, by and_intros <;> first | decide +kernel | rfl⟩,
    ⟨96, hd 0x50 0 (2 + 2 ^ 75), niOn headOn 96 attCtl, takeArrival (niOn headOn 96 attCtl) 96 attCtl { hdr := hd 0x50 0 (2 + 2 ^ 75) }, by and_intros <;> first | decide +kernel | rfl⟩,
    ⟨96, hd 0x50 0 3, niOn (headOn.setFld 96 TIM_CFG 1 0 2) 96 attCtl, takeArrival (niOn (headOn.setFld 96 TIM_CFG 1 0 2) 96 attCtl) 96 attCtl { hdr := hd 0x50 0 3 }, by and_intros <;> first | decide +kernel | rfl⟩,
    ⟨0, 0, hd 0x50 0 2, svc, (ceIngress (takeArrival svc 0 (attCe 0) { hdr := hd 0x50 0 2 }) 0 0 (hd 0x50 0 2)).getD svc, by and_intros <;> first | decide +kernel | rfl⟩,
    ⟨96, 0, 0, timeAt { headOn with hbs := { rows := [(96 * 128, { last := 1 })] } } 96 1000000, by decide +kernel⟩,
    ⟨96, 0, 0, timeAt headOn 96 1000000, by decide +kernel⟩,
    ⟨headOn, by decide +kernel⟩,
    ⟨64, timeAt { portAt 5 with hbs := { rows := [(64 * 128 + 127, { last := 1, next := 1, miss := 1 })] } } 64 10000000, by decide +kernel⟩,
    ⟨0, 65535, timeAt svc 0 100000000, by decide +kernel⟩,
    ⟨svc, 0, 5, 2, by decide +kernel⟩,
    ⟨small .service, 0, 0, 3, by decide +kernel⟩⟩

/-- For each clause of FaultLogEntry, a case that meets its hypotheses. -/
theorem witness_FaultLogEntry :
    (∃ (s : State) (d cls index detail : Nat) (newest : BitVec 128), cls < 256 ∧
      index < 2 ^ 16 ∧
      s.flag d OBS_CFG 3 = false ∧
      newest = s.flog.get 0 (d * 256 + (s.fld d HLT_FLOG_CTL 15 8 + 255) % 256) ∧
      unreadFaults s d = 0) ∧
    (∃ (s : State) (d cls index detail : Nat) (newest : BitVec 128), cls < 256 ∧
      index < 2 ^ 16 ∧
      s.flag d OBS_CFG 3 = false ∧
      newest = s.flog.get 0 (d * 256 + (s.fld d HLT_FLOG_CTL 15 8 + 255) % 256) ∧
      unreadFaults s d ≠ 0 ∧
      bitsOf newest 23 16 = cls ∧
      bitsOf newest 111 96 = index) ∧
    (∃ (s : State) (d cls index detail : Nat) (newest : BitVec 128), cls < 256 ∧
      index < 2 ^ 16 ∧
      s.flag d OBS_CFG 3 = false ∧
      newest = s.flog.get 0 (d * 256 + (s.fld d HLT_FLOG_CTL 15 8 + 255) % 256) ∧
      unreadFaults s d = 256 ∧
      (bitsOf newest 23 16 ≠ cls ∨ bitsOf newest 111 96 ≠ index)) ∧
    (∃ (s : State) (d cls index detail : Nat) (newest : BitVec 128), cls < 256 ∧
      index < 2 ^ 16 ∧
      s.flag d OBS_CFG 3 = false ∧
      newest = s.flog.get 0 (d * 256 + (s.fld d HLT_FLOG_CTL 15 8 + 255) % 256)) :=
  ⟨⟨State.reset, 0, 255, 65535, 0, 0, by decide +kernel⟩,
    ⟨faultRec State.reset 0 5 7 0 0, 0, 5, 7, 0, (faultRec State.reset 0 5 7 0 0).flog.get 0 0, by decide +kernel⟩,
    ⟨{ State.reset with flogFull := { rows := [(0, true)] } }, 0, 5, 7, 0, 0, by decide +kernel⟩,
    ⟨State.reset, 0, 0, 0, 0, 0, by decide +kernel⟩⟩

/-- For each clause of StallCommandsComplete, a case that meets its hypotheses. -/
theorem witness_StallCommandsComplete :
    (∃ (d kind unit port : Nat) (s : State), stallUnit s d kind unit port = true ∧
      s.mode ≠ .stop ∧
      stallHolds s d kind unit port = true) ∧
    (∃ (d kind unit port : Nat) (s : State) (x : Stall), stallUnit s d kind unit port = true ∧
      s.mode ≠ .stop ∧
      (s.stalls.get [] d).find? (sameStall kind unit port) = some x ∧
      stallHolds s d kind unit port = false) ∧
    (∃ (d kind unit port : Nat) (s : State) (x : Stall), stallUnit s d kind unit port = true ∧
      s.mode ≠ .stop ∧
      (s.stalls.get [] d).find? (sameStall kind unit port) = some x ∧
      stallHolds s d kind unit port = true ∧
      x.escalated = false ∧
      x.ft + 1000 * s.fld d MND_HANG_CFG 31 16 ≤ s.now d) ∧
    (∃ (d : Nat) (s : State), dieExists s d = true ∧
      s.mode ≠ .stop ∧
      s.flag d TLR_STATUS 1 = true ∧
      s.kickFt.get 0 d + 1000 * s.fld d MND_HANG_CFG 47 32 ≤ s.now d) ∧
    (∃ (d : Nat) (s : State), dieExists s d = true) :=
  ⟨⟨0, 5, 0, 0, svc.setNi 0 0 { orders := [anOrder false] }, by decide +kernel⟩,
    ⟨0, 5, 0, 0, stalled [], aStall, by decide +kernel⟩,
    ⟨0, 5, 0, 0, timeAt (stalled [anOrder false]) 0 100000000, aStall, by decide +kernel⟩,
    ⟨0, timeAt (svc.setFld 0 TLR_STATUS 1 1 1) 0 100000000, by decide +kernel⟩,
    ⟨99, svc, by decide +kernel⟩⟩

/-- For each clause of MendCommandsComplete, a case that meets its hypotheses. -/
theorem witness_MendCommandsComplete :
    (∃ (q : Nat) (s : State), q < 64 ∧
      s.mode = .service ∧
      partStep s q = 0) ∧
    (∃ (s : State), s.mode = .service) ∧
    (∃ (q : Nat) (s : State), q < 64 ∧
      partStep s q = 1) ∧
    (∃ (q : Nat) (s : State), q < 64 ∧
      partStep s q = 2) ∧
    (∃ (q : Nat) (s : State), q < 64 ∧
      partStep s q = 3 ∧
      s.flag s.headDie (partReg q) 7 = true) ∧
    (∃ (q : Nat) (s : State), q < 64 ∧
      partStep s q = 4 ∧
      s.pkgMend ≠ 1) ∧
    (∃ (q : Nat) (s : State), q < 64 ∧
      partStep s q = 5 ∧
      s.pkgMend ≠ 2 ∧
      (partDies s q).all (dieTrained s) = true) ∧
    (∃ (q : Nat) (s : State), q < 64 ∧
      partStep s q = 6) ∧
    (∃ (q : Nat) (fails : List TestFail) (s : State), q < 64 ∧
      partStep s q = 6) ∧
    (∃ (q : Nat) (s : State), q < 64 ∧
      partStep s q = 7 ∧
      (partDies s q).all (fun d => (s.keeper d).lock) = true ∧
      areaOk s = false) ∧
    (∃ (q : Nat) (s : State), q < 64 ∧
      partStep s q = 8) ∧
    (∃ (q : Nat) (s : State), q < 64 ∧
      partStep s q = 9 ∧
      s.rejoinFt.get 0 q ≤ s.now s.headDie ∧
      (partDies s q).all (fun d => (s.keeper d).roundsOn) = true) :=
  ⟨⟨63, svc, by decide +kernel⟩,
    ⟨svc, by decide +kernel⟩,
    ⟨0, mending 1, by decide +kernel⟩,
    ⟨0, mending 2, by decide +kernel⟩,
    ⟨0, (mending 3).setFld 96 (partReg 0) 7 7 1, by decide +kernel⟩,
    ⟨0, mending 4, by decide +kernel⟩,
    ⟨0, mending 5, by decide +kernel⟩,
    ⟨0, mending 6, by decide +kernel⟩,
    ⟨0, [.die 0], mending 6, by decide +kernel⟩,
    ⟨0, mending 7, by decide +kernel⟩,
    ⟨0, mending 8, by decide +kernel⟩,
    ⟨0, (mending 9).setKeeper 0 { roundsOn := true }, by decide +kernel⟩⟩

/-- For each clause of DumpCommandsComplete, a case that meets its hypotheses. -/
theorem witness_DumpCommandsComplete :
    (∃ (d q : Nat) (s : State), isKind s d .compute = true ∧
      dumping s d = some q) ∧
    (∃ (d q t : Nat) (s : State) (j : DumpJob), isKind s d .compute = true ∧
      dumping s d = some q ∧
      (s.dump q).jobs.get none d = some j ∧
      j.readFt = some t ∧
      t + 10000 ≤ s.now d) ∧
    (∃ (d q w : Nat) (s : State) (j : DumpJob), isKind s d .compute = true ∧
      dumping s d = some q ∧
      (s.dump q).jobs.get none d = some j ∧
      j.write = some w ∧
      j.writeFt + 10000 ≤ s.now d) ∧
    (∃ (q : Nat) (s : State), q < 64 ∧
      partStep s q = 3 ∧
      (s.dump q).on = true ∧
      (s.dump q).startFt + 200000000 ≤ s.now s.headDie) :=
  ⟨⟨0, 0, dumpOn, by decide +kernel⟩,
    ⟨0, 0, 0, dumpOn, aDump, by decide +kernel⟩,
    ⟨0, 0, 0, dumpOn, aDump, by decide +kernel⟩,
    ⟨0, timeAt dumpOn 96 200000000, by decide +kernel⟩⟩

/-- For each clause of StopCommandsComplete, a case that meets its hypotheses. -/
theorem witness_StopCommandsComplete :
    (∃ (d : Nat) (s : State), dieExists s d = true) ∧
    (∃ (d panel : Nat) (s : State), dieExists s d = true ∧
      panel ∈ panelsOf s d ∧
      armed s d = true ∧
      stopFt s d ≤ s.now d) ∧
    (∃ (d panel c : Nat) (s : State), dieExists s d = true ∧
      panel ∈ panelsOf s d ∧
      s.halted.get none (d * 2 + panel) = some c ∧
      c + 8 ≤ (s.region d panel).cycles) ∧
    (∃ (s : State), s.mode = .stop) ∧
    (∃ (s : State), s.mode ≠ .stop) ∧
    (∃ (d : Nat) (s : State), dieExists s d = true ∧
      armed s d = true ∧
      s.now d < stopFt s d ∧
      d ≠ s.headDie) ∧
    (∃ (s : State), dieExists s s.headDie = true ∧
      armed s s.headDie = true ∧
      s.now s.headDie < stopFt s s.headDie) ∧
    (∃ (s : State), dieExists s s.headDie = true ∧
      armed s s.headDie = true ∧
      s.now s.headDie < stopFt s s.headDie ∧
      s.armWait = []) ∧
    (∃ (s : State) (h : Hdr) (k : Nat), s.armWait = [(h.srcDie, k)] ∧
      h.tag.toNat % 2 = k ∧
      (k = 0 → h.inlBits 415 352 = stopFt s s.headDie) ∧
      (k ≠ 0 → h.inlBits 352 352 = 1)) ∧
    (∃ (d : Nat) (s : State), dieExists s d = true ∧
      (armed s d = false ∨ stopFt s d ≤ s.now d)) :=
  ⟨⟨99, svc, by decide +kernel⟩,
    ⟨0, 1, svc.setFld 0 MND_STOP_STATUS 0 0 1, by decide +kernel⟩,
    ⟨0, 1, 0, { svc with halted := { rows := [(1, some 0)] } }.setRegion 0 1 { cycles := 8 }, by decide +kernel⟩,
    ⟨{ svc with mode := .stop }, by decide +kernel⟩,
    ⟨svc, by decide +kernel⟩,
    ⟨0, (svc.setFld 0 MND_STOP_STATUS 0 0 1).setReg 0 MND_STOP_FT 1, by decide +kernel⟩,
    ⟨(svc.setFld 96 MND_STOP_STATUS 0 0 1).setReg 96 MND_STOP_FT 1, by decide +kernel⟩,
    ⟨(svc.setFld 96 MND_STOP_STATUS 0 0 1).setReg 96 MND_STOP_FT 1, by decide +kernel⟩,
    ⟨{ svc with armWait := [(0, 0)] }, mkHdr 0x62 5 0 0, 0, by decide +kernel⟩,
    ⟨0, svc, by decide +kernel⟩⟩

/-- For each clause of HaltAndCancel, a case that meets its hypotheses. -/
theorem witness_HaltAndCancel :
    (∃ (s : State) (d panel : Nat), s.halted.get none (d * 2 + panel) = none) ∧
    (∃ (s : State) (d panel : Nat), ∃ c, s.halted.get none (d * 2 + panel) = some c) ∧
    (∃ (s : State) (d panel : Nat), stopFt s d ≤ s.now d) :=
  ⟨⟨svc, 0, 1, by decide +kernel⟩,
    ⟨{ svc with halted := { rows := [(1, some 7)] } }, 0, 1, 7, by decide +kernel⟩,
    ⟨svc, 0, 0, by decide +kernel⟩⟩

/-- For each clause of PatternCommandsComplete, a case that meets its hypotheses. -/
theorem witness_PatternCommandsComplete :
    (∃ (s : State), loadBusy s = false ∧
      s.mode = .cold ∧
      headRuns s = true) ∧
    (∃ (s : State), loadBusy s = false ∧
      (s.mode = .fit ∨ s.mode = .service)) ∧
    (∃ (s : State), (loadState s = 1 ∨ loadState s = 2)) ∧
    (∃ (v : Word) (s : State), loadState s = 1 ∧
      s.loader.len + 8 < 128) ∧
    (∃ (d off : Nat) (v : Word) (s : State), dieExists s d = true ∧
      permitOff off = true) ∧
    (∃ (num o : Nat) (s : State) (p : Patch), s.patches.find? (fun p => p.num == num && p.st == 4) = some p ∧
      patchOutcome s p = some o ∧
      p.kind ≠ 5) ∧
    (∃ (num : Nat) (s : State) (p : Patch), s.patches.find? (fun p => p.num == num && p.st == 5) = some p ∧
      p.t ≤ s.now s.headDie) ∧
    (∃ (num : Nat) (s x : State) (p : Patch), x = sendPermits s num ∧
      x.patches.find? (fun p => p.num == num && p.st == 3) = some p ∧
      permitsHeld x p = true ∧
      p.own = true) ∧
    (∃ (s : State), loadState s = 2 ∧
      s.loader.mode = 0) ∧
    (∃ (a b : Bool) (s : State), loadState s = 2 ∧
      s.loader.mode = 2) ∧
    (∃ (s : State), loadState s = 2 ∧
      s.loader.mode = 1) ∧
    (∃ (fails : List TestFail) (s s0 s1 : State), s.mode = .test ∧
      s0 = { s with testReport := some fails } ∧
      s1 = startSeams (enterMode (fails.foldl coverFail s0) .train) ∧
      fails.all (fun f => failCovered s0 fails f || failIdle s0 f) = true) ∧
    (∃ (fails : List TestFail) (s s0 s1 : State), s.mode = .test ∧
      s0 = { s with testReport := some fails } ∧
      s1 = startSeams (enterMode (fails.foldl coverFail s0) .train) ∧
      fails.all (fun f => failCovered s0 fails f || failIdle s0 f) = false) ∧
    (∃ (s : State), s.mode = .train ∧
      trained s = true) ∧
    (∃ (s : State) (m : Nat) (ok : Bool), loadBusy s = true) :=
  ⟨⟨{ headOn with mode := .cold }, by decide +kernel⟩,
    ⟨svc, by decide +kernel⟩,
    ⟨loading 2 0, by decide +kernel⟩,
    ⟨5, loading 1 0, by decide +kernel⟩,
    ⟨63, 0x201F8, 0, svc, by decide +kernel⟩,
    ⟨0, 0, patchDone, aPatch 4, by decide +kernel⟩,
    ⟨0, { svc with patches := [aPatch 5] }, aPatch 5, by decide +kernel⟩,
    ⟨0, { svc with patches := [aPatch 3] }, { svc with patches := [aPatch 3] }, aPatch 3, by decide +kernel⟩,
    ⟨loading 2 0, by decide +kernel⟩,
    ⟨true, true, loading 2 2, by decide +kernel⟩,
    ⟨loading 2 1, by decide +kernel⟩,
    ⟨[], testing, { testing with testReport := some [] }, startSeams (enterMode { testing with testReport := some [] } .train), ⟨by decide +kernel, rfl, rfl, by decide +kernel⟩⟩,
    ⟨[.die 0], testing, { testing with testReport := some [.die 0] }, startSeams (enterMode (([.die 0] : List TestFail).foldl coverFail { testing with testReport := some [.die 0] }) .train), ⟨by decide +kernel, rfl, rfl, by decide +kernel⟩⟩,
    ⟨small .train, by decide +kernel⟩,
    ⟨loading 1 0, 1, true, by decide +kernel⟩⟩

/-- For each clause of LedgerCommandsComplete, a case that meets its hypotheses. -/
theorem witness_LedgerCommandsComplete :
    (∃ (s : State), headRuns s = true ∧
      (ledgerRefill s).ledger.back ≠ []) ∧
    (∃ (s : State) (c : Chained) (cs : List Chained), s.ledger.sent = c :: cs) ∧
    (∃ (s : State), s.ledger.signing = none ∧
      debugOpened s = false ∧
      s.ledger.next ≠ 0 ∧
      headRuns s = true) ∧
    (∃ (s : State), s.ledger.signing = none ∧
      debugOpened s = false ∧
      s.ledger.next ≠ 0 ∧
      headRuns s = true ∧
      sealIsDue s = true) ∧
    (∃ (s : State) (l : Nat) (c : List Word), s.ledger.signing = some (l, c) ∧
      debugOpened s = true) ∧
    (∃ (s : State) (l : Nat) (c : List Word), s.ledger.signing = some (l, c) ∧
      debugOpened s = false) ∧
    (∃ (d : Nat) (s : State), dieExists s d = true ∧
      attHalted s d attCtl = false ∧
      tracePacketQuads ≤ (s.traces.get {} d).quads.length ∧
      (s.traces.get {} d).quads ≠ []) ∧
    (∃ (d : Nat) (s : State), dieExists s d = true ∧
      partState s d = .service ∧
      s.fld d OBS_TRACE_CFG 39 32 = 0 ∧
      (s.keeper d).round % 256 = 0) ∧
    (∃ (d n : Nat) (v : Word) (s : State), dieExists s d = true ∧
      n < 16) ∧
    (∃ (d : Nat) (v : Word) (s : State), dieExists s d = true ∧
      v.getLsbD 1 = true) :=
  ⟨⟨{ headOn with ledger := { back := [{ quads := [] }] } }, by decide +kernel⟩,
    ⟨{ svc with ledger := { sent := [aChained] } }, aChained, [], by decide +kernel⟩,
    ⟨unsealedLedger, by decide +kernel⟩,
    ⟨unsealedLedger, by decide +kernel⟩,
    ⟨{ svc with ledger := { signing := some (3, []) } }.setStore 96 { state := 2 }, 3, [], by decide +kernel⟩,
    ⟨{ svc with ledger := { signing := some (3, []) } }, 3, [], by decide +kernel⟩,
    ⟨0, { svc with traces := { rows := [(0, { quads := List.replicate 32 0 })] } }, by decide +kernel⟩,
    ⟨0, svc, by decide +kernel⟩,
    ⟨0, 15, 0, svc, by decide +kernel⟩,
    ⟨0, 2, svc, by decide +kernel⟩⟩

/-- For each clause of BootCommandsComplete, a case that meets its hypotheses. -/
theorem witness_BootCommandsComplete :
    (∃ (d : Nat) (s : State), isKind s d .service = true ∧
      bootState s d = 0 ∧
      (s.store d).state ≠ 3) ∧
    (∃ (d : Nat) (s : State), isKind s d .service = true ∧
      bootState s d = 1) ∧
    (∃ (d : Nat) (s : State), isKind s d .service = true ∧
      bootState s d = 2) ∧
    (∃ (d : Nat) (s : State), isKind s d .service = true ∧
      bootState s d = 3) ∧
    (∃ (d : Nat) (s : State), isKind s d .service = true ∧
      bootState s d = 3 ∧
      bootResult s d ≠ 1) ∧
    (∃ (d : Nat) (s : State), isKind s d .service = true ∧
      bootState s d = 4 ∧
      (s.store d).state = 1) ∧
    (∃ (s : State), s.mode = .fit ∧
      areaOk s = true) ∧
    (∃ (d : Nat) (s : State), isKind s d .service = true) ∧
    (∃ (s : State), isKind s s.headDie .service = true ∧
      isKind s s.mirrorDie .service = true ∧
      s.ledger.unmirrored = false) ∧
    (∃ (s : State), headRuns s = true) ∧
    (∃ (d : Nat) (p : Packet) (s : State), dieExists s d = true ∧
      packetMisuse (sendBuffer (fillSend s d p) d) = none) :=
  ⟨⟨98, bootAt 0, by decide +kernel⟩,
    ⟨98, bootAt 1, by decide +kernel⟩,
    ⟨98, bootAt 2, by decide +kernel⟩,
    ⟨98, bootAt 3, by decide +kernel⟩,
    ⟨98, bootAt 3, by decide +kernel⟩,
    ⟨98, (bootAt 4).setStore 98 { state := 1 }, by decide +kernel⟩,
    ⟨{ svc with mode := .fit }.setFld 96 PAT_AREA_STATUS 0 0 1, by decide +kernel⟩,
    ⟨99, svc, by decide +kernel⟩,
    ⟨svc, by decide +kernel⟩,
    ⟨headOn, by decide +kernel⟩,
    ⟨0, pk 1 2 1, svc, by decide +kernel⟩⟩

/-- For each clause of SecretCommandsComplete, a case that meets its hypotheses. -/
theorem witness_SecretCommandsComplete :
    (∃ (d : Nat) (s : State), isKind s d .service = true ∧
      keyOk (ownerBytes s d) = true ∧
      provisionMay s d = true) ∧
    (∃ (d : Nat) (s : State), isKind s d .service = true ∧
      keyOk (ownerBytes s d) = false) ∧
    (∃ (d : Nat) (p : Store) (s : State), isKind s d .service = true ∧
      s.provision = some p ∧
      (s.store d).state = 4 ∧
      s.debugWait = none) ∧
    (∃ (d : Nat) (s : State), isKind s d .service = true ∧
      debugStep s ≠ 2 ∧
      s.eraseOnly = false) ∧
    (∃ (d : Nat) (s : State), isKind s d .service = true) ∧
    (∃ (d : Nat) (s : State), isKind s d .service = true ∧
      debugStep s = 1) ∧
    (∃ (s : State), debugStep s = 1 ∧
      s.debugFt + 50000000 ≤ s.now s.headDie) ∧
    (∃ (s : State), s.eraseOnly = true ∧
      debugStep s ≠ 2) ∧
    (∃ (s : State), zeroising s = true) :=
  ⟨⟨96, ownerGiven, by decide +kernel⟩,
    ⟨96, State.reset, by decide +kernel⟩,
    ⟨96, {}, { State.reset with provision := some {} }.setStore 96 { state := 4 }, by decide +kernel⟩,
    ⟨96, State.reset, by decide +kernel⟩,
    ⟨99, State.reset, by decide +kernel⟩,
    ⟨96, debugAt 1, by decide +kernel⟩,
    ⟨timeAt (debugAt 1) 96 50000000, by decide +kernel⟩,
    ⟨{ State.reset with eraseOnly := true }, by decide +kernel⟩,
    ⟨debugAt 2, by decide +kernel⟩⟩

/-- For each clause of HostCommandsComplete, a case that meets its hypotheses. -/
theorem witness_HostCommandsComplete :
    (∃ (d off : Nat) (bs : Bytes) (s : State), isKind s d .service = true ∧
      off + bs.length ≤ 2 ^ 28 ∧
      s.mode ≠ .cold ∧
      s.mode ≠ .stop) ∧
    (∃ (d off n : Nat) (s : State), isKind s d .service = true ∧
      0 < n ∧
      off + n ≤ 2 ^ 28 ∧
      s.mode ≠ .cold ∧
      s.mode ≠ .stop) ∧
    (∃ (d off n : Nat) (s : State), isKind s d .service = true ∧
      0 < n ∧
      off + n ≤ 2 ^ 28 ∧
      (s.mode = .cold ∨ s.mode = .stop)) ∧
    (∃ (d slot : Nat) (s : State) (j : HostJob), isKind s d .service = true ∧
      slot < 3840 ∧
      s.barJobs.get none (hk d slot) = some j ∧
      j.kind = 0 ∧
      j.startFt + 50000 ≤ s.now d) ∧
    (∃ (d : Nat) (s : State), isKind s d .service = true ∧
      s.flag d TLR_RCSR_CTL 8 = false ∧
      s.mode ≠ .cold ∧
      s.mode ≠ .stop) ∧
    (∃ (d : Nat) (s : State) (j : HostJob), isKind s d .service = true ∧
      s.rcsr.get none d = some j ∧
      j.startFt + 100000 ≤ s.now d) :=
  ⟨⟨96, 268435455, [7], svc, by decide +kernel⟩,
    ⟨96, 268435455, 1, svc, by decide +kernel⟩,
    ⟨96, 0, 4, State.reset, by decide +kernel⟩,
    ⟨96, 3839, timeAt { svc with barJobs := { rows := [(hk 96 3839, some aHostJob)] } } 96 50000, aHostJob, by decide +kernel⟩,
    ⟨96, svc, by decide +kernel⟩,
    ⟨96, timeAt { svc with rcsr := { rows := [(96, some aHostJob)] } } 96 100000, aHostJob, by decide +kernel⟩⟩

/-- For each clause of CommandsStop, a case that meets its hypotheses. -/
theorem witness_CommandsStop :
    (∃ (d : Nat) (s : State), dieExists s d = false) ∧
    (∃ (d : Nat) (s : State), isKind s d .service = false) ∧
    (∃ (d p : Nat) (pk : Packet) (s : State), isTile s d p = true ∧
      attExists s d p = true ∧
      attHalted s d p = false ∧
      attHemmed s d p pk.hdr = false ∧
      pk.hdr.crcOk = true ∧
      pk.hdr.cmd ≠ 0x01) ∧
    (∃ (d p : Nat) (pk : Packet) (s : State), ∃ r, isTile s d p = true ∧
      attExists s d p = true ∧
      attHalted s d p = false ∧
      attHemmed s d p pk.hdr = false ∧
      pk.hdr.crcOk = true ∧
      pk.hdr.cmd = 0x01 ∧
      packetMisuse pk = some r) ∧
    (∃ (d att : Nat) (pk : Packet) (s : State), attExists s d att = true ∧
      attHalted s d att = false ∧
      attHemmed s d att pk.hdr = false ∧
      delivers s d att = true ∧
      pk.hdr.crcOk = false) ∧
    (∃ (d att : Nat) (pk : Packet) (s : State), ∃ t, attExists s d att = true ∧
      attHalted s d att = false ∧
      attHemmed s d att pk.hdr = false ∧
      delivers s d att = true ∧
      pk.hdr.crcOk = false ∧
      arrivalNi s d att = some t) :=
  ⟨⟨100, State.reset, by decide +kernel⟩,
    ⟨0, State.reset, by decide +kernel⟩,
    ⟨0, 0, pk 2 2 1, State.reset, by decide +kernel⟩,
    ⟨0, 0, pk 1 2 0, State.reset, 74, by decide +kernel⟩,
    ⟨0, attCtl, { hdr := { cmd := 1, vc := 2, len := 1 }, data := [0] }, State.reset, by decide +kernel⟩,
    ⟨0, 0, { hdr := { cmd := 1, vc := 2, len := 1 }, data := [0] }, State.reset, 0, by decide +kernel⟩⟩

end Sys2Proof.Tests
end

section
/-! SUPPORT. Bit fields of a word, read and replaced bit by bit (R17), and a table read under another reset value. -/

namespace Sys2Proof

theorem testBit_bitsOf {w : Nat} (x : BitVec w) (hi lo i : Nat) :
    (bitsOf x hi lo).testBit i = (decide (i < hi + 1 - lo) && x.getLsbD (lo + i)) := by
  rw [bitsOf, Nat.testBit_mod_two_pow, Nat.testBit_div_two_pow, Nat.add_comm i lo]
  rfl

/-- The sum that `setBits` forms, as its three parts stand one above the other. -/
theorem setBits_sum_nested (n v hi lo : Nat) (h : lo ≤ hi) :
    n / 2 ^ (hi + 1) * 2 ^ (hi + 1) + v % 2 ^ (hi + 1 - lo) * 2 ^ lo + n % 2 ^ lo =
      2 ^ lo * (2 ^ (hi + 1 - lo) * (n / 2 ^ (hi + 1)) + v % 2 ^ (hi + 1 - lo)) + n % 2 ^ lo := by
  have hsplit : 2 ^ (hi + 1) = 2 ^ lo * 2 ^ (hi + 1 - lo) := by
    rw [← Nat.pow_add, show lo + (hi + 1 - lo) = hi + 1 by omega]
  generalize n / 2 ^ (hi + 1) = q
  rw [hsplit, Nat.mul_add, Nat.mul_comm q, Nat.mul_assoc, Nat.mul_comm (v % _) (2 ^ lo)]

theorem getLsbD_setBits {w : Nat} (x : BitVec w) (hi lo v b : Nat) (h : lo ≤ hi) (hb : b < w) :
    (setBits x hi lo v).getLsbD b = if b < lo ∨ hi < b then x.getLsbD b else v.testBit (b - lo) := by
  rw [← BitVec.testBit_toNat x, setBits, setBits_sum_nested _ _ _ _ h, BitVec.getLsbD_ofNat,
    Nat.testBit_two_pow_mul_add _ (Nat.mod_lt _ (Nat.two_pow_pos lo)),
    Nat.testBit_two_pow_mul_add _ (Nat.mod_lt _ (Nat.two_pow_pos _))]
  by_cases hlo : b < lo
  · simp [hb, hlo, Nat.testBit_mod_two_pow]
  · by_cases hhi : hi < b
    · have habove : b - lo - (hi + 1 - lo) + (hi + 1) = b := by omega
      simp [hb, hlo, hhi, show ¬ b - lo < hi + 1 - lo by omega, Nat.testBit_div_two_pow, habove]
    · simp [hb, hlo, hhi, show b - lo < hi + 1 - lo by omega, Nat.testBit_mod_two_pow]

theorem bitsOf_setBits_same {w : Nat} (x : BitVec w) (hi lo v : Nat) (h : lo ≤ hi) (hw : hi < w) :
    bitsOf (setBits x hi lo v) hi lo = v % 2 ^ (hi + 1 - lo) := by
  refine Nat.eq_of_testBit_eq fun i => ?_
  rw [testBit_bitsOf, Nat.testBit_mod_two_pow]
  by_cases hin : i < hi + 1 - lo
  · rw [getLsbD_setBits x hi lo v (lo + i) h (by omega), if_neg (by omega), Nat.add_sub_cancel_left]
  · simp [hin]

theorem natBit_eq_testBit (n i : Nat) : natBit n i = n.testBit i := by
  rw [natBit, Nat.testBit_eq_decide_div_mod_eq]
  rfl

theorem satTo_lt (w n : Nat) : satTo w n < 2 ^ w := by
  have := Nat.two_pow_pos w
  rw [satTo]
  omega

/-- `Tbl.get_set_other` where the number read has a reset value of its own, as registers do. -/
theorem Tbl.get_set_other_default {α : Type} [DecidableEq α] (t : Tbl α) (d e : α) (k j : Nat) (v : α) (hj : j ≠ k) :
    (t.set d k v).get e j = t.get e j := by
  rw [Tbl.set]
  split
  · simp only [Tbl.get, find_rowDel_other _ _ _ hj]
  · simp only [Tbl.get, find_rowPut_other _ _ _ _ hj]

end Sys2Proof
end

section
/-! SUPPORT. What a register and its fields read as after a write of the register, a field or a counter (R23, R26, R31, R32). -/

namespace Sys2Proof.Machine

@[simp] theorem State.reg_setReg_same (s : State) (d off : Nat) (v : Word) : (s.setReg d off v).reg d off = v :=
  Tbl.get_set_same s.csr (csrReset s d off) (ck d off) v

theorem State.reg_setReg_other (s : State) (d off d' off' : Nat) (v : Word) (h : ck d' off' ≠ ck d off) :
    (s.setReg d off v).reg d' off' = s.reg d' off' :=
  Tbl.get_set_other_default s.csr (csrReset s d off) (csrReset s d' off') (ck d off) (ck d' off') v h

theorem State.fld_setFld_same (s : State) (d off hi lo v : Nat) (h : lo ≤ hi) (hw : hi < 64) :
    (s.setFld d off hi lo v).fld d off hi lo = v % 2 ^ (hi + 1 - lo) := by
  rw [State.fld, State.setFld, State.reg_setReg_same, bitsOf_setBits_same _ _ _ _ h hw]

theorem State.getLsbD_reg_setFld_outside (s : State) (d off hi lo v b : Nat) (h : lo ≤ hi) (hb : b < lo ∨ hi < b) :
    ((s.setFld d off hi lo v).reg d off).getLsbD b = (s.reg d off).getLsbD b := by
  rw [State.setFld, State.reg_setReg_same]
  by_cases hw : b < 64
  · rw [getLsbD_setBits _ _ _ _ _ h hw, if_pos hb]
  · rw [BitVec.getLsbD_of_ge _ _ (by omega), BitVec.getLsbD_of_ge _ _ (by omega)]

theorem State.bump_of_not_wrote {s : State} {d off hi lo : Nat} (n : Nat) (h : s.wrote d off hi lo = false) :
    s.bump d off hi lo n = s.setFld d off hi lo (wrapTo (hi + 1 - lo) (s.fld d off hi lo + n)) :=
  if_neg (Bool.eq_false_iff.mp h)

theorem State.bumpSat_of_not_wrote {s : State} {d off hi lo : Nat} (n : Nat) (h : s.wrote d off hi lo = false) :
    s.bumpSat d off hi lo n = s.setFld d off hi lo (satTo (hi + 1 - lo) (s.fld d off hi lo + n)) :=
  if_neg (Bool.eq_false_iff.mp h)

/-- Settles O8: the field by its bits in the word, every other register by the table of registers. -/
theorem fieldWriteReadsBack : Obligations.FieldWriteReadsBack := by
  intro s d off hi lo v h hw
  exact ⟨s.fld_setFld_same d off hi lo v h hw,
    fun b hb => s.getLsbD_reg_setFld_outside d off hi lo v b h hb,
    fun d' off' hk => s.reg_setReg_other d off d' off' _ hk,
    s.setFld_mem d off hi lo v⟩

/-- Settles O9: both counters store a value below 2 to the power of the field's width, so the field write keeps it whole (R32). -/
theorem countersWrapOrSaturate : Obligations.CountersWrapOrSaturate := by
  intro s d off hi lo n h hw hnot
  constructor
  · rw [State.bump_of_not_wrote n hnot, s.fld_setFld_same d off hi lo _ h hw, wrapTo, Nat.mod_mod]
  · rw [State.bumpSat_of_not_wrote n hnot, s.fld_setFld_same d off hi lo _ h hw, Nat.mod_eq_of_lt (satTo_lt _ _), satTo]

end Sys2Proof.Machine
end

section
/-! SUPPORT. The bits that a write of software leaves in a register (R26 to R28, R30), and the counterexample to StoredBits: a
register row whose RW mask reaches past bit 63. No register of the map has such a row. -/

namespace Sys2Proof.Machine

/-- Refutes O34: the masks of a `RegDesc` are numbers of any size. An RW mask of 2^64 names no bit of the register, yet the
complement that keeps the other bits is cut off at 0, and a write of 0 clears bit 0, which has no kind at all. The clauses do
hold for the rows of the register map (`storedBits_of_descOf`). -/
theorem not_storedBits : ¬ Obligations.StoredBits := by
  rintro ⟨_, hbits⟩
  obtain ⟨-, -, -, -, hkept⟩ := hbits ⟨0, 2 ^ 64, 0, 0, 0⟩ 1 0 0 false 0 (by decide)
  exact absurd (hkept (by decide) (by decide) (by decide)) (by decide)

/-- The bits that a write takes from the value written: RW fields, and PL fields where they are open (R26, R27). -/
def writeMask (r : RegDesc) (pl : Bool) : Nat := if pl then r.rw ||| r.pl else r.rw

/-- The RW and PL fields of a register row lie in its 64 bits (R23). -/
def fieldsFit (r : RegDesc) : Bool := decide (r.rw < 2 ^ 64) && decide (r.pl < 2 ^ 64)

theorem natBit_writeMask (r : RegDesc) (pl : Bool) (b : Nat) :
    natBit (writeMask r pl) b = (natBit r.rw b || (pl && natBit r.pl b)) := by
  cases pl <;> simp [writeMask, natBit_eq_testBit]

theorem writeMask_lt {r : RegDesc} (h : fieldsFit r = true) (pl : Bool) : writeMask r pl < 2 ^ 64 := by
  simp only [fieldsFit, Bool.and_eq_true, decide_eq_true_eq] at h
  cases pl with
  | false => exact h.1
  | true => exact Nat.or_lt_two_pow h.1 h.2

theorem storeBits_eq (r : RegDesc) (old v set : Word) (pl : Bool) :
    storeBits r old v set pl = BitVec.ofNat 64
      (((old.toNat &&& (2 ^ 64 - 1 - writeMask r pl)) ||| (v.toNat &&& writeMask r pl)) &&&
        (2 ^ 64 - 1 - (v.toNat &&& r.w1c &&& ((2 ^ 64 - 1 - writeMask r pl) &&& (2 ^ 64 - 1 - set.toNat))))) := by
  cases pl <;> rfl

/-- A bit of the complement within 64 bits; from 2^64 on the subtraction is cut off at 0 and the equation fails. -/
theorem testBit_compl64 {x b : Nat} (hx : x < 2 ^ 64) (hb : b < 64) : (2 ^ 64 - 1 - x).testBit b = !x.testBit b := by
  rw [Nat.sub_sub, Nat.add_comm, Nat.testBit_two_pow_sub_succ hx]
  simp only [hb, decide_true, Bool.true_and]

theorem getLsbD_storeBits {r : RegDesc} (hr : fieldsFit r = true) (old v set : Word) (pl : Bool) {b : Nat} (hb : b < 64) :
    (storeBits r old v set pl).getLsbD b =
      if natBit (writeMask r pl) b then v.getLsbD b else old.getLsbD b && !(v.getLsbD b && natBit r.w1c b && !set.getLsbD b) := by
  have hm := writeMask_lt hr pl
  rw [storeBits_eq, natBit_eq_testBit, natBit_eq_testBit, BitVec.getLsbD_ofNat]
  generalize writeMask r pl = m at hm
  have hclear : v.toNat &&& r.w1c &&& ((2 ^ 64 - 1 - m) &&& (2 ^ 64 - 1 - set.toNat)) < 2 ^ 64 :=
    Nat.and_lt_two_pow _ (Nat.and_lt_two_pow _ (by omega))
  simp only [Nat.testBit_and, Nat.testBit_or, testBit_compl64 hclear hb, testBit_compl64 hm hb, testBit_compl64 set.isLt hb,
    BitVec.testBit_toNat, hb, decide_true, Bool.true_and]
  cases m.testBit b <;> simp

/-- Whatever row a lookup finds lies in 64 bits. -/
def lookupFits (o : Option RegDesc) : Prop := ∀ r, o = some r → fieldsFit r = true

theorem lookupFits_none : lookupFits none := nofun

theorem lookupFits_ite {c : Prop} [Decidable c] {a b : Option RegDesc} (ha : lookupFits a) (hb : lookupFits b) :
    lookupFits (if c then a else b) := by
  split
  · exact ha
  · exact hb

theorem lookupFits_whenReg {c : Bool} {a : Option RegDesc} (ha : lookupFits a) : lookupFits (whenReg c a) :=
  lookupFits_ite ha lookupFits_none

theorem lookupFits_orReg {a b : Option RegDesc} (ha : lookupFits a) (hb : lookupFits b) : lookupFits (orReg a b) := by
  cases a with
  | some r => exact ha
  | none => exact hb

theorem lookupFits_findReg {l : List RegDesc} {rel : Nat} (h : l.all fieldsFit = true) : lookupFits (findReg l rel) :=
  fun _ hr => List.all_eq_true.mp h _ (List.mem_of_find?_eq_some hr)

theorem fieldsFit_kindRow (k : Kind) (off : Nat) {r : RegDesc} (h : fieldsFit r = true) : fieldsFit (kindRow k off r) = true := by
  simp only [fieldsFit, Bool.and_eq_true, decide_eq_true_eq] at h ⊢
  exact ⟨h.1, Nat.lt_of_le_of_lt Nat.and_le_left h.2⟩

theorem lookupFits_kindRow {k : Kind} {off : Nat} {a : Option RegDesc} (ha : lookupFits a) :
    lookupFits (a.map (kindRow k off)) := by
  intro r hr
  obtain ⟨x, hx, rfl⟩ := Option.map_eq_some_iff.mp hr
  exact fieldsFit_kindRow k off (ha x hx)

/-- The proof follows the lookups of `regDesc` down to the tables of rows, and each table is checked. -/
theorem lookupFits_regDesc (k : Kind) (head : Bool) (off : Nat) : lookupFits (regDesc k head off) := by
  unfold regDesc
  dsimp only
  repeat' with_reducible first
    | exact lookupFits_none
    | apply lookupFits_ite
    | apply lookupFits_whenReg
    | apply lookupFits_orReg
    | apply lookupFits_kindRow
    | apply lookupFits_findReg
  all_goals decide +kernel

theorem fieldsFit_of_descOf {s : State} {d off : Nat} {r : RegDesc} (h : descOf s d off = some r) : fieldsFit r = true := by
  unfold descOf at h
  split at h
  · exact lookupFits_regDesc _ _ _ r h
  · cases h

/-- The clauses of StoredBits on the bits of a register, for every register that exists on a die (R26 to R28, R30). -/
theorem storedBits_of_descOf {s : State} {d off : Nat} {r : RegDesc} (h : descOf s d off = some r) (old v set : Word) (pl : Bool)
    {b : Nat} (hb : b < 64) :
    (natBit r.rw b = true → (storeBits r old v set pl).getLsbD b = v.getLsbD b) ∧
    (natBit r.rw b = false → natBit r.pl b = true → pl = true → (storeBits r old v set pl).getLsbD b = v.getLsbD b) ∧
    (natBit r.rw b = false → natBit r.pl b = true → natBit r.w1c b = false → pl = false →
      (storeBits r old v set pl).getLsbD b = old.getLsbD b) ∧
    (natBit r.rw b = false → natBit r.pl b = false → natBit r.w1c b = true →
      (storeBits r old v set pl).getLsbD b = (old.getLsbD b && !(v.getLsbD b && !set.getLsbD b))) ∧
    (natBit r.rw b = false → natBit r.pl b = false → natBit r.w1c b = false →
      (storeBits r old v set pl).getLsbD b = old.getLsbD b) := by
  rw [getLsbD_storeBits (fieldsFit_of_descOf h) old v set pl hb, natBit_writeMask]
  refine ⟨fun hrw => ?_, fun _ hpl ho => ?_, fun hrw _ hc ho => ?_, fun hrw hpl hc => ?_, fun hrw hpl hc => ?_⟩
  · simp [hrw]
  · simp [hpl, ho]
  · simp [hrw, hc, ho]
  · simp [hrw, hpl, hc]
  · simp [hrw, hpl, hc]

end Sys2Proof.Machine
end

section
/-! SUPPORT. A packet that its attachment takes reaches its engine, and where an access to a slice's CSR window completes
(R23 to R28, R89). -/

namespace Sys2Proof.Machine

theorem headerChecked_of_taken {s : State} {d att cmd : Nat} {p : Packet} (act : Out) (h : taken s d att cmd p = true) :
    headerChecked s d att p act = act := by
  simp only [taken, Bool.and_eq_true, Bool.not_eq_true'] at h
  obtain ⟨⟨⟨⟨⟨⟨hexists, _⟩, _⟩, hhalted⟩, hhemmed⟩, hdelivers⟩, hcrc⟩ := h
  simp [headerChecked, hexists, hhalted, hhemmed, hdelivers, hcrc]

theorem arriveAt_of_taken {s : State} {d att cmd : Nat} {p : Packet} (act : State → Out) (h : taken s d att cmd p = true) :
    arriveAt s d att cmd p act = act (takeArrival s d att p) := by
  rw [arriveAt, headerChecked_of_taken _ h]
  simp only [taken, Bool.and_eq_true, beq_iff_eq, Option.isNone_iff_eq_none] at h
  obtain ⟨⟨⟨⟨⟨⟨_, hcmd⟩, hproper⟩, _⟩, _⟩, _⟩, _⟩ := h
  simp [hcmd, hproper]

theorem ctlArrive_of_taken {s : State} {d cmd : Nat} {p : Packet} (act : State → Out) (h : taken s d attCtl cmd p = true) :
    ctlArrive s d attCtl cmd p act = act (takeArrival s d attCtl p) := by
  rw [ctlArrive, if_pos (beq_self_eq_true attCtl), arriveAt_of_taken act h]

theorem csrWrite_of_ne_rcsrCtl {off : Nat} (s : State) (d : Nat) (v : Word) (src : BitVec 32) (h : off ≠ TLR_RCSR_CTL) :
    csrWrite s d off v src = plainWrite s d off v src := by
  rw [csrWrite, csrWriteN, if_neg (by simp [h])]

theorem csrWrite_misaligned {s : State} {d off : Nat} (v : Word) (src : BitVec 32) (hd : dieExists s d = true)
    (h : off % 8 ≠ 0) : csrWrite s d off v src = .next (scramble s d off) := by
  have hne : off ≠ TLR_RCSR_CTL := by
    rintro rfl
    exact h rfl
  rw [csrWrite_of_ne_rcsrCtl s d v src hne]
  simp [plainWrite, hd, h]

/-- A write of `v` by the engine that `src` names finds at `off` a register that does nothing but hold its fields (R26 to R28). -/
structure HoldsFields (s : State) (d off : Nat) (v : Word) (src : BitVec 32) : Prop where
  aligned : off % 8 = 0
  notRcsr : off ≠ TLR_RCSR_CTL
  listed : (descOf s d off).isSome = true
  notSyn : synOffset off = none
  notHem : hemReg off = false
  notPermit : permitOff off = false
  fabric : actFabric s d off v = none
  health : actHealth s d off v = none
  tailor : actTailor s d off v src = none

theorem HoldsFields.regWrite_eq {s : State} {d off : Nat} {v : Word} {src : BitVec 32} (h : HoldsFields s d off v src) :
    regWrite s d off v src = .next (csrStore s d off v s.mode.plOpen) := by
  simp [regWrite, h.notHem, h.notPermit, h.fabric, h.health, h.tailor]

theorem HoldsFields.csrWrite_eq {s : State} {d off : Nat} {v : Word} {src : BitVec 32} (h : HoldsFields s d off v src)
    (hd : dieExists s d = true) : csrWrite s d off v src = .next (csrStore s d off v s.mode.plOpen) := by
  rw [csrWrite_of_ne_rcsrCtl s d v src h.notRcsr]
  simp [plainWrite, hd, h.aligned, h.notSyn, h.listed, h.regWrite_eq]

theorem exec_csrRead (d att : Nat) (p : Packet) (s : State) :
    exec (.csrRead d att p) s = ctlArrive s d att 0x60 p (fun t =>
      .next (sendAt (csrRead t d (p.hdr.destOff % 2 ^ 24)).2 d attCtl
        (csrAnswer (csrRead t d (p.hdr.destOff % 2 ^ 24)).2 d p.hdr (csrRead t d (p.hdr.destOff % 2 ^ 24)).1))) := rfl

theorem exec_csrWrite (d att : Nat) (p : Packet) (s : State) :
    exec (.csrWrite d att p) s = ctlArrive s d att 0x61 p (fun t =>
      csrWrite t d (p.hdr.destOff % 2 ^ 24) (BitVec.ofNat 64 (p.hdr.inlBits 415 352)) p.hdr.src) := rfl

theorem exec_csrRegisterWrite {s : State} {d : Nat} {a : RegAccess} (off : Nat) (v : Word) (hd : dieExists s d = true)
    (hhost : a.host = true → isKind s d .service = true) :
    exec (.csrRegisterWrite d off a v) s =
      if a.narrow then .next (scramble s d off) else csrWrite s d off v (if a.host then portSrc s d else ctlSrc s d) := by
  have hunit : (!dieExists s d || (a.host && !isKind s d .service)) = false := by
    cases hh : a.host with
    | false => simp [hd]
    | true => simp [hd, hhost hh]
  show execCsrRegisterWrite d off a v s = _
  simp [execCsrRegisterWrite, hunit]

/-- Settles O33: the packet reaches the control attachment's engine, and the write goes past every register that acts. -/
theorem registerCommandsComplete : Obligations.RegisterCommandsComplete := by
  refine ⟨?read, ?packetWrite, ?windowWrite, ?unpredictable⟩
  case read =>
    intro d p s h
    rw [exec_csrRead, ctlArrive_of_taken _ h]
  case packetWrite =>
    rintro d off p s s1 v h rfl rfl rfl hd haligned hrcsr hlisted hsyn hhem hpermit hfabric hhealth htailor
    have hreg : HoldsFields _ d _ _ _ := ⟨haligned, hrcsr, hlisted, hsyn, hhem, hpermit, hfabric, hhealth, htailor⟩
    rw [exec_csrWrite, ctlArrive_of_taken _ h, hreg.csrWrite_eq hd]
  case windowWrite =>
    intro d off host s v hd hhost haligned hrcsr hlisted hsyn hhem hpermit hfabric hhealth htailor
    have hreg : HoldsFields s d off v _ := ⟨haligned, hrcsr, hlisted, hsyn, hhem, hpermit, hfabric, hhealth, htailor⟩
    exact (exec_csrRegisterWrite off v hd hhost).trans (hreg.csrWrite_eq hd)
  case unpredictable =>
    intro d off host narrow s v hd hhost hbad
    rw [exec_csrRegisterWrite off v hd hhost]
    cases narrow with
    | true => rfl
    | false => exact csrWrite_misaligned v _ hd (hbad.resolve_left Bool.false_ne_true)

end Sys2Proof.Machine
end

section
/-! SUPPORT. PKG_STATE through the operations of a load, and STATE of the load port (R62, R578, R579, R602). -/

namespace Sys2Proof.Machine

theorem foldl_mode {β : Type} (f : State → β → State) (hf : ∀ s b, (f s b).mode = s.mode) (l : List β) (s : State) :
    (l.foldl f s).mode = s.mode := by
  induction l generalizing s with
  | nil => rfl
  | cons b l ih => exact (ih (f s b)).trans (hf s b)

@[simp] theorem irqAt_mode (s : State) (d b : Nat) : (irqAt s d b).mode = s.mode := by
  unfold irqAt
  split
  · rfl
  · dsimp only
    split
    all_goals exact State.raise_mode s d TLR_IRQ_STATUS b

@[simp] theorem irq_mode (s : State) (b : Nat) : (irq s b).mode = s.mode := irqAt_mode s s.headDie b

@[simp] theorem noteState_mode (s : State) (m : Mode) (ds : List Nat) : (noteState s m ds).mode = s.mode := by
  have hnote (s : State) (d : Nat) : (if (s.keeper d).lock then s.setFld d SLC_STATE 63 24 (s.now40 d) else s).mode = s.mode := by
    split
    · exact State.setFld_mode s d _ _ _ _
    · rfl
  unfold noteState
  dsimp only
  split
  all_goals rw [irq_mode, foldl_mode _ hnote]

@[simp] theorem enterMode_mode (s : State) (m : Mode) : (enterMode s m).mode = m := by
  unfold enterMode
  dsimp only
  split
  · rw [irq_mode, noteState_mode]
  · rw [noteState_mode]

@[simp] theorem setLoadState_mode (s : State) (st : Nat) : (setLoadState s st).mode = s.mode := by
  unfold setLoadState
  dsimp only
  split
  · rw [irq_mode, State.setFld_mode]
  · rw [State.setFld_mode]

@[simp] theorem coldTables_mode (s : State) : (coldTables s).mode = s.mode := rfl

@[simp] theorem loadFail_mode (s : State) (result sec : Nat) : (loadFail s result sec).mode = s.mode := by
  simp only [loadFail, setLoadState_mode, State.setFld_mode]
  split
  · exact coldTables_mode s
  · rfl

/-- STATE RECEIVING raises no interrupt, so the field write is all that is left of it. -/
theorem setLoadState_receiving (s : State) : setLoadState s 1 = s.setFld s.headDie PAT_LOAD_STATUS 3 0 1 := rfl

theorem loadState_receiving (s : State) : loadState (setLoadState s 1) = 1 := by
  rw [setLoadState_receiving, loadState, State.setFld_headDie]
  exact s.fld_setFld_same s.headDie PAT_LOAD_STATUS 3 0 1 (by decide) (by decide)

end Sys2Proof.Machine
end

section
/-! SUPPORT. The branch that each step of a load, a patch, the built-in tests and the training takes, and where its command
completes (R62, R578 to R591, R601, R606). -/

namespace Sys2Proof.Machine

/-! ## START, ABORT and the load port (R578, R579, R593, R606) -/

theorem loadStart_of_busy {s : State} (mode : Nat) (ok : Bool) (h : loadBusy s = true) :
    loadStart s mode ok = s.raise s.headDie PAT_LOAD_STATUS 4 :=
  if_pos h

/-- A START that is taken resets the loader and goes to RECEIVING; T is latched from PAT_PATCH_FT. -/
theorem loadStart_of_allowed {s : State} (mode : Nat) (h : loadBusy s = false) :
    loadState (loadStart s mode true) = 1 ∧ (loadStart s mode true).loader.mode = mode ∧
      (loadStart s mode true).loader.len = 0 ∧ (loadStart s mode true).loader.t = (s.reg s.headDie PAT_PATCH_FT).toNat := by
  simp only [loadStart, h, Bool.not_true, Bool.false_eq_true, if_false]
  exact ⟨loadState_receiving _, rfl, rfl, rfl⟩

theorem loadAbort_of_loading {s : State} (h : loadState s = 1 ∨ loadState s = 2) :
    loadAbort s = loadFail s 0x0F s.loader.sec := by
  have hloading : (loadState s == 1 || loadState s == 2) = true := by simpa only [Bool.or_eq_true, beq_iff_eq] using h
  exact if_pos hloading

/-- Nothing follows from a word that arrives before the header is complete. -/
theorem loadProgress_of_short {s : State} (h : s.loader.len < 128) : loadProgress s = .next s := by
  have hheader : (s.loader.len == 128) = false := beq_false_of_ne (by omega)
  have hafter : decide (128 < s.loader.len) = false := decide_eq_false (by omega)
  simp only [loadProgress, hheader, hafter, Bool.and_false, Bool.false_and, Bool.false_eq_true, if_false, bne_self_eq_false]

theorem loadWrite_of_short {s : State} (v : Word) (hst : loadState s = 1) (hlen : s.loader.len + 8 < 128) :
    loadWrite s v = .next (if Config.loadBuffer < 8 then loadFail s 0x04 s.loader.sec else
      { s with mem := writeWord s.mem (loadKey s s.loader.len) v, loader := { s.loader with len := s.loader.len + 8 } }) := by
  rw [loadWrite, if_neg (Bool.eq_false_iff.mp (bne_eq_false_iff_eq.mpr hst))]
  split
  · rfl
  · exact loadProgress_of_short hlen

/-! ## The end of a load (R578, R579) -/

theorem loadVerified_of_bad {s : State} (ok : Bool) (hst : loadState s = 2) (hmode : s.loader.mode = 0) (hr : verifyResult s ≠ 0) :
    loadVerified s ok = loadFail s (verifyResult s) 0 := by
  have hbad : (verifyResult s != 0) = true := bne_iff_ne.mpr hr
  simp only [loadVerified, hst, hmode, hbad, bne_self_eq_false, Bool.or_self, Bool.false_eq_true, if_false, if_true]

theorem loadVerified_false {s : State} (hst : loadState s = 2) (hmode : s.loader.mode = 0) :
    loadVerified s false = loadFail s (if verifyResult s = 0 then 0x09 else verifyResult s) 0 := by
  by_cases hr : verifyResult s = 0
  · simp only [loadVerified, hst, hmode, hr, bne_self_eq_false, Bool.or_self, Bool.not_false, Bool.false_eq_true, if_false, if_true]
  · rw [loadVerified_of_bad false hst hmode hr, if_neg hr]

theorem loadVerified_true_mode {s : State} (hst : loadState s = 2) (hmode : s.loader.mode = 0) :
    (loadVerified s true).mode = if verifyResult s = 0 then .test else s.mode := by
  by_cases hr : verifyResult s = 0
  · simp only [loadVerified, hst, hmode, hr, bne_self_eq_false, Bool.or_self, Bool.not_true, Bool.false_eq_true, if_false, if_true,
      enterMode_mode]
  · rw [loadVerified_of_bad true hst hmode hr, loadFail_mode, if_neg hr]

/-! ## Permits and the outcome of a patch (R588, R591) -/

theorem permitWrite_of_tailor {s : State} {d off : Nat} {src : BitVec 32} (v : Word) (hoff : permitOff off = true)
    (hsrc : src = ctlSrc s d ∨ src = ctlSrc s s.headDie) : permitWrite s d off src v = csrStore s d off v true := by
  have htaken : (permitOff off && (src == ctlSrc s d || src == ctlSrc s s.headDie)) = true := by
    simpa only [hoff, Bool.true_and, Bool.or_eq_true, beq_iff_eq] using hsrc
  exact if_pos htaken

theorem exec_permitWrite {s : State} {d off : Nat} {src : BitVec 32} (v : Word) (hd : dieExists s d = true)
    (hoff : permitOff off = true) (hsrc : src = ctlSrc s d ∨ src = ctlSrc s s.headDie) :
    exec (.permitWrite d off src v) s = .next (csrStore s d off v true) := by
  have hunit : (dieExists s d && permitOff off) = true := by simp only [hd, hoff, Bool.and_self]
  show onUnit (dieExists s d && permitOff off) (permitWrite s d off src v) = _
  rw [onUnit, if_pos hunit, permitWrite_of_tailor v hoff hsrc]

/-- A completion record that is there ends its patch, except for the restore patch of a partition in MEND. -/
theorem patchCompletion_of_outcome {s : State} {num o : Nat} {p : Patch}
    (hfind : s.patches.find? (fun p => p.num == num && p.st == 4) = some p) (hout : patchOutcome s p = some o) (hkind : p.kind ≠ 5) :
    patchCompletion s num = darnPatchEnded (patchEnd s p o (o == 0 || o == 2)) num o := by
  have hother : (p.kind == 5) = false := beq_false_of_ne hkind
  simp only [patchCompletion, hfind, hout, hother, Bool.false_and, Bool.false_eq_true, if_false]

theorem patchTPassed_of_due {s : State} {num : Nat} {p : Patch}
    (hfind : s.patches.find? (fun p => p.num == num && p.st == 5) = some p) (ht : p.t ≤ s.now s.headDie) :
    patchTPassed s num = patchEnd (patchRecord s p 1) p 0xFF true := by
  simp only [patchTPassed, hfind, if_neg (Nat.not_lt.mpr ht)]

theorem permitsWritten_of_held {s : State} {num : Nat} {p : Patch}
    (hfind : (sendPermits s num).patches.find? (fun p => p.num == num && p.st == 3) = some p)
    (hheld : permitsHeld (sendPermits s num) p = true) (hown : p.own = true) :
    permitsWritten s num = postPatch (sendPermits s num) p := by
  simp only [permitsWritten, hfind, hheld, hown, Bool.not_true, Bool.false_eq_true, if_false, if_true]

/-! ## The built-in tests (R62) -/

theorem testsDone_of_covered {s : State} {fails : List TestFail} (hmode : s.mode = .test)
    (h : fails.all (fun f => failCovered { s with testReport := some fails } fails f ||
      failIdle { s with testReport := some fails } f) = true) :
    testsDone s fails =
      (portDies (startSeams (enterMode (fails.foldl coverFail { s with testReport := some fails }) .train))).foldl
        (fun s d => portStart s d) (startSeams (enterMode (fails.foldl coverFail { s with testReport := some fails }) .train)) := by
  rw [testsDone, if_neg (Bool.eq_false_iff.mp (bne_eq_false_iff_eq.mpr hmode)), if_pos h]

theorem testsDone_of_uncovered {s : State} {fails : List TestFail} (hmode : s.mode = .test)
    (h : fails.all (fun f => failCovered { s with testReport := some fails } fails f ||
      failIdle { s with testReport := some fails } f) = false) :
    testsDone s fails = testFailed { s with testReport := some fails } := by
  rw [testsDone, if_neg (Bool.eq_false_iff.mp (bne_eq_false_iff_eq.mpr hmode)), if_neg (Bool.eq_false_iff.mp h)]

/-- Settles O54: each command is its step function, and the hypotheses choose the branch that the function takes. -/
theorem patternCommandsComplete : Obligations.PatternCommandsComplete := by
  refine ⟨⟨?startCold, ?startFit, ?abort, ?port, ?permit, ?completion, ?tPassed, ?permits, ?verify, ?area, ?patch, ?tests, ?train⟩,
    enterMode_mode, fun _ m ok h => loadStart_of_busy m ok h⟩
  case startCold =>
    intro s hidle hmode hhead
    obtain ⟨hst, hm, hlen, -⟩ := loadStart_of_allowed 0 hidle
    have hallowed : (s.mode == .cold && headRuns s) = true := by
      simp only [hmode, hhead, beq_self_eq_true, Bool.and_self]
    exact ⟨_, congrArg (fun ok => Host.Outcome.next (loadStart s 0 ok)) hallowed, hst, hm, hlen⟩
  case startFit =>
    intro s hidle hmode
    obtain ⟨hst1, hm1, -, ht1⟩ := loadStart_of_allowed 1 hidle
    obtain ⟨hst2, hm2, -, -⟩ := loadStart_of_allowed 2 hidle
    have hallowed : (s.mode == .fit || s.mode == .service) = true := by
      simpa only [Bool.or_eq_true, beq_iff_eq] using hmode
    exact ⟨⟨_, congrArg (fun ok => Host.Outcome.next (loadStart s 1 ok)) hallowed, hst1, hm1, ht1⟩,
      ⟨_, congrArg (fun ok => Host.Outcome.next (loadStart s 2 ok)) hallowed, hst2, hm2⟩⟩
  case abort => exact fun s h => congrArg Host.Outcome.next (loadAbort_of_loading h)
  case port => exact fun v s hst hlen => ⟨_, loadWrite_of_short v hst hlen, rfl⟩
  case permit => exact fun d off v s hd hoff => ⟨exec_permitWrite v hd hoff (.inl rfl), exec_permitWrite v hd hoff (.inr rfl)⟩
  case completion => exact fun num o s p hfind hout hkind => congrArg Host.Outcome.next (patchCompletion_of_outcome hfind hout hkind)
  case tPassed => exact fun num s p hfind ht => congrArg Host.Outcome.next (patchTPassed_of_due hfind ht)
  case permits =>
    rintro num s _ p rfl hfind hheld hown
    exact congrArg Host.Outcome.next (permitsWritten_of_held hfind hheld hown)
  case verify => exact fun s hst hmode => ⟨rfl, rfl, loadVerified_true_mode hst hmode, loadVerified_false hst hmode⟩
  case area => exact fun _ _ _ _ _ => rfl
  case patch => exact fun _ _ _ => rfl
  case tests =>
    rintro fails s _ _ hmode rfl rfl
    exact ⟨fun h => congrArg Host.Outcome.next (testsDone_of_covered hmode h), fun h => congrArg Host.Outcome.next (testsDone_of_uncovered hmode h)⟩
  case train => exact fun _ _ _ => rfl

end Sys2Proof.Machine
end

section
/-! SUPPORT. The header unit and its fields (R75, R77, R81, R122): packing and reading back, the bits of each field, and the header check
that an engine seals. -/

namespace Sys2Proof

theorem toNat_extractLsb'_eq_bitsOf {w : Nat} (x : BitVec w) (hi lo : Nat) :
    (x.extractLsb' lo (hi + 1 - lo)).toNat = bitsOf x hi lo := by
  rw [BitVec.extractLsb'_toNat, Nat.shiftRight_eq_div_pow, bitsOf]

theorem bitsOf_extractLsb' {w : Nat} (x : BitVec w) (start len : Nat) {hi lo : Nat} (h : hi < len) :
    bitsOf (x.extractLsb' start len) hi lo = bitsOf x (start + hi) (start + lo) := by
  refine Nat.eq_of_testBit_eq fun i => ?_
  rw [testBit_bitsOf, testBit_bitsOf, BitVec.getLsbD_extractLsb', ← Nat.add_assoc]
  by_cases hi' : i < hi + 1 - lo
  · simp [hi', show i < start + hi + 1 - (start + lo) by omega, show lo + i < len by omega]
  · simp [hi', show ¬ i < start + hi + 1 - (start + lo) by omega]

/-- The low bits of an append stay when only the upper part changes above them. -/
theorem append_toNat_mod_congr {n w k m : Nat} {x y : BitVec n} (z : BitVec w) (hm : k + w = m)
    (h : x.toNat % 2 ^ k = y.toNat % 2 ^ k) : (x ++ z).toNat % 2 ^ m = (y ++ z).toNat % 2 ^ m := by
  subst hm
  refine Nat.eq_of_testBit_eq fun i => ?_
  simp only [Nat.testBit_mod_two_pow, BitVec.testBit_toNat, BitVec.getLsbD_append]
  by_cases hi : i < w
  · simp [hi]
  · have hbit := congrArg (·.testBit (i - w)) h
    simpa [Nat.testBit_mod_two_pow, BitVec.testBit_toNat, hi, show i - w < k ↔ i < k + w by omega] using hbit

namespace Hdr

@[simp] theorem unpack_pack (h : Hdr) : unpack h.pack = h := by
  simp +decide only [unpack, pack, BitVec.extractLsb'_append_eq_of_le, BitVec.extractLsb'_append_eq_of_add_le,
    BitVec.extractLsb'_eq_self, Nat.reduceSub]

@[simp] theorem pack_unpack (u : DataUnit) : (unpack u).pack = u := by
  simp +decide only [unpack, pack, BitVec.extractLsb'_append_extractLsb'_eq_extractLsb']
  exact BitVec.extractLsb'_eq_self

/-- The fields of R75 stand at their bits of a header unit. -/
theorem bitsOf_eq_unpack (u : DataUnit) :
    bitsOf u 7 0 = (unpack u).cmd.toNat ∧ bitsOf u 10 8 = (unpack u).vc.toNat ∧ bitsOf u 16 11 = (unpack u).len.toNat ∧
    bitsOf u 23 17 = (unpack u).flags.toNat ∧ bitsOf u 31 24 = (unpack u).epoch.toNat ∧ bitsOf u 95 32 = (unpack u).dest.toNat ∧
    bitsOf u 127 96 = (unpack u).src.toNat ∧ bitsOf u 175 128 = (unpack u).routeLocal.toNat ∧
    bitsOf u 199 176 = (unpack u).routePkg.toNat ∧ bitsOf u 247 200 = (unpack u).routeDest.toNat ∧
    bitsOf u 263 248 = (unpack u).tag.toNat ∧ bitsOf u 279 264 = (unpack u).group.toNat ∧
    bitsOf u 303 280 = (unpack u).chunk.toNat ∧ bitsOf u 343 304 = (unpack u).ft40.toNat ∧
    bitsOf u 347 344 = (unpack u).fmt.toNat ∧ bitsOf u 351 348 = (unpack u).gen.toNat ∧
    bitsOf u 479 352 = (unpack u).inl.toNat ∧ bitsOf u 511 480 = (unpack u).hcrc.toNat := by
  refine ⟨?_, ?_, ?_, ?_, ?_, ?_, ?_, ?_, ?_, ?_, ?_, ?_, ?_, ?_, ?_, ?_, ?_, ?_⟩
  all_goals exact (toNat_extractLsb'_eq_bitsOf u _ _).symm

theorem bitsOf_pack_src (h : Hdr) {hi : Nat} (lo : Nat) (hhi : hi < 32) :
    bitsOf h.pack (96 + hi) (96 + lo) = bitsOf h.src hi lo := by
  rw [← bitsOf_extractLsb' h.pack 96 32 hhi]
  exact congrArg (fun g : Hdr => bitsOf g.src hi lo) h.unpack_pack

theorem bitsOf_pack_inl (h : Hdr) {hi : Nat} (lo : Nat) (hhi : hi < 128) :
    bitsOf h.pack (352 + hi) (352 + lo) = bitsOf h.inl hi lo := by
  rw [← bitsOf_extractLsb' h.pack 352 128 hhi]
  exact congrArg (fun g : Hdr => bitsOf g.inl hi lo) h.unpack_pack

theorem getLsbD_pack_flags (h : Hdr) {i : Nat} (hi : i < 7) : h.pack.getLsbD (17 + i) = h.flags.getLsbD i := by
  have hbit : (unpack h.pack).flags.getLsbD i = h.pack.getLsbD (17 + i) := by
    simp [unpack, hi]
  rw [← hbit, unpack_pack]

/-- HCRC stands above the 480 bits that it covers (R122). -/
theorem pack_mod_of_hcrc (h : Hdr) (c : BitVec 32) :
    ({ h with hcrc := c } : Hdr).pack.toNat % 2 ^ 480 = h.pack.toNat % 2 ^ 480 := by
  have hnone : c.toNat % 2 ^ 0 = h.hcrc.toNat % 2 ^ 0 := by rw [Nat.pow_zero, Nat.mod_one, Nat.mod_one]
  unfold pack
  iterate 17 refine append_toNat_mod_congr _ rfl ?_
  exact hnone

@[simp] theorem hcrc_seal (h : Hdr) : h.seal.hcrc = h.crc := rfl

theorem cmd_of_hcrc (h : Hdr) (c : BitVec 32) : ({ h with hcrc := c } : Hdr).cmd = h.cmd := rfl

theorem dest_of_hcrc (h : Hdr) (c : BitVec 32) : ({ h with hcrc := c } : Hdr).dest = h.dest := rfl

@[simp] theorem crc_seal (h : Hdr) : h.seal.crc = h.crc := congrArg (crc32c 480) (h.pack_mod_of_hcrc h.crc)

theorem crcOk_seal (h : Hdr) : h.seal.crcOk = true := by
  rw [crcOk, crc_seal]
  exact beq_self_eq_true h.crc

theorem crc_eq (h : Hdr) : h.crc = crc32c 480 (bitsOf h.pack 479 0) := by
  rw [crc, bitsOf, Nat.pow_zero, Nat.div_one]

end Hdr

end Sys2Proof

namespace Sys2Proof.Machine

/-- Settles O4: packing and reading back are inverse, and each field, or part of one, is an extract of the unit. -/
theorem headerPackUnpack : Obligations.HeaderPackUnpack := by
  refine ⟨⟨Hdr.unpack_pack, Hdr.pack_unpack⟩, fun h => ⟨?fields, ?flags, ?parts, ?hcrc⟩⟩
  case fields =>
    have hbits := Hdr.bitsOf_eq_unpack h.pack
    rwa [Hdr.unpack_pack] at hbits
  case flags =>
    refine ⟨?_, ?_, ?_, ?_, ?_, ?_, ?_⟩
    all_goals exact (h.getLsbD_pack_flags (by decide)).symm
  case parts =>
    exact ⟨h.bitsOf_pack_src 19 (hi := 31) (by decide), h.bitsOf_pack_src 12 (hi := 18) (by decide),
      h.bitsOf_pack_src 2 (hi := 11) (by decide), h.bitsOf_pack_src 0 (hi := 1) (by decide),
      h.bitsOf_pack_inl 0 (hi := 19) (by decide), h.bitsOf_pack_inl 20 (hi := 39) (by decide),
      h.bitsOf_pack_inl 64 (hi := 127) (by decide)⟩
  case hcrc =>
    have hbits := Hdr.bitsOf_eq_unpack h.seal.pack
    rw [Hdr.unpack_pack] at hbits
    obtain ⟨-, -, -, -, -, -, -, -, -, -, -, -, -, -, -, -, -, hhcrc⟩ := hbits
    rw [hhcrc, ← Hdr.crc_eq, Hdr.crc_seal, Hdr.hcrc_seal]

/-- Settles O5: the check covers the bits below HCRC alone, so sealing does not change what it expects (R122 to R124). -/
theorem sealedHeaderPasses : Obligations.SealedHeaderPasses := fun h => ⟨h.crcOk_seal, h.dest_of_hcrc h.crc, h.cmd_of_hcrc h.crc⟩

theorem inlBits_ackFor_status (h : Hdr) (src : BitVec 32) {n : Nat} (hn : n < 256) :
    (ackFor h src n 0).hdr.inlBits 359 352 = n := by
  have hinl : (BitVec.ofNat 128 (n % 256 + 0 * 256)).toNat = n := by
    rw [BitVec.toNat_ofNat]
    omega
  show bitsOf (BitVec.ofNat 128 (n % 256 + 0 * 256)) 7 0 = n
  rw [bitsOf, hinl]
  omega

theorem bitsOf_lt {w : Nat} (x : BitVec w) (hi lo : Nat) : bitsOf x hi lo < 2 ^ (hi + 1 - lo) :=
  Nat.mod_lt _ (Nat.two_pow_pos _)

/-- The sum that R82 forms fits in 64 bits. -/
theorem toNat_respDest (src : BitVec 32) :
    (respDest src).toNat =
      bitsOf src 1 0 + bitsOf src 11 2 * 2 ^ 34 + bitsOf src 18 12 * 2 ^ 44 + bitsOf src 31 19 * 2 ^ 51 := by
  have heng := bitsOf_lt src 1 0
  have htile := bitsOf_lt src 11 2
  have hdie := bitsOf_lt src 18 12
  have hpkg := bitsOf_lt src 31 19
  rw [respDest, BitVec.toNat_ofNat]
  omega

/-- The fields of the address that R82 forms from a request's SRC. -/
theorem bitsOf_respDest (src : BitVec 32) :
    bitsOf (respDest src) 63 51 = bitsOf src 31 19 ∧ bitsOf (respDest src) 50 44 = bitsOf src 18 12 ∧
    bitsOf (respDest src) 38 34 = bitsOf src 11 2 % 32 ∧ bitsOf (respDest src) 43 39 = bitsOf src 11 2 / 32 ∧
    bitsOf (respDest src) 33 0 = bitsOf src 1 0 := by
  have heng := bitsOf_lt src 1 0
  have htile := bitsOf_lt src 11 2
  have hdie := bitsOf_lt src 18 12
  have hpkg := bitsOf_lt src 31 19
  have hbits (hi lo : Nat) : bitsOf (respDest src) hi lo = (respDest src).toNat / 2 ^ lo % 2 ^ (hi + 1 - lo) := rfl
  simp only [hbits, toNat_respDest]
  omega

/-- Settles O21: the ACK's fields are those that `ackFor` writes, and the DEST's parts those of R82. -/
theorem writeAckAnswered : Obligations.WriteAckAnswered :=
  ⟨fun h src _ hn => ⟨rfl, rfl, rfl, rfl, inlBits_ackFor_status h src hn, rfl, rfl⟩, fun h => bitsOf_respDest h.src⟩

end Sys2Proof.Machine
end

section
/-! SUPPORT. A unit's bytes in memory (R18, R69, R70, R837). -/

namespace Sys2Proof

@[simp] theorem length_bytesOfNat (n x : Nat) : (bytesOfNat n x).length = n := by
  induction n generalizing x with
  | zero => rfl
  | succ n ih => rw [bytesOfNat, List.length_cons, ih]

theorem getElem_bytesOfNat (n x i : Nat) (h : i < (bytesOfNat n x).length) :
    (bytesOfNat n x)[i] = BitVec.ofNat 8 (x / 2 ^ (8 * i)) := by
  induction n generalizing x i with
  | zero => simp [bytesOfNat] at h
  | succ n ih =>
    cases i with
    | zero => simp [bytesOfNat]
    | succ i =>
      simp only [bytesOfNat, List.getElem_cons_succ]
      rw [ih, Nat.div_div_eq_div_mul, Nat.mul_succ, Nat.pow_add, Nat.mul_comm (2 ^ (8 * i))]

end Sys2Proof

namespace Sys2Proof.Machine

theorem putUnit_of_fits (m : List Host.Cell) (key : Nat → Nat) {limit off : Nat} (mask : Nat) (u : DataUnit) (h : off + 64 ≤ limit) :
    putUnit m key limit off mask u = writeMasked m (key off) (fun i => natBit mask i) (bytesOfNat 64 u.toNat) :=
  if_pos h

theorem putUnit_of_crosses (m : List Host.Cell) (key : Nat → Nat) {limit off : Nat} (mask : Nat) (u : DataUnit) (h : limit < off + 64) :
    putUnit m key limit off mask u = m :=
  if_neg (Nat.not_le_of_gt h)

theorem readByte_putUnit_inside (m : List Host.Cell) (key : Nat → Nat) {limit off i : Nat} (mask : Nat) (u : DataUnit)
    (h : off + 64 ≤ limit) (hi : i < 64) :
    readByte (putUnit m key limit off mask u) (key off + i) = if natBit mask i then byteOf u i else readByte m (key off + i) := by
  have hlen : i < (bytesOfNat 64 u.toNat).length := by rwa [length_bytesOfNat]
  rw [putUnit_of_fits _ _ _ _ h, readByte_writeMasked_inside _ _ _ _ _ hlen, getElem_bytesOfNat, byteOf]

/-- Settles O7: inside the memory a unit is a masked write of its 64 bytes, across the end it is none. -/
theorem unitWriteReadsBack : Obligations.UnitWriteReadsBack :=
  ⟨fun m key limit off mask u h =>
    ⟨fun _ hi => readByte_putUnit_inside m key mask u h hi, fun x hx => readByte_putUnit_outside m key limit off mask x u hx⟩,
    fun m key _ _ mask u h => putUnit_of_crosses m key mask u h⟩

end Sys2Proof.Machine
end

section
/-! SUPPORT. What the arrival of a packet leaves as it was besides its own effect: counters, traces and queues are all that observation
changes (R200, R648, R723 to R736). -/

namespace Sys2Proof.Machine

/-- No arrival counts in the register at offset `c`: it lies outside the NI windows and below the health and observation blocks. -/
def uncounted (c : Nat) : Prop := c < 0x80000 ∨ (0x90000 ≤ c ∧ c < 0x160000)

/-- `t` has the memory, the floor, the shapers and the register at offset `c` of die `d` that `s` has. -/
structure Frame (d c : Nat) (s t : State) : Prop where
  mem : t.mem = s.mem
  floor : t.floor = s.floor
  shapers : t.shapers = s.shapers
  reg : t.reg d c = s.reg d c

theorem kindOf_of_floor {s t : State} (h : t.floor = s.floor) (d : Nat) : kindOf t d = kindOf s d := by
  simp only [kindOf, dieInfo, h]

theorem isKind_of_floor {s t : State} (h : t.floor = s.floor) (d : Nat) (k : Kind) : isKind t d k = isKind s d k := by
  rw [isKind, isKind, kindOf_of_floor h]

theorem reg_of_csr {s t : State} (hf : t.floor = s.floor) (hc : t.csr = s.csr) (d off : Nat) : t.reg d off = s.reg d off := by
  simp only [State.reg, csrReset, kindOf_of_floor hf, hc]

theorem reg_bump_other (s : State) (d hi lo n : Nat) {off c : Nat} (h : c ≠ off) : (s.bump d off hi lo n).reg d c = s.reg d c := by
  have hkey : ck d c ≠ ck d off := fun e => h (Nat.add_left_cancel e)
  unfold State.bump
  split
  · rfl
  · exact s.reg_setReg_other d off d c _ hkey

/-- A register of the health or observation blocks, or of a window in them, is not an uncounted one. -/
theorem ne_add_of_uncounted {c off : Nat} (hc : uncounted c) (h : 0x160000 ≤ off) (n : Nat) : c ≠ off + n := by
  unfold uncounted at hc
  omega

theorem ne_niw_of_uncounted {c off t : Nat} (hc : uncounted c) (ht : t < 624) (hlo : 0x80000 ≤ off) (hhi : off < 0x80040) :
    c ≠ niw t off := by
  unfold uncounted at hc
  unfold niw
  omega

namespace Frame

variable {d c : Nat} {s t u : State}

theorem refl : Frame d c s s := ⟨rfl, rfl, rfl, rfl⟩

theorem trans (h : Frame d c s t) (h' : Frame d c t u) : Frame d c s u :=
  ⟨h'.mem.trans h.mem, h'.floor.trans h.floor, h'.shapers.trans h.shapers, h'.reg.trans h.reg⟩

theorem of_csr (hmem : t.mem = s.mem) (hfloor : t.floor = s.floor) (hshapers : t.shapers = s.shapers) (hcsr : t.csr = s.csr) :
    Frame d c s t :=
  ⟨hmem, hfloor, hshapers, reg_of_csr hfloor hcsr d c⟩

theorem bump (s : State) (hi lo n : Nat) {off : Nat} (h : c ≠ off) : Frame d c s (s.bump d off hi lo n) :=
  ⟨s.bump_mem d off hi lo n, s.bump_floor d off hi lo n, s.bump_shapers d off hi lo n, reg_bump_other s d hi lo n h⟩

theorem foldl {β : Type} {f : State → β → State} (hf : ∀ s b, Frame d c s (f s b)) (l : List β) (s : State) :
    Frame d c s (l.foldl f s) :=
  List.foldlRecOn l f refl (fun _ h b _ => h.trans (hf _ b))

theorem flag (h : Frame d c s t) (b : Nat) : t.flag d c b = s.flag d c b := by
  rw [State.flag, State.flag, State.fld, State.fld, h.reg]

theorem shp (h : Frame d c s t) (k v : Nat) : t.shp d k v = s.shp d k v := by
  rw [State.shp, State.shp, h.shapers]

theorem sendAt (s : State) (att : Nat) (p : Packet) : Frame d c s (sendAt s d att p) :=
  of_csr rfl rfl rfl rfl

section
variable (hc : uncounted c)
include hc

theorem takeSeq (s : State) : Frame d c s (takeSeq s d).2 :=
  bump s 63 32 1 (ne_add_of_uncounted hc (by decide : 0x160000 ≤ OBS_TRACE_STATUS) 0)

theorem traceRec (s : State) (ty : Nat) (stretch : Bool) (body : List Nat) : Frame d c s (traceRec s d ty stretch body) := by
  have hdrop (s : State) : Frame d c s (s.bump d OBS_TRACE_DROP 63 32 1) :=
    bump s 63 32 1 (ne_add_of_uncounted hc (by decide : 0x160000 ≤ OBS_TRACE_DROP) 0)
  have htraces (s : State) (x : Tbl TraceUnit) : Frame d c s { s with traces := x } := of_csr rfl rfl rfl rfl
  unfold Machine.traceRec
  split
  · exact refl
  · extract_lets t hdr pad
    split
    rename_i t1 s1 hloss
    have hs1 : Frame d c s s1 := by
      split at hloss
      · obtain ⟨-, rfl⟩ := Prod.mk.inj hloss
        exact refl
      · dsimp only at hloss
        split at hloss
        all_goals obtain ⟨-, rfl⟩ := Prod.mk.inj hloss
        · exact takeSeq hc s
        · exact refl
    have hs2 := hs1.trans (takeSeq hc s1)
    dsimp only
    split
    · exact hs2.trans (htraces _ _)
    · exact (hs2.trans (hdrop _)).trans (htraces _ _)

theorem probeOne (s : State) (n point index port colour : Nat) (h : Hdr) : Frame d c s (probeOne s d n point index port colour h) := by
  have hpkts (s : State) : Frame d c s (s.bump d (prw n OBS_PRB_PKTS_0) 47 0 1) :=
    bump s 47 0 1 (ne_add_of_uncounted hc (by decide : 0x160000 ≤ OBS_PRB_PKTS_0) _)
  have hunits (s : State) : Frame d c s (s.bump d (prw n OBS_PRB_UNITS_0) 47 0 (1 + h.len.toNat)) :=
    bump s 47 0 _ (ne_add_of_uncounted hc (by decide : 0x160000 ≤ OBS_PRB_UNITS_0) _)
  unfold Machine.probeOne
  extract_lets cfg k m0 m1 here hit cnt s1 s2 q1
  have hs1 : Frame d c s s1 := of_csr rfl rfl rfl rfl
  have hs2 : Frame d c s s2 := by
    unfold s2
    split
    · exact (hs1.trans (hpkts _)).trans (hunits _)
    · exact hs1
  split
  · exact refl
  · split
    · split
      · exact hs2.trans (traceRec hc _ _ _ _)
      · exact hs2.trans (traceRec hc _ _ _ _)
    · exact hs2

theorem probeEval (s : State) (point index port colour : Nat) (h : Hdr) : Frame d c s (probeEval s d point index port colour h) := by
  unfold Machine.probeEval
  split
  · exact foldl (fun s n => probeOne hc s n point index port colour h) _ s
  · exact refl

theorem statUpdate (s : State) (m : Mode) (h : Hdr) : Frame d c s (statUpdate s d m h) := by
  unfold Machine.statUpdate
  split
  · extract_lets e now lat t t' s1
    have hs1 : Frame d c s s1 := of_csr rfl rfl rfl rfl
    split
    · exact hs1.trans (bump s1 63 32 1 (ne_add_of_uncounted hc (by decide : 0x160000 ≤ OBS_STAT_CFG) 0))
    · exact hs1
  · exact refl

end
end Frame

/-- The NI windows of a die without tiles are those of its routers (R42). -/
theorem attPort_window_lt {s : State} {d att : Nat} {r : Nat × Nat × Nat} (hk : isKind s d .compute = false)
    (h : attPort s d att = some r) : r.2.2 < 624 := by
  unfold attPort at h
  split at h
  next hcompute => simp [isKind, hcompute] at hk
  next =>
    split at h
    next hce =>
      obtain rfl := Option.some.inj h
      simp only [Bool.and_eq_true, decide_eq_true_eq] at hce
      show 3 + 6 * (att - 1024) < 624
      omega
    next =>
      split at h
      · cases h
        decide
      · split at h
        all_goals cases h
        decide
  next =>
    split at h
    · cases h
      decide
    · split at h
      all_goals cases h
      decide
  next =>
    split at h
    all_goals cases h
    decide
  next => cases h

theorem arrivalNi_lt {s : State} {d att t : Nat} (h : arrivalNi s d att = some t) : t < 624 := by
  unfold arrivalNi at h
  split at h
  · split at h
    all_goals cases h
    assumption
  · next hk =>
    split at h
    · cases h
    · obtain ⟨r, hr, rfl⟩ := Option.map_eq_some_iff.mp h
      exact attPort_window_lt (Bool.eq_false_iff.mpr hk) hr

namespace Frame

variable {d c : Nat}

theorem offWire (s : State) (att : Nat) (p : Packet) : Frame d c s (offWire s d att p) := by
  unfold Machine.offWire
  split
  · exact refl
  · dsimp only
    split
    · exact refl
    · split
      · exact refl
      · split
        · exact of_csr rfl rfl rfl rfl
        · exact refl

theorem takeArrival (hc : uncounted c) (s : State) (att : Nat) (p : Packet) : Frame d c s (takeArrival s d att p) := by
  have hoff : Frame d c s (Machine.offWire s d att p) := offWire s att p
  unfold Machine.takeArrival
  dsimp only
  split
  · next t ht =>
    split
    · exact hoff
    · exact hoff.trans (bump _ 47 0 1 (ne_niw_of_uncounted hc (arrivalNi_lt ht) (by decide) (by decide)))
  · exact hoff

end Frame

end Sys2Proof.Machine
end

section
/-! SUPPORT. A packet that a tile, a memory port, a CE or the control attachment takes, and what becomes of memory there (R66, R69, R70,
R153, R808, R815, R838, R839). -/

namespace Sys2Proof.Machine

/-! ## Where a taken packet goes (R68, R118, R838) -/

theorem arrive_of_taken {s : State} {d att cmd : Nat} {p : Packet} (act : State → State) (h : taken s d att cmd p = true) :
    arrive s d att cmd p act = .next (act (takeArrival s d att p)) :=
  arriveAt_of_taken _ h

theorem cmd_of_taken {s : State} {d att cmd : Nat} {p : Packet} (h : taken s d att cmd p = true) : p.hdr.cmd.toNat = cmd := by
  simp only [taken, Bool.and_eq_true, beq_iff_eq] at h
  obtain ⟨⟨⟨⟨⟨⟨_, hcmd⟩, _⟩, _⟩, _⟩, _⟩, _⟩ := h
  exact hcmd

theorem nodeArrive_tile {s : State} {d p cmd : Nat} {pk : Packet} (other : Out) (ht : isTile s d p = true)
    (h : taken s d p cmd pk = true) : nodeArrive s d p cmd pk other = .next (tileArrive (takeArrival s d p pk) d p pk) := by
  rw [nodeArrive, headerChecked_of_taken _ h, if_pos ht, arrive_of_taken _ h]

theorem isTile_of_kind_ne {s : State} {d : Nat} {k : Kind} (hk : isKind s d k = true) (hne : k ≠ .compute) (p : Nat) :
    isTile s d p = false := by
  have hkind : kindOf s d = some k := beq_iff_eq.mp hk
  simp [isTile, isKind, hkind, hne]

theorem nodeArrive_mem {s : State} {d cmd : Nat} {p : Packet} (other : Out) (hk : isKind s d .memif = true) (hacts : mpActs cmd = true)
    (h : taken s d attMem cmd p = true) : nodeArrive s d attMem cmd p other = .next (mpArrive (takeArrival s d attMem p) d p) := by
  have hnot : ¬ isTile s d attMem = true := by simp [isTile_of_kind_ne hk]
  have hmem : isMemAtt s d attMem = true := by simp [isMemAtt, hk]
  rw [nodeArrive, headerChecked_of_taken _ h, if_neg hnot, if_pos hmem, if_pos hacts, arrive_of_taken _ h]

theorem ceExists_lt {s : State} {d k : Nat} (h : ceExists s d k = true) : k < 8 := by
  unfold ceExists at h
  split at h
  next kd _ =>
    have hces : kd.ces ≤ 8 := by cases kd <;> decide
    exact Nat.lt_of_lt_of_le (of_decide_eq_true h) hces
  next => cases h

theorem nodeArrive_ce {s : State} {d k cmd : Nat} {p : Packet} (other : Out) (hce : ceExists s d k = true)
    (h : taken s d (attCe k) cmd p = true) : nodeArrive s d (attCe k) cmd p other = other := by
  have hk := ceExists_lt hce
  have htile : ¬ isTile s d (attCe k) = true := by
    intro ht
    have hlt := of_decide_eq_true (Bool.and_eq_true_iff.mp ht).2
    unfold attCe at hlt
    omega
  have hmem : ¬ isMemAtt s d (attCe k) = true := by
    intro hm
    have heq := beq_iff_eq.mp (Bool.and_eq_true_iff.mp hm).2
    unfold attCe attMem at heq
    omega
  rw [nodeArrive, headerChecked_of_taken _ h, if_neg htile, if_neg hmem]

theorem exec_write (d att : Nat) (p : Packet) (s : State) : exec (.write d att p) s = accessArrive s d att 0x01 p := rfl

theorem exec_writeAck (d att : Nat) (p : Packet) (s : State) : exec (.writeAck d att p) s = accessArrive s d att 0x02 p := rfl

theorem exec_write8 (d att : Nat) (p : Packet) (s : State) : exec (.write8 d att p) s = accessArrive s d att 0x03 p := rfl

theorem exec_read (d att : Nat) (p : Packet) (s : State) : exec (.read d att p) s = accessArrive s d att 0x04 p := rfl

theorem accessArrive_tile {s : State} {d p cmd : Nat} {pk : Packet} (ht : isTile s d p = true) (h : taken s d p cmd pk = true) :
    accessArrive s d p cmd pk = .next (tileArrive (takeArrival s d p pk) d p pk) :=
  nodeArrive_tile _ ht h

theorem accessArrive_staging {s : State} {d k cmd : Nat} {p : Packet} (hce : ceExists s d k = true)
    (htop : natBit p.hdr.destOff 33 = true) (hshares : sharesBad (takeArrival s d (attCe k) p) d = false)
    (h : taken s d (attCe k) cmd p = true) :
    accessArrive s d (attCe k) cmd p = .next (stageIngress (takeArrival s d (attCe k) p) d k p) := by
  have hatt : (isCeAtt s d (attCe k) && offTop p.hdr) = true := by simp [isCeAtt, attCe, offTop, hce, htop]
  have hk : attCe k - 1024 = k := Nat.add_sub_cancel_left 1024 k
  rw [accessArrive, nodeArrive_ce _ hce h, if_pos hatt, arriveAt_of_taken _ h, hk, if_neg (Bool.eq_false_iff.mp hshares)]

/-! ## Memory at a memory port (R815, R837, R838) -/

@[simp] theorem mpPump_mem (s : State) (d : Nat) : (mpPump s d).mem = s.mem := by
  unfold mpPump
  split
  · rfl
  · exact s.setMp_mem d _

@[simp] theorem statUpdate_mem (s : State) (d : Nat) (m : Mode) (h : Hdr) : (statUpdate s d m h).mem = s.mem :=
  (Frame.statUpdate (c := 0) (.inl (by decide)) s m h).mem

@[simp] theorem takeArrival_mem (s : State) (d att : Nat) (p : Packet) : (takeArrival s d att p).mem = s.mem :=
  (Frame.takeArrival (c := 0) (.inl (by decide)) s att p).mem

theorem mpArrive_packet_mem {p : Packet} (s : State) (d : Nat) (h : p.hdr.cmd.toNat = 0x01 ∨ p.hdr.cmd.toNat = 0x02) :
    (mpArrive s d p).mem = putPacket s.mem (dramKey d) dramBytes p.hdr.destOff p := by
  rcases h with h | h
  all_goals simp [mpArrive, h]

theorem mpArrive_inline_mem {p : Packet} (s : State) (d : Nat) (h : p.hdr.cmd.toNat = 0x03) :
    (mpArrive s d p).mem = putInline s.mem (dramKey d) dramBytes p.hdr.destOff p.hdr := by
  simp [mpArrive, h]

theorem mpArrive_read_mem {p : Packet} (s : State) (d : Nat) (h : p.hdr.cmd.toNat = 0x04) : (mpArrive s d p).mem = s.mem := by
  simp [mpArrive, h]

/-! ## Memory at a CE's staging (R432, R839) -/

@[simp] theorem drawUnits_mem (s : State) (n : Nat) : (drawUnits s n).2.mem = s.mem := by
  induction n generalizing s with
  | zero => rfl
  | succ n ih => exact ih _

theorem foldl_snd_mem {α β : Type} (f : α × State → β → α × State) (hf : ∀ r b, (f r b).2.mem = r.2.mem) (l : List β) (r : α × State) :
    (l.foldl f r).2.mem = r.2.mem :=
  List.foldlRecOn (motive := fun q => q.2.mem = r.2.mem) l f rfl fun q h b _ => (hf q b).trans h

@[simp] theorem setOp_mem (s : State) (i : OpId) (o : CeOp) : (s.setOp i o).mem = s.mem := rfl

@[simp] theorem spoilOp_mem (s : State) (i : OpId) : (spoilOp s i).mem = s.mem := by
  unfold spoilOp
  split
  · rfl
  · next o _ =>
    extract_lets v f g
    have hv : v.2.mem = s.mem := foldl_snd_mem _ (by intro r _; exact drawUnits_mem r.2 _) _ _
    have hf : f.2.mem = v.2.mem := foldl_snd_mem _ (by intro r _; exact drawUnits_mem r.2 _) _ _
    have hg : g.2.mem = f.2.mem := foldl_snd_mem _ (by intro r _; exact drawUnits_mem r.2 _) _ _
    exact hg.trans (hf.trans hv)

@[simp] theorem stageTouched_mem (s : State) (d k : Nat) : (stageTouched s d k).mem = s.mem := by
  refine foldl_mem _ (fun s n => foldl_mem _ (fun s o => ?_) _ s) _ s
  split
  · rfl
  · dsimp only
    split
    · exact spoilOp_mem _ _
    · rfl

@[simp] theorem getUnits_mem (s : State) (key : Nat → Nat) (limit off n : Nat) : (getUnits s key limit off n).2.mem = s.mem := by
  induction n generalizing s off with
  | zero => rfl
  | succ n ih =>
    unfold getUnits
    split
    · exact ih s _
    · exact ih _ _

theorem stageAccess_packet_mem {p : Packet} (s : State) (d k : Nat) (h : p.hdr.cmd.toNat = 0x01 ∨ p.hdr.cmd.toNat = 0x02) :
    (stageAccess s d k p).mem = putPacket s.mem (stageAt s d k) (stageSize s d k) (p.hdr.destOff % 2 ^ 26) p := by
  rcases h with h | h
  all_goals simp [stageAccess, h, sendAt]

theorem stageAccess_inline_mem {p : Packet} (s : State) (d k : Nat) (h : p.hdr.cmd.toNat = 0x03) :
    (stageAccess s d k p).mem = putInline s.mem (stageAt s d k) (stageSize s d k) (p.hdr.destOff % 2 ^ 26) p.hdr := by
  simp [stageAccess, h]

theorem stageAccess_read_mem {p : Packet} (s : State) (d k : Nat) (h : p.hdr.cmd.toNat = 0x04) : (stageAccess s d k p).mem = s.mem := by
  simp [stageAccess, h, sendAt]

theorem meterPass_unmetered {s : State} {d g v : Nat} (len : Nat) (h : (s.shp d g v).mcfg.getLsbD 0 = false) :
    meterPass s d g v len = (0, false, s) := by
  have hoff : (v == 0 || !(s.shp d g v).mcfg.getLsbD 0) = true := by rw [h, Bool.not_false, Bool.or_true]
  exact if_pos hoff

theorem ceIngress_unmetered {s : State} {d k : Nat} {h : Hdr}
    (hm : ((statUpdate s d (partState s d) h).shp d k h.vc.toNat).mcfg.getLsbD 0 = false) :
    ceIngress s d k h = some (probeEval (statUpdate s d (partState s d) h) d 5 k 0 0 h) := by
  rw [ceIngress, meterPass_unmetered _ hm]
  rfl

theorem uncounted_stageCfg {k : Nat} (hk : k < 8) : uncounted (cew k CE_STAGE_CFG) :=
  .inr ⟨Nat.le_trans (by decide) (Nat.le_add_right _ _), by show 0xC0008 + 0x1000 * k < 0x160000; omega⟩

theorem stageAt_of_frame {s t : State} {d k : Nat} (h : Frame d (cew k CE_STAGE_CFG) s t) : stageAt t d k = stageAt s d k := by
  funext off
  rw [stageAt, stageAt, isKind_of_floor h.floor, State.fld, State.fld, h.reg]

theorem stageSize_of_frame {s t : State} {d k : Nat} (h : Frame d (cew k CE_STAGE_CFG) s t) : stageSize t d k = stageSize s d k := by
  rw [stageSize, stageSize, isKind_of_floor h.floor, State.fld, State.fld, h.reg]

/-- An unmetered access is made in a state whose memory and staging are as they were before the packet arrived. -/
theorem stageIngress_unmetered {s : State} {d k : Nat} {p : Packet} (hce : ceExists s d k = true)
    (hm : (s.shp d k p.hdr.vc.toNat).mcfg.getLsbD 0 = false) :
    ∃ u, stageIngress (takeArrival s d (attCe k) p) d k p = stageAccess u d k p ∧ Frame d (cew k CE_STAGE_CFG) s u := by
  have hc := uncounted_stageCfg (ceExists_lt hce)
  have harrived := Frame.takeArrival (d := d) hc s (attCe k) p
  have hcounted := harrived.trans (Frame.statUpdate hc (takeArrival s d (attCe k) p) (partState (takeArrival s d (attCe k) p) d) p.hdr)
  refine ⟨_, ?_, hcounted.trans (Frame.probeEval hc _ 5 k 0 0 p.hdr)⟩
  rw [stageIngress, ceIngress_unmetered (by rwa [hcounted.shp])]

end Sys2Proof.Machine
end

section
/-! SUPPORT. A dense WRITE at a tile, unit by unit, and its twin copies (R69, R70, R648, R649, R808). -/

namespace Sys2Proof.Machine

namespace Frame

variable {d c : Nat} (hc : uncounted c)
include hc

theorem twinUnit (s : State) (p off mask : Nat) (u : DataUnit) : Frame d c s (twinUnit s d p off mask u) := by
  unfold Machine.twinUnit
  split
  · split
    · exact (sendAt s p _).trans (bump _ 31 0 1 (ne_add_of_uncounted hc (by decide : 0x160000 ≤ HLT_TWIN_CNT_0) _))
    · exact refl
  · exact refl

theorem twinRecv (s : State) (p : Nat) (h : Hdr) : Frame d c s (twinRecv s d p h) := by
  unfold Machine.twinRecv
  split
  · dsimp only
    split
    · split
      · exact bump s 63 32 1 (ne_add_of_uncounted hc (by decide : 0x160000 ≤ HLT_TWIN_CNT_0) _)
      · exact refl
    · exact refl
  · exact refl

theorem tileBegin (s : State) {p : Nat} (hp : p < 624) (h : Hdr) : Frame d c s (tileBegin s d p h) := by
  have hcount (s : State) {off : Nat} (hlo : 0x80000 ≤ off) (hhi : off < 0x80040) : Frame d c s (s.bump d (niw p off) 47 0 1) :=
    bump s 47 0 1 (ne_niw_of_uncounted hc hp hlo hhi)
  unfold Machine.tileBegin
  extract_lets s1
  have hs1 : Frame d c s s1 := by
    unfold s1
    split
    · exact hcount s (by decide) (by decide)
    · exact refl
  exact ((hs1.trans (hcount s1 (by decide) (by decide))).trans (statUpdate hc _ _ h)).trans (probeEval hc _ 3 p 0 0 h)

end Frame

theorem isTile_lt {s : State} {d p : Nat} (h : isTile s d p = true) : p < 624 :=
  of_decide_eq_true (Bool.and_eq_true_iff.mp h).2

theorem isTile_compute {s : State} {d p : Nat} (h : isTile s d p = true) : isKind s d .compute = true :=
  (Bool.and_eq_true_iff.mp h).1

/-- A tile's NI counts a packet when it begins to deliver it, so its arrival leaves the state as it was (R200). -/
theorem takeArrival_tile {s : State} {d p : Nat} (pk : Packet) (h : isTile s d p = true) : takeArrival s d p pk = s := by
  have hkind := isTile_compute h
  have hp := isTile_lt h
  have hport : sinkPort s d p = some (p, portLocal) := by
    simp [sinkPort, attPort, beq_iff_eq.mp hkind, hp]
  have hwire : offWire s d p pk = s := by
    simp [offWire, hport, hkind]
  have hni : arrivalNi s d p = some p := by
    simp [arrivalNi, hkind, hp]
  rw [takeArrival, hwire]
  simp [hni, hkind]

theorem tileArrive_free {s : State} {d p : Nat} {pk : Packet} (hej : (s.ni d p).ej.get [] pk.hdr.vc.toNat = [])
    (hcur : (s.ni d p).cur.get none pk.hdr.vc.toNat = none) (hgen : genHeld s d p pk.hdr = false) (hreset : tileInReset s d = false)
    (hen : s.flag d (niw p NI_CFG) 0 = true) : tileArrive s d p pk = tileWhole s d p pk := by
  simp [tileArrive, hej, hcur, hgen, hreset, hen]

theorem tileUnit_interleaved {s : State} {d : Nat} (p : Nat) (h : Hdr) (off mask : Nat) (u : DataUnit)
    (hmode : s.flag d SLC_MODE 0 = false) :
    Frame d SLC_MODE { s with mem := putUnit s.mem (scratchKey d p) scratchBytes off mask u } (tileUnit s d p h off mask u) := by
  have hgranule : offGranule s d h off = false := by simp [offGranule, hmode]
  unfold tileUnit
  rw [hgranule]
  dsimp only
  split
  · exact Frame.twinUnit (.inl (by decide)) _ p off mask u
  · exact Frame.refl

theorem tileData_dense {h : Hdr} (s : State) (d p : Nat) (got : List DataUnit) (u : DataUnit) (hcmd : h.cmd.toNat = 0x01)
    (hsparse : h.sparse = false) :
    tileData s d p h got u = tileUnit s d p h (h.destOff % 2 ^ 20 / 64 * 64 + 64 * got.length) (byteMask h) u := by
  have hwrite : (!isTileWrite h.cmd.toNat) = false := by rw [hcmd]; rfl
  simp [tileData, hwrite, hsparse]

/-- Delivering the units of a dense WRITE puts them one after another behind those already delivered. -/
theorem tileData_foldl_mem {h : Hdr} {d p : Nat} (hcmd : h.cmd.toNat = 0x01) (hsparse : h.sparse = false) (us : List DataUnit)
    {s : State} (got : List DataUnit) (hmode : s.flag d SLC_MODE 0 = false) :
    (us.foldl (fun (a : State × List DataUnit) u => (tileData a.1 d p h a.2 u, a.2 ++ [u])) (s, got)).1.mem =
      putUnits s.mem (scratchKey d p) scratchBytes (h.destOff % 2 ^ 20 / 64 * 64 + 64 * got.length) (byteMask h) us := by
  induction us generalizing s got with
  | nil => rfl
  | cons u us ih =>
    have hunit := tileUnit_interleaved p h (h.destOff % 2 ^ 20 / 64 * 64 + 64 * got.length) (byteMask h) u hmode
    have hnext : h.destOff % 2 ^ 20 / 64 * 64 + 64 * (got ++ [u]).length = h.destOff % 2 ^ 20 / 64 * 64 + 64 * got.length + 64 := by
      rw [List.length_append, List.length_singleton]
      omega
    rw [← tileData_dense s d p got u hcmd hsparse] at hunit
    rw [List.foldl_cons, ih _ ((hunit.flag 0).trans hmode), hunit.mem, hnext]
    rfl

theorem tileDone_write_mem {pk : Packet} (s : State) (d p : Nat) (h : pk.hdr.cmd.toNat = 0x01) : (tileDone s d p pk).mem = s.mem := by
  have hdone : tileDone s d p pk = twinRecv s d p pk.hdr := by simp [tileDone, h]
  rw [hdone, (Frame.twinRecv (c := SLC_MODE) (.inl (by decide)) s p pk.hdr).mem]

theorem tileWhole_write_mem {s : State} {d p : Nat} {pk : Packet} (hp : p < 624) (hcmd : pk.hdr.cmd.toNat = 0x01)
    (hsparse : pk.hdr.sparse = false) (hmode : s.flag d SLC_MODE 0 = false) :
    (tileWhole s d p pk).mem =
      putUnits s.mem (scratchKey d p) scratchBytes (pk.hdr.destOff % 2 ^ 20 / 64 * 64) (byteMask pk.hdr) pk.data := by
  have hbegin := Frame.tileBegin (c := SLC_MODE) (.inl (by decide)) s hp pk.hdr (d := d)
  rw [tileWhole, tileDone_write_mem _ _ _ hcmd, tileData_foldl_mem hcmd hsparse _ _ ((hbegin.flag 0).trans hmode), hbegin.mem]
  rfl

/-- Settles O20: the packet is delivered at once, and only the puts of its units change memory. -/
theorem tileWriteLandsInScratchpad : Obligations.TileWriteLandsInScratchpad := by
  intro d p pk s t htile htaken hsparse hej hcur hgen hreset hen hmode ht
  rw [exec_write, accessArrive_tile htile htaken, takeArrival_tile pk htile, tileArrive_free hej hcur hgen hreset hen] at ht
  cases ht
  exact tileWhole_write_mem (isTile_lt htile) (cmd_of_taken htaken) hsparse hmode

/-- Settles O19: at each place the packet reaches its engine, and the frame of what comes before the access leaves the address and the
memory that the access works on. -/
theorem accessesComplete : Obligations.AccessesComplete := by
  refine ⟨?tile, ?port, ?staging⟩
  case tile =>
    intro d p pk s htile
    exact ⟨fun h => accessArrive_tile htile h, fun h => accessArrive_tile htile h, fun h => accessArrive_tile htile h,
      fun h => accessArrive_tile htile h⟩
  case port =>
    intro d pk s hmem
    refine ⟨fun h => ⟨_, nodeArrive_mem _ hmem rfl h, ?_⟩, fun h => ⟨_, nodeArrive_mem _ hmem rfl h, ?_⟩,
      fun h => ⟨_, nodeArrive_mem _ hmem rfl h, ?_⟩, fun h => ⟨_, nodeArrive_mem _ hmem rfl h, ?_⟩⟩
    · rw [mpArrive_packet_mem _ d (.inl (cmd_of_taken h)), takeArrival_mem]
    · rw [mpArrive_packet_mem _ d (.inr (cmd_of_taken h)), takeArrival_mem]
    · rw [mpArrive_inline_mem _ d (cmd_of_taken h), takeArrival_mem]
    · rw [mpArrive_read_mem _ d (cmd_of_taken h), takeArrival_mem]
  case staging =>
    intro d k pk s hce htop hmeter hshares
    obtain ⟨u, haccess, hframe⟩ := stageIngress_unmetered (p := pk) hce hmeter
    have hexec {cmd : Nat} (h : taken s d (attCe k) cmd pk = true) : accessArrive s d (attCe k) cmd pk = .next (stageAccess u d k pk) := by
      rw [accessArrive_staging hce htop hshares h, haccess]
    rw [← stageAt_of_frame hframe, ← stageSize_of_frame hframe, ← hframe.mem]
    exact ⟨fun h => ⟨_, hexec h, stageAccess_packet_mem u d k (.inl (cmd_of_taken h))⟩,
      fun h => ⟨_, hexec h, stageAccess_packet_mem u d k (.inr (cmd_of_taken h))⟩,
      fun h => ⟨_, hexec h, stageAccess_inline_mem u d k (cmd_of_taken h)⟩,
      fun h => ⟨_, hexec h, stageAccess_read_mem u d k (cmd_of_taken h)⟩⟩

end Sys2Proof.Machine
end

section
/-! SUPPORT. Where responses and a tile's messages go (R153, R119, R367, R732), what the control attachment does with a CSR_DATA (R88,
R696, R767), and the counterexample to ResponsesAndTileMessagesComplete. -/

namespace Sys2Proof.Machine

theorem respArrive_of_engine {s : State} {d att cmd : Nat} {p : Packet} (hhas : hasEngine s d p.hdr = true)
    (hengine : isEngine s d att p.hdr = true) (hmem : isMemAtt s d att = false) (h : taken s d att cmd p = true) :
    respArrive s d att cmd p = respond (takeArrival s d att p) d att p := by
  rw [respArrive, headerChecked_of_taken _ h, arriveAt_of_taken _ h]
  simp [hhas, hengine, hmem]

theorem respArrive_tile {s : State} {d p cmd : Nat} {pk : Packet} (htile : isTile s d p = true) (hsel : pk.hdr.destOff % 4 = 0)
    (h : taken s d p cmd pk = true) : respArrive s d p cmd pk = .next (tileArrive (takeArrival s d p pk) d p pk) := by
  have hkind := isTile_compute htile
  have hmem : isMemAtt s d p = false := by simp [isMemAtt, isKind, beq_iff_eq.mp hkind]
  rw [respArrive_of_engine (by simp [hasEngine, hsel, hkind]) (by simp [isEngine, hsel, htile]) hmem h]
  simp [respond, hsel]

theorem respArrive_ctl {s : State} {d cmd : Nat} {p : Packet} (hsel : p.hdr.destOff % 4 = 2) (h : taken s d attCtl cmd p = true) :
    respArrive s d attCtl cmd p = .next (ctlResponse (takeArrival s d attCtl p) d p) := by
  have hmem : isMemAtt s d attCtl = false := Bool.and_false _
  rw [respArrive_of_engine (by simp [hasEngine, hsel]) (by simp [isEngine, hsel]) hmem h]
  simp [respond, hsel]

/-- Whether a CSR_DATA answers a read-back of an arming of the head tailor (R696). -/
def armAnswer (s : State) (d : Nat) (h : Hdr) : Bool := h.tag.toNat / 256 == 0xE2 && d == s.headDie

theorem ctlResponse_of_armAnswer {s : State} {d : Nat} {p : Packet} (hcmd : p.hdr.cmd = 0x62) (h : armAnswer s d p.hdr = true) :
    ctlResponse s d p = armBack s p.hdr := by
  simp only [armAnswer, Bool.and_eq_true, beq_iff_eq] at h
  obtain ⟨htag, hhead⟩ := h
  simp [ctlResponse, hcmd, htag, hhead]

/-- Any other CSR_DATA retires its TAG and goes to the tailor core's ring (R88, R767). -/
theorem ctlResponse_of_csrData {s : State} {d : Nat} {p : Packet} (hcmd : p.hdr.cmd = 0x62) (h : armAnswer s d p.hdr = false) :
    ctlResponse s d p = ringTake (takeTag s d attCtl p).2 d (takeTag s d attCtl p).1 := by
  simp only [armAnswer, Bool.and_eq_false_imp, beq_iff_eq, beq_eq_false_iff_ne] at h
  simp only [ctlResponse, hcmd]
  simpa using fun htag hhead => absurd hhead (h htag)

/-- The head tailor's own read-back of MND_STOP_T of die 0 in an arming, answered to engine 2 of the head die. -/
def armReadBack : Packet := { hdr := ({ cmd := 0x62, vc := 5, dest := 2, tag := 0xE200 } : Hdr).seal }

/-- The state after reset, where the NI of the head die's control attachment delivers. -/
def headDelivers : State := State.reset.setFld 96 (niw 0 NI_CFG) 0 0 1

theorem armReadBack_taken : taken headDelivers 96 attCtl 0x62 armReadBack = true := by
  have hcrc : armReadBack.hdr.crcOk = true := Hdr.crcOk_seal _
  rw [taken, hcrc, Bool.and_true]
  decide +kernel

/-- Refutes O22: a CSR_DATA with a TAG of an arming's read-backs counts in the arming and does not go to the ring. In `headDelivers`
the ring has no room, and no discard is counted. -/
theorem not_responsesAndTileMessagesComplete : ¬ Obligations.ResponsesAndTileMessagesComplete := by
  rintro ⟨-, hring, -⟩
  have hexec := hring 96 armReadBack headDelivers (by decide +kernel) (by decide +kernel) armReadBack_taken
  have harm : exec (.csrData 96 attCtl armReadBack) headDelivers =
      .next (armBack (takeArrival headDelivers 96 attCtl armReadBack) armReadBack.hdr) := by
    refine (respArrive_ctl (by decide +kernel) armReadBack_taken).trans ?_
    rw [ctlResponse_of_armAnswer (by decide +kernel) (by decide +kernel)]
  have hcount := congrArg (fun t : State => t.fld 96 TLR_RX_PTR 63 48) (Host.Outcome.next.inj (harm.symm.trans hexec))
  exact absurd hcount (by decide +kernel)

/-- What holds in its place: every clause, where that of CSR_DATA at the control attachment leaves out the answers to an arming and retires
the TAG. -/
theorem responsesAndTileMessages_of_ordinary :
    (∀ (d p : Nat) (pk : Packet) (s : State), isTile s d p = true → pk.hdr.destOff % 4 = 0 →
      (taken s d p 0x05 pk = true → exec (.readData d p pk) s = .next (tileArrive (takeArrival s d p pk) d p pk)) ∧
      (taken s d p 0x06 pk = true → exec (.ack d p pk) s = .next (tileArrive (takeArrival s d p pk) d p pk)) ∧
      (taken s d p 0x62 pk = true → exec (.csrData d p pk) s = .next (tileArrive (takeArrival s d p pk) d p pk))) ∧
    (∀ (d : Nat) (pk : Packet) (s t : State), pk.hdr.destOff % 4 = 2 → taken s d attCtl 0x62 pk = true →
      t = takeArrival s d attCtl pk → armAnswer t d pk.hdr = false →
      exec (.csrData d attCtl pk) s = .next (ringTake (takeTag t d attCtl pk).2 d (takeTag t d attCtl pk).1)) ∧
    (∀ (d p : Nat) (h : Hdr) (s : State), isTile s d p = true → taken s d p 0x53 { hdr := h } = true →
      exec (.genToken d p h) s = .next (tileArrive (takeArrival s d p { hdr := h }) d p { hdr := h })) ∧
    (∀ (d p : Nat) (pk : Packet) (s : State), isTile s d p = true → taken s d p 0x33 pk = true →
      exec (.pour d p pk) s = .next (tileArrive (takeArrival s d p pk) d p pk)) ∧
    (∀ (d p : Nat) (pk : Packet) (s : State), isTile s d p = true → taken s d p 0x63 pk = true →
      exec (.trace d p pk) s = .next (tileArrive (takeArrival s d p pk) d p pk)) := by
  refine ⟨?response, ?csrData, ?token, ?pour, ?trace⟩
  case response =>
    intro d p pk s htile hsel
    exact ⟨fun h => respArrive_tile htile hsel h, fun h => respArrive_tile htile hsel h, fun h => respArrive_tile htile hsel h⟩
  case csrData =>
    rintro d pk s t hsel h rfl harm
    have hcmd : pk.hdr.cmd = 0x62 := BitVec.eq_of_toNat_eq (cmd_of_taken h)
    refine (respArrive_ctl hsel h).trans ?_
    rw [ctlResponse_of_csrData hcmd harm]
  case token =>
    intro d p h s htile ht
    show execGenToken d p h s = _
    rw [execGenToken, htile, arrive_of_taken _ ht]
    rfl
  case pour => exact fun d p pk s htile h => nodeArrive_tile (notTaken s d) htile h
  case trace => exact fun d p pk s htile h => nodeArrive_tile _ htile h

end Sys2Proof.Machine
end

section
/-! SUPPORT. The router commands (R135 to R143, R235, R272, R350): a router's record after a write, the branch that each command takes,
and where it completes. -/

namespace Sys2Proof.Machine

@[simp] theorem State.router_setRouter_same (s : State) (d p : Nat) (r : Router) : (s.setRouter d p r).router d p = r :=
  Tbl.get_set_same _ _ _ _

@[simp] theorem Router.cred_setCred_same (r : Router) (o v n : Nat) : (r.setCred o v n).cred o v = n := Tbl.get_set_same _ _ _ _

theorem onUnit_of_exists {ok : Bool} (t : State) (h : ok = true) : onUnit ok t = .next t := if_pos h

theorem routerPort_exists {s : State} {d p o : Nat} (hr : routerExists s d p = true) (ho : o < 6) :
    (routerExists s d p && decide (o < 6)) = true := by
  rw [hr, decide_eq_true ho, Bool.and_self]

theorem routerRuns_iff (s : State) (d p : Nat) :
    routerRuns s d p = true ↔ s.flag d (trt p TRT_CFG) 0 = true ∧ isBypassed s d p = false ∧ isHalted s d p = false ∧
      panelWaits (s.regionOf d p) = false := by
  simp [routerRuns, and_assoc]

/-! ## Slots and arbitration -/

theorem exec_reservedSlotStart {s : State} {d p o : Nat} (hr : routerExists s d p = true) (ho : o < 6) :
    exec (.reservedSlotStart d p o) s = .next (slotStart s d p o) := onUnit_of_exists _ (routerPort_exists hr ho)

theorem exec_outputArbitration {s : State} {d p o : Nat} (hr : routerExists s d p = true) (ho : o < 6) :
    exec (.outputArbitration d p o) s = .next (arbitrate s d p o) := onUnit_of_exists _ (routerPort_exists hr ho)

/-- The slot unit at IN_PORT takes the first cycle of its reserved slot at a free output (R235). -/
theorem slotStart_granted {s : State} {d p o : Nat} {q : Req} (hruns : routerRuns s d p = true) (hrounds : (s.keeper d).roundsOn = true)
    (hcycle : (s.regionOf d p).c % 8 = 0) (hslot : slotReserved s d p o (curEntry (s.regionOf d p)) = true)
    (hfirst : ((s.router d p).out o).released ≠ curEntry (s.regionOf d p)) (hfree : (s.router d p).held.get none o = none)
    (hunit : slotUnit s d p o (slotInPort s d p o (curEntry (s.regionOf d p))) = some q)
    (hgo : hemmedFor s d p o q.hdr = true ∨ hasCredit s d p o 0 = true) :
    slotStart s d p o = grantSlot (takeSlot s d p o (curEntry (s.regionOf d p))) d p o q := by
  obtain ⟨henable, hbypass, hhalt, hpanel⟩ := (routerRuns_iff s d p).mp hruns
  have hgo : (hemmedFor s d p o q.hdr || hasCredit s d p o 0) = true := Bool.or_eq_true_iff.mpr hgo
  simp [slotStart, henable, hbypass, hhalt, hrounds, hcycle, hslot, hfirst, hpanel, hfree, hunit, hgo]

theorem lateDue_of_no_late {s : State} {d p o : Nat} (h : 512 ≤ ((s.router d p).out o).lateEntry) : lateDue s d p o = false := by
  rw [lateDue, decide_eq_false (Nat.not_lt.mpr h), Bool.false_and]

/-- A free output with no late SLOT unit carries out the grant that it chooses (R138, R239, R272). -/
theorem arbitrate_granted {s : State} {d p o : Nat} {q : Req} {df : List Nat} (hruns : routerRuns s d p = true)
    (hfree : ((cycleStart s d p).router d p).held.get none o = none)
    (hlate : 512 ≤ (((cycleStart s d p).router d p).out o).lateEntry)
    (hgrant : grantOf (cycleStart s d p) d p o 37 (reqsAt (cycleStart s d p) d p o) = some (q, df)) :
    arbitrate s d p o = doGrant (cycleStart s d p) d p o q df := by
  simp [arbitrate, hruns, hfree, lateDue_of_no_late hlate, Nat.not_lt.mpr hlate, hgrant]

/-! ## Arrival of a header -/

section
variable {s : State} {d p i : Nat} {f g : Flit} {h : Hdr} (hr : routerExists s d p = true) (hi : i < 6)
  (hlatch : ((s.router d p).link i).latch = some f) (hhdr : f.hdr = some h)
include hr hi hlatch hhdr

theorem exec_routerHeaderArrival_routed {o : Nat} {os : List Nat} (houts : outsOf s d p i h f = some (o :: os, g)) :
    exec (.routerHeaderArrival d p i) s = .next (headerArrive s d p i f h) := by
  show execRouterHeaderArrival d p i s = _
  simp [execRouterHeaderArrival, routerPort_exists hr hi, hlatch, hhdr, houts]

theorem exec_routerHeaderArrival_ended (houts : outsOf s d p i h f = some ([], g)) :
    exec (.routerHeaderArrival d p i) s = .next (endHere s d p i f h) := by
  show execRouterHeaderArrival d p i s = _
  simp [execRouterHeaderArrival, routerPort_exists hr hi, hlatch, hhdr, houts]

end

/-! ## Arrival of a unit -/

theorem takeCredit_none (s : State) (d p i : Nat) : takeCredit s d p i none = s := rfl

theorem takeCredit_unfed {s : State} {d p i : Nat} (v : Nat) (h : feederOf s d p i = none) :
    takeCredit s d p i (some v) = s.setRouter d p ((s.router d p).setCred i v (min 8 ((s.router d p).cred i v + 1))) := by
  simp [takeCredit, h]

theorem takeWire_unfed {s : State} {d p i : Nat} (h : feederOf s d p i = none) : takeWire s d p i none = s := by
  simp [takeWire, h]

theorem inputSeam_unlinked {s : State} {d p i : Nat} (h : linkOf s d p i = .none) : inputSeam s d p i none = none := by
  simp [inputSeam, h]

theorem seamSource_of_no_seam {s : State} {d p i : Nat} {via : Option Nat} (u : LinkUnit) (h : inputSeam s d p i via = none) :
    seamSource s d p i via u = (s, u) := by
  simp [seamSource, h]

/-- A clean header on an idle input of its own link stands in the latch, and its packet is in progress (R136, R143). -/
theorem linkUnitArrive_header {s : State} {d p i : Nat} {u : LinkUnit} (htype : u.type = 1) (hclean : u.err = .clean)
    (hidle : ((s.router d p).link i).busy = false) :
    linkUnitArrive s d p i u none = setLink s d p i
      { busy := (Hdr.unpack u.unit).len != 0, vc := u.vc, left := (Hdr.unpack u.unit).len.toNat, tag := (Hdr.unpack u.unit).tag.toNat,
        via := none, latch := some (flitOf u (some (Hdr.unpack u.unit)) ((Hdr.unpack u.unit).len == 0)) } := by
  simp [linkUnitArrive, htype, hclean, hidle, flitOf]

/-- A unit from outside the die, with no credit, at an input that is neither halted nor fenced (R143). -/
theorem exec_linkUnitArrival_outside {s : State} {d p i : Nat} {u : LinkUnit} (hr : routerExists s d p = true) (hi : i < 6)
    (hvc : u.vc < 6) (hunit : u.type ≠ 0) (hclean : u.err = .clean) (hcredit : u.credit = none) (hhalt : isHalted s d p = false)
    (hfence : inputFenced s d p i = false) (hjoined : joinedSource s d p i = none) (hfeeder : feederOf s d p i = none)
    (hlink : linkOf s d p i = .none) :
    exec (.linkUnitArrival d p i u) s = .next (linkUnitArrive s d p i u none) := by
  show execLinkUnitArrival d p i u s = _
  simp [execLinkUnitArrival, routerPort_exists hr hi, hvc, hunit, hclean, hcredit, hhalt, hfence, hjoined, takeWire_unfed hfeeder,
    takeCredit_none, seamSource_of_no_seam u (inputSeam_unlinked hlink)]

/-! ## Context ceilings -/

theorem exec_contextCeiling_reached {s : State} {d p c : Nat} {x : Ctx} (hkind : isKind s d .compute = true) (hp : p < 624) (hc : c < 4)
    (hctx : ctxAt (s.router d p) c = some x) (hhalt : isHalted s d p = false) (hcut : x.cut = false)
    (hheld : x.claimAt + ceilingOf s d p ≤ (s.regionOf d p).cycles) :
    exec (.contextCeiling d p c) s = .next (reduceRun (ceilingReached s d p c x) d p) := by
  show execContextCeiling d p c s = _
  simp [execContextCeiling, hkind, hp, hc, hctx, hhalt, hcut, Nat.not_lt.mpr hheld]

/-- Settles O31: each command's conditions choose its branch, and a returned credit writes only the credits of its output and VC. -/
theorem routerCommandsComplete : Obligations.RouterCommandsComplete := by
  refine ⟨⟨?slot, ?arbitration, ?routed, ?ended, ?unit, ?ceiling⟩, ?credit⟩
  case slot =>
    intro d p o s q hr ho hruns hrounds hcycle hslot _ hfirst hfree hunit hgo
    rw [exec_reservedSlotStart hr ho, slotStart_granted hruns hrounds hcycle hslot hfirst hfree hunit hgo]
  case arbitration =>
    rintro d p o s _ q df hr ho hruns rfl hfree hlate hgrant
    rw [exec_outputArbitration hr ho, arbitrate_granted hruns hfree hlate hgrant]
  case routed => exact fun d p i s f g h o os hr hi hlatch hhdr houts => exec_routerHeaderArrival_routed hr hi hlatch hhdr houts
  case ended => exact fun d p i s f g h hr hi hlatch hhdr houts => exec_routerHeaderArrival_ended hr hi hlatch hhdr houts
  case unit =>
    intro d p i u s hr hi hvc htype hclean hcredit hhalt hfence hjoined hfeeder hlink hidle
    have hunit : u.type ≠ 0 := by rw [htype]; decide
    rw [exec_linkUnitArrival_outside hr hi hvc hunit hclean hcredit hhalt hfence hjoined hfeeder hlink,
      linkUnitArrive_header htype hclean hidle]
  case ceiling =>
    exact fun d p c s x hkind hp hc hctx hhalt hcut hheld => exec_contextCeiling_reached hkind hp hc hctx hhalt hcut hheld
  case credit =>
    intro s d p i v _ _ hfeeder
    rw [takeCredit_unfed v hfeeder]
    exact ⟨by rw [State.router_setRouter_same, Router.cred_setCred_same], rfl, rfl, takeCredit_none s d p i⟩

end Sys2Proof.Machine
end

section
/-! SUPPORT. The seam adapter's commands (R166 to R171, R661, R821): what becomes of a received frame, and where each command completes. -/

namespace Sys2Proof.Machine

/-! ## Frames -/

theorem exec_seamFrame {s : State} {d i : Nat} {f : SeamRx} (hseam : hasSeam s d i = true) (hvc : f.body.vc < 6) (hcredVc : f.credVc < 6)
    (hcredN : f.credN < 8) (hseq : f.seq < 256) (hack : f.ack < 256) : exec (.seamFrame d i f) s = .next (seamFrame s d i f) :=
  onUnit_of_exists _ (by simp [hseam, hvc, hcredVc, hcredN, hseq, hack])

theorem ackFrames_of_none {a : Seam} (ack : Nat) (h : a.replay = []) : ackFrames a ack = a := by
  simp [ackFrames, h]

/-- An idle frame brings only its credits to an adapter with nothing to be acknowledged (R166, R169). -/
theorem takeFrame_idle {a : Seam} {f : SeamRx} (s : State) (d i : Nat) (hidle : f.body.type = 0) (hreplay : a.replay = []) :
    takeFrame s d i a f =
      { a with farCred := setAt a.farCred f.credVc (min 24 (a.farCred.getD f.credVc 0 + f.credN)) } := by
  simp [takeFrame, ackFrames_of_none _ hreplay, hidle]

/-- A frame with the next unit in sequence brings its unit as well, and ends a discarding (R166, R167, R169). -/
theorem takeFrame_unit {s : State} {d i : Nat} {a : Seam} {f : SeamRx} (hunit : f.body.type ≠ 0) (hreplay : a.replay = [])
    (hhem : seamHem s d i = false) :
    takeFrame s d i a f =
      { a with farCred := setAt a.farCred f.credVc (min 24 (a.farCred.getD f.credVc 0 + f.credN)), rxSeq := (a.rxSeq + 1) % 256,
               discarding := false, nak := false, ackDue := true, rx := a.rx ++ [seamFlit f.body] } := by
  simp [takeFrame, ackFrames_of_none _ hreplay, hunit, hhem]

theorem mem_replayFrames_tries {a : Seam} {fr : SeamTx} (h : fr ∈ (replayFrames a).replay) : ∃ x ∈ a.replay, fr.tries = x.tries + 1 := by
  obtain ⟨x, hx, rfl⟩ := List.mem_map.mp h
  exact ⟨x, hx, rfl⟩

/-- A replay in which no frame goes out for the sixteenth time does not fail the adapter (R168). -/
theorem replayFrames_any_spent {a : Seam} (h : ∀ fr ∈ a.replay, fr.tries < 15) :
    (replayFrames a).replay.any (fun fr => 16 ≤ fr.tries) = false := by
  rw [List.any_eq_false]
  intro fr hfr
  obtain ⟨x, hx, htries⟩ := mem_replayFrames_tries hfr
  have hx := h x hx
  simp only [decide_eq_true_eq]
  omega

/-- An idle frame, which has no SEQ of its own (log 38), and a frame with the next SEQ are not out of sequence. -/
theorem not_outOfOrder {f : SeamRx} {n : Nat} (h : f.body.type = 0 ∨ f.seq = n) : (f.body.type != 0 && f.seq != n) = false := by
  rcases h with h | h <;> simp [h]

section
variable {s : State} {d i : Nat} {f : SeamRx}
  (hlive : seamLive (takeSeamWire s d i) d i ((takeSeamWire s d i).seam d i) = true)
include hlive

/-- A frame that fails FCRC is discarded, counted and answered by NAK (R167). -/
theorem seamFrame_bad (hbad : f.fcrcOk = false) :
    seamFrame s d i f = seamRun ((takeSeamWire s d i).bump d (smw i SEAM_CRC_ERR) 31 0 1) d i
      { (takeSeamWire s d i).seam d i with discarding := true, nak := true } := by
  simp [seamFrame, hlive, hbad]

/-- A unit out of sequence is discarded, and the first of a run answered by NAK (R167). -/
theorem seamFrame_outOfOrder (hgood : f.fcrcOk = true) (hunit : f.body.type ≠ 0) (hseq : f.seq ≠ ((takeSeamWire s d i).seam d i).rxSeq) :
    seamFrame s d i f = seamRun (takeSeamWire s d i) d i { (takeSeamWire s d i).seam d i with
      discarding := true, nak := ((takeSeamWire s d i).seam d i).nak || !((takeSeamWire s d i).seam d i).discarding } := by
  simp [seamFrame, hlive, hgood, hunit, hseq]

section
variable (hgood : f.fcrcOk = true) (hnext : f.body.type = 0 ∨ f.seq = ((takeSeamWire s d i).seam d i).rxSeq)
include hgood hnext

/-- An accepted frame that asks for no replay (R166). -/
theorem seamFrame_accepted (hnak : f.nak = false) :
    seamFrame s d i f =
      seamRun (takeSeamWire s d i) d i (takeFrame (takeSeamWire s d i) d i ((takeSeamWire s d i).seam d i) f) := by
  simp [seamFrame, hlive, hgood, not_outOfOrder hnext, hnak]

/-- A NAK replays the frames that its ACK leaves in the replay buffer (R167, R168). -/
theorem seamFrame_replayed {x : Seam} (hx : x = takeFrame (takeSeamWire s d i) d i ((takeSeamWire s d i).seam d i) f)
    (hnak : f.nak = true) (hreplay : x.replay ≠ []) (htries : ∀ fr ∈ x.replay, fr.tries < 15) :
    seamFrame s d i f = (seamRun (takeSeamWire s d i) d i (replayFrames x)).bump d (smw i SEAM_REPLAY) 31 0 1 := by
  simp [seamFrame, hlive, hgood, not_outOfOrder hnext, hnak, ← hx, hreplay, replayFrames_any_spent htries]

end

end

/-! ## Training and recalibration -/

theorem seamMayRun_iff (s : State) (d i : Nat) :
    seamMayRun s d i = true ↔ (seamPeer s d i).isSome = true ∧ s.flag d (smw i SEAM_CFG) 0 = true ∧
      s.flag d (smw i SEAM_CFG) 1 = false := by
  simp [seamMayRun, and_assoc]

theorem exec_ucieStateChange_active {s : State} {d i : Nat} (extra : Nat) (hseam : hasSeam s d i = true) (hrun : seamMayRun s d i = true) :
    exec (.ucieStateChange d i true true extra) s =
      .next (s.setSeam d i { ({} : Seam) with link := 2, latency := (6 + extra) % 256, txWait := (s.seam d i).txWait }) := by
  show execUcieStateChange d i true true extra s = _
  simp [execUcieStateChange, hseam, hrun]

theorem exec_ucieStateChange_left {s : State} {d i : Nat} (full : Bool) (extra : Nat) (hseam : hasSeam s d i = true)
    (hrun : seamMayRun s d i = true) (hlink : (s.seam d i).link ≠ 4) :
    exec (.ucieStateChange d i false full extra) s = .next (seamFail s d i) := by
  show execUcieStateChange d i false full extra s = _
  simp [execUcieStateChange, hseam, hrun, hlink]

theorem exec_seamRecalibration_moved {s : State} {d i temp : Nat} (hseam : hasSeam s d i = true) (hlink : (s.seam d i).link = 2)
    (hmoved : s.fld d HLT_CAL_CFG 7 0 < (temp - (s.seam d i).calTemp) + ((s.seam d i).calTemp - temp)) :
    exec (.seamRecalibration d i temp) s = .next (s.setSeam d i { s.seam d i with calTemp := temp }) := by
  show execSeamRecalibration d i temp s = _
  simp [execSeamRecalibration, onUnit_of_exists _ hseam, hlink, hmoved]

/-- Settles O32: a frame's check, its SEQ and its NAK choose what the adapter does with it. -/
theorem seamCommandsComplete : Obligations.SeamCommandsComplete := by
  refine ⟨?bad, ?outOfOrder, ?replayed, ?idle, ?unit, ?active, ?left, ?recalibration⟩
  case bad =>
    rintro d i f s _ hseam hvc hcredVc hcredN hseq hack rfl hlive hbad
    rw [exec_seamFrame hseam hvc hcredVc hcredN hseq hack, seamFrame_bad hlive hbad]
  case outOfOrder =>
    rintro d i f s _ hseam hvc hcredVc hcredN hseq hack rfl hlive hgood hunit hne
    rw [exec_seamFrame hseam hvc hcredVc hcredN hseq hack, seamFrame_outOfOrder hlive hgood hunit hne]
  case replayed =>
    rintro d i f s _ x hseam hvc hcredVc hcredN hseq hack rfl hlive hgood hnext hnak hx hreplay htries
    rw [exec_seamFrame hseam hvc hcredVc hcredN hseq hack, seamFrame_replayed hlive hgood hnext hx hnak hreplay htries]
  case idle =>
    rintro d i f s _ hseam hvc hcredVc hcredN hseq hack rfl hlive hgood hnak hidle hreplay
    rw [exec_seamFrame hseam hvc hcredVc hcredN hseq hack, seamFrame_accepted hlive hgood (.inl hidle) hnak,
      takeFrame_idle _ d i hidle hreplay]
  case unit =>
    rintro d i f s _ hseam hvc hcredVc hcredN hseq hack rfl hlive hgood hnak hunit hreplay hnext hhem
    rw [exec_seamFrame hseam hvc hcredVc hcredN hseq hack, seamFrame_accepted hlive hgood (.inr hnext) hnak,
      takeFrame_unit hunit hreplay hhem, hnext]
  case active =>
    intro d i extra s hseam hpeer hidle henable
    exact exec_ucieStateChange_active extra hseam ((seamMayRun_iff s d i).mpr ⟨hpeer, henable, hidle⟩)
  case left =>
    intro d i extra full s hseam hpeer hidle henable hlink
    exact exec_ucieStateChange_left full extra hseam ((seamMayRun_iff s d i).mpr ⟨hpeer, henable, hidle⟩) hlink
  case recalibration => exact fun d i temp s hseam hlink hmoved => exec_seamRecalibration_moved hseam hlink hmoved

end Sys2Proof.Machine
end

section
/-! SUPPORT. Fabric time (R209 to R225, R252): what a cycle adds, the difference of two instants, and the branch that each command of the
time keeper takes. -/

namespace Sys2Proof.Machine

/-! ## One cycle of the reference (R209, R210) -/

/-- FT and its fraction form one number of 80 bits, to which a cycle adds 0.625 ns and the slew term. -/
theorem keeperTick_adds {k : Keeper} {n : Nat} (h : 0xA000 + slewTerm k.slew = (n : Int)) :
    (keeperTick k).ft.toNat * 65536 + (keeperTick k).frac.toNat = (k.ft.toNat * 65536 + k.frac.toNat + n) % 2 ^ 80 := by
  have hsum : ((k.ft.toNat * 65536 + k.frac.toNat + 0xA000 : Nat) + slewTerm k.slew).toNat = k.ft.toNat * 65536 + k.frac.toNat + n := by
    omega
  simp only [keeperTick, hsum, BitVec.toNat_ofNat]
  omega

theorem keeperTick_slew (k : Keeper) : (keeperTick k).slew = k.slew + slewTerm k.slew := rfl

/-- Settles O12: the slew term by the sign of the offset that remains. -/
theorem keeperTickAdds : Obligations.KeeperTickAdds := by
  refine fun k => ⟨fun h => ?none, fun h => ?ahead, fun h => ?behind⟩
  case none =>
    have hterm : slewTerm k.slew = 0 := by simp [slewTerm, h]
    exact ⟨keeperTick_adds (by rw [hterm]; rfl), by rw [keeperTick_slew, hterm, h, Int.add_zero]⟩
  case ahead =>
    have hterm : slewTerm k.slew = -1 := if_pos h
    exact ⟨keeperTick_adds (by rw [hterm]; rfl), by rw [keeperTick_slew, hterm]; rfl⟩
  case behind =>
    have hterm : slewTerm k.slew = 1 := by simp [slewTerm, h, Int.lt_asymm h]
    exact ⟨keeperTick_adds (by rw [hterm]; rfl), by rw [keeperTick_slew, hterm]⟩

/-! ## The time exchange (R222, R223) -/

/-- The signed difference of two instants that lie in the lower half of the window. -/
theorem diff16_of_lt {a b : Nat} (ha : a < 2 ^ 43) (hb : b < 2 ^ 43) : diff16 a b = (a : Int) - b := by
  simp only [diff16, signedOf]
  split
  all_goals omega

/-- Settles O14: the clocks' difference counts with the same sign in both directions, the delay with opposite signs. -/
theorem thetaOfSymmetricExchange : Obligations.ThetaOfSymmetricExchange := by
  intro t1 gap turn off h
  have hthere : diff16 (t1 + off) (t1 + gap) = (off : Int) - gap := by rw [diff16_of_lt] <;> omega
  have hback : diff16 (t1 + 2 * gap + turn + off) (t1 + gap + turn) = (off : Int) + gap := by rw [diff16_of_lt] <;> omega
  have hchild : diff16 (t1 + 2 * gap + turn + off) (t1 + off) = 2 * (gap : Int) + turn := by rw [diff16_of_lt] <;> omega
  have hparent : diff16 (t1 + gap + turn) (t1 + gap) = (turn : Int) := by rw [diff16_of_lt] <;> omega
  rw [thetaDelay, hthere, hback, hchild, hparent, Prod.mk.injEq]
  constructor
  · rw [show (off : Int) - gap + (off + gap) = 2 * off by omega, Int.mul_fdiv_cancel_left _ (by decide)]
  · rw [Int.add_sub_cancel, Int.mul_fdiv_cancel_left _ (by decide)]

/-! ## The time keeper's commands (R210, R217, R221, R225) -/

@[simp] theorem State.keeper_setKeeper_same (s : State) (d : Nat) (k : Keeper) : (s.setKeeper d k).keeper d = k :=
  Tbl.get_set_same _ _ _ _

/-- What no step of a fold changes, the fold does not change. -/
theorem foldl_keeps {β γ : Type} (g : State → γ) {f : State → β → State} (hf : ∀ s b, g (f s b) = g s) (l : List β) (s : State) :
    g (l.foldl f s) = g s :=
  List.foldlRecOn l f (motive := fun t => g t = g s) rfl (fun t h b _ => (hf t b).trans h)

/-- A cycle's clock regions leave the keepers, the registers and memory as the keeper's own tick left them. -/
theorem timeTick_keepers (s : State) (d : Nat) (w e : Clk) :
    (timeTick s d w e).keepers = s.keepers.set {} d (keeperTick (s.keeper d)) :=
  (foldl_keeps State.keepers (by intros; rfl) _ _).trans rfl

theorem timeTick_csr (s : State) (d : Nat) (w e : Clk) : (timeTick s d w e).csr = s.csr :=
  (foldl_keeps State.csr (by intros; rfl) _ _).trans rfl

theorem timeTick_mem (s : State) (d : Nat) (w e : Clk) : (timeTick s d w e).mem = s.mem :=
  (foldl_keeps State.mem (by intros; rfl) _ _).trans rfl

theorem timeTick_keeper_same (s : State) (d : Nat) (w e : Clk) : (timeTick s d w e).keeper d = keeperTick (s.keeper d) := by
  rw [State.keeper, timeTick_keepers, Tbl.get_set_same]

theorem timeTick_keeper_other (s : State) {d x : Nat} (w e : Clk) (h : x ≠ d) : (timeTick s d w e).keeper x = s.keeper x := by
  rw [State.keeper, timeTick_keepers, Tbl.get_set_other _ _ _ _ _ h, State.keeper]

theorem ptpSubmit_accepted {s : State} {d : Nat} (hroot : actsAsRoot s d = true) (hok : ptpOk s d = true) :
    ptpSubmit s d = s.setKeeper d { s.keeper d with tod := some (ptpToD s d), todAt := s.now d } := by
  simp [ptpSubmit, hroot, hok]

/-- The first time that no PPS edge comes for 1.1 s, with no time of day pending (R217). -/
theorem ppsMissing_first {s : State} {d : Nat} (hroot : actsAsRoot s d = true) (hlate : (s.keeper d).lastPps + ppsLimit ≤ s.now d)
    (htod : (s.keeper d).tod = none) (hholdover : (s.keeper d).holdover = false) :
    ppsMissing s d = (s.setKeeper d { s.keeper d with holdover := true }).raise d TIM_EVENT 1 := by
  simp [ppsMissing, hroot, Nat.not_lt.mpr hlate, htod, hholdover]

theorem actsAsRoot_of_follower {s : State} {d : Nat} (h : s.fld d TIM_CFG 1 0 = 0) : actsAsRoot s d = false := by
  simp [actsAsRoot, h]

/-- A follower whose period is over sends a new request to its parent (R221). -/
theorem xferPeriodic_follower {s : State} {d : Nat} (hrole : s.fld d TIM_CFG 1 0 = 0)
    (hdue : (s.keeper d).lastXfer + xferPeriod s d ≤ s.now d / roundNs) :
    xferPeriodic s d = sendAt (s.setKeeper d (xferSent (s.keeper d) (s.now d / roundNs))) d attCtl
      (xferRequest s d (((s.keeper d).seq + 1) % 256)) := by
  simp [xferPeriodic, hrole, actsAsRoot_of_follower hrole, Nat.not_lt.mpr hdue, xferSent]

/-- Three requests without a response put a slice that is no time master into holdover (R225). -/
theorem parentLost_third {s : State} {d : Nat} (hlost : 3 ≤ (s.keeper d).noResp) (hrole : s.fld d TIM_CFG 1 0 ≠ 1) :
    parentLost s d = (s.setKeeper d { s.keeper d with noResp := 0, holdover := true }).raise d TIM_EVENT 3 := by
  have halt : (s.fld d TIM_CFG 1 0 == 1 && s.flag d TIM_CFG 8) = false := by rw [beq_eq_false_iff_ne.mpr hrole, Bool.false_and]
  simp only [parentLost, if_neg (Nat.not_lt.mpr hlost), halt, Bool.or_false]

/-! ## A PPS edge at the root (R213, R216) -/

/-- The root's state once the FT of a PPS edge is stamped (R213). -/
def ppsStamped (s : State) (d : Nat) : State :=
  (s.setKeeper d { s.keeper d with lastPps := s.now d }).setReg d TIM_PPS_STAMP (s.keeper d).ft

/-- The root's keeper at an edge that takes up the pending time of day. -/
def ppsTaken (s : State) (d : Nat) : Keeper := { s.keeper d with lastPps := s.now d, tod := none }

/-- The offset of R216: the FT of the edge less the time of day. -/
def ppsOffset (s : State) (d : Nat) (tod : Int) : Int := ((s.keeper d).ft.toNat * 65536 : Nat) - tod

/-- The keeper that a step to the time of day leaves (R212, R216). -/
def ppsStepped (s : State) (d : Nat) (tod : Int) : Keeper :=
  { keeperStep (ppsTaken s d) tod with lock := true, holdover := false, lastPps := tod.toNat / 65536 }

section
variable {s : State} {d : Nat} (hroot : actsAsRoot s d = true)
include hroot

theorem ppsEdge_without_tod (htod : (s.keeper d).tod = none) : ppsEdge s d = ppsStamped s d := by
  simp [ppsEdge, hroot, htod, ppsStamped]

section
variable {tod : Int} (htod : (s.keeper d).tod = some tod)
include htod

theorem ppsEdge_with_tod : ppsEdge s d =
    if s.mode == .cold || s.mode == .test || s.mode == .train then
      ptpResult ((ppsStamped s d).setKeeper d (ppsStepped s d tod)) d 1
    else if ppsOffset s d tod ≤ microFine && -microFine ≤ ppsOffset s d tod then
      ptpResult ((ppsStamped s d).setKeeper d { ppsTaken s d with slew := ppsOffset s d tod, holdover := false }) d 1
    else ptpResult (((ppsStamped s d).setKeeper d (ppsTaken s d)).raise d TIM_EVENT 0) d 3 := by
  rw [ppsEdge, hroot, Bool.not_true, if_neg Bool.false_ne_true]
  dsimp only
  split
  next hnone => exact absurd (hnone.symm.trans htod) (Option.some_ne_none tod).symm
  next t hsome =>
    obtain rfl : t = tod := Option.some.inj (hsome.symm.trans htod)
    rfl

theorem ppsEdge_step (hmode : (s.mode == .cold || s.mode == .test || s.mode == .train) = true) :
    ppsEdge s d = ptpResult ((ppsStamped s d).setKeeper d (ppsStepped s d tod)) d 1 := by
  rw [ppsEdge_with_tod hroot htod, if_pos hmode]

section
variable (hmode : (s.mode == .cold || s.mode == .test || s.mode == .train) = false)
include hmode

theorem ppsEdge_slew (hle : ppsOffset s d tod ≤ microFine) (hge : -microFine ≤ ppsOffset s d tod) :
    ppsEdge s d =
      ptpResult ((ppsStamped s d).setKeeper d { ppsTaken s d with slew := ppsOffset s d tod, holdover := false }) d 1 := by
  rw [ppsEdge_with_tod hroot htod, if_neg (Bool.eq_false_iff.mp hmode), decide_eq_true hle, decide_eq_true hge, Bool.and_self,
    if_pos rfl]

theorem ppsEdge_refused (h : ¬ (ppsOffset s d tod ≤ microFine ∧ -microFine ≤ ppsOffset s d tod)) :
    ppsEdge s d = ptpResult (((ppsStamped s d).setKeeper d (ppsTaken s d)).raise d TIM_EVENT 0) d 3 := by
  rw [ppsEdge_with_tod hroot htod, if_neg (Bool.eq_false_iff.mp hmode), if_neg (by simpa using h)]

end
end

/-- All that the root does at a PPS edge: it stamps FT, and where a time of day is pending it changes its keeper and reports. -/
theorem ppsEdge_cases : ppsEdge s d = ppsStamped s d ∨
    (∃ k, ppsEdge s d = ptpResult ((ppsStamped s d).setKeeper d k) d 1) ∨
    (∃ k, ppsEdge s d = ptpResult (((ppsStamped s d).setKeeper d k).raise d TIM_EVENT 0) d 3) := by
  cases htod : (s.keeper d).tod with
  | none => exact .inl (ppsEdge_without_tod hroot htod)
  | some tod =>
    cases hmode : s.mode == .cold || s.mode == .test || s.mode == .train with
    | true => exact .inr (.inl ⟨_, ppsEdge_step hroot htod hmode⟩)
    | false =>
      by_cases hoff : ppsOffset s d tod ≤ microFine ∧ -microFine ≤ ppsOffset s d tod
      · exact .inr (.inl ⟨_, ppsEdge_slew hroot htod hmode hoff.1 hoff.2⟩)
      · exact .inr (.inr ⟨_, ppsEdge_refused hroot htod hmode hoff⟩)

end

theorem reg_setKeeper (s : State) (d : Nat) (k : Keeper) (d' off : Nat) : (s.setKeeper d k).reg d' off = s.reg d' off := rfl

theorem reg_ptpResult_stamp (s : State) (d r : Nat) : (ptpResult s d r).reg d TIM_PPS_STAMP = s.reg d TIM_PPS_STAMP :=
  s.reg_setReg_other d _ d _ _ (fun e => absurd (Nat.add_left_cancel e) (by decide))

theorem reg_raise_event_stamp (s : State) (d b : Nat) : (s.raise d TIM_EVENT b).reg d TIM_PPS_STAMP = s.reg d TIM_PPS_STAMP :=
  s.reg_setReg_other d _ d _ _ (fun e => absurd (Nat.add_left_cancel e) (by decide))

theorem reg_ppsStamped (s : State) (d : Nat) : (ppsStamped s d).reg d TIM_PPS_STAMP = (s.keeper d).ft := State.reg_setReg_same _ _ _ _

theorem reg_ppsEdge_stamp {s : State} {d : Nat} (hroot : actsAsRoot s d = true) :
    (ppsEdge s d).reg d TIM_PPS_STAMP = (s.keeper d).ft := by
  obtain h | ⟨k, h⟩ | ⟨k, h⟩ := ppsEdge_cases hroot
  · rw [h, reg_ppsStamped]
  · rw [h, reg_ptpResult_stamp, reg_setKeeper, reg_ppsStamped]
  · rw [h, reg_ptpResult_stamp, reg_raise_event_stamp, reg_setKeeper, reg_ppsStamped]

theorem ptpResult_mem (s : State) (d r : Nat) : (ptpResult s d r).mem = s.mem := State.setFld_mem _ _ _ _ _ _

theorem ppsStamped_mem (s : State) (d : Nat) : (ppsStamped s d).mem = s.mem := rfl

theorem ppsEdge_mem {s : State} {d : Nat} (hroot : actsAsRoot s d = true) : (ppsEdge s d).mem = s.mem := by
  obtain h | ⟨k, h⟩ | ⟨k, h⟩ := ppsEdge_cases hroot
  · rw [h, ppsStamped_mem]
  · rw [h, ptpResult_mem, State.setKeeper_mem, ppsStamped_mem]
  · rw [h, ptpResult_mem, State.raise_mem, State.setKeeper_mem, ppsStamped_mem]

theorem keeper_ptpResult (s : State) (d r x : Nat) : (ptpResult s d r).keeper x = s.keeper x := rfl

/-- A time of day that is not negative has the same whole ns as a word of FT and as a number. -/
theorem ofInt_ediv_of_nonneg {tod : Int} (h : 0 ≤ tod) : BitVec.ofInt 64 (tod / 65536) = BitVec.ofNat 64 (tod.toNat / 65536) := by
  obtain ⟨n, rfl⟩ := Int.eq_ofNat_of_zero_le h
  exact BitVec.ofInt_natCast 64 (n / 65536)

/-- A step before FIT sets FT to the whole ns of the time of day, as a two's complement word (R212, R216). -/
theorem keeper_ppsEdge_step {s : State} {d : Nat} {tod : Int} (hroot : actsAsRoot s d = true) (htod : (s.keeper d).tod = some tod)
    (hmode : s.mode = .train) :
    ((ppsEdge s d).keeper d).ft = BitVec.ofInt 64 (tod / 65536) ∧ ((ppsEdge s d).keeper d).lock = true := by
  rw [ppsEdge_step hroot htod (by simp [hmode]), keeper_ptpResult, State.keeper_setKeeper_same]
  exact ⟨rfl, rfl⟩

/-- From FIT on an offset within one microsecond is slewed (R216). -/
theorem keeper_ppsEdge_slew {s : State} {d : Nat} {tod : Int} (hroot : actsAsRoot s d = true) (htod : (s.keeper d).tod = some tod)
    (hmode : s.mode = .service) (hle : ppsOffset s d tod ≤ microFine) (hge : -microFine ≤ ppsOffset s d tod) :
    ((ppsEdge s d).keeper d).ft = (s.keeper d).ft ∧ ((ppsEdge s d).keeper d).slew = ppsOffset s d tod := by
  rw [ppsEdge_slew hroot htod (by simp [hmode]) hle hge, keeper_ptpResult, State.keeper_setKeeper_same]
  exact ⟨rfl, rfl⟩

theorem exec_ppsEdge {s : State} {d : Nat} (hd : dieExists s d = true) : exec (.ppsEdge d) s = .next (ppsEdge s d) :=
  onUnit_of_exists _ hd

/-- The root in TRAIN once it has accepted a message whose seconds and ns are 0 and whose correctionField is −1 (R214, R215). -/
def negativeToD : State :=
  ptpSubmit (((({ State.reset with mode := .train }.setFld 96 TIM_CFG 1 0 2).setReg 96 TIM_PTP_BUF0
    (BitVec.ofNat 64 (2 ^ 59 + 2 ^ 9))).setReg 96 TIM_PTP_BUF1 (BitVec.allOnes 64))) 96

/-- Refutes O13: the host's message may state a time of day below 0 (R215). At −1 in 2^-16 ns the step sets FT to all ones, where the
statement, which cuts a negative time of day off at 0, has 0. -/
theorem not_timeEventsComplete : ¬ Obligations.TimeEventsComplete := by
  rintro ⟨-, hedge⟩
  have hdie : dieExists negativeToD 96 = true := by decide +kernel
  obtain ⟨hft, -⟩ := (hedge 96 negativeToD _ (-1) hdie (by decide +kernel) (by decide +kernel) (exec_ppsEdge hdie)).1 (by decide +kernel)
  exact absurd hft (by decide +kernel)

/-- What holds in its place: every clause, where that of the step in TRAIN has a time of day that is not negative. -/
theorem timeEvents_of_nonneg_tod :
    (∀ (d : Nat) (w e : Clk) (s : State), dieExists s d = true →
      ∃ t, exec (.timeKeeperTick d w e) s = .next t ∧ t.keeper d = keeperTick (s.keeper d) ∧
        (∀ x, x ≠ d → t.keeper x = s.keeper x) ∧ t.csr = s.csr ∧ t.mem = s.mem) ∧
    (∀ (d : Nat) (s : State), dieExists s d = true →
      exec (.timFtRead d) s = .next (s.setReg d TIM_FT_FRAC (BitVec.ofNat 64 (s.keeper d).frac.toNat)) ∧
        (readFt s d).1 = (s.keeper d).ft) ∧
    (∀ (d : Nat) (s : State), dieExists s d = true → actsAsRoot s d = true → ptpOk s d = true →
      exec (.ptpSubmit d) s = .next (s.setKeeper d { s.keeper d with tod := some (ptpToD s d), todAt := s.now d })) ∧
    (∀ (d : Nat) (s : State), dieExists s d = true → actsAsRoot s d = true →
      ∃ t, exec (.ppsEdge d) s = .next t ∧ t.reg d TIM_PPS_STAMP = (s.keeper d).ft ∧ t.mem = s.mem) ∧
    (∀ (d : Nat) (s : State), dieExists s d = true → actsAsRoot s d = true → (s.keeper d).lastPps + ppsLimit ≤ s.now d →
      (s.keeper d).tod = none → (s.keeper d).holdover = false →
      exec (.ppsMissing d) s = .next ((s.setKeeper d { s.keeper d with holdover := true }).raise d TIM_EVENT 1)) ∧
    (∀ (d : Nat) (s : State), dieExists s d = true → s.fld d TIM_CFG 1 0 = 0 →
      (s.keeper d).lastXfer + xferPeriod s d ≤ s.now d / roundNs →
      exec (.timeXferPeriod d) s = .next (sendAt (s.setKeeper d (xferSent (s.keeper d) (s.now d / roundNs))) d attCtl
        (xferRequest s d (((s.keeper d).seq + 1) % 256)))) ∧
    (∀ (d : Nat) (s : State), dieExists s d = true → 3 ≤ (s.keeper d).noResp → s.fld d TIM_CFG 1 0 ≠ 1 →
      exec (.parentLost d) s = .next ((s.setKeeper d { s.keeper d with noResp := 0, holdover := true }).raise d TIM_EVENT 3)) ∧
    (∀ (d : Nat) (s t : State) (tod : Int), dieExists s d = true → actsAsRoot s d = true → (s.keeper d).tod = some tod →
      exec (.ppsEdge d) s = .next t →
      (s.mode = .train → 0 ≤ tod → (t.keeper d).ft = BitVec.ofNat 64 (tod.toNat / 65536) ∧ (t.keeper d).lock = true) ∧
      (s.mode = .service → ppsOffset s d tod ≤ microFine → -microFine ≤ ppsOffset s d tod →
        (t.keeper d).ft = (s.keeper d).ft ∧ (t.keeper d).slew = ppsOffset s d tod)) := by
  refine ⟨?tick, ?read, ?submit, ?stamp, ?missing, ?period, ?lost, ?steer⟩
  case tick =>
    intro d w e s hd
    exact ⟨timeTick s d w e, onUnit_of_exists _ hd, timeTick_keeper_same s d w e, fun x hx => timeTick_keeper_other s w e hx,
      timeTick_csr s d w e, timeTick_mem s d w e⟩
  case read => exact fun d s hd => ⟨onUnit_of_exists _ hd, rfl⟩
  case submit =>
    intro d s hd hroot hok
    rw [← ptpSubmit_accepted hroot hok]
    exact onUnit_of_exists _ hd
  case stamp => exact fun d s hd hroot => ⟨ppsEdge s d, exec_ppsEdge hd, reg_ppsEdge_stamp hroot, ppsEdge_mem hroot⟩
  case missing =>
    intro d s hd hroot hlate htod hholdover
    rw [← ppsMissing_first hroot hlate htod hholdover]
    exact onUnit_of_exists _ hd
  case period =>
    intro d s hd hrole hdue
    rw [← xferPeriodic_follower hrole hdue]
    exact onUnit_of_exists _ hd
  case lost =>
    intro d s hd hlost hrole
    rw [← parentLost_third hlost hrole]
    exact onUnit_of_exists _ hd
  case steer =>
    intro d s t tod hd hroot htod hexec
    obtain rfl := Host.Outcome.next.inj ((exec_ppsEdge hd).symm.trans hexec)
    refine ⟨fun hmode hnonneg => ?_, fun hmode hle hge => keeper_ppsEdge_slew hroot htod hmode hle hge⟩
    rw [← ofInt_ediv_of_nonneg hnonneg]
    exact keeper_ppsEdge_step hroot htod hmode

end Sys2Proof.Machine
end

section
/-! SUPPORT. Rounds, panel clocks and the power cap (R174, R208, R231, R319, R827), and the time-transfer packets that the control
attachment takes (R221 to R223). -/

namespace Sys2Proof.Machine

theorem boundaryDue_of_ne {s : State} {d : Nat} (h : s.now d / roundNs ≠ (s.keeper d).round) : boundaryDue s d = true :=
  bne_iff_ne.mpr h

theorem exec_roundBoundary_due {s : State} {d : Nat} (hd : dieExists s d = true) (hdue : boundaryDue s d = true) :
    exec (.roundBoundary d) s = .next (roundBoundary s d) := by
  show onUnit (dieExists s d) (if boundaryDue s d then roundBoundary s d else s) = _
  rw [onUnit_of_exists _ hd, if_pos hdue]

theorem exec_timeXferRequest_of_taken {s : State} {d : Nat} {p : Packet} (h : taken s d attCtl 0x51 p = true)
    (hkind : p.hdr.inlBits 355 352 = 0) :
    exec (.timeXferRequest d attCtl p) s =
      .next (sendAt (takeArrival s d attCtl p) d attCtl (xferResponse (takeArrival s d attCtl p) d p.hdr)) := by
  show execTimeXferRequest d attCtl p s = _
  rw [execTimeXferRequest, headerChecked_of_taken _ h, ctlArrive_of_taken _ h, hkind]
  rfl

theorem exec_timeXferResponse_of_taken {s : State} {d : Nat} {p : Packet} (h : taken s d attCtl 0x51 p = true)
    (hkind : p.hdr.inlBits 355 352 = 1) :
    exec (.timeXferResponse d attCtl p) s = .next (xferTake (takeArrival s d attCtl p) d p.hdr) := by
  show execTimeXferResponse d attCtl p s = _
  rw [execTimeXferResponse, headerChecked_of_taken _ h, ctlArrive_of_taken _ h, hkind]
  rfl

theorem panel_exists {s : State} {d panel : Nat} (hk : isKind s d .compute = true) (hp : panel < 2) :
    (isKind s d .compute && decide (panel < 2)) = true := by
  rw [hk, decide_eq_true hp, Bool.and_self]

/-- 64 fc after a request without an acknowledgement its lateness is recorded once (R827). -/
theorem exec_pnlAckTimeout_late {s : State} {d panel : Nat} (hk : isKind s d .compute = true) (hp : panel < 2)
    (hack : (s.region d panel).ack ≠ (s.region d panel).down) (hfirst : (s.region d panel).ackLate = false)
    (hlate : (s.region d panel).reqFt + 40 * 65536 ≤ s.fine d) :
    exec (.pnlAckTimeout d panel) s =
      .next (faultRec (s.setRegion d panel { s.region d panel with ackLate := true }) d 0x10 panel 0 0) := by
  show execPnlAckTimeout d panel s = _
  have hdue : ((s.region d panel).ack != (s.region d panel).down && !(s.region d panel).ackLate &&
      decide ((s.region d panel).reqFt + 40 * 65536 ≤ s.fine d)) = true := by
    rw [bne_iff_ne.mpr hack, hfirst, decide_eq_true hlate]
    rfl
  rw [execPnlAckTimeout, onUnit_of_exists _ (panel_exists hk hp), if_pos hdue]

/-- Settles O15: each command's unit exists, its packet is taken, and its instant has come. -/
theorem roundAndPanelCommandsComplete : Obligations.RoundAndPanelCommandsComplete := by
  refine ⟨?boundary, ?request, ?response, ?ack, ?timeout, ?panel, ?cap⟩
  case boundary => exact fun d s hd hround => ⟨_, exec_roundBoundary_due hd (boundaryDue_of_ne hround), rfl⟩
  case request => exact fun d p s h hkind => exec_timeXferRequest_of_taken h hkind
  case response => exact fun d p s h hkind => exec_timeXferResponse_of_taken h hkind
  case ack => exact fun d panel s hk hp => onUnit_of_exists _ (panel_exists hk hp)
  case timeout => exact fun d panel s hk hp hack hfirst hlate => exec_pnlAckTimeout_late hk hp hack hfirst hlate
  case panel => exact fun d v s hk => onUnit_of_exists (panelWrite s d v) hk
  case cap => exact fun d v s hk => onUnit_of_exists (govCapWrite s d v) hk

end Sys2Proof.Machine
end

section
/-! SUPPORT. Gates, shapers, meters and samplers (R245 to R247, R289 to R299): the branch that each of their commands takes. -/

namespace Sys2Proof

theorem bitsOf_self (x : Word) (b : Nat) : bitsOf x b b = x.toNat / 2 ^ b % 2 := by
  rw [bitsOf, Nat.add_sub_cancel_left, Nat.pow_one]

/-- A field below the one replaced stays. -/
theorem bitsOf_setBits_below {w : Nat} (x : BitVec w) {hi lo : Nat} (hi' lo' v : Nat) (hbelow : hi < lo') (hlo : lo' ≤ hi') (hw : hi < w) :
    bitsOf (setBits x hi' lo' v) hi lo = bitsOf x hi lo := by
  refine Nat.eq_of_testBit_eq fun i => ?_
  rw [testBit_bitsOf, testBit_bitsOf]
  by_cases hin : i < hi + 1 - lo
  · rw [getLsbD_setBits x hi' lo' v (lo + i) hlo (by omega), if_pos (.inl (by omega))]
  · simp [hin]

end Sys2Proof

namespace Sys2Proof.Machine

theorem State.flag_eq_getLsbD (s : State) (d off b : Nat) : s.flag d off b = (s.reg d off).getLsbD b := by
  rw [State.flag, State.fld, bitsOf_self]
  exact natBit_eq_testBit _ b

/-! ## Gate lists (R245 to R247) -/

@[simp] theorem State.gate_setGate_same (s : State) (d g : Nat) (x : Gate) : (s.setGate d g x).gate d g = x := Tbl.get_set_same _ _ _ _

section
variable {s : State} {d g : Nat} (hopen : (s.gate d g).openAll = false) (hend : gateEnd s d g ≤ s.now d)
include hopen hend

theorem gateAdvance_period (hstop : (s.gate d g).startFt + (s.gate d g).period * roundNs ≤ s.now d) :
    gateAdvance s d g = s.setGate d g { s.gate d g with
      cur := 0, curFt := (s.gate d g).startFt + (s.gate d g).period * roundNs,
      startFt := (s.gate d g).startFt + (s.gate d g).period * roundNs } := by
  simp [gateAdvance, hopen, Nat.not_lt.mpr hend, hstop]

theorem gateAdvance_entry (hstop : s.now d < (s.gate d g).startFt + (s.gate d g).period * roundNs) :
    gateAdvance s d g = s.setGate d g { s.gate d g with cur := (s.gate d g).cur + 1, curFt := gateEnd s d g } := by
  simp [gateAdvance, hopen, Nat.not_lt.mpr hend, Nat.not_le.mpr hstop]

end

/-- The gate point's record after a takeover: entry 0 of the other bank, from the instant of the takeover (R246, R247). -/
def gateTaken (s : State) (d g a : Nat) : Gate :=
  { bank := 1 - (s.gate d g).bank, last := s.fld d (gtw g TIM_GATE_CTL) 7 0, period := s.fld d (gtw g TIM_GATE_CTL) 15 8 + 1,
    cur := 0, curFt := (takeoverAt s d g a).1, startFt := (takeoverAt s d g a).1, openAll := false, late := (takeoverAt s d g a).2,
    armedAt := none }

theorem gateTake_due {s : State} {d g a : Nat} (harmed : (s.gate d g).armedAt = some a) (hdue : (takeoverAt s d g a).1 ≤ s.now d) :
    gateTake s d g = s.setGate d g (gateTaken s d g a) := by
  simp [gateTake, harmed, Nat.not_lt.mpr hdue, gateTaken]

/-! ## Refills (R289, R290, R293, R294) -/

/-- At a slot that it has not yet served, a shaper whose enabled fields are proper refills. -/
theorem execShaperRefill_due {s : State} {d g v : Nat} (hshaper : hasShaper s d g v = true)
    (hslot : refillSlot (s.now d / 5) (s.fld d (shw g v SHP_SHAPE_CFG) 19 16) = true) (hnew : (s.shp d g v).slotAt ≠ s.now d / 5)
    (hproper : s.flag d (shw g v SHP_SHAPE_CFG) 0 = true →
      s.fld d (shw g v SHP_SHAPE_CFG) 19 16 < 10 ∧ s.fld d (shw g v SHP_SHAPE_CFG) 63 48 ≠ 0) :
    execShaperRefill d g v s =
      .next (s.setShp d g v (shaperRefill (s.shp d g v) (s.reg d (shw g v SHP_SHAPE_CFG)) (s.now d / 5))) := by
  rw [State.flag_eq_getLsbD] at hproper
  simp only [State.fld] at hslot hproper
  have hinterval := Bool.and_eq_false_imp.mpr fun h => decide_eq_false (Nat.not_le.mpr (hproper h).1)
  have hrate := Bool.and_eq_false_imp.mpr fun h => beq_eq_false_iff_ne.mpr (hproper h).2
  simp only [execShaperRefill, hshaper, hinterval, hrate, hslot, beq_eq_false_iff_ne.mpr hnew, Bool.not_true, Bool.false_and,
    Bool.or_self, Bool.false_eq_true, if_false]

theorem execMeterRefill_due {s : State} {d g v : Nat} (hshaper : hasShaper s d g v = true)
    (hslot : refillSlot (s.now d / 5) (s.fld d (shw g v SHP_METER_RATE) 19 16) = true) (hnew : (s.shp d g v).mslotAt ≠ s.now d / 5)
    (hproper : s.flag d (shw g v SHP_METER_RATE) 0 = true → s.fld d (shw g v SHP_METER_RATE) 19 16 < 10) :
    execMeterRefill d g v s =
      .next (s.setShp d g v (meterRefill (s.shp d g v) (s.reg d (shw g v SHP_METER_RATE)) (s.reg d (shw g v SHP_METER_BURST))
        (s.now d / 5))) := by
  rw [State.flag_eq_getLsbD] at hproper
  simp only [State.fld] at hslot hproper
  have hinterval := Bool.and_eq_false_imp.mpr fun h => decide_eq_false (Nat.not_le.mpr (hproper h))
  simp only [execMeterRefill, hshaper, hinterval, hslot, beq_eq_false_iff_ne.mpr hnew, Bool.not_true, Bool.false_and,
    Bool.or_self, Bool.false_eq_true, if_false]

/-! ## Queue samplers (R298, R299) -/

theorem trt_qsample_ne_obsCfg (p : Nat) : trt p TRT_QSAMPLE ≠ OBS_CFG := by
  show 0x400B0 + 0x100 * p ≠ 0x180000
  omega

/-- The trace enable stays under a sample of a router. -/
theorem flag_sampleWrite_obsCfg (s : State) (d p depth delay b : Nat) :
    (sampleWrite s d (trt p TRT_QSAMPLE) depth delay).flag d OBS_CFG b = s.flag d OBS_CFG b := by
  have hkey : ck d OBS_CFG ≠ ck d (trt p TRT_QSAMPLE) := fun e => trt_qsample_ne_obsCfg p (Nat.add_left_cancel e).symm
  rw [State.flag, State.flag, State.fld, State.fld, sampleWrite, State.reg_setReg_other _ _ _ _ _ _ hkey]

/-- An enabled sampler takes its sample at its offset of a round that its interval gives; without tracing nothing else is done. -/
theorem queueSample_router {s : State} {d p : Nat} (henable : s.flag d (trt p TRT_QSAMPLE_CFG) 0 = true)
    (hoffset : (s.regionOf d p).c = 8 * s.fld d (trt p TRT_QSAMPLE_CFG) 20 12)
    (hround : (s.now d / roundNs - s.sampleFrom.get 0 (ck d (trt p TRT_QSAMPLE_CFG))) % (s.fld d (trt p TRT_QSAMPLE_CFG) 31 24 + 1) = 0)
    (htrace : s.flag d OBS_CFG 2 = false) :
    queueSample s d (.router p) =
      sampleWrite s d (trt p TRT_QSAMPLE) (sampleOf s d (.router p)).1 (sampleOf s d (.router p)).2 := by
  rw [State.flag_eq_getLsbD] at henable
  simp only [State.fld] at hoffset hround
  simp [queueSample, samplerRegs, sampleRegion, henable, hoffset, hround, flag_sampleWrite_obsCfg, htrace]

theorem fld_sampleClear (s : State) (d reg : Nat) :
    (sampleClear s d reg).fld d reg 31 16 = 0 ∧ (sampleClear s d reg).fld d reg 63 48 = 0 := by
  rw [sampleClear, State.fld, State.fld, State.reg_setReg_same]
  constructor
  · rw [bitsOf_setBits_below _ 63 48 0 (by decide) (by decide) (by decide), bitsOf_setBits_same _ 31 16 0 (by decide) (by decide),
      Nat.zero_mod]
  · rw [bitsOf_setBits_same _ 63 48 0 (by decide) (by decide), Nat.zero_mod]

theorem sampleClear_mem (s : State) (d reg : Nat) : (sampleClear s d reg).mem = s.mem := State.setReg_mem _ _ _ _

/-- A write with CLEAR set ends in a clearing, and before it leaves memory as it was. -/
theorem sampleCfgWrite_clear (s : State) (d p : Nat) (v : Word) (hclear : v.getLsbD 1 = true) :
    ∃ u, sampleCfgWrite s d (.router p) v = sampleClear u d (trt p TRT_QSAMPLE) ∧ u.mem = s.mem := by
  refine ⟨_, if_pos hclear, ?_⟩
  rw [State.setReg_mem]
  split
  · rfl
  · rfl

theorem getLsbD_one_or_two (v : Word) : (v ||| 2#64).getLsbD 1 = true := by
  rw [BitVec.getLsbD_or]
  exact Bool.or_true _

/-- Settles O16: each command's instant has come and its fields are proper, so that it does its work. -/
theorem shapingCommandsComplete : Obligations.ShapingCommandsComplete := by
  refine ⟨?period, ?entry, ?takeover, ?shaper, ?meter, ?sample, ?clear⟩
  case period =>
    intro d g s hgate hopen hend hstop
    exact (onUnit_of_exists _ hgate).trans (congrArg _ (gateAdvance_period hopen hend hstop))
  case entry =>
    intro d g s hgate hopen hend hstop
    exact (onUnit_of_exists _ hgate).trans (congrArg _ (gateAdvance_entry hopen hend hstop))
  case takeover =>
    intro d g a s hgate harmed hdue
    refine ⟨s.setGate d g (gateTaken s d g a), ?_, ?_⟩
    · rw [← gateTake_due harmed hdue]
      exact onUnit_of_exists _ hgate
    · rw [State.gate_setGate_same]
      exact ⟨rfl, rfl, rfl, rfl, rfl, rfl⟩
  case shaper => exact fun d g v s hshaper hslot hnew hproper => execShaperRefill_due hshaper hslot hnew hproper
  case meter => exact fun d g v s hshaper hslot hnew hproper => execMeterRefill_due hshaper hslot hnew hproper
  case sample =>
    intro d p s hrouter henable hoffset hround htrace
    rw [← queueSample_router henable hoffset hround htrace]
    exact onUnit_of_exists _ hrouter
  case clear =>
    intro d p v s hrouter
    obtain ⟨u, hclear, hmem⟩ := sampleCfgWrite_clear s d p _ (getLsbD_one_or_two v)
    obtain ⟨hdepth, hdelay⟩ := fld_sampleClear u d (trt p TRT_QSAMPLE)
    exact ⟨_, (onUnit_of_exists _ hrouter).trans (congrArg _ hclear), hdepth, hdelay, (sampleClear_mem u d _).trans hmem⟩

end Sys2Proof.Machine
end

section
/-! SUPPORT. What a shaper's refill leaves in its bucket and how a meter marks a packet (R290, R292, R294), and the governor's next
permit (R300, R304, R321). -/

namespace Sys2Proof.Machine

/-! ## The bucket after a refill (R290, R292) -/

theorem shaperRefill_tokens_enabled {x : Shp} (hrunning : x.cfg.getLsbD 0 = true) (cfg : Word) (slot : Nat) :
    (shaperRefill x cfg slot).tokens = min (x.tokens + bitsOf cfg 63 48) (bitsOf cfg 47 32) := by
  simp only [shaperRefill, hrunning, Bool.not_true, Bool.and_false, Bool.false_eq_true, if_false]

theorem shaperRefill_tokens_just_enabled {x : Shp} {cfg : Word} (hidle : x.cfg.getLsbD 0 = false) (henable : cfg.getLsbD 0 = true)
    (slot : Nat) : (shaperRefill x cfg slot).tokens = bitsOf cfg 47 32 := by
  simp only [shaperRefill, hidle, henable, Bool.not_false, Bool.and_self, if_true]

/-! ## The three colours (R294) -/

theorem meterMark_red {x : Shp} {len : Nat} (hpeak : x.tp < 64 * (1 + len)) : meterMark x len = (3, x) :=
  if_pos hpeak

section
variable {x : Shp} {len : Nat} (hpeak : 64 * (1 + len) ≤ x.tp)
include hpeak

theorem meterMark_yellow (hcommitted : x.tc < 64 * (1 + len)) :
    meterMark x len = (2, { x with tp := x.tp - 64 * (1 + len) }) :=
  (if_neg hpeak.not_gt).trans (if_pos hcommitted)

theorem meterMark_green (hcommitted : 64 * (1 + len) ≤ x.tc) :
    meterMark x len = (1, { x with tp := x.tp - 64 * (1 + len), tc := x.tc - 64 * (1 + len) }) :=
  (if_neg hpeak.not_gt).trans (if_neg hcommitted.not_gt)

end

/-- Settles O17: a refill by whether the shaper was running, and a packet's colour by the two comparisons of the marker. -/
theorem shapersAndMeters : Obligations.ShapersAndMeters := by
  refine ⟨fun x cfg slot => ⟨fun hrunning => ?running, fun hidle henable => ?enabled⟩,
    fun x len => ⟨fun hpeak => ?red, fun hpeak hcommitted => ?yellow, fun hpeak hcommitted => ?green⟩⟩
  case running => exact shaperRefill_tokens_enabled hrunning cfg slot
  case enabled => exact shaperRefill_tokens_just_enabled hidle henable slot
  case red => exact meterMark_red hpeak
  case yellow =>
    rw [meterMark_yellow hpeak hcommitted]
    exact ⟨rfl, rfl, rfl⟩
  case green =>
    rw [meterMark_green hpeak hcommitted]
    exact ⟨rfl, rfl, rfl⟩

/-! ## The governor's permit (R300, R304, R321) -/

theorem permitMin_le (ctl : Word) : permitMin ctl ≤ 4096 := Nat.min_le_left _ _

theorem govNext_permit_disabled {ctl : Word} (hoff : ctl.getLsbD 0 = false) (model : Word) (cap : Nat) (g : Gov) :
    (govNext model ctl cap g).permit = 4096 := by
  simp only [govNext, hoff, Bool.not_false, if_true]

/-- An enabled governor lowers the permit down to PERMIT_MIN, raises it up to 4,096, or leaves it (R300). -/
theorem govNext_permit_enabled {ctl : Word} (hon : ctl.getLsbD 0 = true) (model : Word) (cap : Nat) (g : Gov) :
    (govNext model ctl cap g).permit = max (g.permit - g.permit / 8 - 1) (permitMin ctl) ∨
    (govNext model ctl cap g).permit = min (g.permit + bitsOf ctl 28 16) 4096 ∨
    (govNext model ctl cap g).permit = g.permit := by
  simp only [govNext, hon, Bool.not_true, Bool.false_eq_true, if_false]
  split
  · exact .inl rfl
  · split
    · exact .inr (.inl rfl)
    · exact .inr (.inr rfl)

/-- The bounds of the permit are kept by every round, whatever the counts, the model and the cap. -/
theorem govNext_permit_bounds {ctl : Word} {g : Gov} (hmin : permitMin ctl ≤ g.permit) (hmax : g.permit ≤ 4096) (model : Word)
    (cap : Nat) : permitMin ctl ≤ (govNext model ctl cap g).permit ∧ (govNext model ctl cap g).permit ≤ 4096 := by
  have hfloor := permitMin_le ctl
  cases hctl : ctl.getLsbD 0 with
  | false =>
    rw [govNext_permit_disabled hctl]
    exact ⟨hfloor, le_rfl⟩
  | true =>
    obtain hlowered | hraised | hkept := govNext_permit_enabled hctl model cap g
    · rw [hlowered]
      have hless : g.permit - g.permit / 8 - 1 ≤ 4096 := by omega
      exact ⟨le_max_right _ _, max_le hless hfloor⟩
    · rw [hraised]
      exact ⟨le_min (Nat.le_add_right_of_le hmin) hfloor, min_le_right _ _⟩
    · rw [hkept]
      exact ⟨hmin, hmax⟩

/-- Settles O18: the bounds hold in each branch of the governor's rule, and a new round's counts are zero as written. -/
theorem governorPermitBounds : Obligations.GovernorPermitBounds := by
  intro model ctl cap g hmin hmax
  obtain ⟨hlow, hhigh⟩ := govNext_permit_bounds hmin hmax model cap
  exact ⟨hlow, hhigh, fun hoff => govNext_permit_disabled hoff model cap g, rfl, rfl⟩

end Sys2Proof.Machine
end

section
/-! SUPPORT. Collective data, all-to-all data and reduction operands at a tile and at a CE (R361, R403, R404, R421). -/

namespace Sys2Proof.Machine

theorem collArrive_tile {s : State} {d p cmd : Nat} {pk : Packet} (residue : Bool) (ht : isTile s d p = true)
    (h : taken s d p cmd pk = true) : collArrive s d p cmd pk residue = .next (tileArrive (takeArrival s d p pk) d p pk) :=
  nodeArrive_tile _ ht h

theorem collArrive_ce {s : State} {d k cmd : Nat} {p : Packet} (residue : Bool) (hce : ceExists s d k = true)
    (htop : natBit p.hdr.destOff 33 = true) (h : taken s d (attCe k) cmd p = true) :
    collArrive s d (attCe k) cmd p residue = .next (ceData (takeArrival s d (attCe k) p) d k p residue) := by
  have hatt : (isCeAtt s d (attCe k) && offTop p.hdr) = true := by simp [isCeAtt, attCe, offTop, hce, htop]
  have hk : attCe k - 1024 = k := Nat.add_sub_cancel_left 1024 k
  rw [collArrive, nodeArrive_ce _ hce h, if_pos hatt, arrive_of_taken _ h, hk]

/-- The collective commands of a packet: the CMD of each, whether its residue check fails, and the command at an attachment. The three
data commands have no residue check. -/
def collCommands (d : Nat) (pk : Packet) (res : Bool) : List (Nat × Bool × (Nat → Instr)) :=
  [(0x30, false, fun a => .collData d a pk), (0x31, false, fun a => .a2aData d a pk), (0x32, false, fun a => .a2aCount d a pk),
    (0x40, res, fun a => .redSum d a pk res), (0x41, res, fun a => .redMax d a pk res), (0x42, res, fun a => .redMin d a pk res),
    (0x43, res, fun a => .redProd d a pk res), (0x44, res, fun a => .redAnd d a pk res), (0x45, res, fun a => .redOr d a pk res),
    (0x46, res, fun a => .redXor d a pk res)]

/-- Every collective command is the arrival of its own CMD. -/
theorem exec_collCommands {d : Nat} {pk : Packet} {res : Bool} {x : Nat × Bool × (Nat → Instr)} (hx : x ∈ collCommands d pk res)
    (att : Nat) (s : State) : exec (x.2.2 att) s = collArrive s d att x.1 pk x.2.1 := by
  simp only [collCommands, List.mem_cons, List.not_mem_nil, or_false] at hx
  obtain rfl | rfl | rfl | rfl | rfl | rfl | rfl | rfl | rfl | rfl := hx
  all_goals rfl

/-- Settles O35: each of the ten commands is one arrival, which goes to the tile, or to the CE where DEST.OFFSET[33] is 1. -/
theorem collectiveDataComplete : Obligations.CollectiveDataComplete := by
  intro s d pk res x hx
  have hexec (att : Nat) : exec (x.2.2 att) s = collArrive s d att x.1 pk x.2.1 := exec_collCommands hx att s
  refine ⟨?tile, ?ce⟩
  case tile =>
    intro p htile h
    rw [hexec, collArrive_tile _ htile h]
  case ce =>
    intro k hce htop h
    rw [hexec, collArrive_ce _ hce htop h]

end Sys2Proof.Machine
end

section
/-! SUPPORT. Group queues (R386 to R393, R424, R425, R434, R441): when a fetch, a start or a write of the group table is let through, and
what an entry reads as afterwards. -/

namespace Sys2Proof.Machine

@[simp] theorem State.ce_setCe_same (s : State) (d k : Nat) (c : Ce) : (s.setCe d k c).ce d k = c :=
  Tbl.get_set_same _ _ _ _

@[simp] theorem State.ent_setEnt_same (s : State) (d k e : Nat) (n : CeEnt) : (s.setEnt d k e n).ent d k e = n := by
  rw [State.ent, State.setEnt, State.ce_setCe_same, Tbl.get_set_same]

/-- The unit check of a command that names an entry of the group table. -/
theorem entryExists {s : State} {d k e : Nat} (hce : ceExists s d k = true) (he : e < 64) :
    (ceExists s d k && decide (e < 64)) = true := by
  rw [hce, decide_eq_true he, Bool.and_self]

/-! ## Fetching (R388) -/

/-- An entry whose descriptors its CE fetches: valid, not halted, with a tail beyond HEAD, at a CE that runs (R388, R425, R431). -/
structure Fetches (s : State) (d k e : Nat) : Prop where
  enabled : ceEnabled s d k = true
  valid : (s.grp d k e).valid = true
  notHalted : (s.ent d k e).halted = false
  waiting : 0 < tailGap (s.ent d k e)

theorem Fetches.descriptorFetch_eq {s : State} {d k e : Nat} (h : Fetches s d k e) (hfetch : (s.ent d k e).fetch = none)
    (hretry : (s.ent d k e).retryAt = none) : descriptorFetch s d k e = fetchNow s d k e := by
  simp [descriptorFetch, h.enabled, h.valid, h.notHalted, h.waiting, hfetch, hretry]

theorem exec_descriptorFetch {s : State} {d k e : Nat} (hce : ceExists s d k = true) (he : e < 64) :
    exec (.descriptorFetch d k e) s = .next (descriptorFetch s d k e) :=
  onUnit_of_exists _ (entryExists hce he)

theorem Fetches.exec_retry {s : State} {d k e t : Nat} (h : Fetches s d k e) (hce : ceExists s d k = true) (he : e < 64)
    (hretry : (s.ent d k e).retryAt = some t) (hdue : t ≤ s.now d) :
    exec (.descriptorFetchRetry d k e) s = .next (fetchNow s d k e) := by
  refine (onUnit_of_exists _ (entryExists hce he)).trans ?_
  simp [hretry, hdue, h.enabled, h.valid, h.notHalted, h.waiting]

/-! ## The front descriptor (R390, R393, R424, R425) -/

/-- The nine operations at an entry, each with its value of OP (R393). -/
def operationStarts (d k e : Nat) : List (Nat × Instr) :=
  [(0, .nop d k e), (1, .allReduce d k e), (2, .reduce d k e), (3, .reduceScatter d k e), (4, .allGather d k e),
    (5, .broadcast d k e), (6, .allToAll d k e), (7, .allToAllV d k e), (8, .barrier d k e)]

/-- The start of an operation is that of the front descriptor under its OP. -/
theorem exec_operationStarts {d k e : Nat} {c : Nat × Instr} (hc : c ∈ operationStarts d k e) (s : State) :
    exec c.2 s = startFront d k e c.1 s := by
  simp only [operationStarts, List.mem_cons, List.not_mem_nil, or_false] at hc
  obtain rfl | rfl | rfl | rfl | rfl | rfl | rfl | rfl | rfl := hc
  all_goals rfl

section
variable {s : State} {d k e tag : Nat} {x : BitVec 512} {qs : List (Nat × BitVec 512)}
  (hce : ceExists s d k = true) (he : e < 64) (hfront : (s.ent d k e).queue = (tag, x) :: qs) (hmay : mayStart s d k e x = true)
include hce he hfront hmay

/-- An operation aborted before its start completes with the reason of its ABORT (R424). -/
theorem startFront_aborted {f : Nat × Nat × Nat} (hfuture : (s.ent d k e).future.find? (fun f => f.1 == tag) = some f) :
    startFront d k e (dOp x) s = .next (skipFront s d k e tag x f.2.2 true) := by
  simp [startFront, hce, he, hfront, hmay, hfuture]

section
variable (hfuture : (s.ent d k e).future.find? (fun f => f.1 == tag) = none)
include hfuture

/-- The front descriptor of a halted group completes HALTED (R425). -/
theorem startFront_halted (hhalted : (s.ent d k e).halted = true) :
    startFront d k e (dOp x) s = .next (skipFront s d k e tag x 6 false) := by
  simp [startFront, hce, he, hfront, hmay, hfuture, hhalted]

/-- An operation in order whose staging fits starts (R390, R394, R413). -/
theorem startFront_starts {o : CeOp} (ho : o = { tag := tag, desc := x, cfg := s.reg d (cew k CE_CFG), startFt := 0, progressFt := 0 })
    (hhalted : (s.ent d k e).halted = false) (hproper : startMisuse s ⟨d, k, e, tag⟩ o = none)
    (hfits : startFits s ⟨d, k, e, tag⟩ o = true) :
    startFront d k e (dOp x) s = .next (startOp s d k e tag x) := by
  subst ho
  simp [startFront, hce, he, hfront, hmay, hfuture, hhalted, hproper, hfits]

end
end

/-- Settles O36: a fetch by the conditions on its entry, a start by what becomes of the front descriptor. -/
theorem queueCommandsComplete : Obligations.QueueCommandsComplete := by
  refine ⟨?fetch, ?retry, ?start⟩
  case fetch =>
    intro d k e s hce he henabled hvalid hhalted hfetch hretry hgap
    have hfetches : Fetches s d k e := ⟨henabled, hvalid, hhalted, hgap⟩
    rw [exec_descriptorFetch hce he, hfetches.descriptorFetch_eq hfetch hretry]
  case retry =>
    intro d k e t s hce he hretry hdue henabled hvalid hhalted hgap
    have hfetches : Fetches s d k e := ⟨henabled, hvalid, hhalted, hgap⟩
    exact hfetches.exec_retry hce he hretry hdue
  case start =>
    intro d k e tag s x qs o hce he hfront hmay ho c hc hop
    rw [exec_operationStarts hc, ← hop]
    exact ⟨startFront_starts hce he hfront hmay (ho := ho), startFront_halted hce he hfront hmay,
      fun _ => startFront_aborted hce he hfront hmay⟩

/-! ## The group table and CE_GROUP_CTL (R386, R434, R441) -/

/-- SKIP of an entry with no fetched descriptor only brings HEAD to the tail (R441). -/
theorem groupSkip_of_empty {s : State} {d k e : Nat} (h : (s.ent d k e).queue = []) :
    groupSkip s d k e = s.setEnt d k e { s.ent d k e with
      head := (s.ent d k e).head + tailGap (s.ent d k e), fetch := none, retryAt := none } := by
  simp [groupSkip, h]

theorem exec_ceGroupCtlSkip {s : State} {d k e : Nat} (hce : ceExists s d k = true) (he : e < 64) :
    exec (.ceGroupCtlSkip d k e) s = .next (groupSkip s d k e) :=
  onUnit_of_exists _ (entryExists hce he)

theorem exec_ceGroupCtlResume {s : State} {d k e : Nat} (hce : ceExists s d k = true) (he : e < 64) :
    exec (.ceGroupCtlResume d k e) s = .next (groupResume s d k e) :=
  onUnit_of_exists _ (entryExists hce he)

theorem exec_ceGtDataWrite {s : State} {d k : Nat} (v : Word) (hce : ceExists s d k = true) :
    exec (.ceGtDataWrite d k v) s = gtWrite s d k (s.fld d (cew k CE_GT_ADDR) 8 3) (s.fld d (cew k CE_GT_ADDR) 2 0) v := by
  show execCeGtDataWrite d k v s = _
  simp [execCeGtDataWrite, hce]

theorem gtWrite_readOnly (s : State) (d k e : Nat) (v : Word) : gtWrite s d k e 7 v = .next s := rfl

theorem gtWrite_busy {s : State} {d k e w : Nat} (v : Word) (hw : w ≠ 7) (hvalid : (s.grp d k e).valid = true)
    (hbusy : entryBusy (s.ent d k e) = true) : gtWrite s d k e w v = .fault (.undefinedMisuse 386) := by
  simp [gtWrite, hw, hvalid, hbusy]

theorem groupMisuse_of_invalid {s : State} {d k e : Nat} (h : (s.grp d k e).valid = false) : groupMisuse s d k e = none := by
  simp [groupMisuse, h]

/-- A write that leaves an entry invalid only stores its word (R386). -/
theorem gtWrite_invalid {s s1 : State} {d k e w : Nat} {v : Word} (hw : w ≠ 7) (hold : (s.grp d k e).valid = false)
    (hs1 : s1 = s.setCe d k { s.ce d k with gt := (s.ce d k).gt.set 0 (e * 8 + w) v }) (hnew : (s1.grp d k e).valid = false) :
    gtWrite s d k e w v = .next s1 := by
  rw [gtWrite, if_neg (by simp [hw])]
  dsimp only
  rw [hold, Bool.false_and, if_neg Bool.false_ne_true, ← hs1, groupMisuse_of_invalid hnew, hnew]
  rfl

/-- Settles O38: SKIP and RESUME change their entry alone, and a write by the word it names and the entry's VALID before and after. -/
theorem groupControlComplete : Obligations.GroupControlComplete := by
  refine ⟨⟨?skip, ?resume, ?readOnly, ?invalid⟩, ?busy⟩
  case skip =>
    intro d k e s hce he hempty
    rw [exec_ceGroupCtlSkip hce he, groupSkip_of_empty hempty]
  case resume =>
    intro d k e s hce he
    refine ⟨groupResume s d k e, exec_ceGroupCtlResume hce he, ?_, s.setEnt_mem d k e _, s.setEnt_csr d k e _⟩
    rw [groupResume, State.ent_setEnt_same]
  case readOnly =>
    intro d k v s hce hword
    rw [exec_ceGtDataWrite v hce, hword, gtWrite_readOnly]
  case invalid =>
    rintro d k e w v s s1 hce rfl rfl hw hold hs1 hnew
    rw [exec_ceGtDataWrite v hce, gtWrite_invalid hw hold hs1 hnew]
  case busy =>
    rintro d k e v s hce rfl hw hvalid hbusy
    rw [exec_ceGtDataWrite v hce, gtWrite_busy v hw hvalid hbusy]

end Sys2Proof.Machine
end

section
/-! SUPPORT. A running operation's commands (R398, R405, R413, R414, R423, R424, R462): a transfer that times out, and a packet that the
meter of its CE passes. -/

namespace Sys2Proof.Machine

@[simp] theorem State.ni_setNi_same (s : State) (d p : Nat) (n : Ni) : (s.setNi d p n).ni d p = n :=
  Tbl.get_set_same _ _ _ _

theorem attCe_sub (k : Nat) : attCe k - 1024 = k := Nat.add_sub_cancel_left 1024 k

theorem isTile_attCe (s : State) (d k : Nat) : isTile s d (attCe k) = false := by
  rw [isTile, decide_eq_false (by unfold attCe; omega), Bool.and_false]

/-! ## Chunks, hangs and timeouts (R405, R413, R423) -/

theorem exec_chunkStart {s : State} {d k : Nat} (e tag : Nat) (hce : ceExists s d k = true) (henabled : ceEnabled s d k = true) :
    exec (.chunkStart d k e tag) s =
      .next (settleOp (checkResidue (startChunk s ⟨d, k, e, tag⟩) ⟨d, k, e, tag⟩) ⟨d, k, e, tag⟩) :=
  (onUnit_of_exists _ hce).trans (by rw [if_pos henabled])

/-- An operation without progress for HANG_TMO aborts with REASON 3 (R423). -/
theorem exec_ceHang_late {s : State} {d k e tag : Nat} {o : CeOp} (hce : ceExists s d k = true) (ho : s.op ⟨d, k, e, tag⟩ = some o)
    (hlate : o.progressFt + (s.grp d k e).hang ≤ s.now d) :
    exec (.ceHang d k e tag) s = .next (originate s ⟨d, k, e, tag⟩ 3) := by
  refine (onUnit_of_exists _ hce).trans ?_
  simp [ho, hlate]

/-- A tile's transfer that is late leaves its send engine, which reports it to the home CE (R381, R405). -/
theorem tileTimeout_late {s : State} {d p n k e : Nat} {x : Xfer} (hx : (s.ni d p).rx[n]? = some x)
    (hhome : homeCeOf s d x.key.group p = some (k, e)) (hlate : x.firstFt + (s.grp d k e).tmo ≤ s.now d) :
    ∃ r, tileTimeout s d p n =
      s.setNi d p { s.ni d p with rx := (s.ni d p).rx.eraseIdx n, reports := (s.ni d p).reports ++ [r] } := by
  simp only [tileTimeout, hx, hhome, if_neg (Nat.not_lt.mpr hlate)]
  exact ⟨_, rfl⟩

theorem exec_chunkTimeout_tile {s : State} {d p : Nat} (n : Nat) (h : isTile s d p = true) :
    exec (.chunkTimeout d p n) s = .next (tileTimeout s d p n) :=
  if_pos h

theorem exec_chunkTimeout_ce {s : State} {d k : Nat} (n : Nat) (h : ceExists s d k = true) :
    exec (.chunkTimeout d (attCe k) n) s = .next (ceTimeout s d k n) := by
  show execChunkTimeout d (attCe k) n s = _
  rw [execChunkTimeout, isTile_attCe, attCe_sub]
  exact onUnit_of_exists _ (by simp [attCe, h])

/-! ## Packets past the meter of their CE (R294) -/

/-- The arrival of a packet at CE `k`, where it acts once the ingress meter has passed it. -/
def meteredArrive (s : State) (d k cmd : Nat) (h : Hdr) (act : State → State) : Out :=
  if !ceExists s d k then .fault .noSuchUnit
  else arrive s d (attCe k) cmd { hdr := h } (fun s => match ceIngress s d k h with
    | some t => act t
    | none => meterDrop s d k h)

theorem exec_chunkNack (s : State) (d k : Nat) (h : Hdr) :
    exec (.chunkNack d k h) s = meteredArrive s d k 0x34 h (fun t => nackArrive t d k h) := rfl

theorem exec_abort (s : State) (d k : Nat) (h : Hdr) :
    exec (.abort d k h) s = meteredArrive s d k 0x35 h (fun t => abortArrive t d k h) := rfl

theorem exec_syncRelease (s : State) (d k : Nat) (h : Hdr) :
    exec (.syncRelease d k h) s = meteredArrive s d k 0x1E h (fun t => releaseArrive t d k h) := rfl

theorem meteredArrive_passed {s t : State} {d k cmd : Nat} {h : Hdr} (act : State → State) (hce : ceExists s d k = true)
    (hpass : ceIngress (takeArrival s d (attCe k) { hdr := h }) d k h = some t)
    (htaken : taken s d (attCe k) cmd { hdr := h } = true) : meteredArrive s d k cmd h act = .next (act t) := by
  simp [meteredArrive, hce, arrive_of_taken _ htaken, hpass]

/-- Settles O37: each command's unit exists, its instant has come, and its packet has passed the meter. -/
theorem operationCommandsComplete : Obligations.OperationCommandsComplete := by
  refine ⟨⟨?chunkStart, ?stagingWaitEnd, ?tileTimeout, ?ceTimeout, ?chunkResend, ?ceHang, ?operationEnd⟩, ?packets⟩
  case chunkStart => exact fun d k e tag s _ hce henabled _ _ => exec_chunkStart e tag hce henabled
  case stagingWaitEnd => exact fun d k s hce _ => onUnit_of_exists _ hce
  case tileTimeout =>
    intro d p n k e s x htile hx hhome hlate
    obtain ⟨r, hr⟩ := tileTimeout_late hx hhome hlate
    refine ⟨_, (exec_chunkTimeout_tile n htile).trans (by rw [hr]), ?_, ?_, s.setNi_mem d p _, s.setNi_csr d p _⟩
    · rw [State.ni_setNi_same]
    · rw [State.ni_setNi_same, List.length_append, List.length_singleton]
  case ceTimeout => exact fun d k n s _ _ hce _ _ => exec_chunkTimeout_ce n hce
  case chunkResend => exact fun d k e tag s _ hce _ => onUnit_of_exists _ hce
  case ceHang => exact fun d k e tag s _ hce ho hlate => exec_ceHang_late hce ho hlate
  case operationEnd => exact fun d k e tag s _ hce _ _ => onUnit_of_exists _ hce
  case packets =>
    intro s t d k h hce hpass
    rw [exec_chunkNack, exec_abort, exec_syncRelease]
    exact ⟨meteredArrive_passed _ hce hpass, meteredArrive_passed _ hce hpass, meteredArrive_passed _ hce hpass⟩

end Sys2Proof.Machine
end

section
/-! SUPPORT. Commit coordinators and commit units (R492 to R498): what a completion record leaves of its coordinator's queue, and when each
event of theirs is due. -/

namespace Sys2Proof.Machine

/-! ## A coordinator's queue of requests -/

@[simp] theorem State.coord_setCoord_same (s : State) (d k : Nat) (c : Coord) : (s.setCoord d k c).coord d k = c :=
  Tbl.get_set_same _ _ _ _

theorem coord_of_coords {s t : State} (h : t.coords = s.coords) (d k : Nat) : t.coord d k = s.coord d k := by
  rw [State.coord, State.coord, h]

@[simp] theorem sendAll_coords (s : State) (d att : Nat) (ps : List Packet) : (sendAll s d att ps).coords = s.coords :=
  foldl_keeps State.coords (fun s _ => s.enqueue_coords d att _) ps s

@[simp] theorem setCoSlot_queue (s : State) (d k n : Nat) (x : Option CoSlot) :
    ((setCoSlot s d k n x).coord d k).queue = (s.coord d k).queue := by
  rw [setCoSlot, State.coord_setCoord_same]

@[simp] theorem pumpCoRecs_queue (s : State) (d k : Nat) : ((pumpCoRecs s d k).coord d k).queue = (s.coord d k).queue := by
  unfold pumpCoRecs
  extract_lets c
  split
  · rw [coord_of_coords (sendAll_coords _ _ _ _), State.coord_setCoord_same]
  · rfl

@[simp] theorem addCoRec_queue (s : State) (d k : Nat) (r : CoRec) : ((addCoRec s d k r).coord d k).queue = (s.coord d k).queue := by
  rw [addCoRec, pumpCoRecs_queue, State.coord_setCoord_same]

/-- A slot that ends with no step group to abort and no request waiting leaves its record alone (R493, R497). -/
theorem slotDone_alone {s : State} {d k : Nat} {x : CoSlot} (n outcome na nd nm : Nat) (hstep : x.req.getLsbD 214 = false)
    (hqueue : (s.coord d k).queue = []) :
    slotDone s d k n x outcome na nd nm = .next (addCoRec (setCoSlot s d k n none) d k
      { order := x.order, word := coRecWord x.req x.group outcome na nd nm, done := qDone x.req }) := by
  unfold slotDone
  extract_lets s1 r
  have hr : r = .next s1 := if_neg (by rw [hstep, Bool.false_and]; exact Bool.false_ne_true)
  have hnone : (s1.coord d k).queue = [] := by rw [addCoRec_queue, setCoSlot_queue, hqueue]
  rw [hr]
  dsimp only
  rw [hnone]
  rfl

/-! ## The events of a coordinator (R388, R493) -/

/-- A fetch reads up to 8 requests from HEAD, to the end of the ring at most; one that failed before waits for its retry (R388, R493). -/
theorem requestFetch_due {s : State} {d k z m : Nat} (henabled : s.flag d (ccw k CMT_Q_CFG) 0 = true)
    (hhalted : attHalted s d (attCe k) = false) (hfetch : (s.coord d k).fetch = none)
    (hretry : ∀ t, (s.coord d k).retryAt = some t → t ≤ s.now d) (hgap : coGap (s.coord d k) ≠ 0)
    (hz : z = 2 ^ s.fld d (ccw k CMT_Q_CFG) 11 8) (hm : m = min (min 8 (coGap (s.coord d k))) (z - (s.coord d k).head % z)) :
    requestFetch s d k = sendAt (s.setCoord d k { s.coord d k with fetch := some m, retryAt := none }) d (attCe k)
      { hdr := { mkHdr 0x04 2 (s.reg d (ccw k CMT_Q_BASE) + BitVec.ofNat 64 (64 * ((s.coord d k).head % z))) (ceSrc s d k) with
        tag := BitVec.ofNat 16 tagReq, inl := BitVec.ofNat 128 m } } := by
  subst hz hm
  cases hat : (s.coord d k).retryAt with
  | none => simp [requestFetch, henabled, hhalted, hfetch, hgap, hat]
  | some t => simp [requestFetch, henabled, hhalted, hfetch, hgap, hat, hretry t hat]

section
variable {s : State} {d k n : Nat} {x : CoSlot} (hce : ceExists s d k = true) (hslot : coSlot s d k n = some x)
include hce hslot

theorem exec_confirmDeadline_staging (hdue : slotD s d k x ≤ s.now d) (hst : x.st = 1) :
    exec (.confirmDeadline d k n) s = .next (abandon s d k n x) := by
  refine (onUnit_of_exists _ hce).trans ?_
  simp [hslot, Nat.not_lt.mpr hdue, hst]

theorem exec_confirmDeadline_confirming (hdue : slotD s d k x ≤ s.now d) (hst : x.st = 2) :
    exec (.confirmDeadline d k n) s =
      .next (setCoSlot (dropUnsent s d k 0 0x22 x.group) d k n (some { x with st := 3 })) := by
  refine (onUnit_of_exists _ hce).trans ?_
  simp [hslot, Nat.not_lt.mpr hdue, hst]

/-- Without an outcome by T + REPORT_WAIT + OUTCOME_WAIT a slot ends NO_RECORD (R493). -/
theorem exec_outcomeWaitExpiry_due
    (hdue : x.t + 1000 * s.fld d CMT_CFG 47 32 + 1000 * s.fld d (ccw k CMT_CE_CFG) 31 16 ≤ s.now d) :
    exec (.outcomeWaitExpiry d k n) s = slotDone s d k n x 4 0 0 0 := by
  show execOutcomeWaitExpiry d k n s = _
  simp [execOutcomeWaitExpiry, hce, hslot, hdue]

end

/-! ## The events of a commit unit (R492, R495, R498) -/

theorem exec_commitApply_due {s : State} {d : Nat} (hd : dieExists s d = true) (hhalted : attHalted s d attCtl = false)
    (hfenced : unitFenced s d 9 = false) (hfabric : fabricOnDie s d = true) :
    exec (.commitApply d) s = .next (spareTakeover (darnApplied s (commitApply s d) d) d) := by
  show execCommitApply d s = _
  simp [execCommitApply, onUnit_of_exists _ hd, applyDue, hhalted, hfenced, hfabric]

theorem exec_recorderDecision {s : State} {d : Nat} (hd : dieExists s d = true) (hhalted : attHalted s d attCtl = false) :
    exec (.recorderDecision d) s = .next (recorderDecision s d) := by
  refine (onUnit_of_exists _ hd).trans ?_
  simp [hhalted]

/-- Settles O40: each event is due, and an ended slot finds no request waiting behind its record. The READ of a fetch ends at the ring's
end (log 74) and carries the model's own TAG (log 47). -/
theorem commitEventsComplete : Obligations.CommitEventsComplete := by
  refine ⟨?fetch, ?deadline, ?expiry, ?apply, ?decision⟩
  case fetch =>
    intro d k z m s hce henabled hhalted hfetch hretry hgap hz hm
    refine (onUnit_of_exists _ hce).trans ?_
    rw [requestFetch_due henabled hhalted hfetch hretry hgap hz hm]
  case deadline =>
    exact fun d k n s x hce hslot hdue =>
      ⟨exec_confirmDeadline_staging hce hslot hdue, exec_confirmDeadline_confirming hce hslot hdue⟩
  case expiry =>
    intro d k n s x hce hslot hdue hstep hqueue
    rw [exec_outcomeWaitExpiry_due hce hslot hdue, slotDone_alone n 4 0 0 0 hstep hqueue]
  case apply => exact fun d s hd hhalted hfenced hfabric => exec_commitApply_due hd hhalted hfenced hfabric
  case decision => exact fun d s hd hhalted => exec_recorderDecision hd hhalted

end Sys2Proof.Machine
end

section
/-! SUPPORT. A sync object's fields (R446 to R448): what an operation that replaces some of them leaves of the others. -/

namespace Sys2Proof

/-- A field above the one replaced stays. -/
theorem bitsOf_setBits_above {w : Nat} (x : BitVec w) {hi lo : Nat} (hi' lo' v : Nat) (habove : hi' < lo) (hlo : lo' ≤ hi') (hw : hi < w) :
    bitsOf (setBits x hi' lo' v) hi lo = bitsOf x hi lo := by
  refine Nat.eq_of_testBit_eq fun i => ?_
  rw [testBit_bitsOf, testBit_bitsOf]
  by_cases hin : i < hi + 1 - lo
  · rw [getLsbD_setBits x hi' lo' v (lo + i) hlo (by omega), if_pos (.inr (by omega))]
  · simp [hin]

end Sys2Proof

namespace Sys2Proof.Machine

theorem objLow_lt (x : BitVec 128) : objLow x < 2 ^ 32 := bitsOf_lt x 31 0

theorem objHigh_lt (x : BitVec 128) : objHigh x < 2 ^ 32 := bitsOf_lt x 63 32

/-! ## A new COUNT, OWNER or FVAL, and a new EPOCH -/

@[simp] theorem objLow_setLow (x : BitVec 128) (v : Nat) : objLow (setBits x 31 0 v) = v % 2 ^ 32 :=
  bitsOf_setBits_same x 31 0 v (by decide) (by decide)

@[simp] theorem objHigh_setLow (x : BitVec 128) (v : Nat) : objHigh (setBits x 31 0 v) = objHigh x :=
  bitsOf_setBits_above x 31 0 v (by decide) (by decide) (by decide)

@[simp] theorem objEpoch_setLow (x : BitVec 128) (v : Nat) : objEpoch (setBits x 31 0 v) = objEpoch x :=
  bitsOf_setBits_above x 31 0 v (by decide) (by decide) (by decide)

@[simp] theorem objAuto_setLow (x : BitVec 128) (v : Nat) : objAuto (setBits x 31 0 v) = objAuto x :=
  (getLsbD_setBits x 31 0 v 123 (by decide) (by decide)).trans (if_pos (by decide))

@[simp] theorem objPaired_setLow (x : BitVec 128) (v : Nat) : objPaired (setBits x 31 0 v) = objPaired x :=
  (getLsbD_setBits x 31 0 v 124 (by decide) (by decide)).trans (if_pos (by decide))

@[simp] theorem objLow_setEpoch (x : BitVec 128) (v : Nat) : objLow (setBits x 121 114 v) = objLow x :=
  bitsOf_setBits_below x 121 114 v (by decide) (by decide) (by decide)

@[simp] theorem objEpoch_setEpoch (x : BitVec 128) (v : Nat) : objEpoch (setBits x 121 114 v) = v % 256 :=
  bitsOf_setBits_same x 121 114 v (by decide) (by decide)

end Sys2Proof.Machine
end

section
/-! SUPPORT. Counters and semaphores (R451, R459): the release check, ADD and TAKE, case by case. -/

namespace Sys2Proof.Machine

/-! ## Counters (R459) -/

theorem releaseCheck_short {x : BitVec 128} (done : Bool) (h : objHigh x = 0 ∨ objLow x < objHigh x) :
    releaseCheck done x = (x, false) := by
  rw [releaseCheck, if_pos (by simpa using h)]

/-- A counter released under AUTO: the target is subtracted, and a paired half moves on to the next epoch of its parity (R459). -/
def releasedObj (x : BitVec 128) : BitVec 128 :=
  if objPaired x then setBits (setBits x 31 0 (objLow x - objHigh x)) 121 114 (objEpoch x + 2)
  else setBits x 31 0 (objLow x - objHigh x)

theorem releaseCheck_auto {x : BitVec 128} (done : Bool) (hne : objHigh x ≠ 0) (hle : objHigh x ≤ objLow x) (hauto : objAuto x = true) :
    releaseCheck done x = (releasedObj x, true) := by
  have hshort : ¬ (objHigh x == 0 || decide (objLow x < objHigh x)) = true := by simp [hne, hle]
  rw [releaseCheck, if_neg hshort, if_pos hauto, releasedObj]

theorem objLow_releasedObj (x : BitVec 128) : objLow (releasedObj x) = objLow x - objHigh x := by
  have hlow : (objLow x - objHigh x) % 2 ^ 32 = objLow x - objHigh x :=
    Nat.mod_eq_of_lt (Nat.lt_of_le_of_lt (Nat.sub_le _ _) (objLow_lt x))
  rw [releasedObj]
  split
  · rw [objLow_setEpoch, objLow_setLow, hlow]
  · rw [objLow_setLow, hlow]

theorem objEpoch_releasedObj {x : BitVec 128} (hpaired : objPaired x = true) : objEpoch (releasedObj x) = (objEpoch x + 2) % 256 := by
  rw [releasedObj, if_pos hpaired, objEpoch_setEpoch]

section
variable {x : BitVec 128} (hcounter : objType x = 1)
include hcounter

/-- An ADD leaves what the release check makes of the new count. -/
theorem syncAdd_counter {done : Bool} {n : Nat} {y : BitVec 128} {r : Bool}
    (hcheck : releaseCheck done (setBits x 31 0 (objLow x + n)) = (y, r)) :
    (syncAdd done x n).obj = y ∧ (syncAdd done x n).released = r := by
  rw [syncAdd, if_pos (beq_iff_eq.mpr hcounter), hcheck]
  exact ⟨rfl, rfl⟩

/-- An ADD that does not bring a counter to a target: the count alone changes. -/
theorem syncAdd_counter_short (done : Bool) {n : Nat} (h : objHigh x = 0 ∨ (objLow x + n) % 2 ^ 32 < objHigh x) :
    objLow (syncAdd done x n).obj = (objLow x + n) % 2 ^ 32 ∧ (syncAdd done x n).released = false := by
  have hshort : objHigh (setBits x 31 0 (objLow x + n)) = 0 ∨
      objLow (setBits x 31 0 (objLow x + n)) < objHigh (setBits x 31 0 (objLow x + n)) := by
    rwa [objHigh_setLow, objLow_setLow]
  obtain ⟨hobj, hreleased⟩ := syncAdd_counter hcounter (releaseCheck_short done hshort)
  rw [hobj, objLow_setLow]
  exact ⟨rfl, hreleased⟩

/-- An ADD that brings a counter with AUTO to its target releases it. -/
theorem syncAdd_counter_auto (done : Bool) {n : Nat} (hne : objHigh x ≠ 0) (hle : objHigh x ≤ (objLow x + n) % 2 ^ 32)
    (hauto : objAuto x = true) :
    objLow (syncAdd done x n).obj = (objLow x + n) % 2 ^ 32 - objHigh x ∧ (syncAdd done x n).released = true ∧
      (objPaired x = true → objEpoch (syncAdd done x n).obj = (objEpoch x + 2) % 256) := by
  have hcheck : releaseCheck done (setBits x 31 0 (objLow x + n)) = (releasedObj (setBits x 31 0 (objLow x + n)), true) := by
    apply releaseCheck_auto
    · rwa [objHigh_setLow]
    · rwa [objHigh_setLow, objLow_setLow]
    · rwa [objAuto_setLow]
  obtain ⟨hobj, hreleased⟩ := syncAdd_counter hcounter hcheck
  rw [hobj]
  refine ⟨?low, hreleased, fun hpaired => ?epoch⟩
  case low => rw [objLow_releasedObj, objLow_setLow, objHigh_setLow]
  case epoch => rw [objEpoch_releasedObj (by rwa [objPaired_setLow]), objEpoch_setLow]

end

/-! ## Semaphores (R451) -/

theorem syncTake_enough {x : BitVec 128} {n : Nat} (h : n ≤ objLow x) :
    objLow (syncTake x n).obj = objLow x - n ∧ (syncTake x n).result = 0 := by
  rw [syncTake, if_pos h]
  refine ⟨?_, rfl⟩
  rw [objLow_setLow, Nat.mod_eq_of_lt (Nat.lt_of_le_of_lt (Nat.sub_le _ _) (objLow_lt x))]

theorem syncTake_busy {x : BitVec 128} {n : Nat} (h : objLow x < n) : (syncTake x n).obj = x ∧ (syncTake x n).result = 1 := by
  rw [syncTake, if_neg (Nat.not_le.mpr h)]
  exact ⟨rfl, rfl⟩

/-- The count at which ADD stops: MAX, or all ones where MAX is 0. -/
def semMax (x : BitVec 128) : Nat := if objHigh x = 0 then 2 ^ 32 - 1 else objHigh x

theorem semMax_lt (x : BitVec 128) : semMax x < 2 ^ 32 := by
  have hhigh := objHigh_lt x
  rw [semMax]
  split
  · decide
  · exact hhigh

theorem objLow_syncAdd_semaphore {x : BitVec 128} (done : Bool) (n : Nat) (h : objType x = 2) :
    objLow (syncAdd done x n).obj = min (objLow x + n) (semMax x) := by
  have hobj : (syncAdd done x n).obj = setBits x 31 0 (min (objLow x + n) (semMax x)) := by simp [syncAdd, h, semMax]
  rw [hobj, objLow_setLow, Nat.mod_eq_of_lt (Nat.lt_of_le_of_lt (Nat.min_le_right _ _) (semMax_lt x))]

/-- Settles O27: a counter by whether the new count reaches a target, a semaphore by its units and its MAX. -/
theorem countersAndSemaphores : Obligations.CountersAndSemaphores := by
  refine ⟨?counter, ?semaphore⟩
  case counter =>
    intro x n hcounter
    exact ⟨fun hzero => syncAdd_counter_short hcounter false (.inl hzero),
      fun _ hbelow => syncAdd_counter_short hcounter false (.inr hbelow),
      fun hne hreached hauto => syncAdd_counter_auto hcounter false hne hreached hauto⟩
  case semaphore =>
    intro x n hsem
    rw [objLow_syncAdd_semaphore false n hsem]
    exact ⟨syncTake_enough, syncTake_busy, fun hmax => by rw [semMax, if_neg hmax], fun hmax => by rw [semMax, if_pos hmax]⟩

end Sys2Proof.Machine
end

section
/-! SUPPORT. Locks (R463): HELD, BROKEN and the owner after an ACQUIRE, an UNLOCK and a break. -/

namespace Sys2Proof.Machine

@[simp] theorem lockHeld_freeLock (x : BitVec 128) (broken : Bool) : lockHeld (freeLock x broken) = false := by
  rw [lockHeld, freeLock, getLsbD_setBits _ _ _ _ _ (by decide) (by decide)]
  cases broken <;> rfl

@[simp] theorem lockBroken_freeLock (x : BitVec 128) (broken : Bool) : lockBroken (freeLock x broken) = broken := by
  rw [lockBroken, freeLock, getLsbD_setBits _ _ _ _ _ (by decide) (by decide)]
  cases broken <;> rfl

/-- A lock taken by `owner` at time `t` (R463). -/
def acquiredLock (x : BitVec 128) (owner t : Nat) : BitVec 128 := setBits (setBits (setBits x 31 0 owner) 33 32 1) 63 34 t

/-- A held lock answers BUSY and stays as it is. -/
theorem syncAcquire_held {x : BitVec 128} (src : BitVec 32) (t hold : Nat) (h : lockHeld x = true) :
    (syncAcquire x src t hold).obj = x ∧ (syncAcquire x src t hold).result = 1 := by
  rw [syncAcquire, if_pos h]
  exact ⟨rfl, rfl⟩

/-- A free lock goes to the sender, which is told whether it was broken. -/
theorem syncAcquire_free {x : BitVec 128} (src : BitVec 32) (t hold : Nat) (h : lockHeld x = false) :
    (syncAcquire x src t hold).obj = acquiredLock x src.toNat t ∧
      (syncAcquire x src t hold).result = if lockBroken x then 2 else 0 := by
  rw [syncAcquire, if_neg (Bool.eq_false_iff.mp h)]
  exact ⟨rfl, rfl⟩

section
variable (x : BitVec 128) (owner t : Nat)

theorem lockHeld_acquiredLock : lockHeld (acquiredLock x owner t) = true := by
  rw [lockHeld, acquiredLock, getLsbD_setBits _ 63 34 _ _ (by decide) (by decide), getLsbD_setBits _ 33 32 _ _ (by decide) (by decide)]
  rfl

theorem lockBroken_acquiredLock : lockBroken (acquiredLock x owner t) = false := by
  rw [lockBroken, acquiredLock, getLsbD_setBits _ 63 34 _ _ (by decide) (by decide), getLsbD_setBits _ 33 32 _ _ (by decide) (by decide)]
  rfl

theorem objLow_acquiredLock : objLow (acquiredLock x owner t) = owner % 2 ^ 32 := by
  rw [objLow, acquiredLock, bitsOf_setBits_below _ 63 34 _ (by decide) (by decide) (by decide),
    bitsOf_setBits_below _ 33 32 _ (by decide) (by decide) (by decide)]
  exact objLow_setLow x owner

end

/-- The owner's UNLOCK frees a lock. -/
theorem syncUnlock_owner {x : BitVec 128} {src : BitVec 32} (hheld : lockHeld x = true) (howner : objLow x = src.toNat) :
    (syncUnlock x src).obj = freeLock x false ∧ (syncUnlock x src).result = 0 := by
  rw [syncUnlock, if_pos (by simp [hheld, howner])]
  exact ⟨rfl, rfl⟩

theorem syncUnlock_other {x : BitVec 128} {src : BitVec 32} (h : lockHeld x = false ∨ objLow x ≠ src.toNat) :
    (syncUnlock x src).obj = x ∧ (syncUnlock x src).result = 3 := by
  rw [syncUnlock, if_neg (by simpa [← Bool.not_eq_true, imp_iff_not_or] using h)]
  exact ⟨rfl, rfl⟩

/-- Settles O28: each operation's object by the branch that the lock's state takes, and the object's bits by the fields it sets. -/
theorem lockStates : Obligations.LockStates := by
  intro x src t hold
  refine ⟨?free, ?busy, ?owner, ?other, ?lost⟩
  case free =>
    intro hfree
    obtain ⟨hobj, hresult⟩ := syncAcquire_free src t hold hfree
    rw [hobj, hresult]
    refine ⟨lockHeld_acquiredLock x src.toNat t, lockBroken_acquiredLock x src.toNat t, ?_, rfl⟩
    rw [objLow_acquiredLock, Nat.mod_eq_of_lt src.isLt]
  case busy => exact syncAcquire_held src t hold
  case owner =>
    intro hheld howner
    obtain ⟨hobj, hresult⟩ := syncUnlock_owner hheld howner
    rw [hobj]
    exact ⟨lockHeld_freeLock x false, hresult⟩
  case other => exact syncUnlock_other
  case lost => exact ⟨lockHeld_freeLock x true, lockBroken_freeLock x true⟩

end Sys2Proof.Machine
end

section
/-! SUPPORT. What a sync operation leaves as it was (R445, R451, R467): memory, the queue and every object but its own. -/

namespace Sys2Proof.Machine

@[simp] theorem State.sobj_setSobj_same (s : State) (d o : Nat) (x : BitVec 128) : (s.setSobj d o x).sobj d o = x :=
  Tbl.get_set_same _ _ _ _

theorem sobj_of_syncObj {s t : State} (h : t.syncObj = s.syncObj) (d o : Nat) : t.sobj d o = s.sobj d o := by
  rw [State.sobj, State.sobj, h]

/-- `t` has the memory, the queue and, object `o` of die `d` apart, the sync objects that `s` has. -/
structure ObjFrame (d o : Nat) (s t : State) : Prop where
  mem : t.mem = s.mem
  pending : t.pending = s.pending
  sobj : ∀ x y, ok x y ≠ ok d o → t.sobj x y = s.sobj x y

namespace ObjFrame

variable {d o : Nat} {s t u : State}

theorem refl : ObjFrame d o s s := ⟨rfl, rfl, fun _ _ _ => rfl⟩

theorem trans (h : ObjFrame d o s t) (h' : ObjFrame d o t u) : ObjFrame d o s u :=
  ⟨h'.mem.trans h.mem, h'.pending.trans h.pending, fun x y hxy => (h'.sobj x y hxy).trans (h.sobj x y hxy)⟩

/-- What writes no sync object at all. -/
theorem of_syncObj (hmem : t.mem = s.mem) (hpending : t.pending = s.pending) (hobj : t.syncObj = s.syncObj) : ObjFrame d o s t :=
  ⟨hmem, hpending, fun x y _ => sobj_of_syncObj hobj x y⟩

theorem setSobj (s : State) (x : BitVec 128) : ObjFrame d o s (s.setSobj d o x) :=
  ⟨s.setSobj_mem d o x, s.setSobj_pending d o x, fun _ _ h => Tbl.get_set_other _ _ _ _ _ h⟩

theorem bump (s : State) (off hi lo n : Nat) : ObjFrame d o s (s.bump d off hi lo n) :=
  of_syncObj (s.bump_mem d off hi lo n) (s.bump_pending d off hi lo n) (s.bump_syncObj d off hi lo n)

theorem raise (s : State) (off b : Nat) : ObjFrame d o s (s.raise d off b) :=
  of_syncObj (s.raise_mem d off b) (s.raise_pending d off b) (s.raise_syncObj d off b)

theorem draw (s : State) : ObjFrame d o s s.draw.2 :=
  of_syncObj rfl rfl rfl

theorem answer (s : State) (h : Hdr) (result value : Nat) : ObjFrame d o s (answer s d h result value) :=
  of_syncObj rfl rfl rfl

theorem notify (s : State) (x : BitVec 128) (status result value : Nat) : ObjFrame d o s (notify s d x status result value) :=
  of_syncObj rfl rfl rfl

/-- A choice between two states, each of which keeps the frame. -/
theorem ite {p : Prop} [Decidable p] (ht : ObjFrame d o s t) (hu : ObjFrame d o s u) : ObjFrame d o s (if p then t else u) := by
  split
  · exact ht
  · exact hu

/-! ## The watch and the results of an operation (R451, R455) -/

theorem settle (s : State) (old new : BitVec 128) (released : Bool) : ObjFrame d o s (settle s d o old new released) :=
  ite ((notify s new 0 4 _).trans (setSobj _ _)) (setSobj s _)

theorem syncRefuse (s : State) (cmd : Nat) (h : Hdr) (result : Nat) : ObjFrame d o s (syncRefuse s d cmd o h result) := by
  unfold Machine.syncRefuse
  extract_lets s1
  have hs1 : ObjFrame d o s s1 := ite ((bump s _ _ _ _).trans (raise _ _ _)) (raise s _ _)
  exact ite (hs1.trans (answer s1 h _ _)) hs1

theorem syncFinish (s : State) (cmd : Nat) (h : Hdr) (r : SyncRes) : ObjFrame d o s (syncFinish s d cmd o h r) := by
  unfold Machine.syncFinish
  extract_lets old s1 s2
  have hs1 : ObjFrame d o s s1 := ite refl (ite (of_syncObj rfl rfl rfl) (of_syncObj rfl rfl rfl))
  have hs2 : ObjFrame d o s s2 := ite (hs1.trans (answer s1 h _ _)) hs1
  exact hs2.trans (settle s2 old r.obj r.released)

/-! ## INIT, WAIT and CANCEL (R451, R454, R458, R468) -/

theorem initEnds (s : State) : ObjFrame d o s (initEnds s d o) :=
  ite (of_syncObj rfl rfl rfl) refl

theorem syncInitOp (s : State) (h : Hdr) : ObjFrame d o s (syncInitOp s d o h) := by
  unfold Machine.syncInitOp
  extract_lets x v y0 y written s1 s2
  have hwritten : ObjFrame d o s written := (initEnds s).trans (setSobj _ y)
  have hs1 : ObjFrame d o s s1 := hwritten.trans (of_syncObj rfl rfl rfl)
  have hs2 : ObjFrame d o s s2 := ite (hs1.trans (notify s1 x 0 7 _)) hs1
  exact ite (hs2.trans (answer s2 h _ _)) hs2

theorem syncWaitOp (s : State) (h : Hdr) : ObjFrame d o s (syncWaitOp s d o h) := by
  unfold Machine.syncWaitOp
  extract_lets x s1 y0 y
  have hs1 : ObjFrame d o s s1 := ite (notify s x 0 7 _) refl
  exact ite (answer s h _ _) (ite ((hs1.trans (notify s1 y 0 4 _)).trans (setSobj _ _)) (hs1.trans (setSobj s1 y)))

theorem syncCancelOp (s : State) (h : Hdr) : ObjFrame d o s (syncCancelOp s d o h) := by
  unfold Machine.syncCancelOp
  extract_lets x y s1
  have hs1 : ObjFrame d o s s1 := setSobj s y
  exact ite (hs1.trans (answer s1 h _ _)) hs1

/-! ## One SYNC_OP (R445, R467) -/

theorem syncPerform (s : State) (cmd : Nat) (h : Hdr) : ObjFrame d o s (syncPerform s d cmd o h) := by
  unfold Machine.syncPerform
  extract_lets x fin done
  have hfin (r : SyncRes) : ObjFrame d o s (fin r) := syncFinish s cmd h r
  -- INIT, WAIT and CANCEL have operations of their own; a CMD that is no operation changes nothing.
  split
  case h_2 => exact syncInitOp s h
  case h_10 => exact syncWaitOp s h
  case h_11 => exact syncCancelOp s h
  case h_12 => exact refl
  all_goals exact hfin _

theorem epochOp (s : State) (e : Nat) : ObjFrame d o s (epochOp s d o e) := by
  unfold Machine.epochOp
  extract_lets x
  have hfree : ObjFrame d o s (s.draw.2.setSobj d o (setBits x 63 0 s.draw.1.toNat)) := (draw s).trans (setSobj _ _)
  exact ite refl (ite (hfree.trans (of_syncObj rfl rfl rfl)) (ite (of_syncObj rfl rfl rfl) refl))

theorem spoilObj (s : State) : ObjFrame d o s (spoilObj s d o) := by
  unfold Machine.spoilObj
  dsimp -zeta only
  extract_lets x y s3
  have hs3 : ObjFrame d o s s3 := ((draw s).trans (draw s.draw.2)).trans (setSobj _ y)
  exact ite (hs3.trans (notify s3 x _ _ _)) hs3

end ObjFrame

theorem syncOp_objFrame (s : State) (d cmd : Nat) (h : Hdr) : ObjFrame d (syncTarget s d h) s (syncOp s d cmd h) := by
  unfold syncOp
  extract_lets s0 o s1 x s2
  have hs0 : ObjFrame d o s s0 := .ite ((ObjFrame.bump s _ _ _ _).trans (.bump _ _ _ _ _)) .refl
  have hs1 : ObjFrame d o s s1 := .ite hs0 (hs0.trans (.epochOp s0 _))
  have hperform : ObjFrame d o s1 (syncPerform (s1.bump d SYN_OPS 47 0 1) d cmd o h) :=
    (ObjFrame.bump s1 _ _ _ _).trans (.syncPerform _ cmd h)
  have hs2 : ObjFrame d o s1 s2 := .ite (.syncRefuse s1 cmd h 5) (.ite (.syncRefuse s1 cmd h 6) hperform)
  have hop : ObjFrame d o s s2 := hs1.trans hs2
  exact .ite .refl (.ite (hop.trans (.spoilObj s2)) hop)

/-- Settles O26: each part of a sync operation writes at most the object that the operation acts on. -/
theorem syncOpFrame : Obligations.SyncOpFrame := by
  intro s d cmd h
  have hframe := syncOp_objFrame s d cmd h
  exact ⟨hframe.mem, hframe.pending, hframe.sobj⟩

end Sys2Proof.Machine
end

section
/-! SUPPORT. The commands of the sync store (R444, R463 to R465, R469): where each completes, and what a lock lost to its owner reads as. -/

namespace Sys2Proof.Machine

theorem syncArrive_of_taken {s : State} {d cmd : Nat} {h : Hdr} (htaken : taken s d attSync cmd { hdr := h } = true) :
    syncArrive d cmd h s = .next (syncOp (statUpdate (takeArrival s d attSync { hdr := h }) d
      (partState (takeArrival s d attSync { hdr := h }) d) h) d cmd h) :=
  arrive_of_taken _ htaken

/-- Settles O25: each of the eleven commands is one arrival at the store, under its own CMD. -/
theorem syncOpsComplete : Obligations.SyncOpsComplete := by
  intro d h s
  refine ⟨?_, ?_, ?_, ?_, ?_, ?_, ?_, ?_, ?_, ?_, ?_⟩
  all_goals exact syncArrive_of_taken

/-! ## Lost locks (R463, R465) -/

/-- An object that an operation leaves differs from the one settled at most in WATCH_VALID. -/
theorem getLsbD_sobj_settle (s : State) (d o : Nat) (old new : BitVec 128) (released : Bool) {b : Nat} (hb : b < 128) (hwatch : b ≠ 122) :
    ((settle s d o old new released).sobj d o).getLsbD b = new.getLsbD b := by
  have hclear : (setBits new 122 122 0).getLsbD b = new.getLsbD b :=
    (getLsbD_setBits new 122 122 0 b (by decide) hb).trans (if_pos (by omega))
  unfold settle
  split
  · rw [State.sobj_setSobj_same]
    split
    · exact hclear
    · rfl
  · rw [State.sobj_setSobj_same]

theorem breakLock_objFrame (s : State) (d o : Nat) : ObjFrame d o s (breakLock s d o) :=
  (ObjFrame.settle s _ _ false).trans (.raise _ _ _)

theorem sobj_breakLock (s : State) (d o : Nat) : (breakLock s d o).sobj d o = (loseLock s d o).sobj d o :=
  sobj_of_syncObj (State.raise_syncObj _ d SYN_EVENT 1) d o

theorem lockHeld_breakLock (s : State) (d o : Nat) : lockHeld ((breakLock s d o).sobj d o) = false := by
  rw [sobj_breakLock, loseLock, lockHeld, getLsbD_sobj_settle _ _ _ _ _ _ (by decide) (by decide)]
  exact lockHeld_freeLock _ true

theorem lockBroken_breakLock (s : State) (d o : Nat) : lockBroken ((breakLock s d o).sobj d o) = true := by
  rw [sobj_breakLock, loseLock, lockBroken, getLsbD_sobj_settle _ _ _ _ _ _ (by decide) (by decide)]
  exact lockBroken_freeLock _ true

/-- An examination that finds a next lock: the lock is broken where the break names its owner, and the break goes on behind it. -/
theorem breakExamine_next {s : State} {d pkg die next o : Nat} {rest : List (Nat × Nat × Nat)}
    (hbreak : s.syncBreak.get [] d = (pkg, die, next) :: rest) (hfind : (lockObjects s d).find? (fun o => next ≤ o) = some o) :
    (breakExamine s d).syncBreak.get [] d = (pkg, die, o + 1) :: rest ∧ (breakExamine s d).mem = s.mem ∧
      (ownedBy (s.sobj d o) pkg die = true → (breakExamine s d).sobj d o = (breakLock s d o).sobj d o) := by
  have hframe : ObjFrame d o s (breakLock s d o) := breakLock_objFrame s d o
  simp only [breakExamine, hbreak, hfind]
  generalize breakLock s d o = t at hframe ⊢
  exact ⟨Tbl.get_set_same _ _ _ _, (ObjFrame.ite hframe .refl).mem,
    fun howned => sobj_of_syncObj (congrArg State.syncObj (if_pos howned)) d o⟩

/-! ## The commands -/

theorem exec_lockCeilingExamine {s : State} {d : Nat} (hkind : isKind s d .compute = true) (hhalted : attHalted s d attSync = false) :
    exec (.lockCeilingExamine d) s = .next ((lockObjects s d).foldl (fun s o => ceilingExamine s d o) s) :=
  (onUnit_of_exists _ hkind).trans (by rw [if_neg (Bool.eq_false_iff.mp hhalted)])

theorem exec_synBreakExamine {s : State} {d : Nat} (hkind : isKind s d .compute = true) (hhalted : attHalted s d attSync = false) :
    exec (.synBreakExamine d) s = .next (breakExamine s d) :=
  (onUnit_of_exists _ hkind).trans (by rw [if_neg (Bool.eq_false_iff.mp hhalted)])

/-- Settles O29: every command at a store that runs, and a break by its next lock. -/
theorem syncRegisterCommandsComplete : Obligations.SyncRegisterCommandsComplete := by
  refine ⟨?ceiling, ?start, ?examine, ?write⟩
  case ceiling => exact fun d s hkind hhalted => exec_lockCeilingExamine hkind hhalted
  case start => exact fun d v s hkind => ⟨breakStart s d v, onUnit_of_exists _ hkind, Tbl.get_set_same _ _ _ _, rfl, rfl⟩
  case examine =>
    intro d pkg die next o rest s hkind hhalted hbreak hfind
    obtain ⟨hrest, hmem, hlost⟩ := breakExamine_next hbreak hfind
    refine ⟨breakExamine s d, exec_synBreakExamine hkind hhalted, hrest, hmem, fun howned => ?_⟩
    rw [hlost howned]
    exact ⟨lockHeld_breakLock s d o, lockBroken_breakLock s d o⟩
  case write =>
    intro d o v s hkind ho
    exact onUnit_of_exists _ (by rw [hkind, decide_eq_true ho, Bool.and_self])

end Sys2Proof.Machine
end

section
/-! SUPPORT. Commit packets (R485 to R493): where a commit unit and a coordinator act on them, and what a CONFIRM makes of the window that
it names. -/

namespace Sys2Proof.Machine

/-! ## At a commit unit and at a CE (R294, R500) -/

theorem commitArrive_open {s : State} {d cmd : Nat} {p : Packet} (act : State → State) (htaken : taken s d attCtl cmd p = true)
    (hopen : commitOpen (takeArrival s d attCtl p) d = true) :
    commitArrive s d cmd p act =
      .next (act (statUpdate (takeArrival s d attCtl p) d (partState (takeArrival s d attCtl p) d) p.hdr)) := by
  rw [commitArrive, arrive_of_taken _ htaken, if_pos hopen]

theorem exec_targetReport_ctl {s : State} {d : Nat} {h : Hdr} (htaken : taken s d attCtl 0x23 { hdr := h } = true)
    (hreport : h.inlBits 359 352 ≠ 1) :
    exec (.targetReport d attCtl h) s = commitArrive s d 0x23 { hdr := h } (fun s => reportAtRecorder s d h) := by
  show execTargetReport d attCtl h s = _
  rw [execTargetReport, headerChecked_of_taken _ htaken, if_neg (by simpa using hreport), if_pos (beq_self_eq_true attCtl)]

theorem coordArrive_passed {s t : State} {d k cmd : Nat} {h : Hdr} (act : State → Out) (hce : ceExists s d k = true)
    (hpass : ceIngress (takeArrival s d (attCe k) { hdr := h }) d k h = some t)
    (htaken : taken s d (attCe k) cmd { hdr := h } = true) : coordArrive s d k cmd h act = act t := by
  simp [coordArrive, hce, arriveAt_of_taken _ htaken, hpass]

/-- A target's report changes nothing at the coordinator's CE but what its meter counts (R493). -/
theorem exec_targetReport_ce {s t : State} {d k : Nat} {h : Hdr} (hce : ceExists s d k = true)
    (hpass : ceIngress (takeArrival s d (attCe k) { hdr := h }) d k h = some t)
    (htaken : taken s d (attCe k) 0x23 { hdr := h } = true) (hreport : h.inlBits 359 352 ≠ 1) :
    exec (.targetReport d (attCe k) h) s = .next t := by
  have hk := ceExists_lt hce
  have hctl : ¬ (attCe k == attCtl) = true := by
    rw [beq_iff_eq, attCe, attCtl]
    omega
  have hatt : (decide (1024 ≤ attCe k) && ceExists s d (attCe k - 1024)) = true := by simp [attCe, hce]
  show execTargetReport d (attCe k) h s = _
  rw [execTargetReport, headerChecked_of_taken _ htaken, if_neg (by simpa using hreport), if_neg hctl, if_pos hatt,
    arrive_of_taken _ htaken, attCe_sub, hpass]

/-- The recorder's outcome for a slot that is no longer STAGING ends it (R493, R497). -/
theorem outcomeArrive_ends {s : State} {d k : Nat} {h : Hdr} {x : CoSlot} (hslot : coSlot s d k (h.group.toNat % 256) = some x)
    (hgroup : x.group = h.group.toNat) (hst : x.st ≠ 1) :
    outcomeArrive s d k h = slotDone s d k (h.group.toNat % 256) x (h.inlBits 367 360) (h.inlBits 378 368) (h.inlBits 389 379)
      (h.inlBits 400 390) := by
  simp [outcomeArrive, hslot, hgroup, hst]

/-- Settles O39: a packet that its commit unit accepts, or that the meter of its CE passes, and an outcome that ends its slot. -/
theorem commitPacketsComplete : Obligations.CommitPacketsComplete := by
  refine ⟨?stage, ?confirm, ?report, ?ce⟩
  case stage => exact fun d p s htaken hopen => commitArrive_open (fun s => stageArrive s d p) htaken hopen
  case confirm => exact fun d h s htaken hopen => commitArrive_open (fun s => confirmArrive s d h) htaken hopen
  case report =>
    intro d h s htaken hreport hopen
    rw [exec_targetReport_ctl htaken hreport, commitArrive_open _ htaken hopen]
  case ce =>
    intro d k h s t hce hpass
    refine ⟨fun htaken => coordArrive_passed _ hce hpass htaken,
      fun htaken hreport => exec_targetReport_ce hce hpass htaken hreport, ?outcome⟩
    intro x htaken houtcome hslot hgroup hst hstep hqueue
    show coordArrive s d k 0x23 h _ = _
    rw [coordArrive_passed _ hce hpass htaken, if_neg (by simpa using houtcome), outcomeArrive_ends hslot hgroup hst,
      slotDone_alone _ _ _ _ _ hstep hqueue]

/-! ## CONFIRM (R487, R490, R491) -/

@[simp] theorem State.win_setWin_same (s : State) (d n : Nat) (w : Win) : (s.setWin d n w).win d n = w :=
  Tbl.get_set_same _ _ _ _

theorem win_of_wins {s t : State} (h : t.wins = s.wins) (d n : Nat) : t.win d n = s.win d n := by
  rw [State.win, State.win, h]

theorem State.flag_raise_same (s : State) (d off : Nat) {b : Nat} (hb : b < 64) : (s.raise d off b).flag d off b = true := by
  have hbit : (s.raise d off b).fld d off b b = 1 % 2 ^ (b + 1 - b) := s.fld_setFld_same d off b b 1 (Nat.le_refl b) hb
  rw [Nat.add_sub_cancel_left] at hbit
  rw [State.flag, hbit]
  rfl

theorem State.reg_raise_other (s : State) (d b : Nat) {off c : Nat} (h : c ≠ off) : (s.raise d off b).reg d c = s.reg d c :=
  s.reg_setReg_other d off d c _ (fun e => h (Nat.add_left_cancel e))

/-- Whether window `n` is STAGED for the group and target that a CONFIRM names (R487). -/
def confirmable (s : State) (d : Nat) (h : Hdr) (n : Nat) : Bool :=
  (s.win d n).st == 2 && (s.win d n).src == h.src && (s.win d n).group == h.group.toNat && (s.win d n).tag == h.tag.toNat

theorem confirmable_staged {s : State} {d n : Nat} {h : Hdr} (hn : confirmable s d h n = true) : (s.win d n).st = 2 := by
  simp only [confirmable, Bool.and_eq_true, beq_iff_eq] at hn
  obtain ⟨⟨⟨hst, _⟩, _⟩, _⟩ := hn
  exact hst

/-- What a CONFIRM makes of the window that it finds (R490, R491): with another T the verdict is MISMATCH, whether it is late or not
(log 76); GUARD or more before T it confirms; later the verdict is LATE. -/
theorem confirmArrive_found {s : State} {d n : Nat} {h : Hdr} (hfind : (List.range 16).find? (confirmable s d h) = some n) :
    (applyFt40 h ≠ (s.win d n).t % 2 ^ 40 →
      confirmArrive s d h = (s.setWin d n { s.win d n with verdict := 3 }).raise d CMT_EVENT 3) ∧
    (applyFt40 h = (s.win d n).t % 2 ^ 40 → s.now d + guardNs s d < (s.win d n).t →
      confirmArrive s d h = s.setWin d n { s.win d n with st := 3, confirmed := true }) ∧
    (applyFt40 h = (s.win d n).t % 2 ^ 40 → (s.win d n).t ≤ s.now d + guardNs s d →
      confirmArrive s d h = ((s.setWin d n { s.win d n with verdict := 2 }).raise d CMT_EVENT 0).bump d CMT_LATE 47 0 1) := by
  unfold confirmArrive
  extract_lets hit
  rw [show (List.range 16).find? hit = some n from hfind]
  dsimp only
  refine ⟨fun hT => if_pos (bne_iff_ne.mpr hT), fun hT htime => ?_, fun hT hlate => ?_⟩
  · rw [if_neg (by simp [hT]), if_pos htime]
  · rw [if_neg (by simp [hT]), if_neg (Nat.not_lt.mpr hlate)]

/-- The event of a late CONFIRM does not disturb the count of them. -/
theorem fld_bump_late (s : State) (d : Nat) (h : s.wrote d CMT_LATE 47 0 = false) :
    ((s.raise d CMT_EVENT 0).bump d CMT_LATE 47 0 1).fld d CMT_LATE 47 0 = (s.fld d CMT_LATE 47 0 + 1) % 2 ^ 48 := by
  have hreg : (s.raise d CMT_EVENT 0).reg d CMT_LATE = s.reg d CMT_LATE := s.reg_raise_other d 0 (by decide)
  have hwrote : (s.raise d CMT_EVENT 0).wrote d CMT_LATE 47 0 = false := h
  rw [(countersWrapOrSaturate _ d CMT_LATE 47 0 1 (by decide) (by decide) hwrote).1, State.fld, State.fld, hreg]

/-- Settles O41: the three things that a CONFIRM can make of its window. One that is late and names another T counts as the latter
(log 76). -/
theorem confirmAccepted : Obligations.ConfirmAccepted := by
  intro s d n h hfind
  have hconfirmable : (List.range 16).find? (confirmable s d h) = some n := hfind
  have hstaged : (s.win d n).st = 2 := confirmable_staged (List.find?_some hconfirmable)
  obtain ⟨hmismatch, hinTime, hlate⟩ := confirmArrive_found hconfirmable
  refine ⟨?mismatch, ?inTime, ?late⟩
  case mismatch =>
    intro hT
    rw [hmismatch hT, win_of_wins (State.raise_wins _ d CMT_EVENT 3), State.win_setWin_same]
    exact ⟨hstaged, rfl, State.flag_raise_same _ d CMT_EVENT (by decide)⟩
  case inTime =>
    intro hT htime
    rw [hinTime hT htime, State.win_setWin_same]
  case late =>
    intro hT htime hwrote
    rw [hlate hT htime, win_of_wins ((State.bump_wins _ d CMT_LATE 47 0 1).trans (State.raise_wins _ d CMT_EVENT 0)),
      State.win_setWin_same]
    exact ⟨hstaged, fld_bump_late (s.setWin d n { s.win d n with verdict := 2 }) d hwrote⟩

end Sys2Proof.Machine
end

section
/-! SUPPORT. A stitch port's record and its STATE (R511, R553), and DATA frames and ACKs in sequence (R525, R526). -/

namespace Sys2Proof.Machine

/-! ## The port's record and STL_STATUS.STATE (R553) -/

@[simp] theorem State.stl_setStl_same (s : State) (d : Nat) (x : Stl) : (s.setStl d x).stl d = x := Tbl.get_set_same _ _ _ _

theorem stl_of_stls {s t : State} (h : t.stls = s.stls) (d : Nat) : t.stl d = s.stl d := by
  rw [State.stl, State.stl, h]

@[simp] theorem State.stl_setFld (s : State) (d off hi lo v e : Nat) : (s.setFld d off hi lo v).stl e = s.stl e :=
  stl_of_stls (s.setFld_stls d off hi lo v) e

@[simp] theorem stlState_setStl (s : State) (d : Nat) (x : Stl) : stlState (s.setStl d x) d = stlState s d := rfl

theorem stlState_setStlState (s : State) (d : Nat) {st : Nat} (h : st < 16) : stlState (setStlState s d st) d = st :=
  (State.fld_setFld_same _ d STL_STATUS 3 0 st (by decide) (by decide)).trans (Nat.mod_eq_of_lt h)

@[simp] theorem setStlState_mem (s : State) (d st : Nat) : (setStlState s d st).mem = s.mem :=
  State.setFld_mem _ d STL_STATUS 3 0 st

/-! ## DATA frames (R526) -/

/-- A good frame in sequence: its units enter the ingress buffer, and its number is the last received. -/
theorem dataFrame_in_sequence {s x : State} {d : Nat} {f : StRx} (htake : frameTake s d f = (x, true)) (hlive : portLive x d = true)
    (hseq : f.frame.seq = ((x.stl d).rxSeq + 1) % 4096) :
    dataFrame s d f =
      x.setStl d { f.frame.slots.foldl ingressUnit (x.stl d) with rxSeq := f.frame.seq, discarding := false } := by
  simp [dataFrame, htake, hlive, hseq]

/-- Any other frame leaves the buffer and the sequence; the first of them asks for a NAK. -/
theorem dataFrame_discarded {s x : State} {d : Nat} {f : StRx} {good : Bool} (htake : frameTake s d f = (x, good))
    (hlive : portLive x d = true) (hbad : good = false ∨ f.frame.seq ≠ ((x.stl d).rxSeq + 1) % 4096) :
    dataFrame s d f = x.setStl d { x.stl d with nak := (x.stl d).nak || !(x.stl d).discarding, discarding := true } := by
  have htest : ¬ (good && f.frame.seq == ((x.stl d).rxSeq + 1) % 4096) = true := by
    rw [Bool.and_eq_true, beq_iff_eq]
    rintro ⟨hgood, hseq⟩
    exact hbad.elim (fun h => Bool.noConfusion (h.symm.trans hgood)) (fun h => h hseq)
  simp only [dataFrame, htake, hlive, Bool.not_true, Bool.false_eq_true, if_false, if_neg htest]

/-! ## ACKs (R525) -/

/-- An ACK that names a held frame frees the frames up to that one. -/
theorem takeAck_held {x : Stl} {a : Nat} (hpast : 0 < seqPast a x.acked) (hheld : seqPast a x.acked ≤ x.retry.length) :
    takeAck x a = { x with
      acked := a, retry := x.retry.drop (seqPast a x.acked), replays := 0,
      resend := x.resend.filter (fun f => seqPast f.seq a - 1 < 2048 && seqPast f.seq a != 0) } := by
  simp [takeAck, Nat.pos_iff_ne_zero.mp hpast, Nat.not_lt.mpr hheld]

theorem takeAck_not_held {x : Stl} {a : Nat} (h : seqPast a x.acked = 0 ∨ x.retry.length < seqPast a x.acked) : takeAck x a = x :=
  if_pos (by simpa using h)

/-- Settles O44: a DATA frame is either the next in sequence or discarded, and an ACK either names a held frame or none. -/
theorem framesInSequence : Obligations.FramesInSequence := by
  refine ⟨fun d f s x good htake hlive => ⟨?inSequence, ?discarded⟩, fun x a => ⟨?held, takeAck_not_held⟩⟩
  case inSequence =>
    rintro rfl hseq
    rw [dataFrame_in_sequence htake hlive hseq, State.stl_setStl_same]
    exact ⟨rfl, rfl⟩
  case discarded =>
    intro hbad
    rw [dataFrame_discarded htake hlive hbad, State.stl_setStl_same]
    exact ⟨rfl, rfl, rfl, rfl⟩
  case held =>
    intro hpast hheld
    rw [takeAck_held hpast hheld]
    exact ⟨by rw [List.length_drop, Nat.sub_add_cancel hheld], rfl, rfl⟩

end Sys2Proof.Machine
end

section
/-! SUPPORT. The training of a stitch port (R527, R530, R531, R533): the branch that each of its commands takes, and what taking the
PMA's lock, the alignment's lock and a new DETECT leaves in STATE and in memory. -/

namespace Sys2Proof.Machine

/-! ## The commands of a port -/

theorem onPort_of_due {s t u : State} {d : Nat} {c : Prop} [Decidable c] (hport : isKind s d .port = true) (hc : c) :
    onPort s d (if c then t else u) = .next t :=
  (onUnit_of_exists _ hport).trans (congrArg _ (if_pos hc))

/-- The condition of a time-out: the port is in a state, and the time has come. -/
theorem and_decide_le {b : Bool} {m n : Nat} (hb : b = true) (h : m ≤ n) : (b && decide (m ≤ n)) = true := by
  rw [hb, decide_eq_true h, Bool.and_self]

theorem beq_or_beq {n i j : Nat} (h : n = i ∨ n = j) : (n == i || n == j) = true := by
  simpa using h

/-! ## The lanes (R530, R531, R557) -/

/-- STL_LANE_STATE is not STL_STATUS. -/
@[simp] theorem stlState_setLaneState (s : State) (d hi lo v : Nat) :
    stlState (s.setFld d STL_LANE_STATE hi lo v) d = stlState s d := by
  have hkey : ck d STL_STATUS ≠ ck d STL_LANE_STATE := fun h => absurd (Nat.add_left_cancel h) (by decide)
  rw [stlState, stlState, State.fld, State.fld, State.setFld, State.reg_setReg_other _ _ _ _ _ _ hkey]

@[simp] theorem stlState_showSpares (s : State) (d : Nat) : stlState (showSpares s d) d = stlState s d := by
  simp [showSpares]

@[simp] theorem stl_showSpares (s : State) (d : Nat) : (showSpares s d).stl d = s.stl d := by
  simp [showSpares]

@[simp] theorem showSpares_mem (s : State) (d : Nat) : (showSpares s d).mem = s.mem :=
  (State.setFld_mem _ d STL_LANE_STATE 31 27 _).trans (State.setFld_mem _ d STL_LANE_STATE 26 22 _)

/-- A port that equalises or retrains aligns next, on the first 20 lanes with lock. -/
theorem pmaLock_trains {s : State} {d lanes : Nat} (hst : stlState s d = 2 ∨ stlState s d = 7) (hlanes : 20 ≤ (laneList lanes).length) :
    stlState (pmaLock s d lanes) d = 3 ∧ ((pmaLock s d lanes).stl d).rxLanes = (laneList lanes).take 20 ∧
      (pmaLock s d lanes).mem = s.mem := by
  simp [pmaLock, hst, Nat.not_lt.mpr hlanes, stlState_setStlState]

/-! ## ALIGN and INIT (R530) -/

/-- The lock bit stands above STATE in STL_STATUS. -/
theorem stlState_setLocked (s : State) (d v : Nat) : stlState (s.setFld d STL_STATUS 8 8 v) d = stlState s d := by
  rw [stlState, stlState, State.fld, State.fld, State.setFld, State.reg_setReg_same,
    bitsOf_setBits_below _ 8 8 v (by decide) (by decide) (by decide)]

theorem flag_setFld_one (s : State) (d off : Nat) {b : Nat} (hb : b < 64) : (s.setFld d off b b 1).flag d off b = true :=
  s.flag_raise_same d off hb

theorem exec_alignmentLock_aligning {s : State} {d : Nat} (group : Nat) (hport : isKind s d .port = true) (hst : stlState s d = 3) :
    exec (.alignmentLock d group) s = .next (((setStlState s d 4).setStl d
      { (setStlState s d 4).stl d with group := group % 65536, tries := 0 }).setFld d STL_STATUS 8 8 1) :=
  (onUnit_of_exists _ hport).trans (congrArg _ (if_neg (by simp [hst])))

section
variable {s : State} {d : Nat} (hport : isKind s d .port = true) (hst : stlState s d = 3) (hdue : (s.stl d).sinceFt + 1000000 ≤ s.now d)
include hport hst hdue

theorem exec_alignTimeout_due :
    exec (.alignTimeout d) s = .next (if 3 ≤ (s.stl d).tries then portFail s d
      else (setStlState s d 2).setStl d { s.stl d with tries := (s.stl d).tries + 1, sinceFt := s.now d }) := by
  have hlate : ¬ (stlState s d != 3 || decide (s.now d < (s.stl d).sinceFt + ms 1)) = true := by
    simp [hst, Nat.not_lt.mpr hdue, ms]
  exact (onUnit_of_exists _ hport).trans (congrArg _ (if_neg hlate))

theorem exec_alignTimeout_fails (htries : 3 ≤ (s.stl d).tries) : exec (.alignTimeout d) s = .next (portFail s d) := by
  rw [exec_alignTimeout_due hport hst hdue, if_pos htries]

theorem exec_alignTimeout_retries (htries : (s.stl d).tries < 3) :
    exec (.alignTimeout d) s =
      .next ((setStlState s d 2).setStl d { s.stl d with tries := (s.stl d).tries + 1, sinceFt := s.now d }) := by
  rw [exec_alignTimeout_due hport hst hdue, if_neg (Nat.not_le.mpr htries)]

end

/-! ## DETECT (R530, R555) -/

theorem stlState_portDetect (s : State) (d : Nat) : stlState (portDetect s d) d = 1 := by
  simp [portDetect, stlState_setStlState]

theorem portRetrainCtl_of_down {s : State} {d : Nat} (h : stlState s d = 8 ∨ stlState s d = 9) : portRetrainCtl s d = portDetect s d :=
  if_pos (beq_or_beq h)

/-- Settles O43: each command finds the port in its state, and the time of a time-out has come. REASON 2 of a port without
frames is the model's own (log 85), and so is the way that a port which retrains takes (log 86). -/
theorem portTrainingComplete : Obligations.PortTrainingComplete := by
  intro d s hport
  refine ⟨?lockLoss, ?noFrame, ?signal, ?pmaLock, ?alignLock, ?detect, ?equalise, ?alignFails, ?alignRetries, ?retrain, ?window, ?switch,
    ?fence, ?restart, ?retry⟩
  case lockLoss => exact onPort_of_due hport
  case noFrame => exact fun hst hdue => onPort_of_due hport (and_decide_le (beq_or_beq (.inl hst)) hdue)
  case signal => exact fun lanes hst hlanes => onPort_of_due hport (and_decide_le (beq_iff_eq.mpr hst) hlanes)
  case pmaLock => exact fun lanes hst hlanes => ⟨_, onUnit_of_exists _ hport, pmaLock_trains hst hlanes⟩
  case alignLock =>
    intro group hst
    refine ⟨_, exec_alignmentLock_aligning group hport hst, ?_, ?_, flag_setFld_one _ d STL_STATUS (by decide), by simp⟩
    · rw [stlState_setLocked, stlState_setStl, stlState_setStlState _ _ (by decide)]
    · rw [State.stl_setFld, State.stl_setStl_same]
  case detect => exact fun hst hdue => onPort_of_due hport (and_decide_le (beq_iff_eq.mpr hst) hdue)
  case equalise => exact fun hst hdue => onPort_of_due hport (and_decide_le (beq_or_beq hst) hdue)
  case alignFails => exact exec_alignTimeout_fails hport
  case alignRetries =>
    intro hst hdue htries
    refine ⟨_, exec_alignTimeout_retries hport hst hdue htries, ?_, ?_, by simp⟩
    · rw [stlState_setStl, stlState_setStlState _ _ (by decide)]
    · rw [State.stl_setStl_same]
  case retrain =>
    intro hresume hst hdue
    exact onPort_of_due hport (and_decide_le (by simp [hresume, hst]) hdue)
  case window => exact onPort_of_due hport
  case switch => exact fun group _ => onUnit_of_exists _ hport
  case fence => exact onPort_of_due hport
  case restart =>
    intro hst
    exact ⟨(onUnit_of_exists _ hport).trans (congrArg _ (portRetrainCtl_of_down hst)), stlState_portDetect s d⟩
  case retry =>
    intro hreason hdue hst
    rw [← portRetrainCtl_of_down (.inl hst)]
    exact onPort_of_due hport (and_decide_le (beq_iff_eq.mpr hreason) hdue)

end Sys2Proof.Machine
end

section
/-! SUPPORT. The frames that a stitch port takes and sends, and the packets that its ingress forwards (R514, R522, R523, R526, R530, R531,
R537, R548). -/

namespace Sys2Proof.Machine

/-! ## Frames at a port that accepts them (R519, R541) -/

/-- A good frame at a live port that is not halted, and that is still live once its codes and CTRL are taken, has its own effect. -/
theorem frameAt_good {s x : State} {d : Nat} {f : StRx} (act : State → State) (hport : isKind s d .port = true)
    (hlive : portLive s d = true) (hhalted : isHalted s d 12 = false) (htake : frameTake s d f = (x, true))
    (hstill : portLive x d = true) : frameAt s d f act = .next (act x) := by
  refine (onUnit_of_exists _ hport).trans ?_
  simp [hlive, hhalted, htake, hstill]

theorem exec_frameTransmit_filled {s t : State} {d : Nat} (hport : isKind s d .port = true) (hfill : egressFill s d = .next t) :
    exec (.frameTransmit d) s = .next (frameOut t d) := by
  show execFrameTransmit d s = _
  simp [execFrameTransmit, hport, hfill]

theorem exec_dataFrame_up {s : State} {d : Nat} (f : StRx) (hport : isKind s d .port = true) (hup : stlState s d = 5)
    (hhalted : isHalted s d 12 = false) : exec (.dataFrame d f) s = .next (dataFrame s d f) :=
  (onUnit_of_exists _ hport).trans (congrArg _ (if_neg (by simp [hup, hhalted])))

/-! ## Time across the link (R548) -/

/-- The fields of a TIME response that its request determines, below the stamps and the flags that stand beside them. -/
theorem bitsOf_timeResponse {seq lock holdover t1 : Nat} (t1frac t2 t2frac : Nat) (hseq : seq < 2 ^ 4) (hlock : lock < 2)
    (hholdover : holdover < 2) (ht1 : t1 < 2 ^ 40) {w : BitVec 512}
    (hw : w = BitVec.ofNat 512 (1 + seq * 2 ^ 4 + lock * 2 ^ 8 + holdover * 2 ^ 9 + t1 * 2 ^ 56 + t1frac * 2 ^ 96 + t2 * 2 ^ 100 +
      t2frac * 2 ^ 140)) :
    bitsOf w 3 0 = 1 ∧ bitsOf w 7 4 = seq ∧ bitsOf w 95 56 = t1 := by
  subst hw
  simp only [bitsOf, BitVec.toNat_ofNat]
  omega

theorem boolNat_lt (b : Bool) : boolNat b < 2 := by
  cases b
  all_goals decide

/-- No port carries a request of a master where no die is one. -/
theorem masterOf_of_no_master {s : State} (d : Nat) (h : ∀ m ∈ allDies s, s.fld m TIM_CFG 1 0 ≠ 1) : masterOf s d = none := by
  refine List.find?_eq_none.mpr fun m hm => ?_
  simp [h m hm]

/-- The response that a port awaits ends the exchange, also where no master uses it. -/
theorem exec_stitchTimeResponse_no_master {s x : State} {d : Nat} {f : StRx}
    (hgood : ∀ act : State → State, frameAt s d f act = .next (act x))
    (hseq : (x.stl d).timeSeq = some (bitsOf f.frame.slot0 7 4)) (hmaster : ∀ m ∈ allDies x, x.fld m TIM_CFG 1 0 ≠ 1) :
    ∃ t, exec (.stitchTimeResponse d f) s = .next t ∧ (t.stl d).timeSeq = none := by
  show ∃ t, execStitchTimeResponse d f s = .next t ∧ _
  refine ⟨_, hgood _, ?_⟩
  rw [if_neg (by simp [hseq]), masterOf_of_no_master d hmaster]
  dsimp only
  rw [stl_of_stls (State.setReg_stls _ d STL_TIME _), State.stl_setStl_same]

/-! ## INIT frames (R530, R552, R561) -/

theorem exec_initFrame_init {s : State} {d : Nat} (f : StRx) (hport : isKind s d .port = true) (hst : stlState s d = 4)
    (hhalted : isHalted s d 12 = false) (hsplit : splitBad s d = false) : exec (.initFrame d f) s = .next (initFrame s d f) := by
  show execInitFrame d f s = _
  simp [execInitFrame, onPort, onUnit_of_exists _ hport, hst, hhalted, hsplit]

theorem initFrame_good {s x : State} {d : Nat} {f : StRx} (htake : frameTake s d f = (x, true)) :
    initFrame s d f = if bitsOf f.frame.slot0 15 0 = s.fld d STL_PEER_EXP 15 0 then portUp x d f.frame.slot0
      else portFail ((setPeer x d f.frame.slot0).raise d STL_EVENT 3) d := by
  simp [initFrame, htake]

/-! ## The route of a packet from an ingress (R510, R537) -/

/-- A packet with hops left in its segment goes on in that segment's direction. -/
theorem ingressRoute_same_segment {s : State} {d q : Nat} {p : StPk} (hhops : 0 < p.pos.hops)
    (hq : dirPort s d (segDir p.pk.hdr p.pos.seg) = some q) :
    ingressRoute s d p = .next (transitTo s d q p.pk ⟨p.pos.seg, p.pos.hops - 1⟩) := by
  simp [ingressRoute, hhops, hq]

/-- At the end of a segment a packet turns into the next one that has a hop. -/
theorem ingressRoute_next_segment {s : State} {d q : Nat} {p : StPk} (hhops : p.pos.hops = 0) (hseg : p.pos.seg ≠ 2)
    (hnext : (pkgSeg p.pk.hdr (p.pos.seg + 1)).1 ≠ 0) (hq : dirPort s d (segDir p.pk.hdr (p.pos.seg + 1)) = some q) :
    ingressRoute s d p = .next (transitTo s d q p.pk ⟨p.pos.seg + 1, (pkgSeg p.pk.hdr (p.pos.seg + 1)).1 - 1⟩) := by
  simp [ingressRoute, hhops, hseg, hnext, hq]

theorem ingressRoute_last_segment {s : State} {d : Nat} {p : StPk} (hhops : p.pos.hops = 0)
    (hlast : p.pos.seg = 2 ∨ (pkgSeg p.pk.hdr (p.pos.seg + 1)).1 = 0) : ingressRoute s d p = ingressArrive s d p.pk := by
  simp [ingressRoute, hhops, hlast]

/-- Whether a packet that arrives at port die `d` is bound for a CE of that die, whose port path it takes (R510). -/
def boundForOwnCe (s : State) (d : Nat) (h : Hdr) : Prop :=
  h.destDie = d ∧ natBit h.destOff 33 = true ∧ h.destOff / 2 ^ 30 % 8 < 4 ∧ boundOn s .port d h = .ce (h.destOff / 2 ^ 30 % 8)

/-- The test that `ingressArrive` makes of it. -/
theorem boundForOwnCe_iff {s : State} {d : Nat} {h : Hdr} :
    (h.destDie == d && natBit h.destOff 33 && decide (h.destOff / 2 ^ 30 % 8 < 4) &&
      boundOn s .port d h == .ce (h.destOff / 2 ^ 30 % 8)) = true ↔ boundForOwnCe s d h := by
  simp only [boundForOwnCe, Bool.and_eq_true, beq_iff_eq, decide_eq_true_eq, and_assoc]

section
variable {s : State} {d : Nat} {p : Packet} (hpkg : p.hdr.destPkg = s.pkgOf d)
include hpkg

theorem ingressArrive_own_ce (hce : boundForOwnCe s d p.hdr) :
    ingressArrive s d p = .next (cePath s d (p.hdr.destOff / 2 ^ 30 % 8) p) := by
  rw [ingressArrive, if_neg (by simp [hpkg]), if_pos (boundForOwnCe_iff.mpr hce)]

section
variable (hmesh : ¬ boundForOwnCe s d p.hdr)
include hmesh

/-- Without the arrival table a packet enters the mesh at its own destination. -/
theorem ingressArrive_mesh (htable : s.flag d STL_CFG 1 = false) : ingressArrive s d p = .next (ingressQueue s d p 2 0) := by
  rw [ingressArrive, if_neg (by simp [hpkg]), if_neg (mt boundForOwnCe_iff.mp hmesh), if_neg (by simp [htable])]

/-- With the arrival table it takes the entry's route, and without an entry it is discarded and counted. -/
theorem ingressArrive_table (htable : s.flag d STL_CFG 1 = true) {a : BitVec 64}
    (ha : s.arrivalTab.get 0 ((d * 8 + portNum s d) * 128 + p.hdr.destDie) = a) :
    ingressArrive s d p = if a.getLsbD 48 then .next (ingressQueue s d p 3 (BitVec.ofNat 48 (bitsOf a 47 0)))
      else .next (s.bump d (niw 3 NI_NOROUTE) 47 0 1) := by
  subst ha
  rw [ingressArrive, if_neg (by simp [hpkg]), if_neg (mt boundForOwnCe_iff.mp hmesh), if_pos htable]

end
end

/-! ## The head of an ingress buffer (R514, R524) -/

theorem exec_ingressForward {s : State} {d : Nat} (hport : isKind s d .port = true) (hhalted : isHalted s d 12 = false) :
    exec (.ingressForward d) s = ingressForward s d := by
  show execIngressForward d s = _
  simp [execIngressForward, hport, hhalted]

section
variable {s s1 : State} {d c n : Nat} {p : StPk} {ps : List StPk} (hbuf : (s.stl d).inBuf = p :: ps)
  (hc : c = cls p.pk.hdr.vc.toNat p.dl) (hn : n = 1 + p.pk.data.length)
  (hs1 : s1 = s.setStl d { s.stl d with inBuf := ps, owed := (s.stl d).owed.set 0 c ((s.stl d).owed.get 0 c + n) })
include hbuf hc hn hs1

theorem ingressForward_bad_header (hcrc : p.pk.hdr.crcOk = false) :
    ingressForward s d = .next (hcrcFault s1 d 12 p.pk.hdr.vc.toNat p.pk.hdr.tag.toNat) := by
  subst hs1 hn hc
  simp [ingressForward, hbuf, hcrc, Nat.add_assoc]

/-- Behind the meter the packet is observed, and it goes on unless the meter discards it. -/
theorem ingressForward_metered {colour : Nat} {drop : Bool} {s2 : State} (hcrc : p.pk.hdr.crcOk = true)
    (hmeter : meterPass s1 d 8 p.pk.hdr.vc.toNat p.pk.hdr.len.toNat = (colour, drop, s2)) :
    ingressForward s d = if drop = true then .next (probeEval s2 d 7 0 0 colour p.pk.hdr)
      else ingressRoute (probeEval s2 d 7 0 0 colour p.pk.hdr) d p := by
  subst hs1 hn hc
  simp [ingressForward, hbuf, hcrc, Nat.add_assoc, hmeter]

end

/-- Settles O42: a frame at a port that accepts it has its own effect, and a packet at the head of an ingress buffer takes one of the
branches of its forwarding. A STANDBY port takes a FENCE frame as an UP port does (log 85). -/
theorem stitchFrameCommandsComplete : Obligations.StitchFrameCommandsComplete := by
  refine ⟨?transmit, ?control, ?data, ?forward, ?ingress, ?init⟩
  case transmit => exact fun d s t hport hfill => exec_frameTransmit_filled hport hfill
  case control =>
    intro d f s x hport hlive hhalted htake hstill
    have hgood (act : State → State) : frameAt s d f act = .next (act x) := frameAt_good act hport hlive hhalted htake hstill
    refine ⟨?idle, ?fence, ?laneRequest, ?laneAck, ?timeRequest, exec_stitchTimeResponse_no_master hgood⟩
    case idle =>
      show execIdleFrame d f s = _
      exact hgood _
    case fence =>
      show execFenceFrame d f s = _
      exact hgood _
    case laneRequest =>
      show execLaneRequest d f s = _
      exact hgood _
    case laneAck =>
      show execLaneAck d f s = _
      exact hgood _
    case timeRequest =>
      show ∃ t w, execStitchTimeRequest d f s = .next t ∧ _
      obtain ⟨hkind, hseq, ht1⟩ := bitsOf_timeResponse _ _ _ (bitsOf_lt f.frame.slot0 7 4) (boolNat_lt _) (boolNat_lt _)
        (bitsOf_lt f.frame.slot0 51 12) rfl
      exact ⟨_, _, hgood _, congrArg Stl.ctl (State.stl_setStl_same _ _ _), hkind, hseq, ht1, rfl, rfl⟩
  case data => exact fun d f s hport hup hhalted => exec_dataFrame_up f hport hup hhalted
  case forward => exact fun d s t p ps hport hhalted _ hnext => (exec_ingressForward hport hhalted).trans hnext
  case ingress =>
    intro d c n s s1 p ps hport hhalted hbuf hclass hn hs1
    rw [exec_ingressForward hport hhalted]
    refine ⟨ingressForward_bad_header hbuf hclass hn hs1, ?dropped, ?passed⟩
    case dropped => exact fun colour s2 hcrc hmeter => ingressForward_metered hbuf hclass hn hs1 hcrc hmeter
    case passed =>
      intro colour s2 s3 hcrc hmeter hs3
      have hroute : ingressForward s d = ingressRoute s3 d p := by
        rw [hs3]
        exact ingressForward_metered hbuf hclass hn hs1 hcrc hmeter
      rw [hroute]
      refine ⟨fun q => ingressRoute_same_segment, fun q => ingressRoute_next_segment, fun hhops hlast hpkg => ?arrived⟩
      rw [ingressRoute_last_segment hhops hlast]
      refine ⟨fun hdie hbound hce hlt => ingressArrive_own_ce hpkg ⟨hdie, hce, hlt, hbound⟩, ingressArrive_mesh hpkg, ?table⟩
      intro a hmesh htable ha
      rw [ingressArrive_table hpkg hmesh htable ha]
      exact ⟨fun h => if_pos h, fun h => if_neg (Bool.eq_false_iff.mp h)⟩
  case init =>
    intro d f s x hport hst hhalted hsplit htake
    rw [exec_initFrame_init f hport hst hhalted hsplit, initFrame_good htake]
    exact ⟨fun hpeer => congrArg _ (if_pos hpeer), fun hpeer => congrArg _ (if_neg hpeer)⟩

end Sys2Proof.Machine
end

section
/-! SUPPORT. COLD_RESET (R573, R829): showing the owner keys after a reset writes registers alone. -/

namespace Sys2Proof.Machine

/-- Two states that differ in no more than what the registers hold. -/
def RegistersOnly (s t : State) : Prop := ∃ csr, t = { s with csr := csr }

theorem registersOnly_setReg (s : State) (d off : Nat) (v : Word) : RegistersOnly s (s.setReg d off v) := ⟨_, rfl⟩

theorem registersOnly_foldl {β : Type} {f : State → β → State} (hf : ∀ s b, RegistersOnly s (f s b)) (l : List β) (s : State) :
    RegistersOnly s (l.foldl f s) := by
  induction l generalizing s with
  | nil => exact ⟨s.csr, rfl⟩
  | cons b l ih =>
    obtain ⟨csr, hstep⟩ := hf s b
    obtain ⟨csr', hrest⟩ := ih (f s b)
    exact ⟨csr', hrest.trans (by rw [hstep])⟩

theorem registersOnly_showOwner (s : State) (d : Nat) : RegistersOnly s (showOwner s d) :=
  registersOnly_foldl (fun s i => registersOnly_setReg s d (SEC_OWNER_KEY0 + 8 * i) _) (List.range 13) s

/-- Settles O30: the tables and units are those of the state at reset, and only registers are written after it. -/
theorem coldResetRestores : Obligations.ColdResetRestores := by
  intro d s hdie
  obtain ⟨csr, hcsr⟩ : RegistersOnly _ (coldReset s) := registersOnly_foldl registersOnly_showOwner _ _
  refine ⟨coldReset s, onUnit_of_exists _ hdie, ?_⟩
  rw [hcsr]
  exact ⟨rfl, rfl, rfl, rfl, rfl, rfl, rfl, rfl, rfl, rfl, rfl, rfl, rfl, rfl, rfl, rfl⟩

end Sys2Proof.Machine
end

section
/-! SUPPORT. The upkeep commands (R592, R619, R620, R638, R643 to R649, R828): the branch that each takes, and where it completes. -/

namespace Sys2Proof.Machine

/-! ## Scrubbing (R619) -/

/-- What the scrubber makes of a word that it has read, by the error that it found. -/
def scrubFound (s : State) (d : Nat) (w : ScrubAt) : WordErr → State
  | .clean => s
  | .single => faultRec s d 0x06 (scrubIndex w) 0 0
  | .double => scrubDouble (faultRec s d 0x07 (scrubIndex w) 0 0) d w

/-- In SERVICE an enabled scrubber on a slice that is not halted visits the word. -/
theorem exec_scrubWord_enabled {s : State} {d : Nat} {w : ScrubAt} (hword : scrubExists s d w = true) (hmode : s.mode = .service)
    (henable : s.flag d HLT_CFG 2 = true) (hhalted : s.halted.get none (d * 2) = none) (err : WordErr) :
    exec (.scrubWord d w err) s = .next (scrubFound s d w err) := by
  have hgo : ¬ (s.mode != .service || !s.flag d HLT_CFG 2 || (s.halted.get none (d * 2)).isSome) = true := by
    simp [hmode, henable, hhalted]
  refine (onUnit_of_exists _ hword).trans (congrArg _ ((if_neg hgo).trans ?_))
  cases err
  all_goals rfl

/-! ## Patches that Kerex makes (R592, R620, R638) -/

/-- A rotation that is enabled, due and not held off by an interim patch or a darn makes its patch and starts the next period. -/
theorem exec_wearRotation_due {s : State} {d : Nat} (hdie : dieExists s d = true) (hmode : s.mode = .service)
    (henable : s.flag d HLT_CFG 3 = true) (hperiod : s.fld d HLT_WEAR_CFG 15 0 ≠ 0)
    (hdue : s.wearFt.get 0 d + 1000000000 * s.fld d HLT_WEAR_CFG 15 0 ≤ s.now d) (hinterim : s.flag d HLT_STATUS 0 = false)
    (hidle : (s.darn d).job = none) (hmay : kerexMay s (kerexT s) true = true) :
    exec (.wearRotation d) s = .next
      { kerexPatch s 1 d (kerexT s) (altStream s d (routesWhere s d (fun _ _ v => v.getLsbD 112))) 0 with
        wearFt := s.wearFt.set 0 d (s.now d) } := by
  refine (onUnit_of_exists _ hdie).trans (congrArg _ (if_pos ?_))
  simp [hmode, henable, hperiod, hdue, hinterim, hidle, hmay]

/-- Where every cut route may turn, all of them turn and no die is lost. -/
theorem exec_interimRoutePatch_all_turn {s : State} {d : Nat} (hdie : dieExists s d = true)
    (hturn : (cutRoutes s d).filter (mayTurn s d) ≠ []) (hmay : kerexMay s (kerexT s) true = true)
    (hall : ∀ e ∈ cutRoutes s d, mayTurn s d e = true) :
    exec (.interimRoutePatch d) s =
      .next ((kerexPatch s 2 d (kerexT s) (altStream s d ((cutRoutes s d).filter (mayTurn s d))) 0).raise d HLT_STATUS 0) := by
  have hlost : (cutRoutes s d).filter (fun e => !mayTurn s d e) = [] := List.filter_eq_nil_iff.mpr fun e he => by simp [hall e he]
  have hpatch : ¬ (((cutRoutes s d).filter (mayTurn s d)).isEmpty || !kerexMay s (kerexT s) true) = true := by
    simpa [hmay] using hturn
  show execInterimRoutePatch d s = _
  simp only [execInterimRoutePatch, hlost, List.map_nil, List.eraseDups_nil, List.isEmpty_nil, if_true, if_neg hpatch]
  exact onUnit_of_exists _ hdie

/-! ## The twin read and the shift of a darn (R643, R644) -/

section
variable {s : State} {d : Nat} {j : DarnJob} (hjob : (s.darn d).job = some j)
include hjob

/-- An access of the twin read that fails gives the darn up with RESULT LOST. -/
theorem twinReadComplete_failed {w : Nat × Word} (hstate : darnState s d = 2) (htwin : j.twin = some w) :
    twinReadComplete s d false = darnRun (darnGiveUp s d j [j.p] 4) d := by
  simp [twinReadComplete, hjob, hstate, htwin]

/-- A twin read whose partner and staging still stand copies the image, records the RECV of the partner and posts both patches. -/
theorem twinReadComplete_copied {q : Nat} {w : Word} (hstate : darnState s d = 2) (htwin : j.twin = some (q, w))
    (hpartner : partnerBad s d j q = false) (hce : unitFenced s d j.ce = false) :
    twinReadComplete s d true =
      darnPost ((twinCopy s d j.ce q w).setFld d HLT_DARN_STATUS 39 8 (s.fld d (HLT_TWIN_CNT_0 + 8 * q) 63 32)) d j := by
  simp [twinReadComplete, hjob, hstate, htwin, hpartner, hce]

/-- The shift moves tables, scratchpads and the twin image, and ends with its bit in HLT_DARN_CTL cleared and the darn in SHIFTED. -/
theorem shiftComplete_shifting (hstate : darnState s d = 4) :
    shiftComplete s d = setDarnState
      ((twinWrite (shiftScratch (shiftTables s d j.row j.panel j.col) d j.row j.panel j.col) d j).setFld d HLT_DARN_CTL 6 6 0) d 5 := by
  simp only [shiftComplete, hjob, hstate, bne_self_eq_false, Bool.false_eq_true, if_false]

end

theorem darnState_setDarnState (s : State) (d : Nat) {st : Nat} (h : st < 8) : darnState (setDarnState s d st) d = st :=
  (s.fld_setFld_same d HLT_DARN_STATUS 2 0 st (by decide) (by decide)).trans (Nat.mod_eq_of_lt h)

/-- HLT_DARN_STATUS is not HLT_DARN_CTL. -/
theorem flag_darnCtl_setDarnState (s : State) (d st b : Nat) :
    (setDarnState s d st).flag d HLT_DARN_CTL b = s.flag d HLT_DARN_CTL b := by
  have hkey : ck d HLT_DARN_CTL ≠ ck d HLT_DARN_STATUS := fun h => absurd (Nat.add_left_cancel h) (by decide)
  rw [State.flag, State.flag, State.fld, State.fld, setDarnState, State.setFld, State.reg_setReg_other _ _ _ _ _ _ hkey]

theorem flag_setFld_zero (s : State) (d off : Nat) {b : Nat} (hb : b < 64) : (s.setFld d off b b 0).flag d off b = false := by
  rw [State.flag, s.fld_setFld_same d off b b 0 (Nat.le_refl b) hb, Nat.zero_mod]
  rfl

/-! ## Clock faults (R828) -/

/-- INDEX of a clock fault: a panel of a compute slice, 0 on a slice of another kind. -/
theorem clkFault_exists {s : State} {d panel : Nat} (hdie : dieExists s d = true) (hcompute : isKind s d .compute = true → panel < 2)
    (hother : isKind s d .compute = false → panel = 0) :
    (dieExists s d && (if isKind s d .compute then decide (panel < 2) else panel == 0)) = true := by
  rw [hdie, Bool.true_and]
  split
  · next hk => exact decide_eq_true (hcompute hk)
  · next hk => exact beq_iff_eq.mpr (hother (Bool.not_eq_true _ ▸ hk))

/-- Settles O46: each command's unit exists, its conditions hold, and the state chooses its branch. -/
theorem upkeepCommandsComplete : Obligations.UpkeepCommandsComplete := by
  refine ⟨?scrub, ?wear, ?interim, ?kerex, ?readFailed, ?readDone, ?shift, ?clock⟩
  case scrub =>
    intro d w s hword hmode henable hhalted
    have hvisit := exec_scrubWord_enabled hword hmode henable hhalted
    exact ⟨hvisit .clean, hvisit .single, hvisit .double⟩
  case wear =>
    intro d s hdie hmode henable hperiod hdue hinterim hidle hmay
    exact ⟨_, exec_wearRotation_due hdie hmode henable hperiod hdue hinterim hidle hmay, Tbl.get_set_same _ _ _ _, rfl⟩
  case interim => exact fun d s hdie hturn hmay hall => exec_interimRoutePatch_all_turn hdie hturn hmay hall
  case kerex => exact fun t ss s hmay => congrArg _ (if_pos hmay)
  case readFailed =>
    intro d s j w hk hjob hstate htwin
    exact (onUnit_of_exists _ hk).trans (congrArg _ (twinReadComplete_failed hjob hstate htwin))
  case readDone =>
    intro d s j q w hk hjob hstate htwin hpartner hce
    exact (onUnit_of_exists _ hk).trans (congrArg _ (twinReadComplete_copied hjob hstate htwin hpartner hce))
  case shift =>
    intro d s j hk hjob hstate
    refine ⟨_, (onUnit_of_exists _ hk).trans (congrArg _ (shiftComplete_shifting hjob hstate)), darnState_setDarnState _ d (by decide), ?_⟩
    rw [flag_darnCtl_setDarnState, flag_setFld_zero _ _ _ (by decide)]
  case clock =>
    intro d panel s x hdie hcompute hother hx hhead hne hstay
    have hverdict : ¬ (headRuns x || d == x.headDie) = true := by simp [hhead, hne]
    show execClkFault d panel s = _
    rw [execClkFault, onUnit_of_exists _ (clkFault_exists hdie hcompute hother)]
    rw [← hx, if_neg hverdict, if_pos (beq_iff_eq.mpr hstay)]

end Sys2Proof.Machine
end
section
/-! SUPPORT. The machine itself: what a step takes, the state right after reset, and the canonical form of memory as a list. -/

namespace Sys2Proof.Machine

/-! ## The front of the queue -/

/-- Settles O1. -/
theorem stepRunsFrontCommand : Obligations.StepRunsFrontCommand := by
  intro c cs s hpending
  rw [step, hpending]

/-- Settles O2. -/
theorem emptyQueueIdles : Obligations.EmptyQueueIdles := by
  intro s hpending
  rw [step, hpending]

/-! ## Right after reset -/

/-- Settles O3: every part of the reset state is its default, and the kinds are those of the reference floor. -/
theorem resetState : Obligations.ResetState := by
  refine ⟨rfl, rfl, rfl, rfl, rfl, rfl, rfl, rfl, rfl, rfl, rfl, rfl, ?compute, ?port, ?memif, ?service, ?absent⟩
  case compute => decide
  case port => decide
  case memif => decide
  case service => decide
  case absent => decide

/-- Settles O11: no byte is listed. -/
theorem resetMemoryCanonical : Obligations.ResetMemoryCanonical := rfl

/-! ## Canonical memories -/

theorem rowsSorted_iff_pairwise {α : Type} (rs : List (Nat × α)) :
    rowsSorted rs = true ↔ rs.Pairwise (fun a b => a.1 < b.1) := by
  induction rs with
  | nil => simp [rowsSorted]
  | cons a rs ih => rw [rowsSorted_cons, List.pairwise_cons, ih]; rfl

/-- In a list of rising keys, a row is what a search for its key finds. -/
theorem find_key_of_mem {α : Type} {rs : List (Nat × α)} (h : rowsSorted rs = true) {r : Nat × α} (hr : r ∈ rs) :
    rs.find? (fun x => x.1 == r.1) = some r := by
  induction rs with
  | nil => cases hr
  | cons a rs ih =>
    obtain ⟨habove, hrest⟩ := (rowsSorted_cons a rs).mp h
    rcases List.mem_cons.mp hr with rfl | hr
    · simp
    · have hne : ¬ a.1 = r.1 := Nat.ne_of_lt (habove r hr)
      simpa [hne] using ih hrest hr

/-- The cells of a canonical memory are the bytes that do not read as unwritten. -/
theorem mem_iff_readByte {m : List Host.Cell} (h : Memory.wf m = true) (c : Host.Cell) :
    c ∈ m ↔ c.2 ≠ unwritten ∧ readByte m c.1 = c.2 := by
  obtain ⟨hsorted, hwritten⟩ : rowsSorted m = true ∧ ∀ c ∈ m, c.2 ≠ unwritten := by simpa [Memory.wf] using h
  constructor
  · intro hc
    exact ⟨hwritten c hc, by rw [readByte, find_key_of_mem hsorted hc]; rfl⟩
  · rintro ⟨hne, hread⟩
    rw [readByte] at hread
    cases hfind : m.find? (fun x => x.1 == c.1) with
    | none => rw [hfind] at hread; exact absurd hread.symm hne
    | some x =>
      rw [hfind] at hread
      have hkey : x.1 = c.1 := by simpa using List.find?_some hfind
      have hx : x = c := Prod.ext hkey hread
      exact hx ▸ List.mem_of_find?_eq_some hfind

/-- Settles O6: a canonical memory is the rising list of the bytes that it gives. -/
theorem canonicalMemoryUnique : Obligations.CanonicalMemoryUnique := by
  intro m n hm hn hread
  have hsame : ∀ c, c ∈ m ↔ c ∈ n := fun c => by rw [mem_iff_readByte hm, mem_iff_readByte hn, hread]
  have hrises : ∀ l, Memory.wf l = true → l.Pairwise (fun a b => a.1 < b.1) := fun l h =>
    (rowsSorted_iff_pairwise l).mp (by simp only [Memory.wf, Bool.and_eq_true] at h; exact h.1)
  have hnodup : ∀ l : List Host.Cell, Memory.wf l = true → l.Nodup := fun l h =>
    (hrises l h).imp fun {a b} (hlt : a.1 < b.1) (heq : a = b) => absurd (congrArg Prod.fst heq) (Nat.ne_of_lt hlt)
  have hperm : m.Perm n := (List.perm_ext_iff_of_nodup (hnodup m hm) (hnodup n hn)).mpr hsame
  exact hperm.eq_of_pairwise (fun _ _ _ _ h1 h2 => absurd h1 (Nat.lt_asymm h2)) (hrises m hm) (hrises n hn)

/-! ## Halted regions (R701, R707) -/

/-- Settles O53. -/
theorem haltAndCancel : Obligations.HaltAndCancel := by
  intro s d panel
  refine ⟨?halts, ?keeps, ?ignored⟩
  case halts => intro h; simp [haltRegion, h]
  case keeps => intro c h; simp [haltRegion, h]
  case ignored => intro h; simp [stopCancel, h]

end Sys2Proof.Machine
end
section
/-! SUPPORT. Boot, the secret store and the host's accesses: the branch that the state chooses for each command. -/

namespace Sys2Proof.Machine

/-- A field below or above the one written keeps its value. -/
theorem State.fld_setFld_disjoint (s : State) (d off : Nat) {hi lo hi' lo' : Nat} (v : Nat) (h : lo ≤ hi) (hdisj : hi' < lo ∨ hi < lo') :
    (s.setFld d off hi lo v).fld d off hi' lo' = s.fld d off hi' lo' := by
  refine Nat.eq_of_testBit_eq fun i => ?_
  simp only [State.fld, testBit_bitsOf]
  by_cases hi : i < hi' + 1 - lo'
  · rw [s.getLsbD_reg_setFld_outside d off _ lo v (lo' + i) h (by omega)]
  · simp [hi]

theorem State.fld_bump_disjoint (s : State) (d off : Nat) {hi lo hi' lo' : Nat} (n : Nat) (h : lo ≤ hi) (hdisj : hi' < lo ∨ hi < lo') :
    (s.bump d off hi lo n).fld d off hi' lo' = s.fld d off hi' lo' := by
  unfold State.bump
  split
  · rfl
  · exact s.fld_setFld_disjoint d off _ h hdisj

/-! ## The boot ROM and the service dies (R770 to R780) -/

theorem bootState_setBoot (s : State) (d : Nat) {n : Nat} (h : n < 8) : bootState (setBoot s d n) d = n :=
  (s.fld_setFld_same d TLR_BOOT_STATUS 2 0 n (by decide) (by decide)).trans (Nat.mod_eq_of_lt h)

/-- A rejected image is counted above STATE, which goes back to WAIT. -/
theorem bootState_bootVerified_rejected {s : State} {d : Nat} (h : bootResult s d ≠ 1) : bootState (bootVerified s d) d = 2 := by
  have hrejected : ¬ (bootResult s d == 1) = true := by simpa using h
  rw [bootVerified, if_neg hrejected]
  exact (State.fld_bump_disjoint _ d TLR_BOOT_STATUS 1 (by decide) (.inl (by decide))).trans (bootState_setBoot _ d (by decide))

theorem svnAdvance_running {s : State} {d : Nat} (hrun : bootState s d = 4) (hstore : (s.store d).state = 1) :
    svnAdvance s d = s.setStore d { s.store d with svn := max (s.store d).svn (min 64 (s.boots.get {} d).svn) } := by
  simp [svnAdvance, hrun, hstore]

theorem svcRequest_fit {s : State} (hmode : s.mode = .fit) (harea : areaOk s = true) :
    svcRequest s = { s.setFld s.headDie TLR_SVC_STATUS 2 0 1 with svcAt := some (s.reg s.headDie TLR_SVC_FT).toNat } := by
  simp [svcRequest, hmode, harea]

/-- Settles O56. -/
theorem bootCommandsComplete : Obligations.BootCommandsComplete := by
  refine ⟨?release, ?linkUp, ?go, ?verify, ?svn, ?svc, ?lockstep, ?fence, ?fenced, ?send⟩
  case release =>
    intro d s hservice hboot hstore
    have hkept : ¬ ((s.store d).state == 3) = true := by simpa using hstore
    have hrelease (primary : Bool) : exec (.bootResetRelease d primary) s = .next (
        let s2 := setBoot (clearWindow s d) d (if primary then 1 else 2)
        if primary then { s2 with headDie := d } else s2) := by
      refine (onUnit_of_exists _ hservice).trans (congrArg _ ?_)
      rw [if_neg (by simp [hboot]), if_neg hkept]
    exact ⟨hrelease true, hrelease false⟩
  case linkUp =>
    intro d s hservice hboot
    refine ⟨_, (onUnit_of_exists _ hservice).trans (congrArg _ (if_pos (beq_iff_eq.mpr hboot))), bootState_setBoot s d (by decide), rfl⟩
  case go =>
    intro d s hservice hboot
    refine ⟨_, (onUnit_of_exists _ hservice).trans (congrArg _ (if_pos (beq_iff_eq.mpr hboot))), bootState_setBoot s d (by decide), rfl⟩
  case verify =>
    intro d s hservice hboot
    exact ⟨(onUnit_of_exists _ hservice).trans (congrArg _ (if_pos (beq_iff_eq.mpr hboot))), bootState_bootVerified_rejected⟩
  case svn =>
    intro d s hservice hboot hstore
    refine ⟨_, (onUnit_of_exists _ hservice).trans (congrArg _ (svnAdvance_running hboot hstore)), ?_, rfl⟩
    exact congrArg Store.svn (Tbl.get_set_same _ _ _ _)
  case svc =>
    intro s hmode harea
    refine ⟨_, congrArg Host.Outcome.next (svcRequest_fit hmode harea), ?_, rfl⟩
    exact s.fld_setFld_same s.headDie TLR_SVC_STATUS 2 0 1 (by decide) (by decide)
  case lockstep => exact fun d s hservice => ⟨onUnit_of_exists _ hservice, onUnit_of_exists _ hservice⟩
  case fence =>
    intro s hhead hmirror hmirrored
    refine (onUnit_of_exists _ hhead).trans (congrArg _ (if_pos ?_))
    simp [hmirror, hmirrored]
  case fenced => exact fun s hhead => congrArg _ (if_pos hhead)
  case send =>
    intro d p s hdie hfit
    show execTlrSend d p s = _
    rw [execTlrSend, if_pos hdie, tlrSend, hfit]

/-! ## The secret store (R781 to R788) -/

section
variable {s : State} {d : Nat}

theorem provision_badKey (hkey : keyOk (ownerBytes s d) = false) : provision s d = secResult s d 3 := by
  simp [provision, hkey]

theorem provision_permitted (hkey : keyOk (ownerBytes s d) = true) (hmay : provisionMay s d = true) :
    provision s d = setSecState ({ s with provision := some (drawStore s d) }.setStore d
      { s.store d with draws := (s.store d).draws + 1 }) d 4 := by
  simp [provision, hkey, hmay]

theorem provisionDone_noRequest {p : Store} (hprovision : s.provision = some p) (hstate : (s.store d).state = 4)
    (hwait : s.debugWait = none) (ok : Bool) :
    provisionDone s d ok = { (if ok then secResult ((serviceDies s).foldl (fun s x => takeStore s p x) s) d 1
      else secResult (setSecState s d p.state) d 4) with provision := none, debugWait := none } := by
  simp [provisionDone, hprovision, hstate, hwait]

theorem toZeroise_ledger (hstep : debugStep s = 1) : toZeroise s = erasing (setDebugStep s 2) := if_pos (beq_iff_eq.mpr hstep)

/-- The end of an ERASE outside the opening of the debug path leaves STEP. -/
theorem zeroiseDone_eraseOnly (herase : s.eraseOnly = true) (hstep : debugStep s ≠ 2) :
    zeroiseDone s = (serviceDies s).foldl (fun s d => irqAt (zeroise s d) d 6) { s with eraseOnly := false } := by
  simp [zeroiseDone, zeroising, herase, hstep]

end

/-- Settles O57. -/
theorem secretCommandsComplete : Obligations.SecretCommandsComplete := by
  refine ⟨⟨?provision, ?badKey, ?provisioned, ?erase, ?debug, ?ledger, ?ledgerTimeout, ?zeroised, ?retry⟩, ?zeros⟩
  case provision =>
    exact fun d s hservice hkey hmay => (onUnit_of_exists _ hservice).trans (congrArg _ (provision_permitted hkey hmay))
  case badKey => exact fun d s hservice hkey => (onUnit_of_exists _ hservice).trans (congrArg _ (provision_badKey hkey))
  case provisioned =>
    intro d p s hservice hprovision hstate hwait
    have hdone (ok : Bool) := (onUnit_of_exists (provisionDone s d ok) hservice).trans
      (congrArg _ (provisionDone_noRequest hprovision hstate hwait ok))
    exact ⟨hdone true, hdone false⟩
  case erase =>
    intro d s hservice hstep herase
    exact (onUnit_of_exists _ hservice).trans (congrArg _ (if_neg (by simp [hstep, herase])))
  case debug => exact fun d s hservice => ⟨onUnit_of_exists _ hservice, onUnit_of_exists _ hservice⟩
  case ledger => exact fun d s hservice hstep => (onUnit_of_exists _ hservice).trans (congrArg _ (toZeroise_ledger hstep))
  case ledgerTimeout => exact fun s hstep hdue => congrArg _ ((if_pos hdue).trans (toZeroise_ledger hstep))
  case zeroised => exact fun s herase hstep => congrArg _ (zeroiseDone_eraseOnly herase hstep)
  case retry => exact fun s hruns => congrArg _ (if_pos hruns)
  case zeros => exact fun x => ⟨rfl, rfl, rfl, rfl⟩

/-! ## The host (R789 to R798) -/

theorem aperturesOpen_iff (s : State) : aperturesOpen s = true ↔ s.mode ≠ .cold ∧ s.mode ≠ .stop := by
  simp [aperturesOpen]

/-- Where the mesh carries packets, GO of an idle service die sends the access as a packet. -/
theorem rcsrGo_packet {s : State} {d : Nat} (wr : State → Nat → Nat → Word → BitVec 32 → Out) (write : Bool)
    (hidle : s.flag d TLR_RCSR_CTL 8 = false) (hcold : s.mode ≠ .cold) (hstop : s.mode ≠ .stop) :
    rcsrGo wr s d write = .next (rcsrPacket { s.raise d TLR_RCSR_CTL 8 with
      rcsr := s.rcsr.set none d (some { kind := if write then 2 else 1, addr := (s.reg d TLR_RCSR_ADDR).toNat, startFt := s.now d }) }
      d write) := by
  have hmesh : ¬ (s.mode == .cold || s.mode == .stop) = true := by simp [hcold, hstop]
  rw [rcsrGo, if_neg (by simp [hidle])]
  exact if_neg hmesh

/-- Settles O58. -/
theorem hostCommandsComplete : Obligations.HostCommandsComplete := by
  refine ⟨?write, ?read, ?readTimeout, ?remote, ?remoteTimeout⟩
  case write =>
    intro d off bs s hservice hend hcold hstop
    exact (onUnit_of_exists _ (and_decide_le hservice hend)).trans (congrArg _ (if_pos ((aperturesOpen_iff s).mpr ⟨hcold, hstop⟩)))
  case read =>
    intro d off n s hservice hpos hend
    have hunit : (isKind s d .service && decide (0 < n) && decide (off + n ≤ bar2Bytes)) = true :=
      and_decide_le (by rw [hservice, decide_eq_true hpos, Bool.and_self]) hend
    refine ⟨fun hcold hstop => ?_, fun hshut => ?_⟩
    · exact (onUnit_of_exists _ hunit).trans (congrArg _ (if_pos ((aperturesOpen_iff s).mpr ⟨hcold, hstop⟩)))
    · exact (onUnit_of_exists _ hunit).trans
        (congrArg _ (if_neg fun hopen => hshut.elim ((aperturesOpen_iff s).mp hopen).1 ((aperturesOpen_iff s).mp hopen).2))
  case readTimeout =>
    intro d slot s j hservice hslot hjob hkind hdue
    show execBar2ReadTimeout d slot s = _
    rw [execBar2ReadTimeout, onUnit_of_exists _ (by simp [hservice, hostSlots, hslot]), hjob]
    exact congrArg _ (if_pos (by simp [hkind, hdue]))
  case remote =>
    intro d s hservice hidle hcold hstop
    exact ⟨(if_pos hservice).trans (rcsrGo_packet _ false hidle hcold hstop),
      (if_pos hservice).trans (rcsrGo_packet _ true hidle hcold hstop)⟩
  case remoteTimeout =>
    intro d s j hservice hjob hdue
    show execRcsrTimeout d s = _
    rw [execRcsrTimeout, onUnit_of_exists _ hservice, hjob]
    exact congrArg _ (if_pos hdue)

end Sys2Proof.Machine
end
section
/-! SUPPORT. The ledger, the traces and the counts: the branch that the state chooses for each command. -/

namespace Sys2Proof.Machine

/-! ## The ledger and its seals (R719 to R745) -/

section
variable {s : State}

theorem sealStart_due (hidle : s.ledger.signing = none) (hopen : debugOpened s = false) (hnext : s.ledger.next ≠ 0)
    (hhead : headRuns s = true) :
    sealStart s = { s with ledger := { s.ledger with signing := some (s.ledger.next - 1, s.ledger.chain), unsealed := 0 } } := by
  simp [sealStart, hidle, hopen, hnext, hhead]

theorem sealSigned_signing {l : Nat} {c : List Word} (hsigning : s.ledger.signing = some (l, c)) :
    sealSigned s = sealNext (if debugOpened s then { s with ledger := { s.ledger with signing := none } }
      else ledgerPut { s with ledger := { s.ledger with signing := none } }
        (ledgerRec { s with ledger := { s.ledger with signing := none } } 0x86 (s.now40 s.headDie) [l % 2 ^ 64] (some c))) l := by
  rw [sealSigned, hsigning]
  rfl

theorem mirrorAck_sent {c : Chained} {cs : List Chained} (hsent : s.ledger.sent = c :: cs) :
    mirrorAck s = ringPump { s with
      ledger := { s.ledger with sent := cs, acked := s.ledger.acked ++ [c], ackSeq := c.lseq + 1, ackChain := c.chain } } := by
  rw [mirrorAck, hsent]

/-! ## Counts and statistics (R741, R742, R757, R764) -/

/-- A period of 0 is one of 256 rounds. -/
theorem countPeriod_due {d : Nat} (hpart : partState s d = .service) (hperiod : s.fld d OBS_TRACE_CFG 39 32 = 0)
    (hround : (s.keeper d).round % 256 = 0) : countPeriod s d = (List.range 16).foldl (fun s n => countRecord s d n) s := by
  simp [countPeriod, hpart, hperiod, hround]

/-- OBS_STAT_CFG is a plain register. -/
theorem specialStore_statCfg (s : State) (d : Nat) (v : Word) (pl : Bool) : specialStore s d OBS_STAT_CFG v pl = none := rfl

theorem csrStore_statCfg_stats (s : State) (d : Nat) (v : Word) (pl : Bool) : (csrStore s d OBS_STAT_CFG v pl).stats = s.stats := by
  have hsyn : synOffset OBS_STAT_CFG = none := rfl
  have hafter (t : State) : afterStore t d OBS_STAT_CFG = t := rfl
  rw [csrStore, hsyn, specialStore_statCfg]
  cases descOf s d OBS_STAT_CFG with
  | none => rfl
  | some r =>
    show (afterStore (storeReg s d OBS_STAT_CFG r v pl) d OBS_STAT_CFG).stats = s.stats
    rw [hafter]
    rfl

theorem statCfgWrite_clears {d : Nat} {v : Word} (hclear : v.getLsbD 1 = true) :
    (statCfgWrite s d v).stats = s.stats.drop (fun k => k / 128 == d) := by
  rw [statCfgWrite, if_pos hclear]
  simp only [csrStore_statCfg_stats]

end

/-- Settles O55. -/
theorem ledgerCommandsComplete : Obligations.LedgerCommandsComplete := by
  refine ⟨?chain, ?mirrored, ?seals, ?signedOpen, ?signed, ?flush, ?count, ?probe, ?clear⟩
  case chain => exact fun s _ _ => rfl
  case mirrored => exact fun s c cs hsent => congrArg Host.Outcome.next (mirrorAck_sent hsent)
  case seals =>
    intro s hidle hopen hnext hhead
    have hstart := sealStart_due hidle hopen hnext hhead
    exact ⟨congrArg Host.Outcome.next hstart, fun hdue => congrArg Host.Outcome.next ((if_pos hdue).trans hstart)⟩
  case signedOpen =>
    intro s l c hsigning hopen
    refine congrArg Host.Outcome.next ((sealSigned_signing hsigning).trans ?_)
    rw [if_pos hopen]
  case signed =>
    intro s l c hsigning hopen
    refine congrArg Host.Outcome.next ((sealSigned_signing hsigning).trans ?_)
    rw [if_neg (Bool.eq_false_iff.mp hopen)]
  case flush => exact fun d s hdie _ _ _ => ⟨_, onUnit_of_exists _ hdie, rfl⟩
  case count =>
    exact fun d s hdie hpart hperiod hround => (onUnit_of_exists _ hdie).trans (congrArg _ (countPeriod_due hpart hperiod hround))
  case probe => exact fun d n v s hdie hn => onUnit_of_exists _ (by rw [hdie, decide_eq_true hn, Bool.and_self])
  case clear => exact fun d v s hdie hclear => ⟨_, onUnit_of_exists _ hdie, statCfgWrite_clears hclear⟩

end Sys2Proof.Machine
end
section
/-! SUPPORT. Stalls, dumps and the steps of a mend: what each command leaves in the tables that its statement names. -/

namespace Sys2Proof.Machine

/-! ## Stalls and the tailor watchdog (R674 to R676, R711) -/

/-- A bit of another register of the slice keeps its value. -/
theorem State.flag_setFld_other_reg (s : State) (d hi lo v b : Nat) {off c : Nat} (h : c ≠ off) :
    (s.setFld d off hi lo v).flag d c b = s.flag d c b := by
  have hkey : ck d c ≠ ck d off := fun hck => h (Nat.add_left_cancel hck)
  rw [State.flag, State.flag, State.fld, State.fld, State.setFld, State.reg_setReg_other _ _ _ _ _ _ hkey]

section
variable {s : State} {d kind unit port : Nat} {x : Stall}

theorem execStallEscalate_gone (hunit : stallUnit s d kind unit port = true) (hmode : s.mode ≠ .stop)
    (hfind : (s.stalls.get [] d).find? (sameStall kind unit port) = some x) (hholds : stallHolds s d kind unit port = false) :
    execStallEscalate d kind unit port s =
      .next { s with stalls := s.stalls.set [] d ((s.stalls.get [] d).filter (fun y => y != x)) } := by
  rw [execStallEscalate, onUnit_of_exists _ hunit, hfind]
  simp [hmode, hholds]

theorem execStallEscalate_due (hunit : stallUnit s d kind unit port = true) (hmode : s.mode ≠ .stop)
    (hfind : (s.stalls.get [] d).find? (sameStall kind unit port) = some x) (hholds : stallHolds s d kind unit port = true)
    (hfirst : x.escalated = false) (hdue : x.ft + 1000 * s.fld d MND_HANG_CFG 31 16 ≤ s.now d) :
    execStallEscalate d kind unit port s = .next (stallEscalate s d x) := by
  rw [execStallEscalate, onUnit_of_exists _ hunit, hfind]
  simp [hmode, hholds, hfirst, Nat.not_lt.mpr hdue]

theorem execTailorWatchdog_due (hdie : dieExists s d = true) (hmode : s.mode ≠ .stop) (hruns : s.flag d TLR_STATUS 1 = true)
    (hdue : s.kickFt.get 0 d + 1000 * s.fld d MND_HANG_CFG 47 32 ≤ s.now d) :
    execTailorWatchdog d s = .next ((s.raise d MND_STALL 5).setFld d TLR_STATUS 1 1 0) := by
  rw [execTailorWatchdog, onUnit_of_exists _ hdie, if_neg (by simp [hmode, hruns, Nat.not_lt.mpr hdue])]

end

/-- Settles O49. -/
theorem stallCommandsComplete : Obligations.StallCommandsComplete := by
  refine ⟨?threshold, ?escalate, ?watchdog, ?kick⟩
  case threshold =>
    intro d kind unit port s hunit hmode hholds
    exact (onUnit_of_exists _ hunit).trans (congrArg _ (if_neg (by simp [hmode, hholds])))
  case escalate =>
    intro d kind unit port s x hunit hmode hfind
    refine ⟨fun hholds => ⟨_, execStallEscalate_gone hunit hmode hfind hholds, ?_⟩, fun hholds hfirst hdue =>
      execStallEscalate_due hunit hmode hfind hholds hfirst hdue⟩
    simp
  case watchdog =>
    intro d s hdie hmode hruns hdue
    refine ⟨_, execTailorWatchdog_due hdie hmode hruns hdue, flag_setFld_zero _ _ _ (by decide), ?_, rfl⟩
    rw [State.flag_setFld_other_reg _ _ _ _ _ _ (by decide), State.flag_raise_same _ _ _ (by decide)]
  case kick => exact fun d s hdie => ⟨_, onUnit_of_exists _ hdie, Tbl.get_set_same _ _ _ _, rfl, rfl⟩

/-! ## Dumps (R685 to R688) -/

@[simp] theorem State.dump_setDump_same (s : State) (q : Nat) (x : Dump) : (s.setDump q x).dump q = x := Tbl.get_set_same _ _ _ _

theorem spaceWrite_dumps (s : State) (d : Nat) (a : BitVec 64) (us : List (Nat × DataUnit)) : (spaceWrite s d a us).dumps = s.dumps := by
  unfold spaceWrite
  split <;> rfl

theorem spaceWrite_dump (s : State) (d : Nat) (a : BitVec 64) (us : List (Nat × DataUnit)) (q : Nat) :
    (spaceWrite s d a us).dump q = s.dump q := by
  rw [State.dump, spaceWrite_dumps, State.dump]

theorem State.dump_setFld (s : State) (d off hi lo v q : Nat) : (s.setFld d off hi lo v).dump q = s.dump q := rfl

theorem dumpStatus_dump (s : State) (q : Nat) : (dumpStatus s q).dump q = s.dump q := spaceWrite_dump s _ _ _ q

theorem dumpHeader_dump (s : State) (q : Nat) (complete : Bool) : (dumpHeader s q complete).dump q = s.dump q :=
  spaceWrite_dump s _ _ _ q

/-- The end of a dump changes no more of it than ON. -/
theorem dumpFinish_dump (s : State) (q : Nat) :
    ((dumpFinish s q).dump q).missed = (s.dump q).missed ∧ ((dumpFinish s q).dump q).jobs = (s.dump q).jobs := by
  simp only [dumpFinish]
  split
  · rw [State.dump_setFld, dumpHeader_dump, State.dump_setDump_same]
    exact ⟨rfl, rfl⟩
  · exact ⟨rfl, rfl⟩

theorem setStatus_dump (s : State) (q e n : Nat) :
    ((setStatus s q e n).dump q).missed = (s.dump q).missed ∧ ((setStatus s q e n).dump q).jobs = (s.dump q).jobs := by
  obtain ⟨hmissed, hjobs⟩ := dumpFinish_dump (dumpStatus (s.setDump q { s.dump q with status := setAt (s.dump q).status e n }) q) q
  rw [dumpStatus_dump, State.dump_setDump_same] at hmissed hjobs
  exact ⟨hmissed, hjobs⟩

section
variable {s : State} {d q : Nat} {j : DumpJob}

theorem onDump_dumping (f : Nat → State) (hk : isKind s d .compute = true) (hdump : dumping s d = some q) : onDump s d f = .next (f q) := by
  rw [onDump, onUnit_of_exists _ hk, hdump]

variable (hk : isKind s d .compute = true) (hdump : dumping s d = some q) (hjob : (s.dump q).jobs.get none d = some j)
include hk hdump hjob

theorem execDumpReadTimeout_due {t : Nat} (hread : j.readFt = some t) (hdue : t + 10000 ≤ s.now d) :
    execDumpReadTimeout d s = .next (setStatus ((setJob s q d none).setDump q { (setJob s q d none).dump q with
      missed := ((setJob s q d none).dump q).missed ++ [(d, seTile s (sampleEntry s j.entry))] }) q j.entry 1) := by
  rw [execDumpReadTimeout, onDump_dumping _ hk hdump, hjob]
  simp [hread, Nat.not_lt.mpr hdue]

theorem execDumpWriteTimeout_due {w : Nat} (hwrite : j.write = some w) (hdue : j.writeFt + 10000 ≤ s.now d) :
    execDumpWriteTimeout d s = .next (dumpFailed s q d j) := by
  rw [execDumpWriteTimeout, onDump_dumping _ hk hdump, hjob]
  simp [hwrite, hdue]

end

theorem execDumpEngineTimeout_due {s : State} {q : Nat} (hq : q < 64) (hstep : partStep s q = 3) (hon : (s.dump q).on = true)
    (hdue : (s.dump q).startFt + 200000000 ≤ s.now s.headDie) :
    execDumpEngineTimeout q s = .next (dumpFinish (dumpStatus (s.setDump q
      { s.dump q with status := (s.dump q).status.map (fun n => if n == 0xFF then 1 else n), jobs := {} }) q) q) := by
  rw [execDumpEngineTimeout, onUnit_of_exists _ (decide_eq_true hq), if_neg (by simp [hstep, hon, Nat.not_lt.mpr hdue])]

/-- Settles O51. -/
theorem dumpCommandsComplete : Obligations.DumpCommandsComplete := by
  refine ⟨?entry, ?read, ?write, ?engine⟩
  case entry => exact fun d q s hk hdump => onDump_dumping _ hk hdump
  case read =>
    intro d q t s j hk hdump hjob hread hdue
    refine ⟨_, execDumpReadTimeout_due hk hdump hjob hread hdue, ?_, ?_⟩
    · rw [(setStatus_dump _ _ _ _).1, State.dump_setDump_same]
      exact List.mem_append_right _ (List.mem_singleton_self _)
    · rw [(setStatus_dump _ _ _ _).2, State.dump_setDump_same, setJob, State.dump_setDump_same]
      exact Tbl.get_set_same _ _ _ _
  case write => exact fun d q w s j hk hdump hjob hwrite hdue => execDumpWriteTimeout_due hk hdump hjob hwrite hdue
  case engine => exact fun q s hq hstep hon hdue => execDumpEngineTimeout_due hq hstep hon hdue

end Sys2Proof.Machine
end
section
/-! SUPPORT. The steps of a mend: the step that each leaves, and the package mend that a reset of dies does not touch. -/

namespace Sys2Proof.Machine

/-! ## Steps (R677 to R693) -/

theorem partStep_setStep (s : State) (q : Nat) {n : Nat} (h : n < 16) : partStep (setStep s q n) q = n :=
  (s.fld_setFld_same s.headDie (partReg q) 3 0 n (by decide) (by decide)).trans (Nat.mod_eq_of_lt h)

theorem partMend_service {s : State} {q : Nat} (hmode : s.mode = .service) (hstep : partStep s q = 0) :
    partMend s q = mendEnter s q 3 := by
  simp [partMend, hmode, hstep]

/-- A package mend ends in its first phase. -/
theorem packageMend_pkgMend {s : State} (hmode : s.mode = .service) : (packageMend s).pkgMend = 1 := by
  rw [packageMend, if_neg (by simp [hmode])]

/-! ## Resets leave the package mend (R693) -/

theorem resetRegs_pkgMend (s : State) (d : Nat) : (resetRegs s d).pkgMend = s.pkgMend := by
  refine foldl_keeps State.pkgMend (fun s k => ?_) _ _
  simp only [resetReg]
  split
  · rfl
  · split <;> rfl

theorem resetSeams_pkgMend (s : State) (d : Nat) : (resetSeams s d).pkgMend = s.pkgMend := by
  refine foldl_keeps State.pkgMend (fun s i => ?_) _ _
  split
  · split <;> rfl
  · rfl

theorem objReinit_pkgMend (s : State) (d : Nat) (tell : BitVec 32 → Bool) (o : Nat) : (objReinit s d tell o).pkgMend = s.pkgMend := by
  simp only [objReinit]
  split <;> rfl

theorem syncReinit_pkgMend (s : State) (d : Nat) (tell : BitVec 32 → Bool) : (syncReinit s d tell).pkgMend = s.pkgMend :=
  foldl_keeps State.pkgMend (fun s o => objReinit_pkgMend s d tell o) _ s

theorem startTailor_pkgMend (s : State) (d : Nat) : (startTailor s d).pkgMend = s.pkgMend := by
  simp only [startTailor]
  split <;> rfl

theorem resetDie_pkgMend (s : State) (d : Nat) : (resetDie s d).pkgMend = s.pkgMend := by
  simp only [resetDie, startTailor_pkgMend, apply_ite State.pkgMend, syncReinit_pkgMend, State.setKeeper_pkgMend, ite_self,
    resetSeams_pkgMend, resetRegs_pkgMend]
  rfl

section
variable {s : State} {q : Nat} (hq : q < 64)
include hq

/-- Outside the first phase of a package mend only the partition's dies are reset. -/
theorem execMendReset_partition (hstep : partStep s q = 4) (hpart : s.pkgMend ≠ 1) :
    execMendReset q s =
      .next (setStep ((partDies s q).foldl (fun s d => resetDie s d) { s with tileReset := s.tileReset.set false q true }) q 5) := by
  have hkept : ((partDies s q).foldl (fun s d => resetDie s d) { s with tileReset := s.tileReset.set false q true }).pkgMend = s.pkgMend :=
    foldl_keeps State.pkgMend resetDie_pkgMend _ _
  have hphase : ¬ (((partDies s q).foldl (fun s d => resetDie s d)
      { s with tileReset := s.tileReset.set false q true }).pkgMend == 1) = true := by
    rw [hkept]; simpa using hpart
  rw [execMendReset, onUnit_of_exists _ (decide_eq_true hq), if_neg (by simp [hstep])]
  simp only [if_neg hphase]

theorem execMendRetrain_trained (hstep : partStep s q = 5) (hpart : s.pkgMend ≠ 2) (htrained : (partDies s q).all (dieTrained s) = true) :
    execMendRetrain q s = .next (setStep s q 6) := by
  rw [execMendRetrain, onUnit_of_exists _ (decide_eq_true hq), if_pos (by simp [hstep, hpart, htrained])]

theorem execMendTest_passed (hstep : partStep s q = 6) :
    execMendTest q [] s = .next (setStep { s with testFails := s.testFails.set [] q [] } q 7) :=
  (onUnit_of_exists _ (decide_eq_true hq)).trans (congrArg _ (if_neg (by simp [hstep])))

/-- The failed units of the partition decide its step: a failed die takes it to 15. -/
theorem execMendTest_testing (hstep : partStep s q = 6) (fails : List TestFail) :
    ∃ t, execMendTest q fails s = .next t ∧
      ((∀ d, TestFail.die d ∈ fails → d ∉ partDies s q) → partStep t q = 7) ∧
      (∀ d, TestFail.die d ∈ fails → d ∈ partDies s q → partStep t q = 15) := by
  refine ⟨_, (onUnit_of_exists _ (decide_eq_true hq)).trans (congrArg _ (if_neg (by simp [hstep]))), fun hnone => ?_, fun d hd hin => ?_⟩
  · rw [if_neg, partStep_setStep _ _ (by decide)]
    simp only [List.any_eq_true, List.mem_filter, not_exists, not_and]
    rintro (_ | _ | _ | d) ⟨hf, hmine⟩
    all_goals simp
    exact hnone d hf (by simpa [failDie] using hmine)
  · rw [if_pos, partStep_setStep _ _ (by decide)]
    refine List.any_eq_true.mpr ⟨.die d, List.mem_filter.mpr ⟨hd, by simpa [failDie] using hin⟩, rfl⟩

theorem execMendRelock_locked (hstep : partStep s q = 7) (hlock : (partDies s q).all (fun d => (s.keeper d).lock) = true)
    (harea : areaOk s = false) : execMendRelock q s = .next (setStep s q 8) := by
  rw [execMendRelock, onUnit_of_exists _ (decide_eq_true hq), if_pos (by simp [hstep, hlock]), if_neg (by simp [harea])]

end

/-- Settles O50. -/
theorem mendCommandsComplete : Obligations.MendCommandsComplete := by
  refine ⟨?mend, ?all, ?isolate, ?flush, ?dump, ?reset, ?retrain, ?test, ?testFails, ?relock, ?restore, ?rejoin⟩
  case mend => exact fun q s hq hmode hstep => (onUnit_of_exists _ (decide_eq_true hq)).trans (congrArg _ (partMend_service hmode hstep))
  case all => exact fun s hmode => ⟨_, rfl, packageMend_pkgMend hmode⟩
  case isolate =>
    intro q s hq hstep
    exact ⟨_, (onUnit_of_exists _ (decide_eq_true hq)).trans (congrArg _ (if_neg (by simp [hstep]))), partStep_setStep _ q (by decide)⟩
  case flush =>
    intro q s hq hstep
    exact (onUnit_of_exists _ (decide_eq_true hq)).trans (congrArg _ (if_neg (by simp [hstep])))
  case dump =>
    intro q s hq hstep hdone
    exact ⟨_, (onUnit_of_exists _ (decide_eq_true hq)).trans (congrArg _ (if_pos (by simp [hstep, hdone]))),
      partStep_setStep _ q (by decide), rfl⟩
  case reset => exact fun q s hq hstep hpart => execMendReset_partition hq hstep hpart
  case retrain =>
    exact fun q s hq hstep hpart htrained => ⟨_, execMendRetrain_trained hq hstep hpart htrained, partStep_setStep _ q (by decide), rfl⟩
  case test => exact fun q s hq hstep => ⟨_, execMendTest_passed hq hstep, partStep_setStep _ q (by decide), rfl⟩
  case testFails => exact fun q fails s hq hstep => execMendTest_testing hq hstep fails
  case relock =>
    exact fun q s hq hstep hlock harea => ⟨_, execMendRelock_locked hq hstep hlock harea, partStep_setStep _ q (by decide), rfl⟩
  case restore => exact fun q s hq _ => onUnit_of_exists _ (decide_eq_true hq)
  case rejoin =>
    intro q s hq hstep hdue hrounds
    exact (onUnit_of_exists _ (decide_eq_true hq)).trans (congrArg _ (if_pos (by simp [hstep, hdue, hrounds])))

end Sys2Proof.Machine
end
section
/-! SUPPORT. The fault log (R607, R610): the three places where a record of action COUNT can go. -/

namespace Sys2Proof.Machine

/-! ## The parts of a record -/

theorem bitsOf_ofNat {w : Nat} (n : Nat) {hi lo : Nat} (hw : hi < w) :
    bitsOf (BitVec.ofNat w n) hi lo = n / 2 ^ lo % 2 ^ (hi + 1 - lo) := by
  refine Nat.eq_of_testBit_eq fun i => ?_
  rw [testBit_bitsOf, BitVec.getLsbD_ofNat, Nat.testBit_mod_two_pow, Nat.testBit_div_two_pow, Nat.add_comm lo]
  by_cases hi : i < hi + 1 - lo
  · simp [hi, show i + lo < w by omega]
  · simp [hi]

/-- CLASS, INDEX and COUNT of a record stand at their bits. -/
theorem faultBits_fields (index detail ft40 cls count action : Nat) :
    bitsOf (faultBits index detail ft40 cls count action) 23 16 = cls % 256 ∧
      bitsOf (faultBits index detail ft40 cls count action) 111 96 = index % 2 ^ 16 ∧
      bitsOf (faultBits index detail ft40 cls count action) 15 8 = count % 256 := by
  refine ⟨?_, ?_, ?_⟩
  all_goals
    rw [faultBits, bitsOf_ofNat _ (by decide)]
    omega

/-! ## The record that is written -/

/-- The state in which a record of action COUNT goes to the log: its event is set, and Kerex forwards it by its class (R611). -/
def faultNoted (s : State) (d cls index detail : Nat) : State :=
  if forwardedClass cls then
    { s.raise d HLT_EVENT 0 with fwd := s.fwd ++ [(d, faultBits index detail (s.now40 d) cls 0 0)] }
  else s.raise d HLT_EVENT 0

section
variable (s : State) (d cls index detail : Nat)

theorem faultNoted_reg (off : Nat) : (faultNoted s d cls index detail).reg d off = (s.raise d HLT_EVENT 0).reg d off := by
  unfold faultNoted
  split <;> rfl

theorem faultNoted_fld (hi lo : Nat) {off : Nat} (h : off ≠ HLT_EVENT) :
    (faultNoted s d cls index detail).fld d off hi lo = s.fld d off hi lo := by
  rw [State.fld, faultNoted_reg, State.reg_raise_other _ _ _ h, State.fld]

theorem faultNoted_event : (faultNoted s d cls index detail).flag d HLT_EVENT 0 = true := by
  rw [State.flag, State.fld, faultNoted_reg]
  exact s.flag_raise_same d HLT_EVENT (by decide)

theorem faultNoted_flog : (faultNoted s d cls index detail).flog = s.flog := by
  unfold faultNoted
  split <;> rfl

theorem faultNoted_mem : (faultNoted s d cls index detail).mem = s.mem := by
  unfold faultNoted
  split <;> rfl

end

theorem State.flag_bump_other_reg (s : State) (d hi lo n b : Nat) {off c : Nat} (h : c ≠ off) :
    (s.bump d off hi lo n).flag d c b = s.flag d c b := by
  unfold State.bump
  split
  · rfl
  · exact s.flag_setFld_other_reg d hi lo _ b h

/-! ## Where it goes -/

/-- The fault logs of the dies replaced. -/
def State.withFlog (s : State) (log : Tbl (BitVec 128)) (full : Tbl Bool) : State := { s with flog := log, flogFull := full }

section
variable (s : State) (log : Tbl (BitVec 128)) (full : Tbl Bool)

theorem State.withFlog_flog : (s.withFlog log full).flog = log := rfl
theorem State.withFlog_mem : (s.withFlog log full).mem = s.mem := rfl
theorem State.withFlog_fld (d off hi lo : Nat) : (s.withFlog log full).fld d off hi lo = s.fld d off hi lo := rfl
theorem State.withFlog_flag (d off b : Nat) : (s.withFlog log full).flag d off b = s.flag d off b := rfl

end

/-- A record of action COUNT put into the log of `s`, from the noted state `x`: merged, lost or new (R610). -/
def faultPlaced (s x : State) (d cls index : Nat) (rec0 newest : BitVec 128) : State :=
  if unreadFaults s d != 0 && bitsOf newest 23 16 == cls && bitsOf newest 111 96 == index % 2 ^ 16 then
    x.withFlog (x.flog.set 0 (d * 256 + (s.fld d HLT_FLOG_CTL 15 8 + 255) % 256)
      (setBits newest 15 8 (satTo 8 (bitsOf newest 15 8 + 1)))) x.flogFull
  else if unreadFaults s d == 256 then (x.raise d HLT_FLOG_CTL 16).bump d HLT_FLOG_CTL 47 32 1
  else
    ((x.bump d HLT_FLOG_CTL 47 32 1).setFld d HLT_FLOG_CTL 15 8 ((s.fld d HLT_FLOG_CTL 15 8 + 1) % 256)).withFlog
      (x.flog.set 0 (d * 256 + s.fld d HLT_FLOG_CTL 15 8) rec0) (x.flogFull.set false d (unreadFaults s d == 255))

theorem faultRec_count {s : State} {d : Nat} (hoff : s.flag d OBS_CFG 3 = false) (cls index detail : Nat) :
    faultRec s d cls index detail 0 = faultPlaced s (faultNoted s d cls index detail) d cls index
      (faultBits index detail (s.now40 d) cls 0 0) (s.flog.get 0 (d * 256 + (s.fld d HLT_FLOG_CTL 15 8 + 255) % 256)) := by
  simp only [faultRec, hoff, Bool.false_eq_true, if_false, bne_self_eq_false, Bool.false_or]
  rfl

section
variable {s : State} (x : State) {d cls index : Nat} (rec0 : BitVec 128) {newest : BitVec 128}

theorem faultPlaced_first (hunread : unreadFaults s d = 0) :
    (faultPlaced s x d cls index rec0 newest).flog = x.flog.set 0 (d * 256 + s.fld d HLT_FLOG_CTL 15 8) rec0 ∧
      (faultPlaced s x d cls index rec0 newest).fld d HLT_FLOG_CTL 15 8 = (s.fld d HLT_FLOG_CTL 15 8 + 1) % 256 := by
  rw [faultPlaced, if_neg (by simp [hunread]), if_neg (by simp [hunread])]
  refine ⟨State.withFlog_flog _ _ _, ?_⟩
  rw [State.withFlog_fld, State.fld_setFld_same _ d HLT_FLOG_CTL 15 8 _ (by decide) (by decide)]
  exact Nat.mod_mod _ _

theorem faultPlaced_merged (hunread : unreadFaults s d ≠ 0) (hcls : bitsOf newest 23 16 = cls)
    (hindex : bitsOf newest 111 96 = index % 2 ^ 16) :
    faultPlaced s x d cls index rec0 newest = x.withFlog (x.flog.set 0 (d * 256 + (s.fld d HLT_FLOG_CTL 15 8 + 255) % 256)
      (setBits newest 15 8 (satTo 8 (bitsOf newest 15 8 + 1)))) x.flogFull :=
  if_pos (by simp [hunread, hcls, hindex])

theorem faultPlaced_lost (hunread : unreadFaults s d = 256)
    (hother : bitsOf newest 23 16 ≠ cls ∨ bitsOf newest 111 96 ≠ index % 2 ^ 16) :
    faultPlaced s x d cls index rec0 newest = (x.raise d HLT_FLOG_CTL 16).bump d HLT_FLOG_CTL 47 32 1 := by
  rw [faultPlaced, if_neg, if_pos (by simp [hunread])]
  rcases hother with h | h
  · simp [h]
  · simp only [beq_eq_false_iff_ne.mpr h, Bool.and_false, Bool.false_eq_true, not_false_eq_true]

/-- Wherever the record goes, the other registers and memory stay. -/
theorem faultPlaced_event : (faultPlaced s x d cls index rec0 newest).flag d HLT_EVENT 0 = x.flag d HLT_EVENT 0 := by
  unfold faultPlaced
  split
  · rfl
  · split
    · rw [State.flag_bump_other_reg _ _ _ _ _ _ (by decide), State.flag, State.fld, State.reg_raise_other _ _ _ (by decide)]
      rfl
    · rw [State.withFlog_flag, State.flag_setFld_other_reg _ _ _ _ _ _ (by decide), State.flag_bump_other_reg _ _ _ _ _ _ (by decide)]

theorem faultPlaced_mem : (faultPlaced s x d cls index rec0 newest).mem = x.mem := by
  unfold faultPlaced
  split
  · rfl
  · split
    · rw [State.bump_mem, State.raise_mem]
    · rw [State.withFlog_mem, State.setFld_mem, State.bump_mem]

end

/-- Settles O48. -/
theorem faultLogEntry : Obligations.FaultLogEntry := by
  intro s d cls index detail newest hcls hindex hoff hnewest
  have hindex' : index % 2 ^ 16 = index := Nat.mod_eq_of_lt hindex
  rw [faultRec_count hoff, ← hnewest]
  have hflog := faultNoted_flog s d cls index detail
  obtain ⟨hrcls, hrindex, hrcount⟩ := faultBits_fields index detail (s.now40 d) cls 0 0
  refine ⟨?first, ?merged, ?lost, ?event, ?mem⟩
  case first =>
    intro hunread
    obtain ⟨hput, hhead⟩ := faultPlaced_first (faultNoted s d cls index detail) (cls := cls) (index := index)
      (faultBits index detail (s.now40 d) cls 0 0) (newest := newest) hunread
    exact ⟨_, hput.trans (by rw [hflog]), hrcls.trans (Nat.mod_eq_of_lt hcls), hrindex.trans hindex', hrcount, hhead⟩
  case merged =>
    intro hunread hsame hat
    rw [faultPlaced_merged _ _ hunread hsame (hat.trans hindex'.symm)]
    refine ⟨?_, ?_⟩
    · rw [State.withFlog_flog, hflog, satTo, Nat.min_comm, show 2 ^ 8 - 1 = 255 from rfl]
    · rw [State.withFlog_fld, faultNoted_fld _ _ _ _ _ _ _ (by decide)]
  case lost =>
    intro hunread hother
    rw [faultPlaced_lost _ _ hunread (by rwa [hindex'])]
    refine ⟨?_, ?_⟩
    · rw [State.bump_flog, State.raise_flog, hflog]
    · rw [State.flag, State.fld_bump_disjoint _ d HLT_FLOG_CTL 1 (by decide) (.inl (by decide))]
      exact State.flag_raise_same _ d HLT_FLOG_CTL (by decide)
  case event => exact (faultPlaced_event _ _).trans (faultNoted_event s d cls index detail)
  case mem => exact (faultPlaced_mem _ _).trans (faultNoted_mem s d cls index detail)

end Sys2Proof.Machine
end
section
/-! SUPPORT. Heartbeats and verdicts (R621 to R631): what each arrival, each judgement and each period does. -/

namespace Sys2Proof.Machine

/-! ## Arrivals at the health logic -/

section
variable {s x : State} {d : Nat} {h : Hdr} (htaken : taken s d attCtl 0x50 { hdr := h } = true)
  (hx : x = takeArrival s d attCtl { hdr := h })
include htaken hx

theorem execDieHeartbeat_recorded (hkind : h.inlBits 359 352 = 0) (hservice : isKind x d .service = true)
    (hpkg : h.srcPkg = x.pkgOf d) (halive : dieDead x h.srcDie = false) :
    execDieHeartbeat d attCtl h s = .next (hbTake x d h.srcDie (x.now d / 10000) (h.inlBits 375 360)) := by
  rw [execDieHeartbeat, headerChecked_of_taken _ htaken, if_neg (by simp [hkind]), if_neg (by simp), arrive_of_taken _ htaken, ← hx,
    if_pos (by simp [hservice, hpkg, halive])]

theorem execPackageHeartbeat_recorded (hkind : h.inlBits 359 352 = 1) (hport : isKind x d .port = true)
    (halive : x.deadPkgs.contains h.srcPkg = false) :
    execPackageHeartbeat d attCtl h s = .next (hbTake x d 127 (x.now d / 100000) (h.inlBits 375 360)) := by
  rw [execPackageHeartbeat, headerChecked_of_taken _ htaken, if_neg (by simp [hkind]), if_neg (by simp), arrive_of_taken _ htaken, ← hx]
  simp only [hport, halive, if_true, Bool.false_eq_true, if_false]

/-- The control attachment is no CE's. -/
theorem execVerdict_package (hkind : h.inlBits 359 352 = 2) (hhead : d = x.headDie) (hruns : headRuns x = true)
    (hop : h.inlBits 429 426 = 2) : execVerdict d attCtl h s = .next (pkgVerdictTake x h) := by
  have hce : ¬ (decide (1024 ≤ attCtl) && ceExists s d (attCtl - 1024)) = true := fun hce =>
    absurd (ceExists_lt (Bool.and_eq_true _ _ ▸ hce).2) (by decide)
  rw [execVerdict, headerChecked_of_taken _ htaken, if_neg (by simp [hkind]), if_neg hce, if_pos (by simp), arrive_of_taken _ htaken, ← hx,
    if_pos (beq_iff_eq.mpr hhead), if_pos (by simp [hruns, hop])]

theorem execSuspect_root (hkind : h.inlBits 359 352 = 3) (hhead : d = x.headDie) (hruns : headRuns x = true)
    (hroot : actsAsRoot x d = true) : execSuspect d attCtl h s = .next (suspectTake x h) := by
  rw [execSuspect, headerChecked_of_taken _ htaken, if_neg (by simp [hkind]), if_neg (by simp), arrive_of_taken _ htaken, ← hx,
    if_pos (by simp [← hhead, hruns, hroot])]

end

/-- A verdict that reaches a collective engine has passed its meter. -/
theorem execVerdict_ce {s x : State} {d k : Nat} {h : Hdr} (hce : ceExists s d k = true)
    (htaken : taken s d (attCe k) 0x50 { hdr := h } = true)
    (hpass : ceIngress (takeArrival s d (attCe k) { hdr := h }) d k h = some x) (hkind : h.inlBits 359 352 = 2) :
    execVerdict d (attCe k) h s = .next (ceVerdict x d k h) := by
  have hk : attCe k - 1024 = k := Nat.add_sub_cancel_left 1024 k
  rw [execVerdict, headerChecked_of_taken _ htaken, if_neg (by simp [hkind]), hk, if_pos (by simp [attCe, hce]), arrive_of_taken _ htaken,
    hpass]

/-! ## Judgements and periods -/

section
variable {s : State} {d x k : Nat}

theorem execHeartbeatSend_due (hdie : dieExists s d = true) (hrounds : (s.keeper d).roundsOn = true) (hmode : s.mode ≠ .stop)
    (htailor : tailorRuns s d = true) (hdue : s.hbSent.get 0 d ≤ s.now d / 10000) :
    execHeartbeatSend d s = .next { sendAll s d attCtl ((hbTargets s d).map (dieHeartbeat s d (s.now d / 10000))) with
      hbSent := s.hbSent.set 0 d (s.now d / 10000 + 1) } := by
  rw [execHeartbeatSend, onUnit_of_exists _ hdie, if_pos (by simp [hrounds, hmode, htailor, hdue])]

theorem execHeartbeatMiss_judged (hservice : isKind s d .service = true) (hdie : dieExists s x = true) (hjudges : judges s d x = true)
    (hk : k = max (s.hbs.get {} (d * 128 + x)).next ((s.hbFrom.get 0 x + 9999) / 10000))
    (hdue : 10000 * k + 10 * s.fld d HLT_HB_CFG 15 0 ≤ s.now d) :
    execHeartbeatMiss d x s = .next
      (if k < (s.hbs.get {} (d * 128 + x)).last then
        { s with hbs := s.hbs.set {} (d * 128 + x) { s.hbs.get {} (d * 128 + x) with next := k + 1, miss := 0 } }
      else hbMissed { s with
        hbs := s.hbs.set {} (d * 128 + x) { s.hbs.get {} (d * 128 + x) with next := k + 1, miss := (s.hbs.get {} (d * 128 + x)).miss + 1 } }
        d x ((s.hbs.get {} (d * 128 + x)).miss + 1)) := by
  rw [execHeartbeatMiss, onUnit_of_exists _ (by rw [hservice, hdie, Bool.and_self]), ← hk,
    if_neg (by simp [hjudges, Nat.not_lt.mpr hdue])]

theorem execPackageHeartbeatMiss_again (hport : isKind s d .port = true) (hmode : s.mode = .service) (hlive : portLive s d = true)
    (hheard : (s.hbs.get {} (d * 128 + 127)).last ≠ 0)
    (hdue : 100000 * (s.hbs.get {} (d * 128 + 127)).next + 100 * s.fld d HLT_HB_CFG 31 16 ≤ s.now d)
    (hmissed : (s.hbs.get {} (d * 128 + 127)).last ≤ (s.hbs.get {} (d * 128 + 127)).next)
    (hbelow : (s.hbs.get {} (d * 128 + 127)).miss < 2) :
    execPackageHeartbeatMiss d s = .next { s with hbs := s.hbs.set {} (d * 128 + 127) { s.hbs.get {} (d * 128 + 127) with
      next := (s.hbs.get {} (d * 128 + 127)).next + 1, miss := (s.hbs.get {} (d * 128 + 127)).miss + 1 } } := by
  rw [execPackageHeartbeatMiss, onPort, onUnit_of_exists _ hport, if_neg (by simp [hmode, hlive, hheard, Nat.not_lt.mpr hdue]),
    if_neg (Nat.not_lt.mpr hmissed), if_pos hbelow]

/-- A flood puts packets into injection queues and touches nothing else that a receiver reads. -/
theorem floodPorts_mem_csr (s : State) (h : Hdr) : (floodPorts s h).mem = s.mem ∧ (floodPorts s h).csr = s.csr := by
  refine ⟨foldl_keeps State.mem (fun s e => ?_) _ _, foldl_keeps State.csr (fun s e => ?_) _ _⟩
  all_goals split <;> rfl

end

/-- Below the third miss the mirror only counts. -/
theorem hbMissed_below {s : State} {d x miss : Nat} (hmirror : d ≠ s.headDie) (h : miss < 3) : hbMissed s d x miss = s := by
  simp [hbMissed, hmirror, h]

theorem hbMissed_third {s : State} {d x miss : Nat} (hmirror : d ≠ s.headDie) (h : 3 ≤ miss)
    (hstay : (declareDie s x).headDie = s.headDie) : hbMissed s d x miss = declareDie s x := by
  simp [hbMissed, hmirror, Nat.not_lt.mpr h, hstay]

/-- Settles O47. -/
theorem heartbeatCommandsComplete : Obligations.HeartbeatCommandsComplete := by
  refine ⟨⟨?send, ?arrivals, ?ceVerdict, ?miss, ?pkgSend, ?pkgMiss, ?telemetry⟩, ?third⟩
  case send => exact fun d s hdie hrounds hmode htailor hdue => execHeartbeatSend_due hdie hrounds hmode htailor hdue
  case arrivals =>
    intro d h s x htaken hx
    exact ⟨execDieHeartbeat_recorded htaken hx, execPackageHeartbeat_recorded htaken hx, execVerdict_package htaken hx,
      execSuspect_root htaken hx⟩
  case ceVerdict => exact fun d k h s x hce htaken hpass hkind => execVerdict_ce hce htaken hpass hkind
  case miss =>
    intro d x k s hservice hdie hjudges hk hdue
    have hjudged := execHeartbeatMiss_judged hservice hdie hjudges hk hdue
    exact ⟨fun hheard => hjudged.trans (congrArg _ (if_pos hheard)),
      fun hmissed => hjudged.trans (congrArg _ (if_neg (Nat.not_lt.mpr hmissed)))⟩
  case pkgSend =>
    intro s hhead hmode hdue
    refine ⟨_, congrArg Host.Outcome.next (if_pos (by simp [hhead, hmode, hdue])), rfl, ?_⟩
    exact floodPorts_mem_csr _ _
  case pkgMiss =>
    exact fun d s hport hmode hlive hheard hdue hmissed hbelow =>
      execPackageHeartbeatMiss_again hport hmode hlive hheard hdue hmissed hbelow
  case telemetry =>
    intro d temp s hdie hmode hdue
    have hlog : s.fld d HLT_FLOG_CTL 47 32 < 2 ^ 16 := bitsOf_lt _ _ _
    refine ⟨_, (onUnit_of_exists _ hdie).trans (congrArg _ (if_pos (by simp [hmode, hdue]))), ?_, ?_, rfl, rfl⟩
    · show bitsOf (Tbl.get (Tbl.set (Tbl.set _ 0 (2 * d) _) 0 (2 * d + 1) _) 0 (2 * d)) 15 0 = _
      rw [Tbl.get_set_other _ _ _ _ _ (by omega), Tbl.get_set_same, bitsOf_ofNat _ (by decide)]
      omega
    · show bitsOf (Tbl.get (Tbl.set (Tbl.set _ 0 (2 * d) _) 0 (2 * d + 1) _) 0 (2 * d + 1)) 31 0 = _
      rw [Tbl.get_set_same, bitsOf_ofNat _ (by decide)]
      omega
  case third =>
    exact fun s d x miss hmirror => ⟨hbMissed_below hmirror, hbMissed_third hmirror⟩

end Sys2Proof.Machine
end
section
/-! SUPPORT. Link error windows and probes (R612 to R618). -/

namespace Sys2Proof.Machine

/-! ## Error windows -/

/-- A window that ends at or below the limit starts both counts again and no more. -/
theorem secWindowEnd_below {s : State} {d p i : Nat}
    (hwindow : s.secWindow.get 0 (ek d p i) < (s.regionOf d p).cycles / 2 ^ secLog s d)
    (hcount : s.secCount.get 0 (ek d p i) ≤ s.fld d HLT_THRESH 31 16) :
    secWindowEnd s d p i = { s with secWindow := s.secWindow.set 0 (ek d p i) ((s.regionOf d p).cycles / 2 ^ secLog s d),
                                    secCount := s.secCount.set 0 (ek d p i) 0, dedCount := s.dedCount.set 0 (ek d p i) 0 } := by
  rw [secWindowEnd, if_neg (Nat.not_le.mpr hwindow), if_neg (Nat.not_lt.mpr hcount)]

/-! ## Probes -/

@[simp] theorem State.probeSeq_setProbeSeq_same (s : State) (d p : Nat) (x : ProbeSeq) : (s.setProbeSeq d p x).probeSeq d p = x :=
  Tbl.get_set_same _ _ _ _

theorem putProbe_probeSeq (s : State) (k : Nat) (pk : Packet) (d p : Nat) : (putProbe s k pk).probeSeq d p = s.probeSeq d p := rfl

theorem putProbe_wire (s : State) (k : Nat) (pk : Packet) : (putProbe s k pk).probeWires.get [] k = s.probeWires.get [] k ++ [pk] :=
  Tbl.get_set_same _ _ _ _

theorem probePacket_probeWires (s : State) (d o n : Nat) (seed : Word) : (probePacket s d o n seed).2.probeWires = s.probeWires := rfl

section
variable {s : State} {d p : Nat} {j : ProbeJob} (hjob : (s.probeSeq d p).job = some j)

theorem execProbe_arrives {i k : Nat} {pk q : Packet} {qs : List Packet} (hrouter : routerExists s d p = true) (hi : i < 6)
    (hcmd : pk.hdr.cmd = 0x52)
    (hsource : (if i < 4 then probeSource s d p i else some (pwk d p (if pk.hdr.inlBits 419 419 = 1 then i + 2 else i))) = some k)
    (hwire : s.probeWires.get [] k = q :: qs) (hruns : isHalted s d p = false) (hopen : inputFenced s d p i = false)
    (hrouterRuns : routerRuns s d p = true) :
    execProbe d p i pk s = .next
      (if pk.hdr.inlBits 419 419 = 1 then probeReturn { s with probeWires := s.probeWires.set [] k qs } d p i pk
      else probeBack { s with probeWires := s.probeWires.set [] k qs } (pwk d p (if i < 4 then i else i + 2)) pk) := by
  rw [execProbe, routerPort_exists hrouter hi, if_neg (by decide), hcmd, if_neg (by decide)]
  simp only [beq_iff_eq, hsource, hwire, hruns, hopen, hrouterRuns, List.isEmpty_cons, Bool.or_self, Bool.false_eq_true, if_false, Bool.not_true,
    List.drop_succ_cons, List.drop_zero]
  split <;> rfl

/-- An idle sequencer with budget left sends to its next output. -/
theorem probeSend_free {o len : Nat} {seed : Word} (hrun : probesRun s d p = true) (hidle : (s.probeSeq d p).job = none)
    (hnext : nextProbe s d p = some o) (hfree : probeFree s d p o (min 32 len) = true)
    (hbudget : min 32 len + 1 ≤ probeBudget (s.probeSeq d p) o (s.regionOf d p).cycles) :
    ∃ x, probeSend s d p len seed = putProbe ((probePacket s d o (min 32 len) seed).2.setProbeSeq d p x) (pwk d p o)
      (probePacket s d o (min 32 len) seed).1 ∧ x.next = (o + 1) % 6 := by
  rw [probeSend, if_neg (by simp [hrun, hidle]), hnext]
  exact ⟨_, if_pos (by rw [hfree, decide_eq_true hbudget, Bool.and_self]), rfl⟩

include hjob

theorem execProbeTimeout_due (hrouter : routerExists s d p = true) (hwaits : j.failed = false)
    (hdue : s.fld d HLT_PROBE_CFG 43 32 * (if (s.regionOf d p).down then 10 else 5) ≤ (s.now d - j.sentFt) * 8) :
    execProbeTimeout d p s = .next (probeFail s d p) := by
  rw [execProbeTimeout, onUnit_of_exists _ hrouter, hjob]
  exact congrArg _ (if_pos (and_decide_le (by rw [hwaits, Bool.not_false]) hdue))

theorem execProbeRepeat_due (hrouter : routerExists s d p = true) (hfailed : j.failed = true) (hdue : j.sentFt + 1000 ≤ s.now d)
    (hrun : probesRun s d p = true) (hfree : probeFree s d p j.out j.pk.data.length = true) :
    execProbeRepeat d p s = .next (putProbe (s.setProbeSeq d p { s.probeSeq d p with
      job := some { j with failed := false, again := true, sentFt := s.now d } }) (pwk d p j.out) j.pk) := by
  rw [execProbeRepeat, onUnit_of_exists _ hrouter, hjob]
  exact congrArg _ (if_pos (by rw [hfailed, decide_eq_true hdue, hrun, hfree]; rfl))

end

/-- Settles O45. -/
theorem linkHealthComplete : Obligations.LinkHealthComplete := by
  refine ⟨?window, ?probe, ?send, ?timeout, ?again⟩
  case window =>
    intro d p i s hrouter hi hwindow hcount
    exact ⟨_, (onUnit_of_exists _ (routerPort_exists hrouter hi)).trans (congrArg _ (secWindowEnd_below hwindow hcount)),
      Tbl.get_set_same _ _ _ _, Tbl.get_set_same _ _ _ _, rfl, rfl⟩
  case probe =>
    intro d p i k pk q qs s hrouter hi hcmd hsource hwire hruns hopen hrouterRuns
    have harrives := execProbe_arrives hrouter hi hcmd hsource hwire hruns hopen hrouterRuns
    exact ⟨fun hout => harrives.trans (congrArg _ (if_neg (by rw [hout]; decide))), fun hback => harrives.trans (congrArg _ (if_pos hback))⟩
  case send =>
    intro d p len o seed s hrouter hrun hidle hnext hfree hbudget
    obtain ⟨x, hsend, hx⟩ := probeSend_free (seed := seed) hrun hidle hnext hfree hbudget
    refine ⟨_, _, (onUnit_of_exists _ hrouter).trans (congrArg _ hsend), ?_, rfl, ?_⟩
    · rw [putProbe_wire]
      exact congrArg (fun w => Tbl.get w [] _ ++ _) (probePacket_probeWires s d o (min 32 len) seed)
    · rw [putProbe_probeSeq, State.probeSeq_setProbeSeq_same, hx]
  case timeout => exact fun d p s j hrouter hjob hwaits hdue => execProbeTimeout_due hjob hrouter hwaits hdue
  case again => exact fun d p s j hrouter hjob hfailed hdue hrun hfree => execProbeRepeat_due hjob hrouter hfailed hdue hrun hfree

end Sys2Proof.Machine
end
section
/-! SUPPORT. The tile port, the send engine and the memory port (R380 to R382, R806 to R818). -/

namespace Sys2Proof.Machine

/-! ## The tile port (R806 to R810) -/

section
variable {s : State} {d p v : Nat} (htile : isTile s d p = true) (hv : v < 6) (hrun : tileInReset s d = false)
  (hhalt : isHalted s d p = false)
include htile hv

theorem tileVc_exists : ¬ (!(isTile s d p && decide (v < 6))) = true := by simp [htile, hv]

include hrun hhalt

/-- A unit that does not end its packet waits for the rest. -/
theorem execTpInjectUnit_part {u : DataUnit} (hroom : queuedUnits s d p v + ((s.ni d p).part.get [] v ++ [u]).length ≤ 33) :
    execTpInjectUnit d p v false u s =
      .next (s.setNi d p { s.ni d p with part := (s.ni d p).part.set [] v ((s.ni d p).part.get [] v ++ [u]) }) := by
  rw [execTpInjectUnit, if_neg (tileVc_exists htile hv), if_neg (by simp [hrun])]
  exact (if_neg (by rw [hhalt, Bool.false_or, decide_eq_true_eq]; exact Nat.not_lt.mpr hroom)).trans (if_pos rfl)

theorem execTpInjectUnit_last {u : DataUnit} {us : List DataUnit} {pk : Packet} (hus : us = (s.ni d p).part.get [] v ++ [u])
    (hroom : queuedUnits s d p v + us.length ≤ 33) (hpk : pk = { hdr := Hdr.unpack (us.headD 0), data := us.drop 1 })
    (hvc : pk.hdr.vc.toNat = v) (hlaunch : launchMisuse s d v = false) (hfit : packetMisuse pk = none) :
    execTpInjectUnit d p v true u s = .next (sendAt (s.setNi d p { s.ni d p with part := (s.ni d p).part.set [] v [] }) d p pk) := by
  have hvc' : (Hdr.unpack (us.headD 0)).vc.toNat = v := by rw [← hvc, hpk]
  rw [execTpInjectUnit, if_neg (tileVc_exists htile hv), if_neg (by simp [hrun])]
  refine (if_neg (by rw [hhalt, Bool.false_or, decide_eq_true_eq, ← hus]; exact Nat.not_lt.mpr hroom)).trans ((if_neg (by simp)).trans ?_)
  simp only [← hus, hvc', bne_self_eq_false, Bool.false_eq_true, if_false, hlaunch, ← hpk, hfit]

/-- A unit in the middle of a packet that the tile takes goes to its scratchpad. -/
theorem execTpDeliver_data {f : Flit} {fs : List Flit} {c : Dlv} (henable : s.flag d (niw p NI_CFG) 0 = true)
    (hej : (s.ni d p).ej.get [] v = f :: fs) (hcur : (s.ni d p).cur.get none v = some c) (hkeep : c.drop = false) (hmore : f.last = false) :
    execTpDeliver d p v s = .next (setCur (tileData (popEj s d p v) d p c.hdr c.got f.data) d p v
      (some { c with got := c.got ++ [f.data] })) := by
  rw [execTpDeliver, if_neg (tileVc_exists htile hv), if_neg (by simp [hrun, hhalt, henable]), hej]
  simp only [hcur, hkeep, hmore, Bool.false_eq_true, if_false, Bool.not_false, if_true]

end

theorem execTwinNotice_twin {s : State} {d p addr be : Nat} {u : DataUnit} {w : Word} (htile : isTile s d p = true)
    (hhalt : isHalted s d p = false) (hrun : tileInReset s d = false) (hbytes : be % 2 ^ 64 ≠ 0) (htwin : twinOf s d p = some w)
    (hin : inTwin w (addr % 2 ^ 17 * 8 / 64 * 64) = true) :
    execTwinNotice d p addr be u s =
      .next (twinSend s d p w (addr % 2 ^ 17 * 8 / 64 * 64) 0x01 (BitVec.ofNat 128 (be % 2 ^ 64)) [u]) := by
  have hgo : ¬ (tileInReset s d || be % 2 ^ 64 == 0) = true := by
    rw [hrun, Bool.false_or, beq_iff_eq]; exact hbytes
  rw [execTwinNotice, if_neg (by simp [htile]), if_neg (by simp [hhalt]), if_neg hgo, twinUnit, htwin]
  exact congrArg _ (if_pos hin)

/-! ## The send engine (R380 to R382) -/

/-- What the orders of a send engine are read from: the NIs, memory and the registers. -/
def SendFrame (s t : State) : Prop := t.nis = s.nis ∧ t.mem = s.mem ∧ t.csr = s.csr

theorem SendFrame.refl (s : State) : SendFrame s s := ⟨rfl, rfl, rfl⟩

theorem SendFrame.trans {s t u : State} (h : SendFrame s t) (h' : SendFrame t u) : SendFrame s u :=
  ⟨h'.1.trans h.1, h'.2.1.trans h.2.1, h'.2.2.trans h.2.2⟩

theorem tileRead_frame (s : State) (d p off : Nat) : SendFrame s (tileRead s d p off).2 := by
  unfold tileRead
  split
  · exact .refl s
  · exact ⟨rfl, rfl, rfl⟩

/-- Reading units of a scratchpad draws free values at most. -/
theorem tileUnits_frame (d p off n : Nat) (s : State) (i : Nat) : SendFrame s (tileUnits s d p off i n).2 := by
  induction n generalizing s i with
  | zero => exact .refl s
  | succ n ih => exact (tileRead_frame s d p _).trans (ih _ _)

theorem orderPackets_frame (s : State) (d p : Nat) (o : Order) : SendFrame s (orderPackets s d p o).2 := by
  unfold orderPackets
  split
  · exact .refl s
  · exact tileUnits_frame d p _ _ s 0

theorem sendAll_frame (s : State) (d att : Nat) (ps : List Packet) : SendFrame s (sendAll s d att ps) :=
  ⟨foldl_keeps State.nis (fun s _ => s.enqueue_nis d att _) ps s, foldl_keeps State.mem (fun s _ => s.enqueue_mem d att _) ps s,
    foldl_keeps State.csr (fun s _ => s.enqueue_csr d att _) ps s⟩

theorem State.ni_of_nis {s t : State} (h : t.nis = s.nis) (d p : Nat) : t.ni d p = s.ni d p := by
  rw [State.ni, State.ni, h]

theorem sendOrder_mem_csr (s : State) (d p : Nat) (o : Order) (os : List Order) (ps : List Packet) :
    (sendOrder s d p o os ps).mem = s.mem ∧ (sendOrder s d p o os ps).csr = s.csr := by
  unfold sendOrder
  split
  · exact ⟨rfl, rfl⟩
  · exact (sendAll_frame _ d p _).2

/-- A send with packets is at work until its last packet has been injected. -/
theorem sendOrder_ni (s : State) (d p : Nat) (o : Order) (os : List Order) {ps : List Packet} (h : ps ≠ []) :
    ((sendOrder s d p o os ps).ni d p).orders = { o with busy := true } :: os ∧
      ((sendOrder s d p o os ps).ni d p).reports = (s.ni d p).reports := by
  have hni : (sendOrder s d p o os ps).ni d p = { s.ni d p with orders := { o with busy := true } :: os } := by
    rw [sendOrder, List.getLast?_eq_some_getLast h]
    exact (State.ni_of_nis (sendAll_frame _ d p _).1 d p).trans (State.ni_setNi_same _ _ _ _)
  rw [hni]
  exact ⟨rfl, rfl⟩

/-- Taking orders from the bus moves no order out of sequence. -/
theorem takeOrders_all (n : Ni) : (takeOrders n).orders ++ (takeOrders n).bus = n.orders ++ n.bus := by
  rw [takeOrders, List.append_assoc, List.take_append_drop]

section
variable {s : State} {d p : Nat} {o : Order} {os : List Order}

/-- The first order of a send engine, of the kind named, whose instant has come. -/
theorem runOrder_due {clear : Bool} (horders : (s.ni d p).orders = o :: os) (hkind : o.clear = clear) (hidle : o.busy = false)
    (hstart : o.start ≤ s.now d) (hrun : tileInReset s d = false) (hhalt : attHalted s d p = false) :
    runOrder s d p clear = if clear then
        { s with mem := tileClear s.mem d p o.off o.units }.setNi d p
          (takeOrders { s.ni d p with orders := os, reports := (s.ni d p).reports ++ [orderReport o p 1] })
      else sendOrder (orderPackets s d p o).2 d p o os (orderPackets s d p o).1 := by
  simp only [runOrder, horders]
  rw [if_neg]
  rw [hkind, bne_self_eq_false, hidle, hrun, hhalt, decide_eq_false (Nat.not_lt.mpr hstart)]
  decide

end

theorem cancelAt_ni (s : State) (d p g tag : Nat) :
    ((cancelAt s d p g tag).ni d p).cancels = (s.ni d p).cancels ∧
      ((cancelAt s d p g tag).ni d p).orders ++ ((cancelAt s d p g tag).ni d p).bus =
        ((s.ni d p).orders ++ (s.ni d p).bus).filter (fun o => !(o.group == g && o.tag == tag)) := by
  rw [show (cancelAt s d p g tag).ni d p = _ from Tbl.get_set_same _ _ _ _, takeOrders_all, List.filter_append]
  exact ⟨rfl, rfl⟩

/-- Settles O23. -/
theorem tilePortCommandsComplete : Obligations.TilePortCommandsComplete := by
  refine ⟨?part, ?last, ?deliver, ?gen, ?readData, ?twin, ?inject, ?drain, ?clear, ?send, ?cancel, ?report⟩
  case part => exact fun d p v u s htile hv hrun hhalt hroom => execTpInjectUnit_part htile hv hrun hhalt hroom
  case last =>
    exact fun d p v u s us pk htile hv hrun hhalt hus hroom hpk hvc hlaunch hfit =>
      execTpInjectUnit_last htile hv hrun hhalt hus hroom hpk hvc hlaunch hfit
  case deliver =>
    exact fun d p v s f fs c htile hv hrun hhalt henable hej hcur hkeep hmore =>
      execTpDeliver_data htile hv hrun hhalt henable hej hcur hkeep hmore
  case gen => exact fun d p gen s htile hgen => onUnit_of_exists _ (by rw [htile, decide_eq_true hgen, Bool.and_self])
  case readData =>
    intro d p tag s htile htag hrun
    exact (onUnit_of_exists _ (by rw [htile, decide_eq_true htag, Bool.and_self])).trans (congrArg _ (if_neg (by simp [hrun])))
  case twin =>
    exact fun d p addr be u s w htile hhalt hrun hbytes htwin hin => execTwinNotice_twin htile hhalt hrun hbytes htwin hin
  case inject => exact fun d att v s hatt hv => onUnit_of_exists _ (by rw [hatt, decide_eq_true hv, Bool.and_self])
  case drain => exact fun d att s hatt => ⟨_, onUnit_of_exists _ hatt, Tbl.get_set_same _ _ _ _, rfl, rfl⟩
  case clear =>
    intro d p s o os htile horders hkind hidle hstart hrun hhalt
    exact (onUnit_of_exists _ htile).trans (congrArg _ ((runOrder_due horders hkind hidle hstart hrun hhalt).trans (if_pos rfl)))
  case send =>
    intro d p s o os htile horders hkind hidle hstart hrun hhalt
    have hrunOrder := (runOrder_due horders hkind hidle hstart hrun hhalt).trans (if_neg (by decide))
    obtain ⟨hnis, hmem, hcsr⟩ := orderPackets_frame s d p o
    obtain ⟨hsendMem, hsendCsr⟩ := sendOrder_mem_csr (orderPackets s d p o).2 d p o os (orderPackets s d p o).1
    refine ⟨_, (onUnit_of_exists _ htile).trans (congrArg _ hrunOrder), rfl, hsendMem.trans hmem, hsendCsr.trans hcsr, fun hsome => ?_⟩
    obtain ⟨horders', hreports⟩ := sendOrder_ni (orderPackets s d p o).2 d p o os hsome
    exact ⟨horders', hreports.trans (congrArg Ni.reports (State.ni_of_nis hnis d p))⟩
  case cancel =>
    intro d p g tag s cs htile hcancels
    obtain ⟨hleft, hkept⟩ := cancelAt_ni (s.setNi d p { s.ni d p with cancels := cs }) d p g tag
    rw [State.ni_setNi_same] at hleft hkept
    refine ⟨cancelAt (s.setNi d p { s.ni d p with cancels := cs }) d p g tag, ?_, hleft, hkept, rfl, rfl⟩
    show execOrderCancel d p s = _
    rw [execOrderCancel, onUnit_of_exists _ htile, hcancels]
  case report =>
    intro d p s r rs htile hreports
    show execOrderReport d p s = _
    rw [execOrderReport, onUnit_of_exists _ htile, hreports]

/-! ## The memory port (R814 to R818) -/

section
variable {s : State} {d tag : Nat} {r : MpReq} (hfind : (s.mp d).reqs.find? (fun r => r.tag == tag) = some r)
include hfind

/-- A late response frees the tag and is dropped. -/
theorem mpResponse_late (hdead : r.dead = true) (err : Bool) :
    mpResponse s d tag err = mpPump (s.setMp d { s.mp d with reqs := (s.mp d).reqs.filter (fun q => q.tag != tag) }) d := by
  rw [mpResponse, hfind]
  exact if_pos hdead

/-- A response in time: its unit goes to the packet it belongs to, or fails it. -/
theorem mpResponse_inTime {s1 : State} (hlive : r.dead = false)
    (hs1 : s1 = s.setMp d { s.mp d with reqs := (s.mp d).reqs.filter (fun q => q.tag != tag) }) (err : Bool) :
    mpResponse s d tag err = mpPump (mpSettle (if err then mpFail s1 d r else if r.write then s1 else s1.setMp d { s1.mp d with
      jobs := (s1.mp d).jobs.map (fun (j : MpJob) =>
        if j.id == r.job then { j with got := j.got ++ [(r.idx, readUnit s1.mem (dramKey d r.off))] } else j) }) d r.job) d := by
  rw [mpResponse, hfind, hs1]
  exact if_neg (by rw [hlive]; decide)

theorem mpTimeout_due (hlive : r.dead = false) (hdue : r.issued + 10000 ≤ s.now d) :
    mpTimeout s d tag = mpSettle (mpFail (s.setMp d { s.mp d with reqs :=
      ((s.mp d).reqs.map (fun q => if q.tag == tag then { q with dead := true } else q)) }) d r) d r.job := by
  rw [mpTimeout, hfind]
  exact if_neg (by rw [hlive, Bool.false_or, decide_eq_true_eq]; exact Nat.not_lt.mpr hdue)

end

/-- Settles O24. -/
theorem memoryPortCommandsComplete : Obligations.MemoryPortCommandsComplete := by
  have hresponse {d : Nat} {s : State} (tag : Nat) (err : Bool) (hk : isKind s d .memif = true) (hruns : attHalted s d attMem = false) :
      exec (.mpResponse d tag err) s = .next (mpResponse s d tag err) :=
    (onUnit_of_exists _ hk).trans (congrArg _ (if_neg (by rw [hruns]; decide)))
  refine ⟨?late, ?inTime, ?timeout, ?trained, ?held⟩
  case late =>
    exact fun d tag err s r hk hruns hfind hdead => (hresponse tag err hk hruns).trans (congrArg _ (mpResponse_late hfind hdead err))
  case inTime =>
    intro d tag s s1 r hk hruns hfind hlive hs1
    have hin (err : Bool) := (hresponse tag err hk hruns).trans (congrArg _ (mpResponse_inTime hfind hlive hs1 err))
    refine ⟨hin true, fun hwrite => (hin false).trans ?_, fun hread => (hin false).trans ?_⟩
    · rw [if_neg (by decide), if_pos hwrite]
    · rw [if_neg (by decide), if_neg (by rw [hread]; decide)]
  case timeout =>
    intro d tag s r hk hruns hfind hlive hdue
    exact (onUnit_of_exists _ hk).trans (congrArg _ ((if_neg (by rw [hruns]; decide)).trans (mpTimeout_due hfind hlive hdue)))
  case trained => exact fun d s hk => onUnit_of_exists _ hk
  case held => exact fun d tag err s hk hhalt => (onUnit_of_exists _ hk).trans (congrArg _ (if_pos hhalt))

end Sys2Proof.Machine
end
section
/-! SUPPORT. Memory in its canonical form, through the branches of a state and the outcomes of a command. -/

namespace Sys2Proof.Machine

@[simp] theorem ite_mem (c : Prop) [Decidable c] (s t : State) : (if c then s else t).mem = if c then s.mem else t.mem :=
  apply_ite State.mem c s t

theorem Always.of_eq {P : State → Prop} {o : Out} {t : State} (h : Always P o) (he : o = .next t) : P t := by
  subst he
  exact h

@[simp] theorem State.inv_iff (s : State) : s.Inv ↔ Memory.wf s.mem = true := Iff.rfl

@[simp] theorem memwf_ite (c : Prop) [Decidable c] (m n : List Host.Cell) :
    Memory.wf (if c then m else n) = if c then Memory.wf m else Memory.wf n := apply_ite Memory.wf c m n

theorem memwf_of_eq {t u : State} (h : t = u) (hu : Memory.wf u.mem = true) : Memory.wf t.mem = true := h ▸ hu

end Sys2Proof.Machine
end

section
/-! SUPPORT. Memory under the operations of Machine/Ops.lean: `_mem` where it is left alone, `_memwf` and `_inv` where it stays canonical. -/

namespace Sys2Proof.Machine

@[simp] theorem State.draw_mem (s : State) :
    (State.draw s).2.mem = s.mem :=
  (rfl)

@[simp] theorem irqAt_mem (s : State) (d b : Nat) :
    (irqAt s d b).mem = s.mem := by
  simp [irqAt]

@[simp] theorem irq_mem (s : State) (b : Nat) :
    (irq s b).mem = s.mem := by
  simp [irq]

@[simp] theorem noteState_mem (s : State) (m : Mode) (ds : List Nat) :
    (noteState s m ds).mem = s.mem := by
  simp [noteState]

@[simp] theorem enterMode_mem (s : State) (m : Mode) :
    (enterMode s m).mem = s.mem := by
  simp [enterMode]

@[simp] theorem takeSeq_mem (s : State) (d : Nat) :
    (takeSeq s d).2.mem = s.mem := by
  simp [takeSeq]

@[simp] theorem traceRec_mem (s : State) (d ty : Nat) (stretch : Bool) (body : List Nat) :
    (traceRec s d ty stretch body).mem = s.mem := by
  unfold traceRec
  dsimp only
  repeat' split
  all_goals simp

@[simp] theorem mendRestart_mem (s : State) (q : Nat) :
    (mendRestart s q).mem = s.mem := by
  simp [mendRestart]

@[simp] theorem mendFurther_mem (s : State) (q : Nat) :
    (mendFurther s q).mem = s.mem := by
  simp [mendFurther]

@[simp] theorem furtherFault_mem (s : State) (d : Nat) :
    (furtherFault s d).mem = s.mem := by
  unfold furtherFault
  split
  all_goals simp

@[simp] theorem faultRec_mem (s : State) (d cls index detail action : Nat) :
    (faultRec s d cls index detail action).mem = s.mem := by
  simp [faultRec]

@[simp] theorem hcrcFault_mem (s : State) (d index vc tag : Nat) :
    (hcrcFault s d index vc tag).mem = s.mem := by
  simp [hcrcFault]

@[simp] theorem sendAt_mem (s : State) (d att : Nat) (p : Packet) :
    (sendAt s d att p).mem = s.mem :=
  (rfl)

@[simp] theorem sendAll_mem (s : State) (d att : Nat) (ps : List Packet) :
    (sendAll s d att ps).mem = s.mem := by
  simp [sendAll]

end Sys2Proof.Machine
end

section
/-! SUPPORT. Memory under the operations of Machine/Router.lean: `_mem` where it is left alone, `_memwf` and `_inv` where it stays canonical. -/

namespace Sys2Proof.Machine

@[simp] theorem countHemDrop_mem (s : State) (d p : Nat) (h : Hdr) :
    (countHemDrop s d p h).mem = s.mem := by
  simp [countHemDrop]

@[simp] theorem countMiss_mem (s : State) (d p o e cause : Nat) :
    (countMiss s d p o e cause).mem = s.mem := by
  simp [countMiss]

@[simp] theorem countUnit_mem (s : State) (d p i v : Nat) :
    (countUnit s d p i v).mem = s.mem := by
  unfold countUnit
  split
  all_goals simp

@[simp] theorem returnCredit_mem (s : State) (d p i v : Nat) :
    (returnCredit s d p i v).mem = s.mem := by
  unfold returnCredit
  dsimp only
  repeat' split
  all_goals simp

@[simp] theorem creditBack_mem (s : State) (d p i v : Nat) (via : Option Nat) :
    (creditBack s d p i v via).mem = s.mem := by
  unfold creditBack
  split
  all_goals simp

@[simp] theorem endPair_mem (s : State) (d p c : Nat) (lastPacket : Bool) :
    (endPair s d p c lastPacket).mem = s.mem := by
  unfold endPair
  dsimp only
  split
  all_goals simp

@[simp] theorem popUnit_mem (s : State) (d p i v : Nat) :
    (popUnit s d p i v).mem = s.mem := by
  unfold popUnit
  dsimp only
  repeat' split
  all_goals simp

@[simp] theorem countHop_mem (s : State) (d o : Nat) :
    (countHop s d o).mem = s.mem := by
  simp [countHop]

@[simp] theorem seamRun_mem (s : State) (d i : Nat) (a : Seam) :
    (seamRun s d i a).mem = s.mem := by
  unfold seamRun
  repeat' split
  all_goals simp

@[simp] theorem pushOut_mem (s : State) (d p o : Nat) (f0 : Flit) :
    (pushOut s d p o f0).mem = s.mem := by
  unfold pushOut
  repeat' split
  all_goals simp

@[simp] theorem pushAll_mem (s : State) (d p : Nat) (outs : List Nat) (h : Hdr) (f : Flit) :
    (pushAll s d p outs h f).mem = s.mem := by
  simp [pushAll]

@[simp] theorem probeOne_mem (s : State) (d n point index port colour : Nat) (h : Hdr) :
    (probeOne s d n point index port colour h).mem = s.mem := by
  simp [probeOne]

@[simp] theorem probeEval_mem (s : State) (d point index port colour : Nat) (h : Hdr) :
    (probeEval s d point index port colour h).mem = s.mem := by
  simp [probeEval]

@[simp] theorem popMerged_mem (s : State) (d p v i : Nat) :
    (popMerged s d p v i).mem = s.mem := by
  unfold popMerged
  dsimp only
  repeat' split
  all_goals simp

@[simp] theorem dropPacket_mem (s : State) (d p i v : Nat) (h : Hdr) :
    (dropPacket s d p i v h).mem = s.mem := by
  simp [dropPacket]

@[simp] theorem doGrant_mem (s : State) (d p o : Nat) (q : Req) (df : List Nat) :
    (doGrant s d p o q df).mem = s.mem := by
  simp [doGrant]

@[simp] theorem moveHeld_mem (s : State) (d p key : Nat) (g : Held) :
    (moveHeld s d p key g).mem = s.mem := by
  unfold moveHeld
  split
  all_goals simp

@[simp] theorem grantSlot_mem (s : State) (d p o : Nat) (q : Req) :
    (grantSlot s d p o q).mem = s.mem := by
  simp [grantSlot]

@[simp] theorem takeSlot_mem (s : State) (d p o e : Nat) :
    (takeSlot s d p o e).mem = s.mem :=
  (rfl)

@[simp] theorem releaseSlot_mem (s : State) (d p o e : Nat) :
    (releaseSlot s d p o e).mem = s.mem :=
  (rfl)

end Sys2Proof.Machine
end

section
/-! SUPPORT. Memory under the operations of Machine/Fence.lean: `_mem` where it is left alone, `_memwf` and `_inv` where it stays canonical. -/

namespace Sys2Proof.Machine

@[simp] theorem noteFence_mem (s : State) (d : Nat) :
    (noteFence s d).mem = s.mem :=
  (rfl)

@[simp] theorem hemOut_mem (s : State) (d p o : Nat) :
    (hemOut s d p o).mem = s.mem := by
  simp [hemOut]

@[simp] theorem hemSeamBit_mem (s : State) (d i : Nat) :
    (hemSeamBit s d i).mem = s.mem := by
  simp [hemSeamBit]

@[simp] theorem discardInput_mem (s : State) (d p i : Nat) :
    (discardInput s d p i).mem = s.mem :=
  (rfl)

@[simp] theorem fenceSeam_mem (s : State) (d i : Nat) :
    (fenceSeam s d i).mem = s.mem := by
  unfold fenceSeam
  split
  all_goals simp

@[simp] theorem fenceLink_mem (s : State) (d p port : Nat) :
    (fenceLink s d p port).mem = s.mem := by
  unfold fenceLink
  split
  all_goals simp

@[simp] theorem fenceTile_mem (s : State) (d p : Nat) :
    (fenceTile s d p).mem = s.mem := by
  simp [fenceTile]

@[simp] theorem fenceUnit_mem (s : State) (d bit : Nat) :
    (fenceUnit s d bit).mem = s.mem := by
  simp [fenceUnit]

@[simp] theorem fenceDie_mem (s : State) (d : Nat) :
    (fenceDie s d).mem = s.mem := by
  unfold fenceDie
  refine foldl_mem _ (fun s b => ?_) _ _
  split
  all_goals simp

@[simp] theorem faultLink_mem (s : State) (d cls p port detail : Nat) (limit : Bool) :
    (faultLink s d cls p port detail limit).mem = s.mem := by
  simp [faultLink]

end Sys2Proof.Machine
end

section
/-! SUPPORT. Memory under the operations of Machine/Reduce.lean: `_mem` where it is left alone, `_memwf` and `_inv` where it stays canonical. -/

namespace Sys2Proof.Machine

@[simp] theorem recordPass_mem (s : State) (d p : Nat) (k : JoinKey) :
    (recordPass s d p k).mem = s.mem := by
  simp [recordPass]

@[simp] theorem joinUnits_mem (s : State) (odd : Bool) (cmd fmt len : Nat) (a b : List DataUnit) :
    (joinUnits s odd cmd fmt len a b).2.mem = s.mem := by
  unfold joinUnits
  split
  · simp
  · refine foldl_snd_mem _ (fun r b => ?_) _ _
    simp

@[simp] theorem joinUnit_mem (s : State) (odd : Bool) (cmd fmt : Nat) (a b : DataUnit) :
    (joinUnit s odd cmd fmt a b).2.mem = s.mem := by
  unfold joinUnit
  split
  all_goals simp

@[simp] theorem residueBad_mem (s : State) (d p i c : Nat) :
    (residueBad s d p i c).mem = s.mem := by
  unfold residueBad
  split
  all_goals simp

@[simp] theorem noteResidue_mem (s : State) (d p i c : Nat) (f : Flit) :
    (noteResidue s d p i c f).mem = s.mem := by
  simp [noteResidue]

@[simp] theorem joinPacket_mem (s : State) (d p i c : Nat) (own : Hdr) (fl : Flit) (units : List DataUnit) :
    (joinPacket s d p i c own fl units).mem = s.mem := by
  unfold joinPacket
  split
  · simp
  · split
    all_goals simp

@[simp] theorem consumeHead_mem (s : State) (d p i : Nat) :
    (consumeHead s d p i).mem = s.mem := by
  simp [consumeHead]

@[simp] theorem mapHead_mem (s : State) (d p i : Nat) (g : Flit → Flit) :
    (mapHead s d p i g).mem = s.mem := by
  unfold mapHead
  dsimp only
  split
  all_goals simp

@[simp] theorem markHead_mem (s : State) (d p i : Nat) :
    (markHead s d p i).mem = s.mem := by
  simp [markHead]

@[simp] theorem setJoinIn_mem (s : State) (d p i : Nat) (m : JoinMode) :
    (setJoinIn s d p i m).mem = s.mem :=
  (rfl)

@[simp] theorem passPacket_mem (s : State) (d p i : Nat) (h : Hdr) :
    (passPacket s d p i h).mem = s.mem := by
  simp [passPacket]

@[simp] theorem discardOperand_mem (s : State) (d p i : Nat) (h : Hdr) :
    (discardOperand s d p i h).mem = s.mem := by
  simp [discardOperand]

@[simp] theorem holdPacket_mem (s : State) (d p i c : Nat) (x : Ctx) (h : Hdr) (f : Flit) :
    (holdPacket s d p i c x h f).mem = s.mem := by
  simp [holdPacket]

@[simp] theorem matchPacket_mem (s : State) (d p i c : Nat) (x : Ctx) (h : Hdr) (f : Flit) :
    (matchPacket s d p i c x h f).mem = s.mem := by
  unfold matchPacket
  split
  all_goals simp

@[simp] theorem claimOrPass_mem (s : State) (d p i e : Nat) (right : Bool) (h : Hdr) (f : Flit) :
    (claimOrPass s d p i e right h f).mem = s.mem := by
  unfold claimOrPass
  dsimp only
  repeat' split
  all_goals simp

@[simp] theorem descendantHead_mem (s : State) (d p i e : Nat) (h : Hdr) :
    (descendantHead s d p i e h).mem = s.mem := by
  unfold descendantHead
  dsimp only
  repeat' split
  all_goals simp

theorem operandHead_mem {s : State} {d p i : Nat} {h : Hdr} {f : Flit} :
    ∀ t ∈ operandHead s d p i h f, t.mem = s.mem := by
  unfold operandHead
  extract_lets r
  split
  · simp
  · split
    · simp
    · split
      · simp
      · simp
      · split
        · simp
        · split
          · simp
          · split
            all_goals simp

@[simp] theorem cutOff_mem (s : State) (d p c : Nat) (x : Ctx) :
    (cutOff s d p c x).mem = s.mem := by
  simp [cutOff]

@[simp] theorem cutIfDue_mem (s : State) (d p c : Nat) :
    (cutIfDue s d p c).mem = s.mem := by
  unfold cutIfDue
  split
  all_goals simp

@[simp] theorem fillUnit_mem (s : State) (d p i c : Nat) (x : Ctx) (f : Flit) :
    (fillUnit s d p i c x f).mem = s.mem := by
  simp [fillUnit]

theorem streamUnit_mem {s : State} {d p i c n : Nat} {x : Ctx} {f : Flit} :
    ∀ t ∈ streamUnit s d p i c n x f, t.mem = s.mem := by
  unfold streamUnit
  split
  · simp
  · split
    all_goals simp

theorem storeUnit_mem {s : State} {d p i c : Nat} {x : Ctx} {own : Hdr} {fl : Flit} {units : List DataUnit} {f : Flit} :
    ∀ t ∈ storeUnit s d p i c x own fl units f, t.mem = s.mem := by
  unfold storeUnit
  split
  · simp
  · split
    all_goals simp

theorem operandData_mem {s : State} {d p i : Nat} {f : Flit} : ∀ t ∈ operandData s d p i f, t.mem = s.mem := by
  unfold operandData
  dsimp only
  split
  · simp
  · simp
  · simp
  · split
    all_goals simp
  · split
    · simp
    · exact streamUnit_mem
  · split
    · simp
    · exact storeUnit_mem

theorem operandStep_mem {s : State} {d p i : Nat} : ∀ t ∈ operandStep s d p i, t.mem = s.mem := by
  unfold operandStep
  split
  · simp
  · split
    · simp
    · split
      · exact operandHead_mem
      · exact operandData_mem

@[simp] theorem runJoins_mem (n d p : Nat) (s : State) : (runJoins n d p s).mem = s.mem := by
  induction n generalizing s with
  | zero => rfl
  | succ n ih =>
    unfold runJoins
    extract_lets s0
    have hs0 : s0.mem = s.mem := State.setRouter_mem _ _ _ _
    split
    · next t h =>
      obtain ⟨_, _, ht⟩ := List.exists_of_findSome?_eq_some h
      rw [ih, operandStep_mem _ ht, hs0]
    · exact hs0

@[simp] theorem reduceRun_mem (s : State) (d p : Nat) :
    (reduceRun s d p).mem = s.mem := by
  simp [reduceRun]

@[simp] theorem ceilingReached_mem (s : State) (d p c : Nat) (x : Ctx) :
    (ceilingReached s d p c x).mem = s.mem := by
  simp [ceilingReached]

end Sys2Proof.Machine
end

section
/-! SUPPORT. Memory under the operations of Machine/Mesh.lean: `_mem` where it is left alone, `_memwf` and `_inv` where it stays canonical. -/

namespace Sys2Proof.Machine

@[simp] theorem onUnit_inv (ok : Bool) {t : State} (ht : Memory.wf t.mem = true) : Always State.Inv (onUnit ok t) := by
  simp [ht]

@[simp] theorem drainDrops_mem (s : State) (d p : Nat) :
    (drainDrops s d p).mem = s.mem := by
  unfold drainDrops
  refine foldl_mem _ (fun s b => ?_) _ _
  split
  all_goals simp

@[simp] theorem noteHints_mem (s : State) (d p : Nat) :
    (noteHints s d p).mem = s.mem :=
  (rfl)

@[simp] theorem cycleStart_mem (s : State) (d p : Nat) :
    (cycleStart s d p).mem = s.mem := by
  simp [cycleStart]

@[simp] theorem serveLate_mem (s : State) (d p o : Nat) :
    (serveLate s d p o).mem = s.mem := by
  unfold serveLate
  dsimp only
  split
  all_goals simp

@[simp] theorem arbitrate_mem (s0 : State) (d p o : Nat) :
    (arbitrate s0 d p o).mem = s0.mem := by
  unfold arbitrate
  split
  · simp
  · dsimp only
    split
    · simp
    · split
      · simp
      · split
        all_goals simp

@[simp] theorem execOutputArbitration_inv (d p o : Nat) (s : State) (h : Memory.wf s.mem = true) :
    Always State.Inv (execOutputArbitration d p o s) := by
  simp [execOutputArbitration, h]

@[simp] theorem slotStart_mem (s : State) (d p o : Nat) :
    (slotStart s d p o).mem = s.mem := by
  unfold slotStart
  dsimp only
  repeat' split
  all_goals simp

@[simp] theorem execReservedSlotStart_inv (d p o : Nat) (s : State) (h : Memory.wf s.mem = true) :
    Always State.Inv (execReservedSlotStart d p o s) := by
  simp [execReservedSlotStart, h]

@[simp] theorem fillStream_mem (n n1 n2 n3 n4 : Nat) (s : State) :
    (fillStream n n1 n2 n3 n4 s).mem = s.mem := by
  fun_induction fillStream n n1 n2 n3 n4 s
  all_goals simp_all

@[simp] theorem bufferUnit_mem (s : State) (d p i : Nat) (f : Flit) :
    (bufferUnit s d p i f).mem = s.mem :=
  (rfl)

@[simp] theorem lateArrival_mem (s : State) (d p i : Nat) (h : Hdr) (f : Flit) :
    (lateArrival s d p i h f).mem = s.mem := by
  unfold lateArrival
  split
  all_goals simp

theorem slotArrival_mem {s : State} {d p i : Nat} {h : Hdr} {f : Flit} :
    ∀ t ∈ slotArrival s d p i h f, t.mem = s.mem := by
  unfold slotArrival
  extract_lets e
  split
  · extract_lets a
    split
    · simp
    · split
      all_goals simp
  · simp

theorem lookAhead_mem {s : State} {d p i : Nat} {h : Hdr} {f : Flit} :
    ∀ t ∈ lookAhead s d p i h f, t.mem = s.mem := by
  unfold lookAhead
  extract_lets o others
  split
  · simp
  · split
    · simp
    · split
      all_goals simp

@[simp] theorem endHere_mem (s : State) (d p i : Nat) (f : Flit) (h : Hdr) :
    (endHere s d p i f h).mem = s.mem := by
  simp [endHere]

@[simp] theorem admitNone_mem (s : State) (d p i : Nat) (h : Hdr) :
    (admitNone s d p i h).mem = s.mem := by
  simp [admitNone]

@[simp] theorem headerArrive_mem (s : State) (d p i : Nat) (f : Flit) (h : Hdr) :
    (headerArrive s d p i f h).mem = s.mem := by
  unfold headerArrive
  split
  · split
    · simp
    · split
      · dsimp only
        split
        · rename_i h3
          simp [slotArrival_mem _ h3]
        · split
          · rename_i h2
            simp [lookAhead_mem _ h2]
          · simp
      · dsimp only
        split
        · rename_i h3
          simp [slotArrival_mem _ h3]
        · split
          · rename_i h2
            simp [lookAhead_mem _ h2]
          · simp
  · split
    · simp
    · split
      · dsimp only
        split
        · rename_i h3
          simp [slotArrival_mem _ h3]
        · split
          · rename_i h2
            simp [lookAhead_mem _ h2]
          · simp
      · dsimp only
        split
        · rename_i h3
          simp [slotArrival_mem _ h3]
        · split
          · rename_i h2
            simp [lookAhead_mem _ h2]
          · simp

@[simp] theorem execRouterHeaderArrival_inv (d p i : Nat) (s : State) (h : Memory.wf s.mem = true) :
    Always State.Inv (execRouterHeaderArrival d p i s) := by
  unfold execRouterHeaderArrival
  split
  · simp
  · split
    · simp [h]
    · split
      · simp [h]
      · split
        · split
          all_goals simp [h]
        · simp [h]
        · simp [h]

@[simp] theorem countLinkErr_mem (s : State) (d p i reg : Nat) :
    (countLinkErr s d p i reg).mem = s.mem := by
  simp [countLinkErr]

@[simp] theorem noteSec_mem (s : State) (d p i : Nat) :
    (noteSec s d p i).mem = s.mem := by
  simp [noteSec]

@[simp] theorem noteDed_mem (s : State) (d p i vc tag : Nat) :
    (noteDed s d p i vc tag).mem = s.mem := by
  simp [noteDed]

@[simp] theorem takeCredit_mem (s : State) (d p i : Nat) (c : Option Nat) :
    (takeCredit s d p i c).mem = s.mem := by
  unfold takeCredit
  split
  · simp
  · split
    all_goals simp

@[simp] theorem popWire_mem (s : State) (d q o : Nat) :
    (popWire s d q o).mem = s.mem :=
  (rfl)

@[simp] theorem takeWire_mem (s : State) (d p i : Nat) (via : Option Nat) :
    (takeWire s d p i via).mem = s.mem := by
  unfold takeWire
  split
  · simp
  · split
    all_goals simp

@[simp] theorem setLink_mem (s : State) (d p i : Nat) (l : InLink) :
    (setLink s d p i l).mem = s.mem :=
  (rfl)

@[simp] theorem discardUnit_mem (s : State) (d p i : Nat) (l : InLink) (u : LinkUnit) :
    (discardUnit s d p i l u).mem = s.mem := by
  simp [discardUnit]

@[simp] theorem discardUnknown_mem (s : State) (d p i : Nat) (l : InLink) :
    (discardUnknown s d p i l).mem = s.mem := by
  simp [discardUnknown]

@[simp] theorem linkUnitArrive_mem (s : State) (d p i : Nat) (u : LinkUnit) (via : Option Nat) :
    (linkUnitArrive s d p i u via).mem = s.mem := by
  simp [linkUnitArrive]

@[simp] theorem seamSource_mem (s : State) (d p i : Nat) (via : Option Nat) (u : LinkUnit) :
    (seamSource s d p i via u).1.mem = s.mem := by
  unfold seamSource
  dsimp only
  repeat' split
  all_goals simp

@[simp] theorem catchUnit_mem (s : State) (d p i : Nat) (u : LinkUnit) :
    (catchUnit s d p i u).mem = s.mem := by
  simp [catchUnit]

@[simp] theorem execLinkUnitArrival_inv (d p i : Nat) (u : LinkUnit) (s : State) (h : Memory.wf s.mem = true) :
    Always State.Inv (execLinkUnitArrival d p i u s) := by
  unfold execLinkUnitArrival
  split
  · simp
  · split
    · split
      · simp [h]
      · split
        · split
          all_goals simp [h]
        · split
          all_goals simp [h]
    · split
      · simp [h]
      · split
        · split
          all_goals simp [h]
        · split
          all_goals simp [h]

@[simp] theorem execContextCeiling_inv (d p c : Nat) (s : State) (h : Memory.wf s.mem = true) :
    Always State.Inv (execContextCeiling d p c s) := by
  unfold execContextCeiling
  split
  · simp
  · split
    · simp [h]
    · split
      all_goals simp [h]

@[simp] theorem seamFail_mem (s : State) (d i : Nat) :
    (seamFail s d i).mem = s.mem := by
  simp [seamFail]

@[simp] theorem takeSeamWire_mem (s : State) (d i : Nat) :
    (takeSeamWire s d i).mem = s.mem := by
  unfold takeSeamWire
  split
  all_goals simp

@[simp] theorem seamFrame_mem (s0 : State) (d i : Nat) (f : SeamRx) :
    (seamFrame s0 d i f).mem = s0.mem := by
  simp [seamFrame]

@[simp] theorem execSeamFrame_inv (d i : Nat) (f : SeamRx) (s : State) (h : Memory.wf s.mem = true) :
    Always State.Inv (execSeamFrame d i f s) := by
  simp [execSeamFrame, h]

@[simp] theorem execUcieStateChange_inv (d i : Nat) (active fullRate : Bool) (extra : Nat) (s : State) (h : Memory.wf s.mem = true) :
    Always State.Inv (execUcieStateChange d i active fullRate extra s) := by
  unfold execUcieStateChange
  extract_lets __src
  split
  · simp
  · split
    · simp [h]
    · split
      · simp [h]
      · split
        all_goals simp [h]

@[simp] theorem panelWrite_mem (s : State) (d : Nat) (v : Word) :
    (panelWrite s d v).mem = s.mem :=
  (rfl)

@[simp] theorem execSeamPanelWrite_inv (d : Nat) (v : Word) (s : State) (h : Memory.wf s.mem = true) :
    Always State.Inv (execSeamPanelWrite d v s) := by
  simp [execSeamPanelWrite, h]

@[simp] theorem execSeamRecalibration_inv (d i temp : Nat) (s : State) (h : Memory.wf s.mem = true) :
    Always State.Inv (execSeamRecalibration d i temp s) := by
  simp [execSeamRecalibration, h]

end Sys2Proof.Machine
end

section
/-! SUPPORT. Memory under the operations of Machine/Memport.lean: `_mem` where it is left alone, `_memwf` and `_inv` where it stays canonical. -/

namespace Sys2Proof.Machine

@[simp] theorem mpArrive_memwf (s : State) (d : Nat) (p : Packet) (h : Memory.wf s.mem = true) :
    Memory.wf (mpArrive s d p).mem = true := by
  unfold mpArrive
  dsimp only
  split
  all_goals simp [h]

@[simp] theorem mpFinish_mem (s : State) (d : Nat) (j : MpJob) : (mpFinish s d j).mem = s.mem := by
  unfold mpFinish
  dsimp only
  split
  · split
    · simp
    · rw [sendAt_mem]
      refine foldl_snd_mem _ (fun r ix => ?_) _ _
      split
      all_goals simp
  all_goals simp

@[simp] theorem mpSettle_mem (s : State) (d id : Nat) :
    (mpSettle s d id).mem = s.mem := by
  unfold mpSettle
  extract_lets m
  split
  all_goals simp

@[simp] theorem mpFail_memwf (s : State) (d : Nat) (r : MpReq) (h : Memory.wf s.mem = true) :
    Memory.wf (mpFail s d r).mem = true := by
  simp [mpFail, h]

@[simp] theorem mpResponse_memwf (s : State) (d tag : Nat) (err : Bool) (h : Memory.wf s.mem = true) :
    Memory.wf (mpResponse s d tag err).mem = true := by
  unfold mpResponse
  split
  · dsimp only
    split
    · simp [h]
    · split
      all_goals simp [h]
  · dsimp only
    split
    all_goals simp [h]

@[simp] theorem mpHold_mem (s : State) (d tag : Nat) (err : Bool) :
    (mpHold s d tag err).mem = s.mem :=
  (rfl)

@[simp] theorem mpResume_memwf (s : State) (d : Nat) (h : Memory.wf s.mem = true) :
    Memory.wf (mpResume s d).mem = true := by
  unfold mpResume
  simp +contextual [h]

@[simp] theorem execMpResponse_inv (d tag : Nat) (err : Bool) (s : State) (h : Memory.wf s.mem = true) :
    Always State.Inv (execMpResponse d tag err s) := by
  unfold execMpResponse
  split
  all_goals simp [h]

@[simp] theorem mpTimeout_memwf (s : State) (d tag : Nat) (h : Memory.wf s.mem = true) :
    Memory.wf (mpTimeout s d tag).mem = true := by
  unfold mpTimeout
  dsimp only
  split
  · simp [h]
  · split
    all_goals simp [h]

@[simp] theorem execMpTimeout_inv (d tag : Nat) (s : State) (h : Memory.wf s.mem = true) :
    Always State.Inv (execMpTimeout d tag s) := by
  unfold execMpTimeout
  split
  all_goals simp [h]

end Sys2Proof.Machine
end

section
/-! SUPPORT. Memory under the operations of Machine/Shaping.lean: `_mem` where it is left alone, `_memwf` and `_inv` where it stays canonical. -/

namespace Sys2Proof.Machine

@[simp] theorem gateAdvance_mem (s : State) (d g : Nat) :
    (gateAdvance s d g).mem = s.mem := by
  simp [gateAdvance]

@[simp] theorem execGateEntryEnd_inv (d g : Nat) (s : State) (h : Memory.wf s.mem = true) :
    Always State.Inv (execGateEntryEnd d g s) := by
  simp [execGateEntryEnd, h]

@[simp] theorem gateTake_mem (s : State) (d g : Nat) :
    (gateTake s d g).mem = s.mem := by
  unfold gateTake
  dsimp only
  split
  all_goals simp

@[simp] theorem execGateTakeover_inv (d g : Nat) (s : State) (h : Memory.wf s.mem = true) :
    Always State.Inv (execGateTakeover d g s) := by
  simp [execGateTakeover, h]

@[simp] theorem gateArm_mem (s : State) (d g : Nat) :
    (gateArm s d g).mem = s.mem := by
  simp [gateArm]

@[simp] theorem execShaperRefill_inv (d g v : Nat) (s : State) (h : Memory.wf s.mem = true) :
    Always State.Inv (execShaperRefill d g v s) := by
  unfold execShaperRefill
  extract_lets cfg slot
  split
  · simp
  · split
    · simp
    · split
      · simp [h]
      · split
        all_goals simp [h]

@[simp] theorem shaperCharge_mem (s : State) (d g v len : Nat) :
    (shaperCharge s d g v len).mem = s.mem := by
  simp [shaperCharge]

@[simp] theorem execMeterRefill_inv (d g v : Nat) (s : State) (h : Memory.wf s.mem = true) :
    Always State.Inv (execMeterRefill d g v s) := by
  unfold execMeterRefill
  extract_lets rate slot
  split
  · simp
  · split
    · simp
    · split
      all_goals simp [h]

@[simp] theorem meterPass_mem (s : State) (d g v len : Nat) :
    (meterPass s d g v len).2.2.mem = s.mem := by
  unfold meterPass
  dsimp only
  split
  all_goals simp

@[simp] theorem fillShapers_mem (s : State) (d : Nat) :
    (fillShapers s d).mem = s.mem := by
  simp [fillShapers]

@[simp] theorem sampleWrite_mem (s : State) (d reg depth delay : Nat) :
    (sampleWrite s d reg depth delay).mem = s.mem := by
  simp [sampleWrite]

@[simp] theorem queueSample_mem (s : State) (d : Nat) (pt : SamplePoint) :
    (queueSample s d pt).mem = s.mem := by
  simp [queueSample]

@[simp] theorem execQueueSample_inv (d : Nat) (pt : SamplePoint) (s : State) (h : Memory.wf s.mem = true) :
    Always State.Inv (execQueueSample d pt s) := by
  simp [execQueueSample, h]

@[simp] theorem sampleClear_mem_simp (s : State) (d reg : Nat) :
    (sampleClear s d reg).mem = s.mem := sampleClear_mem s d reg

@[simp] theorem sampleCfgWrite_mem (s : State) (d : Nat) (pt : SamplePoint) (v : Word) :
    (sampleCfgWrite s d pt v).mem = s.mem := by
  simp [sampleCfgWrite]

@[simp] theorem execQsampleClear_inv (d : Nat) (pt : SamplePoint) (v : Word) (s : State) (h : Memory.wf s.mem = true) :
    Always State.Inv (execQsampleClear d pt v s) := by
  simp [execQsampleClear, h]

@[simp] theorem govRound_mem (s : State) (d : Nat) :
    (govRound s d).mem = s.mem := by
  simp [govRound]

@[simp] theorem govCapWrite_mem (s : State) (d : Nat) (v : Word) :
    (govCapWrite s d v).mem = s.mem :=
  (rfl)

@[simp] theorem execNiGovCapWrite_inv (d : Nat) (v : Word) (s : State) (h : Memory.wf s.mem = true) :
    Always State.Inv (execNiGovCapWrite d v s) := by
  simp [execNiGovCapWrite, h]

end Sys2Proof.Machine
end

section
/-! SUPPORT. Memory under the operations of Machine/Time.lean: `_mem` where it is left alone, `_memwf` and `_inv` where it stays canonical. -/

namespace Sys2Proof.Machine

@[simp] theorem timeTick_mem_simp (s : State) (d : Nat) (w e : Clk) :
    (timeTick s d w e).mem = s.mem := timeTick_mem s d w e

@[simp] theorem execTimeKeeperTick_inv (d : Nat) (w e : Clk) (s : State) (h : Memory.wf s.mem = true) :
    Always State.Inv (execTimeKeeperTick d w e s) := by
  simp [execTimeKeeperTick, h]

@[simp] theorem bumpPanel_mem (s : State) (d panel reg : Nat) :
    (bumpPanel s d panel reg).mem = s.mem := by
  simp [bumpPanel]

@[simp] theorem countSkipped_mem (s : State) (d panel : Nat) :
    (countSkipped s d panel).mem = s.mem := by
  simp [countSkipped]

@[simp] theorem clearReleased_mem (s : State) (d : Nat) :
    (clearReleased s d).mem = s.mem :=
  (rfl)

@[simp] theorem panelSwitch_mem (s : State) (d : Nat) :
    (panelSwitch s d).mem = s.mem := by
  simp [panelSwitch]

@[simp] theorem regionBoundary_memwf (s : State) (d panel : Nat) (h : Memory.wf s.mem = true) :
    Memory.wf (regionBoundary s d panel).mem = true := by
  unfold regionBoundary
  split
  · dsimp only
    split
    · simp [h]
    · split
      all_goals simp [h]
  · simp [h]

@[simp] theorem enterService_mem (s : State) :
    (enterService s).mem = s.mem := by
  simp [enterService]

@[simp] theorem roundBoundary_memwf (s : State) (d : Nat) (h : Memory.wf s.mem = true) : Memory.wf (roundBoundary s d).mem = true := by
  unfold roundBoundary
  extract_lets live s1 s2 s3 s4 k on s5
  have hs2 : Memory.wf s2.mem = true := by simp [s2, s1, h]
  have hs3 : Memory.wf s3.mem = true := foldl_memwf _ (fun s p h => regionBoundary_memwf s d p h) _ _ hs2
  have hs5 : Memory.wf s5.mem = true := by simp [s5, s4, hs3]
  split
  · split
    · simp [hs5]
    · exact hs5
  · exact hs5

@[simp] theorem execRoundBoundary_inv (d : Nat) (s : State) (h : Memory.wf s.mem = true) :
    Always State.Inv (execRoundBoundary d s) := by
  simp [execRoundBoundary, h]

@[simp] theorem execPnlDownAck_inv (d panel : Nat) (s : State) (h : Memory.wf s.mem = true) :
    Always State.Inv (execPnlDownAck d panel s) := by
  simp [execPnlDownAck, h]

@[simp] theorem execPnlAckTimeout_inv (d panel : Nat) (s : State) (h : Memory.wf s.mem = true) :
    Always State.Inv (execPnlAckTimeout d panel s) := by
  simp [execPnlAckTimeout, h]

@[simp] theorem ptpResult_mem_simp (s : State) (d r : Nat) :
    (ptpResult s d r).mem = s.mem := ptpResult_mem s d r

@[simp] theorem ptpSubmit_mem (s : State) (d : Nat) :
    (ptpSubmit s d).mem = s.mem := by
  simp [ptpSubmit]

@[simp] theorem execPtpSubmit_inv (d : Nat) (s : State) (h : Memory.wf s.mem = true) :
    Always State.Inv (execPtpSubmit d s) := by
  simp [execPtpSubmit, h]

@[simp] theorem ppsEdge_mem_always (s : State) (d : Nat) :
    (ppsEdge s d).mem = s.mem := by
  unfold ppsEdge
  dsimp only
  repeat' split
  all_goals simp

@[simp] theorem execPpsEdge_inv (d : Nat) (s : State) (h : Memory.wf s.mem = true) :
    Always State.Inv (execPpsEdge d s) := by
  simp [execPpsEdge, h]

@[simp] theorem ppsMissing_mem (s : State) (d : Nat) :
    (ppsMissing s d).mem = s.mem := by
  simp [ppsMissing]

@[simp] theorem execPpsMissing_inv (d : Nat) (s : State) (h : Memory.wf s.mem = true) :
    Always State.Inv (execPpsMissing d s) := by
  simp [execPpsMissing, h]

@[simp] theorem xferPeriodic_mem (s : State) (d : Nat) :
    (xferPeriodic s d).mem = s.mem := by
  simp [xferPeriodic]

@[simp] theorem execTimeXferPeriod_inv (d : Nat) (s : State) (h : Memory.wf s.mem = true) :
    Always State.Inv (execTimeXferPeriod d s) := by
  simp [execTimeXferPeriod, h]

@[simp] theorem applyExchange_mem (s : State) (d : Nat) (theta delay : Int) (locked : Bool) :
    (applyExchange s d theta delay locked).mem = s.mem := by
  simp [applyExchange]

@[simp] theorem xferTake_mem (s : State) (d : Nat) (h : Hdr) :
    (xferTake s d h).mem = s.mem := by
  simp [xferTake]

@[simp] theorem parentLost_mem (s : State) (d : Nat) :
    (parentLost s d).mem = s.mem := by
  simp [parentLost]

@[simp] theorem execParentLost_inv (d : Nat) (s : State) (h : Memory.wf s.mem = true) :
    Always State.Inv (execParentLost d s) := by
  simp [execParentLost, h]

@[simp] theorem readFt_mem (s : State) (d : Nat) :
    (readFt s d).2.mem = s.mem :=
  (rfl)

@[simp] theorem execTimFtRead_inv (d : Nat) (s : State) (h : Memory.wf s.mem = true) :
    Always State.Inv (execTimFtRead d s) := by
  simp [execTimFtRead, h]

end Sys2Proof.Machine
end

section
/-! SUPPORT. Memory under the operations of Machine/Arrive.lean: `_mem` where it is left alone, `_memwf` and `_inv` where it stays canonical. -/

namespace Sys2Proof.Machine

@[simp] theorem offWire_mem (s : State) (d att : Nat) (p : Packet) :
    (offWire s d att p).mem = s.mem := by
  unfold offWire
  dsimp only
  repeat' split
  all_goals simp

@[simp] theorem badArrival_mem (s : State) (d att : Nat) (p : Packet) :
    (badArrival s d att p).mem = s.mem := by
  unfold badArrival
  split
  all_goals simp

@[simp] theorem headerChecked_inv {s : State} (d att : Nat) (p : Packet) {act : Out} (h : Memory.wf s.mem = true)
    (hact : Always State.Inv act) : Always State.Inv (headerChecked s d att p act) := by
  unfold headerChecked
  split
  · trivial
  · split
    · exact h
    · split
      · simp [h]
      · exact hact

@[simp] theorem arriveAt_inv {s : State} (d att cmd : Nat) (p : Packet) {act : State → Out} (h : Memory.wf s.mem = true)
    (hact : ∀ t, Memory.wf t.mem = true → Always State.Inv (act t)) : Always State.Inv (arriveAt s d att cmd p act) := by
  unfold arriveAt
  refine headerChecked_inv d att p h ?_
  split
  · trivial
  · split
    · trivial
    · exact hact _ (by simp [h])

@[simp] theorem arrive_inv {s : State} (d att cmd : Nat) (p : Packet) {act : State → State} (h : Memory.wf s.mem = true)
    (hact : ∀ t, Memory.wf t.mem = true → Memory.wf (act t).mem = true) : Always State.Inv (arrive s d att cmd p act) :=
  arriveAt_inv d att cmd p h hact

end Sys2Proof.Machine
end

section
/-! SUPPORT. Memory under the operations of Machine/Sync.lean: `_mem` where it is left alone, `_memwf` and `_inv` where it stays canonical. -/

namespace Sys2Proof.Machine

@[simp] theorem notify_mem (s : State) (d : Nat) (x : BitVec 128) (status result value : Nat) :
    (notify s d x status result value).mem = s.mem :=
  (rfl)

@[simp] theorem answer_mem (s : State) (d : Nat) (h : Hdr) (result value : Nat) :
    (answer s d h result value).mem = s.mem :=
  (rfl)

@[simp] theorem settle_mem (s : State) (d o : Nat) (old new : BitVec 128) (released : Bool) :
    (settle s d o old new released).mem = s.mem := by
  simp [settle]

@[simp] theorem syncRefuse_mem (s : State) (d cmd o : Nat) (h : Hdr) (result : Nat) :
    (syncRefuse s d cmd o h result).mem = s.mem := by
  simp [syncRefuse]

@[simp] theorem syncFinish_mem (s : State) (d cmd o : Nat) (h : Hdr) (r : SyncRes) :
    (syncFinish s d cmd o h r).mem = s.mem := by
  simp [syncFinish]

@[simp] theorem initEnds_mem (s : State) (d o : Nat) :
    (initEnds s d o).mem = s.mem := by
  simp [initEnds]

@[simp] theorem epochOp_mem (s : State) (d o e : Nat) :
    (epochOp s d o e).mem = s.mem := by
  simp [epochOp]

@[simp] theorem syncInitOp_mem (s : State) (d o : Nat) (h : Hdr) :
    (syncInitOp s d o h).mem = s.mem := by
  simp [syncInitOp]

@[simp] theorem syncWaitOp_mem (s : State) (d o : Nat) (h : Hdr) :
    (syncWaitOp s d o h).mem = s.mem := by
  simp [syncWaitOp]

@[simp] theorem syncCancelOp_mem (s : State) (d o : Nat) (h : Hdr) :
    (syncCancelOp s d o h).mem = s.mem := by
  simp [syncCancelOp]

@[simp] theorem syncPerform_mem (s : State) (d cmd o : Nat) (h : Hdr) :
    (syncPerform s d cmd o h).mem = s.mem := by
  unfold syncPerform
  dsimp only
  split
  all_goals simp

@[simp] theorem spoilObj_mem (s : State) (d o : Nat) :
    (spoilObj s d o).mem = s.mem := by
  simp [spoilObj]

@[simp] theorem syncOp_mem (s : State) (d cmd : Nat) (h : Hdr) :
    (syncOp s d cmd h).mem = s.mem := by
  simp [syncOp]

@[simp] theorem syncArrive_inv (d cmd : Nat) (hd : Hdr) (s : State) (h : Memory.wf s.mem = true) :
    Always State.Inv (syncArrive d cmd hd s) := by
  simp [syncArrive, h]

@[simp] theorem execSyncRead_inv (d : Nat) (hd : Hdr) (s : State) (h : Memory.wf s.mem = true) :
    Always State.Inv (execSyncRead d hd s) := by
  simp [execSyncRead, h]

@[simp] theorem execSyncInit_inv (d : Nat) (hd : Hdr) (s : State) (h : Memory.wf s.mem = true) :
    Always State.Inv (execSyncInit d hd s) := by
  simp [execSyncInit, h]

@[simp] theorem execSyncAdd_inv (d : Nat) (hd : Hdr) (s : State) (h : Memory.wf s.mem = true) :
    Always State.Inv (execSyncAdd d hd s) := by
  simp [execSyncAdd, h]

@[simp] theorem execSyncArrive_inv (d : Nat) (hd : Hdr) (s : State) (h : Memory.wf s.mem = true) :
    Always State.Inv (execSyncArrive d hd s) := by
  simp [execSyncArrive, h]

@[simp] theorem execSyncTake_inv (d : Nat) (hd : Hdr) (s : State) (h : Memory.wf s.mem = true) :
    Always State.Inv (execSyncTake d hd s) := by
  simp [execSyncTake, h]

@[simp] theorem execSyncAcquire_inv (d : Nat) (hd : Hdr) (s : State) (h : Memory.wf s.mem = true) :
    Always State.Inv (execSyncAcquire d hd s) := by
  simp [execSyncAcquire, h]

@[simp] theorem execSyncUnlock_inv (d : Nat) (hd : Hdr) (s : State) (h : Memory.wf s.mem = true) :
    Always State.Inv (execSyncUnlock d hd s) := by
  simp [execSyncUnlock, h]

@[simp] theorem execSyncSet_inv (d : Nat) (hd : Hdr) (s : State) (h : Memory.wf s.mem = true) :
    Always State.Inv (execSyncSet d hd s) := by
  simp [execSyncSet, h]

@[simp] theorem execSyncSetMax_inv (d : Nat) (hd : Hdr) (s : State) (h : Memory.wf s.mem = true) :
    Always State.Inv (execSyncSetMax d hd s) := by
  simp [execSyncSetMax, h]

@[simp] theorem execSyncWait_inv (d : Nat) (hd : Hdr) (s : State) (h : Memory.wf s.mem = true) :
    Always State.Inv (execSyncWait d hd s) := by
  simp [execSyncWait, h]

@[simp] theorem execSyncCancel_inv (d : Nat) (hd : Hdr) (s : State) (h : Memory.wf s.mem = true) :
    Always State.Inv (execSyncCancel d hd s) := by
  simp [execSyncCancel, h]

@[simp] theorem loseLock_mem (s : State) (d o : Nat) :
    (loseLock s d o).mem = s.mem := by
  simp [loseLock]

@[simp] theorem ceilingExamine_mem (s : State) (d o : Nat) :
    (ceilingExamine s d o).mem = s.mem := by
  simp [ceilingExamine]

@[simp] theorem execLockCeilingExamine_inv (d : Nat) (s : State) (h : Memory.wf s.mem = true) :
    Always State.Inv (execLockCeilingExamine d s) := by
  simp [execLockCeilingExamine, h]

@[simp] theorem breakLock_mem (s : State) (d o : Nat) :
    (breakLock s d o).mem = s.mem := by
  simp [breakLock]

@[simp] theorem breakStart_mem (s : State) (d : Nat) (v : Word) :
    (breakStart s d v).mem = s.mem :=
  (rfl)

@[simp] theorem execSynBreak_inv (d : Nat) (v : Word) (s : State) (h : Memory.wf s.mem = true) :
    Always State.Inv (execSynBreak d v s) := by
  simp [execSynBreak, h]

@[simp] theorem breakExamine_mem (s : State) (d : Nat) :
    (breakExamine s d).mem = s.mem := by
  unfold breakExamine
  split
  · simp
  · split
    all_goals simp

@[simp] theorem execSynBreakExamine_inv (d : Nat) (s : State) (h : Memory.wf s.mem = true) :
    Always State.Inv (execSynBreakExamine d s) := by
  simp [execSynBreakExamine, h]

@[simp] theorem objLoWrite_mem (s : State) (d o : Nat) (v : Word) :
    (objLoWrite s d o v).mem = s.mem := by
  unfold objLoWrite
  split
  all_goals simp

@[simp] theorem execSynObjLoWrite_inv (d o : Nat) (v : Word) (s : State) (h : Memory.wf s.mem = true) :
    Always State.Inv (execSynObjLoWrite d o v s) := by
  simp [execSynObjLoWrite, h]

@[simp] theorem objHiWrite_mem (s : State) (d o : Nat) (v : Word) :
    (objHiWrite s d o v).mem = s.mem := by
  simp [objHiWrite]

@[simp] theorem objReinit_mem (s : State) (d : Nat) (tell : BitVec 32 → Bool) (o : Nat) :
    (objReinit s d tell o).mem = s.mem := by
  simp [objReinit]

@[simp] theorem syncReinit_mem (s : State) (d : Nat) (tell : BitVec 32 → Bool) :
    (syncReinit s d tell).mem = s.mem := by
  simp [syncReinit]

end Sys2Proof.Machine
end

section
/-! SUPPORT. Memory under the operations of Machine/Ni.lean: `_mem` where it is left alone, `_memwf` and `_inv` where it stays canonical. -/

namespace Sys2Proof.Machine

@[simp] theorem placePacket_mem (s : State) (d p port v : Nat) (h : Hdr) (f : Flit) (data : List DataUnit) :
    (placePacket s d p port v h f data).mem = s.mem :=
  (rfl)

@[simp] theorem orderDone_mem (s : State) (d p : Nat) (r : Report) :
    (orderDone s d p r).mem = s.mem :=
  (rfl)

@[simp] theorem dequeue_mem (s : State) (d att v : Nat) :
    (dequeue s d att v).mem = s.mem := by
  unfold dequeue
  dsimp only
  repeat' split
  all_goals simp

@[simp] theorem noteTag_mem (s : State) (d att : Nat) (h : Hdr) :
    (noteTag s d att h).mem = s.mem := by
  simp [noteTag]

@[simp] theorem takeTag_mem (s : State) (d att : Nat) (p : Packet) :
    (takeTag s d att p).2.mem = s.mem := by
  unfold takeTag
  dsimp only
  repeat' split
  all_goals simp

@[simp] theorem countInjected_mem (s0 : State) (d att t v : Nat) (h : Hdr) :
    (countInjected s0 d att t v h).mem = s0.mem := by
  unfold countInjected
  dsimp only
  repeat' split
  all_goals simp

@[simp] theorem noteWithheld_mem (s : State) (d att v : Nat) :
    (noteWithheld s d att v).mem = s.mem := by
  simp [noteWithheld]

@[simp] theorem portPath_mem (s : State) (d att t v : Nat) (h0 : Hdr) (data : List DataUnit) :
    (portPath s d att t v h0 data).mem = s.mem := by
  simp [portPath]

@[simp] theorem niInject_mem (s : State) (d att v : Nat) :
    (niInject s d att v).mem = s.mem := by
  unfold niInject
  dsimp only
  repeat' split
  all_goals simp

@[simp] theorem execNiInject_inv (d att v : Nat) (s : State) (h : Memory.wf s.mem = true) :
    Always State.Inv (execNiInject d att v s) := by
  simp [execNiInject, h]

@[simp] theorem execOrderedDrainEnd_inv (d att : Nat) (s : State) (h : Memory.wf s.mem = true) :
    Always State.Inv (execOrderedDrainEnd d att s) := by
  simp [execOrderedDrainEnd, h]

@[simp] theorem execTpInjectUnit_inv (d p v : Nat) (last : Bool) (u : DataUnit) (s : State) (h : Memory.wf s.mem = true) :
    Always State.Inv (execTpInjectUnit d p v last u s) := by
  unfold execTpInjectUnit
  split
  · simp
  · split
    · simp [h]
    · split
      · extract_lets n us
        split
        all_goals simp [h]
      · split
        · dsimp only
          split
          · simp
          · split
            all_goals simp [h]
        · dsimp only
          split
          · simp
          · split
            all_goals simp [h]

@[simp] theorem twinSend_mem (s : State) (d p : Nat) (w : Word) (off cmd : Nat) (inl : BitVec 128) (data : List DataUnit) :
    (twinSend s d p w off cmd inl data).mem = s.mem := by
  simp [twinSend]

@[simp] theorem twinUnit_mem (s : State) (d p off mask : Nat) (u : DataUnit) :
    (twinUnit s d p off mask u).mem = s.mem := by
  unfold twinUnit
  split
  all_goals simp

@[simp] theorem twinRecv_mem (s : State) (d p : Nat) (h : Hdr) :
    (twinRecv s d p h).mem = s.mem := by
  unfold twinRecv
  dsimp only
  repeat' split
  all_goals simp

@[simp] theorem execTwinNotice_inv (d p addr be : Nat) (u : DataUnit) (s : State) (h : Memory.wf s.mem = true) :
    Always State.Inv (execTwinNotice d p addr be u s) := by
  unfold execTwinNotice
  split
  · simp
  · split
    · simp
    · split
      all_goals simp [h]

@[simp] theorem tileUnit_memwf (s : State) (d p : Nat) (hd : Hdr) (off mask : Nat) (u : DataUnit) (h : Memory.wf s.mem = true) :
    Memory.wf (tileUnit s d p hd off mask u).mem = true := by
  unfold tileUnit
  dsimp only
  split
  · split
    all_goals simp [h]
  · split
    all_goals simp [h]

@[simp] theorem tileData_memwf (s : State) (d p : Nat) (hd : Hdr) (got : List DataUnit) (u : DataUnit) (h : Memory.wf s.mem = true) :
    Memory.wf (tileData s d p hd got u).mem = true := by
  unfold tileData
  extract_lets base
  split
  · simp [h]
  · split
    · split
      all_goals simp [h]
    · simp [h]

@[simp] theorem tileTransfer_mem (s : State) (d p : Nat) (pk : Packet) :
    (tileTransfer s d p pk).mem = s.mem := by
  unfold tileTransfer
  dsimp only
  repeat' split
  all_goals simp

@[simp] theorem tileDone_memwf (s : State) (d p : Nat) (pk : Packet) (h : Memory.wf s.mem = true) :
    Memory.wf (tileDone s d p pk).mem = true := by
  unfold tileDone
  split
  · dsimp only
    split
    all_goals simp [h]
  · dsimp only
    split
    all_goals simp [h]

@[simp] theorem tileBegin_mem (s : State) (d p : Nat) (h : Hdr) :
    (tileBegin s d p h).mem = s.mem := by
  simp [tileBegin]

@[simp] theorem tileWhole_memwf (s : State) (d p : Nat) (pk : Packet) (h : Memory.wf s.mem = true) :
    Memory.wf (tileWhole s d p pk).mem = true := by
  unfold tileWhole
  refine tileDone_memwf _ d p pk ?_
  refine List.foldlRecOn (motive := fun a : State × List DataUnit => Memory.wf a.1.mem = true) pk.data _ ?_ ?_
  · simp [h]
  · intro a ha u _
    simp [ha]

@[simp] theorem tileBadHdr_mem (s : State) (d p : Nat) (h : Hdr) :
    (tileBadHdr s d p h).mem = s.mem := by
  simp [tileBadHdr]

@[simp] theorem ejFill_mem (s : State) (d p v : Nat) :
    (ejFill s d p v).mem = s.mem := by
  simp [ejFill]

@[simp] theorem popEj_mem (s : State) (d p v : Nat) :
    (popEj s d p v).mem = s.mem := by
  unfold popEj
  dsimp only
  split
  all_goals simp

@[simp] theorem setCur_mem (s : State) (d p v : Nat) (c : Option Dlv) :
    (setCur s d p v c).mem = s.mem :=
  (rfl)

@[simp] theorem execTpDeliver_inv (d p v : Nat) (s : State) (h : Memory.wf s.mem = true) :
    Always State.Inv (execTpDeliver d p v s) := by
  unfold execTpDeliver
  split
  · simp
  · split
    · simp [h]
    · split
      · simp [h]
      · split
        · split
          · simp [h]
          · split
            · simp [h]
            · dsimp only
              split
              all_goals simp [h]
        · split
          · simp [h]
          · split
            · simp [h]
            · split
              · simp
              · split
                all_goals simp [h]

@[simp] theorem tileArrive_memwf (s : State) (d p : Nat) (pk : Packet) (h : Memory.wf s.mem = true) :
    Memory.wf (tileArrive s d p pk).mem = true := by
  simp [tileArrive, h]

@[simp] theorem execTpGenLoaded_inv (d p gen : Nat) (s : State) (h : Memory.wf s.mem = true) :
    Always State.Inv (execTpGenLoaded d p gen s) := by
  simp [execTpGenLoaded, h]

@[simp] theorem execGenToken_inv (d p : Nat) (hd : Hdr) (s : State) (h : Memory.wf s.mem = true) :
    Always State.Inv (execGenToken d p hd s) := by
  unfold execGenToken
  split
  · simp
  · simp +contextual [h]

@[simp] theorem granuleRead_mem (s : State) (d : Nat) (h : Hdr) (off : Nat) (r : DataUnit × State) :
    (granuleRead s d h off r).2.mem = if offGranule s d h off then s.mem else r.2.mem := by
  unfold granuleRead
  split
  all_goals rfl

@[simp] theorem tileRead_mem (s : State) (d p off : Nat) :
    (tileRead s d p off).2.mem = s.mem := by
  unfold tileRead
  split
  all_goals simp

@[simp] theorem tpReadData_mem (s : State) (d p tag : Nat) :
    (tpReadData s d p tag).mem = s.mem := by
  unfold tpReadData
  extract_lets n
  split
  · simp
  · split
    all_goals simp

@[simp] theorem execTpReadData_inv (d p tag : Nat) (s : State) (h : Memory.wf s.mem = true) :
    Always State.Inv (execTpReadData d p tag s) := by
  simp [execTpReadData, h]

@[simp] theorem tileUnits_mem (s : State) (d p off i n : Nat) : (tileUnits s d p off i n).2.mem = s.mem := by
  induction n generalizing s i with
  | zero => rfl
  | succ n ih => simp [tileUnits, ih]

@[simp] theorem orderPackets_mem (s : State) (d p : Nat) (o : Order) :
    (orderPackets s d p o).2.mem = s.mem := by
  unfold orderPackets
  split
  all_goals simp

@[simp] theorem sendOrder_mem (s : State) (d p : Nat) (o : Order) (os : List Order) (ps : List Packet) :
    (sendOrder s d p o os ps).mem = s.mem := by
  unfold sendOrder
  split
  all_goals simp

@[simp] theorem runOrder_memwf (s : State) (d p : Nat) (clear : Bool) (h : Memory.wf s.mem = true) :
    Memory.wf (runOrder s d p clear).mem = true := by
  unfold runOrder
  extract_lets n
  split
  · simp [h]
  · split
    · simp [h]
    · split
      all_goals simp [h]

@[simp] theorem execOrderSend_inv (d p : Nat) (s : State) (h : Memory.wf s.mem = true) :
    Always State.Inv (execOrderSend d p s) := by
  simp [execOrderSend, h]

@[simp] theorem execOrderClear_inv (d p : Nat) (s : State) (h : Memory.wf s.mem = true) :
    Always State.Inv (execOrderClear d p s) := by
  simp [execOrderClear, h]

@[simp] theorem cancelAt_mem (s : State) (d p group tag : Nat) :
    (cancelAt s d p group tag).mem = s.mem :=
  (rfl)

@[simp] theorem execOrderCancel_inv (d p : Nat) (s : State) (h : Memory.wf s.mem = true) :
    Always State.Inv (execOrderCancel d p s) := by
  unfold execOrderCancel
  extract_lets __src
  split
  all_goals simp [h]

end Sys2Proof.Machine
end

section
/-! SUPPORT. Memory under the operations of Machine/Values.lean: `_mem` where it is left alone, `_memwf` and `_inv` where it stays canonical. -/

namespace Sys2Proof.Machine

@[simp] theorem State.setOp_mem (s : State) (i : OpId) (o : CeOp) :
    (State.setOp s i o).mem = s.mem :=
  (rfl)

@[simp] theorem State.updOp_mem (s : State) (i : OpId) (f : CeOp → CeOp) :
    (State.updOp s i f).mem = s.mem := by
  unfold State.updOp
  split
  all_goals simp

@[simp] theorem sendTransfer_mem (s : State) (i : OpId) (h : Hdr) (n : Nat) (us : List (Nat × DataUnit)) :
    (sendTransfer s i h n us).mem = s.mem := by
  simp [sendTransfer]

@[simp] theorem ceSync_mem (s : State) (d k cmd vc o pkg die epoch tag a0 a1 : Nat) (combine : Bool) :
    (ceSync s d k cmd vc o pkg die epoch tag a0 a1 combine).mem = s.mem :=
  (rfl)

@[simp] theorem ceIncrement_mem (s : State) (d k o : Nat) :
    (ceIncrement s d k o).mem = s.mem :=
  (rfl)

@[simp] theorem spaceRead_mem (s : State) (d : Nat) (a : BitVec 64) (n : Nat) :
    (spaceRead s d a n).2.mem = s.mem := by
  unfold spaceRead
  split
  · simp
  · refine foldl_snd_mem _ (fun r b => ?_) _ _
    simp

@[simp] theorem spaceWrite_memwf (s : State) (d : Nat) (a : BitVec 64) (us : List (Nat × DataUnit)) (h : Memory.wf s.mem = true) :
    Memory.wf (spaceWrite s d a us).mem = true := by
  unfold spaceWrite
  split
  · simp +contextual [h]
  · simp [h]

@[simp] theorem redraw_mem (s : State) (us : List (Nat × DataUnit)) :
    (redraw s us).2.mem = s.mem := by
  simp [redraw]

@[simp] theorem drawValue_mem (s : State) (lo hi : Nat) :
    (drawValue s lo hi).2.mem = s.mem := by
  simp [drawValue]

@[simp] theorem combineUnits_mem (s : State) (o : CeOp) (a b : NodeVal) :
    (combineUnits s o a b).2.mem = s.mem := by
  unfold combineUnits
  extract_lets
  repeat' split
  all_goals simp

theorem combineOnce_mem {s : State} {i : OpId} :
    ∀ t ∈ combineOnce s i, t.mem = s.mem := by
  unfold combineOnce
  split
  · simp
  · split
    · simp
    · split
      all_goals simp

@[simp] theorem sendValue_mem (s : State) (i : OpId) (o : CeOp) (v : NodeVal) (lo hi : Nat) (dst : Nat × Nat × Nat) :
    (sendValue s i o v lo hi dst).mem = s.mem := by
  simp [sendValue]

@[simp] theorem leaveValue_mem (s : State) (i : OpId) (v : NodeVal) (keep : Option NodeVal) :
    (leaveValue s i v keep).mem = s.mem := by
  simp [leaveValue]

end Sys2Proof.Machine
end

section
/-! SUPPORT. Memory under the operations of Machine/Collective.lean: `_mem` where it is left alone, `_memwf` and `_inv` where it stays canonical. -/

namespace Sys2Proof.Machine

@[simp] theorem orderClear_mem (s : State) (i : OpId) (c q off n m : Nat) :
    (orderClear s i c q off n m).mem = s.mem :=
  (rfl)

@[simp] theorem sendResults_mem (s : State) (i : OpId) (ts : List (XKey × List Packet)) :
    (sendResults s i ts).mem = s.mem := by
  simp [sendResults]

@[simp] theorem deliverLocal_memwf (s : State) (i : OpId) (c q : Nat) (us : List (Nat × DataUnit)) (h : Memory.wf s.mem = true) :
    Memory.wf (deliverLocal s i c q us).mem = true := by
  unfold deliverLocal
  extract_lets g
  split
  · simp [h]
  · split
    · split
      · dsimp only
        split
        all_goals simp [h]
      · dsimp only
        split
        all_goals simp [h]
    · simp [h]

@[simp] theorem clearReported_mem (s : State) (i : OpId) (c q rank : Nat) :
    (clearReported s i c q rank).mem = s.mem := by
  unfold clearReported
  split
  · simp
  · split
    all_goals simp

@[simp] theorem distribute_memwf (s : State) (i : OpId) (c q : Nat) (us : List (Nat × DataUnit)) (sc : Scope) (frm : Nat × Nat × Nat) (h : Memory.wf s.mem = true) :
    Memory.wf (distribute s i c q us sc frm).mem = true := by
  unfold distribute
  extract_lets g
  split
  · simp [h]
  · split
    all_goals simp [h]

@[simp] theorem gatherSteps_mem (s : State) (i : OpId) (c j b : Nat) (peer : Nat → Nat × Nat × Nat) :
    (gatherSteps s i c j b peer).mem = s.mem := by
  unfold gatherSteps
  extract_lets g
  split
  · simp
  · refine foldl_mem _ (fun s b => ?_) _ _
    simp

@[simp] theorem takeFin_memwf (s : State) (i : OpId) (c q lo hi : Nat) (us : List (Nat × DataUnit)) (sc : Scope) (frm : Nat × Nat × Nat) (h : Memory.wf s.mem = true) :
    Memory.wf (takeFin s i c q lo hi us sc frm).mem = true := by
  unfold takeFin
  dsimp only
  split
  · simp [h]
  · split
    · split
      all_goals simp [h]
    · split
      all_goals simp [h]

@[simp] theorem scatterPieces_memwf (s : State) (i : OpId) (o : CeOp) (v : NodeVal) (h : Memory.wf s.mem = true) :
    Memory.wf (scatterPieces s i o v).mem = true := by
  unfold scatterPieces
  refine foldl_memwf _ (fun s b h => ?_) _ _ ?_
  · split
    · extract_lets p lo hi dst
      split
      · simp [h]
      · split
        all_goals simp [h]
    · extract_lets p lo hi dst
      split
      · simp [h]
      · split
        all_goals simp [h]
  · simp [h]

@[simp] theorem finishRoot_memwf (s : State) (i : OpId) (v : NodeVal) (h : Memory.wf s.mem = true) :
    Memory.wf (finishRoot s i v).mem = true := by
  unfold finishRoot
  split
  · simp [h]
  · split
    · dsimp only
      split
      · simp [h]
      · simp +contextual [h]
    · dsimp only
      split
      · simp [h]
      · simp +contextual [h]

theorem actOnce_memwf (s : State) (i : OpId) (v : NodeVal) (h : Memory.wf s.mem = true) :
    ∀ t ∈ actOnce s i v, Memory.wf t.mem = true := by
  unfold actOnce
  split
  · simp
  · split
    all_goals simp [h]

@[simp] theorem runValues_memwf (n : Nat) (s : State) (i : OpId) (h : Memory.wf s.mem = true) : Memory.wf (runValues n s i).mem = true := by
  induction n generalizing s with
  | zero => exact h
  | succ n ih =>
    unfold runValues
    split
    · exact h
    · split
      · next t ht =>
        obtain ⟨v, _, hv⟩ := List.exists_of_findSome?_eq_some ht
        exact ih t (actOnce_memwf s i v h t hv)
      · split
        · next t ht => exact ih t (by rw [combineOnce_mem _ ht, h])
        · exact h

@[simp] theorem takeValue_memwf (s : State) (i : OpId) (v : NodeVal) (h : Memory.wf s.mem = true) :
    Memory.wf (takeValue s i v).mem = true := by
  unfold takeValue
  extract_lets g w
  split
  all_goals simp [h]

@[simp] theorem stageUse_mem (s : State) (d k parity n : Nat) (free : Bool) :
    (stageUse s d k parity n free).mem = s.mem :=
  (rfl)

theorem reserveChunk_mem {s : State} {i : OpId} {c : Nat} :
    ∀ t ∈ reserveChunk s i c, t.mem = s.mem := by
  unfold reserveChunk
  split
  · simp
  · extract_lets n q
    split
    all_goals simp

@[simp] theorem memberUnits_mem (s : State) (i : OpId) (o : CeOp) (r a n : Nat) :
    (memberUnits s i o r a n).2.mem = s.mem := by
  unfold memberUnits
  split
  all_goals simp

@[simp] theorem orderSend_mem (s : State) (i : OpId) (r c off n start : Nat) (h : Hdr) :
    (orderSend s i r c off n start h).mem = s.mem := by
  simp [orderSend]

@[simp] theorem inputMember_memwf (s : State) (i : OpId) (c r : Nat) (h : Memory.wf s.mem = true) :
    Memory.wf (inputMember s i c r).mem = true := by
  unfold inputMember
  extract_lets g
  split
  · simp [h]
  · extract_lets a n
    split
    · simp [h]
    · split
      split
      · rename_i h2 _
        simp [← congrArg (fun r => Memory.wf r.2.mem) h2, h]
      · rename_i h2 _
        simp [← congrArg (fun r => Memory.wf r.2.mem) h2, h]

@[simp] theorem writeKept_memwf (s : State) (i : OpId) (o : CeOp) (r t kept : Nat) (h : Memory.wf s.mem = true) :
    Memory.wf (writeKept s i o r t kept).mem = true := by
  unfold writeKept
  extract_lets g a
  split
  · simp [h]
  · split
    all_goals simp [h]

@[simp] theorem pairSend_mem (s : State) (i : OpId) (o : CeOp) (r c t a n : Nat) (h : Hdr) :
    (pairSend s i o r c t a n h).mem = s.mem := by
  simp [pairSend]

@[simp] theorem pairCounts_memwf (s : State) (i : OpId) (r : Nat) (h : Memory.wf s.mem = true) :
    Memory.wf (pairCounts s i r).mem = true := by
  unfold pairCounts
  refine foldl_memwf _ (fun s b h => ?_) _ _ ?_
  · split
    all_goals simp [h]
  · simp [h]

@[simp] theorem pairChunk_mem (s : State) (i : OpId) (c r : Nat) :
    (pairChunk s i c r).mem = s.mem := by
  unfold pairChunk
  refine foldl_mem _ (fun s b => ?_) _ _
  split
  all_goals simp

@[simp] theorem runChunk_memwf (s : State) (i : OpId) (c : Nat) (h : Memory.wf s.mem = true) :
    Memory.wf (runChunk s i c).mem = true := by
  unfold runChunk
  split
  · simp [h]
  · split
    · refine foldl_memwf _ (fun s b h => ?_) _ _ ?_
      · simp [h]
      · split
        · simp +contextual [h]
        · simp [h]
    · simp +contextual [h]

@[simp] theorem startChunk_memwf (s : State) (i : OpId) (h : Memory.wf s.mem = true) :
    Memory.wf (startChunk s i).mem = true := by
  unfold startChunk
  split
  · simp [h]
  · split
    · simp [h]
    · split
      · rename_i h5
        simp [reserveChunk_mem _ h5, h]
      · simp [h]

end Sys2Proof.Machine
end

section
/-! SUPPORT. Memory under the operations of Machine/Records.lean: `_mem` where it is left alone, `_memwf` and `_inv` where it stays canonical. -/

namespace Sys2Proof.Machine

@[simp] theorem settleOp_mem (s : State) (i : OpId) :
    (settleOp s i).mem = s.mem := by
  unfold settleOp
  split
  all_goals simp

@[simp] theorem submitDigest_mem (s : State) (i : OpId) (o : CeOp) :
    (submitDigest s i o).mem = s.mem :=
  (rfl)

@[simp] theorem pumpRecords_mem (s : State) (d k e : Nat) :
    (pumpRecords s d k e).mem = s.mem := by
  unfold pumpRecords
  extract_lets
  repeat' split
  all_goals simp

@[simp] theorem addRecord_mem (s : State) (d k e : Nat) (r : CeRec) :
    (addRecord s d k e r).mem = s.mem := by
  simp [addRecord]

@[simp] theorem recordAcked_mem (s : State) (d k e status : Nat) :
    (recordAcked s d k e status).mem = s.mem := by
  unfold recordAcked
  extract_lets
  repeat' split
  all_goals simp

@[simp] theorem State.advance_mem (s : State) (d k e : Nat) :
    (State.advance s d k e).mem = s.mem :=
  (rfl)

@[simp] theorem slowUpdate_mem (s : State) (d k group : Nat) (o : CeOp) :
    (slowUpdate s d k group o).mem = s.mem := by
  simp [slowUpdate]

@[simp] theorem closeOp_mem (s : State) (i : OpId) (o : CeOp) (status : Nat) (foreign : Bool) :
    (closeOp s i o status foreign).mem = s.mem := by
  simp [closeOp]

@[simp] theorem endOp_mem (s : State) (i : OpId) :
    (endOp s i).mem = s.mem := by
  unfold endOp
  split
  all_goals simp

@[simp] theorem floodAbort_mem (s : State) (d k e tag epoch reason ft40 : Nat) (frm : Option (Nat × Nat × Nat)) :
    (floodAbort s d k e tag epoch reason ft40 frm).mem = s.mem := by
  simp [floodAbort]

@[simp] theorem cancelMembers_mem (s : State) (d k : Nat) (g : Grp) (tag : Nat) :
    (cancelMembers s d k g tag).mem = s.mem := by
  simp [cancelMembers]

@[simp] theorem freeEarly_mem (s : State) (d k : Nat) (f : Early → Bool) :
    (freeEarly s d k f).mem = s.mem := by
  simp [freeEarly]

@[simp] theorem dropPackets_mem (s : State) (d k group tag : Nat) :
    (dropPackets s d k group tag).mem = s.mem := by
  simp [dropPackets]

@[simp] theorem spoilDst_memwf (s : State) (d k : Nat) (g : Grp) (x : BitVec 512) (h : Memory.wf s.mem = true) :
    Memory.wf (spoilDst s d k g x).mem = true := by
  unfold spoilDst
  split
  · simp [h]
  · refine foldl_memwf _ (fun s b h => ?_) _ _ ?_
    · simp +contextual [h]
    · simp [h]

@[simp] theorem abortOne_memwf (s : State) (i : OpId) (o : CeOp) (reason : Nat) (foreign : Bool) (h : Memory.wf s.mem = true) :
    Memory.wf (abortOne s i o reason foreign).mem = true := by
  simp [abortOne, h]

@[simp] theorem haltGroup_memwf (s : State) (d k e epoch reason : Nat) (foreign : Bool) (h : Memory.wf s.mem = true) :
    Memory.wf (haltGroup s d k e epoch reason foreign).mem = true := by
  unfold haltGroup
  simp +contextual [h]

@[simp] theorem abortOp_memwf (s : State) (i : OpId) (o : CeOp) (reason ft40 : Nat) (frm : Option (Nat × Nat × Nat)) (h : Memory.wf s.mem = true) :
    Memory.wf (abortOp s i o reason ft40 frm).mem = true := by
  simp [abortOp, h]

@[simp] theorem originate_memwf (s : State) (i : OpId) (reason : Nat) (h : Memory.wf s.mem = true) :
    Memory.wf (originate s i reason).mem = true := by
  unfold originate
  split
  all_goals simp [h]

end Sys2Proof.Machine
end

section
/-! SUPPORT. Memory under the operations of Machine/Ce.lean: `_mem` where it is left alone, `_memwf` and `_inv` where it stays canonical. -/

namespace Sys2Proof.Machine

@[simp] theorem epochDrop_mem (s : State) (d k : Nat) :
    (epochDrop s d k).mem = s.mem := by
  simp [epochDrop]

@[simp] theorem sendNack_mem (s : State) (i : OpId) (rc : Nat) (x : XKey) (src : BitVec 32) (last : Nat) :
    (sendNack s i rc x src last).mem = s.mem := by
  unfold sendNack
  split
  all_goals simp

@[simp] theorem badTransfer_memwf (s : State) (i : OpId) (rc : Nat) (x : XKey) (src : BitVec 32) (last : Nat) (h : Memory.wf s.mem = true) :
    Memory.wf (badTransfer s i rc x src last).mem = true := by
  unfold badTransfer
  split
  · simp [h]
  · split
    all_goals simp [h]

@[simp] theorem countChk_mem (s : State) (d k : Nat) :
    (countChk s d k).mem = s.mem := by
  simp [countChk]

@[simp] theorem residueFail_memwf (s : State) (i : OpId) (a b : NodeVal) (h : Memory.wf s.mem = true) :
    Memory.wf (residueFail s i a b).mem = true := by
  unfold residueFail
  dsimp only
  split
  · simp [h]
  · split
    · simp [h]
    · refine foldl_memwf _ (fun s b h => ?_) _ _ ?_
      · split
        all_goals simp [h]
      · simp [h]

@[simp] theorem checkResidue_memwf (s : State) (i : OpId) (h : Memory.wf s.mem = true) :
    Memory.wf (checkResidue s i).mem = true := by
  unfold checkResidue
  split
  all_goals simp [h]

@[simp] theorem transferUnits_mem (s : State) (o : CeOp) (ps : List Packet) (n : Nat) :
    (transferUnits s o ps n).2.mem = s.mem := by
  unfold transferUnits
  dsimp only
  split
  all_goals simp

@[simp] theorem takeTransfer_memwf (s : State) (i : OpId) (ps : List Packet) (hd : Hdr) (ft : Nat) (residue : Bool) (h : Memory.wf s.mem = true) :
    Memory.wf (takeTransfer s i ps hd ft residue).mem = true := by
  unfold takeTransfer
  extract_lets g x c key us q
  split
  · simp [h]
  · split
    · simp [h]
    · split
      all_goals simp [h]

@[simp] theorem countForCe_memwf (s : State) (i : OpId) (o : CeOp) (hd : Hdr) (h : Memory.wf s.mem = true) :
    Memory.wf (countForCe s i o hd).mem = true := by
  unfold countForCe
  dsimp only
  split
  · simp [h]
  · split
    all_goals simp [h]

@[simp] theorem opPacket_memwf (s : State) (i : OpId) (x : CePkt) (h : Memory.wf s.mem = true) :
    Memory.wf (opPacket s i x).mem = true := by
  unfold opPacket
  dsimp only
  split
  · simp [h]
  · split
    · simp [h]
    · split
      · simp [h]
      · split
        · simp [h]
        · split
          · simp [h]
          · split
            all_goals simp [h]

@[simp] theorem admitPacket_memwf (s : State) (i : OpId) (p : CePkt) (h : Memory.wf s.mem = true) :
    Memory.wf (admitPacket s i p).1.mem = true := by
  unfold admitPacket
  extract_lets c
  split
  · simp [h]
  · split
    · simp [h]
    · split
      · simp [h]
      · split
        · rename_i h3
          simp [reserveChunk_mem _ h3, h]
        · simp [h]

@[simp] theorem holdEarly_mem (s : State) (d k e : Nat) (p : CePkt) :
    (holdEarly s d k e p).1.mem = s.mem := by
  unfold holdEarly
  dsimp only
  repeat' split
  all_goals simp

@[simp] theorem cePacket_memwf (s : State) (d k : Nat) (p : CePkt) (h : Memory.wf s.mem = true) :
    Memory.wf (cePacket s d k p).1.mem = true := by
  unfold cePacket
  dsimp only
  split
  · simp [h]
  · split
    · simp [h]
    · split
      · simp [h]
      · split
        all_goals simp [h]

theorem ceIngress_mem {s : State} {d k : Nat} {h : Hdr} :
    ∀ t ∈ ceIngress s d k h, t.mem = s.mem := by
  unfold ceIngress
  simp

@[simp] theorem meterDrop_mem (s : State) (d k : Nat) (h : Hdr) :
    (meterDrop s d k h).mem = s.mem := by
  simp [meterDrop]

/-- A packet that reaches a collective engine acts after its meter, or is dropped there. -/
theorem ceArrive_inv {s : State} (d k cmd : Nat) (hd : Hdr) {act : State → State} (h : Memory.wf s.mem = true)
    (hact : ∀ t, Memory.wf t.mem = true → Memory.wf (act t).mem = true) :
    Always State.Inv (arrive s d (attCe k) cmd { hdr := hd } (fun s =>
      match ceIngress s d k hd with
      | some s1 => act s1
      | none => meterDrop s d k hd)) := by
  refine arrive_inv d _ _ _ h fun t ht => ?_
  split
  · next t1 ht1 => exact hact _ (by rwa [ceIngress_mem _ ht1])
  · rwa [meterDrop_mem]

@[simp] theorem ceData_memwf (s : State) (d k : Nat) (p : Packet) (residue : Bool) (h : Memory.wf s.mem = true) :
    Memory.wf (ceData s d k p residue).mem = true := by
  unfold ceData
  split
  · simp [h]
  · rename_i h7
    dsimp only
    split
    all_goals simp [ceIngress_mem _ h7, h]

@[simp] theorem drainStall_memwf (n : Nat) (s : State) (d k : Nat) (h : Memory.wf s.mem = true) : Memory.wf (drainStall n s d k).mem = true := by
  induction n generalizing s with
  | zero => exact h
  | succ n ih =>
    unfold drainStall
    split
    · exact h
    · next p ps _ =>
      have hp : Memory.wf (cePacket s d k p).1.mem = true := cePacket_memwf s d k p h
      dsimp only
      split
      · exact ih _ (by simp [hp])
      · exact h

@[simp] theorem execStagingWaitEnd_inv (d k : Nat) (s : State) (h : Memory.wf s.mem = true) :
    Always State.Inv (execStagingWaitEnd d k s) := by
  simp [execStagingWaitEnd, h]

@[simp] theorem nackArrive_mem (s : State) (d k : Nat) (h : Hdr) :
    (nackArrive s d k h).mem = s.mem := by
  unfold nackArrive
  dsimp only
  repeat' split
  all_goals simp

@[simp] theorem resendOne_mem (s : State) (i : OpId) (x : Sent) :
    (resendOne s i x).mem = s.mem := by
  unfold resendOne
  split
  all_goals simp

@[simp] theorem chunkResend_mem (s : State) (i : OpId) :
    (chunkResend s i).mem = s.mem := by
  unfold chunkResend
  split
  all_goals simp

@[simp] theorem execChunkResend_inv (d k e tag : Nat) (s : State) (h : Memory.wf s.mem = true) :
    Always State.Inv (execChunkResend d k e tag s) := by
  simp [execChunkResend, h]

@[simp] theorem execChunkNack_inv (d k : Nat) (hd : Hdr) (s : State) (h : Memory.wf s.mem = true) :
    Always State.Inv (execChunkNack d k hd s) := by
  unfold execChunkNack
  split
  · trivial
  · exact ceArrive_inv d k _ hd h fun t ht => by rwa [nackArrive_mem]

@[simp] theorem ceTimeout_memwf (s : State) (d k n : Nat) (h : Memory.wf s.mem = true) :
    Memory.wf (ceTimeout s d k n).mem = true := by
  unfold ceTimeout
  split
  · simp [h]
  · split
    · dsimp only
      split
      all_goals simp [h]
    · dsimp only
      split
      all_goals simp [h]

@[simp] theorem tileTimeout_mem (s : State) (d p n : Nat) :
    (tileTimeout s d p n).mem = s.mem := by
  unfold tileTimeout
  dsimp only
  repeat' split
  all_goals simp

@[simp] theorem execChunkTimeout_inv (d att n : Nat) (s : State) (h : Memory.wf s.mem = true) :
    Always State.Inv (execChunkTimeout d att n s) := by
  unfold execChunkTimeout
  split
  all_goals simp [h]

@[simp] theorem execCeHang_inv (d k e tag : Nat) (s : State) (h : Memory.wf s.mem = true) :
    Always State.Inv (execCeHang d k e tag s) := by
  unfold execCeHang
  split
  · split
    all_goals simp [h]
  · simp [h]

@[simp] theorem reportBad_memwf (s : State) (i : OpId) (r : Report) (rank : Nat) (h : Memory.wf s.mem = true) :
    Memory.wf (reportBad s i r rank).mem = true := by
  unfold reportBad
  split
  · dsimp only
    split
    all_goals simp [h]
  · dsimp only
    split
    all_goals simp [h]

@[simp] theorem reportOk_mem (s : State) (i : OpId) (r : Report) (rank : Nat) :
    (reportOk s i r rank).mem = s.mem := by
  simp [reportOk]

@[simp] theorem reportArrive_memwf (s : State) (d k : Nat) (r : Report) (h : Memory.wf s.mem = true) :
    Memory.wf (reportArrive s d k r).mem = true := by
  unfold reportArrive
  split
  · simp [h]
  · split
    · extract_lets g n
      split
      all_goals simp [h]
    · extract_lets g n
      split
      all_goals simp [h]
    · dsimp only
      split
      · split
        all_goals simp [h]
      · simp [h]
    · extract_lets g n
      split
      · split
        all_goals simp [h]
      · simp [h]

@[simp] theorem execOrderReport_inv (d p : Nat) (s : State) (h : Memory.wf s.mem = true) :
    Always State.Inv (execOrderReport d p s) := by
  unfold execOrderReport
  extract_lets __src
  split
  all_goals simp [h]

@[simp] theorem abortArrive_memwf (s : State) (d k : Nat) (hd : Hdr) (h : Memory.wf s.mem = true) :
    Memory.wf (abortArrive s d k hd).mem = true := by
  unfold abortArrive
  split
  · simp [h]
  · dsimp only
    split
    · simp [h]
    · split
      · simp [h]
      · split
        all_goals simp [h]

@[simp] theorem execAbort_inv (d k : Nat) (hd : Hdr) (s : State) (h : Memory.wf s.mem = true) :
    Always State.Inv (execAbort d k hd s) := by
  unfold execAbort
  split
  · trivial
  · exact ceArrive_inv d k _ hd h fun t ht => abortArrive_memwf t d k hd ht

@[simp] theorem floodRelease_mem (s : State) (d k e tag epoch : Nat) (frm : Option (Nat × Nat × Nat)) :
    (floodRelease s d k e tag epoch frm).mem = s.mem := by
  simp [floodRelease]

@[simp] theorem releaseOp_mem (s : State) (d k e tag : Nat) :
    (releaseOp s d k e tag).mem = s.mem := by
  simp [releaseOp]

@[simp] theorem releaseArrive_mem (s : State) (d k : Nat) (h : Hdr) :
    (releaseArrive s d k h).mem = s.mem := by
  unfold releaseArrive
  extract_lets frm
  split
  · simp
  · dsimp only
    split
    all_goals simp

@[simp] theorem execSyncRelease_inv (d k : Nat) (hd : Hdr) (s : State) (h : Memory.wf s.mem = true) :
    Always State.Inv (execSyncRelease d k hd s) := by
  unfold execSyncRelease
  split
  · trivial
  · exact ceArrive_inv d k _ hd h fun t ht => by rwa [releaseArrive_mem]

@[simp] theorem ceDead_memwf (s : State) (d k scope pkg die idx : Nat) (h : Memory.wf s.mem = true) :
    Memory.wf (ceDead s d k scope pkg die idx).mem = true := by
  unfold ceDead
  refine foldl_memwf _ (fun s b h => ?_) _ _ ?_
  · dsimp only
    split
    · simp [h]
    · refine foldl_memwf _ (fun s b h => ?_) _ _ ?_
      · split
        all_goals simp [h]
      · simp [h]
  · simp [h]

end Sys2Proof.Machine
end

section
/-! SUPPORT. Memory under the operations of Machine/Queue.lean: `_mem` where it is left alone, `_memwf` and `_inv` where it stays canonical. -/

namespace Sys2Proof.Machine

@[simp] theorem ceWait_mem (s : State) (d k o pkg die epoch tag mode : Nat) :
    (ceWait s d k o pkg die epoch tag mode).mem = s.mem :=
  (rfl)

theorem gtWrite_mem {s : State} {d k e w : Nat} {v : Word} : Always (fun t => t.mem = s.mem) (gtWrite s d k e w v) := by
  unfold gtWrite
  split
  · exact rfl
  · dsimp only
    split
    · trivial
    · split
      · trivial
      · split
        · simp
        · split
          all_goals simp

theorem gtWrite_inv (s : State) (d k e w : Nat) (v : Word) (h : Memory.wf s.mem = true) : Always State.Inv (gtWrite s d k e w v) := by
  have hmem := gtWrite_mem (s := s) (d := d) (k := k) (e := e) (w := w) (v := v)
  revert hmem
  cases gtWrite s d k e w v <;> simp +contextual [h]

@[simp] theorem execCeGtDataWrite_inv (d k : Nat) (v : Word) (s : State) (h : Memory.wf s.mem = true) :
    Always State.Inv (execCeGtDataWrite d k v s) := by
  unfold execCeGtDataWrite
  split
  · trivial
  · exact gtWrite_inv s d k _ _ v h

@[simp] theorem fetchNow_mem (s : State) (d k e : Nat) :
    (fetchNow s d k e).mem = s.mem :=
  (rfl)

@[simp] theorem descriptorFetch_mem (s : State) (d k e : Nat) :
    (descriptorFetch s d k e).mem = s.mem := by
  simp [descriptorFetch]

@[simp] theorem execDescriptorFetch_inv (d k e : Nat) (s : State) (h : Memory.wf s.mem = true) :
    Always State.Inv (execDescriptorFetch d k e s) := by
  simp [execDescriptorFetch, h]

@[simp] theorem execDescriptorFetchRetry_inv (d k e : Nat) (s : State) (h : Memory.wf s.mem = true) :
    Always State.Inv (execDescriptorFetchRetry d k e s) := by
  unfold execDescriptorFetchRetry
  split
  all_goals simp [h]

@[simp] theorem armBarrier_mem (s : State) (d k e : Nat) :
    (armBarrier s d k e).mem = s.mem := by
  unfold armBarrier
  split
  all_goals simp

@[simp] theorem dropHeld_mem (s : State) (d k e : Nat) :
    (dropHeld s d k e).mem = s.mem := by
  simp [dropHeld]

@[simp] theorem barrierFired_mem (s : State) (d k e half : Nat) :
    (barrierFired s d k e half).mem = s.mem := by
  unfold barrierFired
  dsimp only
  split
  all_goals simp

@[simp] theorem matchEarly_mem (s : State) (d k e : Nat) (qs : List (Nat × BitVec 512)) :
    (matchEarly s d k e qs).mem = s.mem := by
  simp [matchEarly]

@[simp] theorem ringUnits_mem (s : State) (d k e : Nat) (us : List DataUnit) :
    (ringUnits s d k e us).2.mem = s.mem := by
  unfold ringUnits
  split
  all_goals simp

@[simp] theorem fetchData_mem (s : State) (d k e : Nat) (us : List DataUnit) :
    (fetchData s d k e us).mem = s.mem := by
  unfold fetchData
  dsimp only
  split
  all_goals simp

@[simp] theorem fetchFailed_mem (s : State) (d k e : Nat) :
    (fetchFailed s d k e).mem = s.mem := by
  simp [fetchFailed]

@[simp] theorem tailNotified_mem (s : State) (d k e result value : Nat) :
    (tailNotified s d k e result value).mem = s.mem := by
  simp [tailNotified]

@[simp] theorem ceAck_mem (s : State) (d k : Nat) (h : Hdr) :
    (ceAck s d k h).mem = s.mem := by
  simp [ceAck]

@[simp] theorem skipFront_memwf (s : State) (d k e tag : Nat) (x : BitVec 512) (status : Nat) (foreign : Bool) (h : Memory.wf s.mem = true) :
    Memory.wf (skipFront s d k e tag x status foreign).mem = true := by
  unfold skipFront
  split
  all_goals simp [h]

@[simp] theorem stageInputs_mem (s : State) (i : OpId) (bytes : Nat) :
    (stageInputs s i bytes).mem = s.mem := by
  unfold stageInputs
  extract_lets g
  split
  all_goals simp

@[simp] theorem takeHeld_memwf (s : State) (i : OpId) (h : Memory.wf s.mem = true) :
    Memory.wf (takeHeld s i).mem = true := by
  unfold takeHeld
  refine foldl_memwf _ (fun s b h => ?_) _ _ ?_
  · dsimp only
    split
    all_goals simp [h]
  · simp [h]

@[simp] theorem barrierArrive_mem (s : State) (i : OpId) (x : BitVec 512) :
    (barrierArrive s i x).mem = s.mem := by
  simp [barrierArrive]

@[simp] theorem startOp_memwf (s : State) (d k e tag : Nat) (x : BitVec 512) (h : Memory.wf s.mem = true) :
    Memory.wf (startOp s d k e tag x).mem = true := by
  unfold startOp
  extract_lets n i o cs s0 s1 s2 s3 s4 s5
  have hs1 : s1.mem = s.mem := by simp [s1, s0]
  have hs3 : s3.mem = s.mem := by simp [s3, s2, hs1]
  have hs4 : Memory.wf s4.mem = true := checkResidue_memwf _ _ (startChunk_memwf _ _ (by rw [hs3, h]))
  have hs5 : Memory.wf s5.mem = true := by simp [s5, hs4]
  split
  · simp [hs5]
  · exact hs5

@[simp] theorem startFront_inv (d k e op : Nat) (s : State) (h : Memory.wf s.mem = true) :
    Always State.Inv (startFront d k e op s) := by
  unfold startFront
  split
  · trivial
  · split
    · exact h
    · extract_lets n i o
      split
      · exact h
      · split
        · exact h
        · split
          · simp [h]
          · split
            · simp [h]
            · split
              · trivial
              · split
                · exact startOp_memwf _ _ _ _ _ _ h
                · exact h

@[simp] theorem execNop_inv (d k e : Nat) (s : State) (h : Memory.wf s.mem = true) :
    Always State.Inv (execNop d k e s) := by
  simp [execNop, h]

@[simp] theorem execAllReduce_inv (d k e : Nat) (s : State) (h : Memory.wf s.mem = true) :
    Always State.Inv (execAllReduce d k e s) := by
  simp [execAllReduce, h]

@[simp] theorem execReduce_inv (d k e : Nat) (s : State) (h : Memory.wf s.mem = true) :
    Always State.Inv (execReduce d k e s) := by
  simp [execReduce, h]

@[simp] theorem execReduceScatter_inv (d k e : Nat) (s : State) (h : Memory.wf s.mem = true) :
    Always State.Inv (execReduceScatter d k e s) := by
  simp [execReduceScatter, h]

@[simp] theorem execAllGather_inv (d k e : Nat) (s : State) (h : Memory.wf s.mem = true) :
    Always State.Inv (execAllGather d k e s) := by
  simp [execAllGather, h]

@[simp] theorem execBroadcast_inv (d k e : Nat) (s : State) (h : Memory.wf s.mem = true) :
    Always State.Inv (execBroadcast d k e s) := by
  simp [execBroadcast, h]

@[simp] theorem execAllToAll_inv (d k e : Nat) (s : State) (h : Memory.wf s.mem = true) :
    Always State.Inv (execAllToAll d k e s) := by
  simp [execAllToAll, h]

@[simp] theorem execAllToAllV_inv (d k e : Nat) (s : State) (h : Memory.wf s.mem = true) :
    Always State.Inv (execAllToAllV d k e s) := by
  simp [execAllToAllV, h]

@[simp] theorem execBarrier_inv (d k e : Nat) (s : State) (h : Memory.wf s.mem = true) :
    Always State.Inv (execBarrier d k e s) := by
  simp [execBarrier, h]

@[simp] theorem execChunkStart_inv (d k e tag : Nat) (s : State) (h : Memory.wf s.mem = true) :
    Always State.Inv (execChunkStart d k e tag s) := by
  unfold execChunkStart
  split
  all_goals simp [h]

@[simp] theorem execOperationEnd_inv (d k e tag : Nat) (s : State) (h : Memory.wf s.mem = true) :
    Always State.Inv (execOperationEnd d k e tag s) := by
  simp [execOperationEnd, h]

@[simp] theorem groupSkip_memwf (s : State) (d k e : Nat) (h : Memory.wf s.mem = true) :
    Memory.wf (groupSkip s d k e).mem = true := by
  unfold groupSkip
  simp +contextual [h]

@[simp] theorem groupResume_mem (s : State) (d k e : Nat) :
    (groupResume s d k e).mem = s.mem :=
  (rfl)

@[simp] theorem execCeGroupCtlSkip_inv (d k e : Nat) (s : State) (h : Memory.wf s.mem = true) :
    Always State.Inv (execCeGroupCtlSkip d k e s) := by
  simp [execCeGroupCtlSkip, h]

@[simp] theorem execCeGroupCtlResume_inv (d k e : Nat) (s : State) (h : Memory.wf s.mem = true) :
    Always State.Inv (execCeGroupCtlResume d k e s) := by
  simp [execCeGroupCtlResume, h]

@[simp] theorem groupCtlWrite_memwf (s : State) (d k : Nat) (v : Word) (h : Memory.wf s.mem = true) :
    Memory.wf (groupCtlWrite s d k v).mem = true := by
  unfold groupCtlWrite
  split
  all_goals simp [h]

@[simp] theorem ceAbortAll_memwf (s : State) (d k reason : Nat) (h : Memory.wf s.mem = true) :
    Memory.wf (ceAbortAll s d k reason).mem = true := by
  unfold ceAbortAll
  refine foldl_memwf _ (fun s b h => ?_) _ _ ?_
  · simp +contextual [h]
  · simp [h]

end Sys2Proof.Machine
end

section
/-! SUPPORT. Memory under the operations of Machine/Registers.lean: `_mem` where it is left alone, `_memwf` and `_inv` where it stays canonical. -/

namespace Sys2Proof.Machine

@[simp] theorem holdOrdered_mem (s : State) (d code att : Nat) :
    (holdOrdered s d code att).mem = s.mem :=
  (rfl)

@[simp] theorem holdRoute_mem (s : State) (d code : Nat) (reads : Nat → Bool) :
    (holdRoute s d code reads).mem = s.mem := by
  simp [holdRoute]

@[simp] theorem niTableWrite_mem (s : State) (d : Nat) (v : Word) :
    (niTableWrite s d v).mem = s.mem := by
  unfold niTableWrite
  dsimp only
  split
  all_goals simp

@[simp] theorem holdChanged_mem (s t : State) (d : Nat) : (holdChanged s t d).mem = t.mem := by
  unfold holdChanged
  dsimp only
  split
  · rfl
  · split
    all_goals simp

@[simp] theorem gateTabWrite_mem (s : State) (d : Nat) (v : Word) :
    (gateTabWrite s d v).mem = s.mem := by
  simp [gateTabWrite]

@[simp] theorem storeReg_mem (s : State) (d off : Nat) (r : RegDesc) (v : Word) (pl : Bool) :
    (storeReg s d off r v pl).mem = s.mem :=
  (rfl)

theorem tableWrite_mem {s : State} {d off : Nat} {v : Word} {pl : Bool} :
    ∀ t ∈ tableWrite s d off v pl, t.mem = s.mem := by
  unfold tableWrite
  split
  · split
    · split
      · simp
      · split
        all_goals simp
    · split
      all_goals simp
  · split
    · split
      · simp
      · split
        all_goals simp
    · split
      all_goals simp

theorem specialStore_mem {s : State} {d off : Nat} {v : Word} {pl : Bool} : ∀ t ∈ specialStore s d off v pl, t.mem = s.mem := by
  unfold specialStore
  split
  · simp
  · split
    · next ht => simpa using tableWrite_mem _ ht
    · repeat' split
      all_goals simp
      next h => exact Always.of_eq gtWrite_mem h

@[simp] theorem afterStore_mem (s : State) (d off : Nat) :
    (afterStore s d off).mem = s.mem := by
  simp [afterStore]

@[simp] theorem csrStore_mem (s : State) (d off : Nat) (v : Word) (pl : Bool) :
    (csrStore s d off v pl).mem = s.mem := by
  unfold csrStore
  split
  · simp
  · split
    · rename_i h6
      simp [specialStore_mem _ h6]
    · simp
    · simp

@[simp] theorem scramble_mem (s : State) (d off : Nat) :
    (scramble s d off).mem = s.mem := by
  unfold scramble
  split
  · dsimp only
    split
    all_goals simp
  · dsimp only
    split
    all_goals simp

end Sys2Proof.Machine
end

section
/-! SUPPORT. Memory under the operations of Machine/Ledger.lean: `_mem` where it is left alone, `_memwf` and `_inv` where it stays canonical. -/

namespace Sys2Proof.Machine

@[simp] theorem ledgerPut_mem (s : State) (r : LRec) :
    (ledgerPut s r).mem = s.mem := by
  simp [ledgerPut]

@[simp] theorem ledgerAdd_mem (s : State) (ty ft40 : Nat) (body : List Nat) :
    (ledgerAdd s ty ft40 body).mem = s.mem := by
  simp [ledgerAdd]

@[simp] theorem digestPut_mem (s : State) (r : LRec) :
    (digestPut s r).mem = s.mem := by
  simp [digestPut]

@[simp] theorem ledgerRefill_mem (s : State) :
    (ledgerRefill s).mem = s.mem := by
  simp [ledgerRefill]

@[simp] theorem showChain_mem (s : State) (c : Chained) :
    (showChain s c).mem = s.mem := by
  simp [showChain]

@[simp] theorem ringPump_mem (s : State) :
    (ringPump s).mem = s.mem := by
  unfold ringPump
  extract_lets
  repeat' split
  all_goals simp

@[simp] theorem ringAck_mem (s : State) (status : Nat) :
    (ringAck s status).mem = s.mem := by
  simp [ringAck]

@[simp] theorem sealStart_mem (s : State) :
    (sealStart s).mem = s.mem := by
  simp [sealStart]

@[simp] theorem debugRecord_mem (s : State) (ft : Nat) :
    (debugRecord s ft).mem = s.mem := by
  simp [debugRecord]

@[simp] theorem debugNotify_mem (s : State) :
    (debugNotify s).mem = s.mem := by
  simp [debugNotify]

@[simp] theorem sealOpen_mem (s : State) (r : LRec) (lseq : Nat) :
    (sealOpen s r lseq).mem = s.mem := by
  simp [sealOpen]

@[simp] theorem ledgerChain_mem (s0 : State) :
    (ledgerChain s0).mem = s0.mem := by
  unfold ledgerChain
  dsimp only
  split
  all_goals simp

@[simp] theorem execLedgerChain_inv (s : State) (h : Memory.wf s.mem = true) :
    Always State.Inv (execLedgerChain s) := by
  simp [execLedgerChain, h]

@[simp] theorem mirrorAck_mem (s : State) :
    (mirrorAck s).mem = s.mem := by
  unfold mirrorAck
  split
  all_goals simp

@[simp] theorem execMirrorAck_inv (s : State) (h : Memory.wf s.mem = true) :
    Always State.Inv (execMirrorAck s) := by
  simp [execMirrorAck, h]

@[simp] theorem execSealDue_inv (s : State) (h : Memory.wf s.mem = true) :
    Always State.Inv (execSealDue s) := by
  simp [execSealDue, h]

@[simp] theorem execSealNow_inv (s : State) (h : Memory.wf s.mem = true) :
    Always State.Inv (execSealNow s) := by
  simp [execSealNow, h]

@[simp] theorem sealNext_mem (s : State) (l : Nat) :
    (sealNext s l).mem = s.mem := by
  unfold sealNext
  split
  all_goals simp

@[simp] theorem sealSigned_mem (s : State) :
    (sealSigned s).mem = s.mem := by
  unfold sealSigned
  split
  all_goals simp

@[simp] theorem execSealSigned_inv (s : State) (h : Memory.wf s.mem = true) :
    Always State.Inv (execSealSigned s) := by
  simp [execSealSigned, h]

@[simp] theorem ledgerIntake_mem (s : State) (p : Packet) :
    (ledgerIntake s p).mem = s.mem := by
  simp [ledgerIntake]

@[simp] theorem traceFlush_mem (s : State) (d : Nat) :
    (traceFlush s d).mem = s.mem := by
  simp [traceFlush]

@[simp] theorem execTraceFlush_inv (d : Nat) (s : State) (h : Memory.wf s.mem = true) :
    Always State.Inv (execTraceFlush d s) := by
  simp [execTraceFlush, h]

@[simp] theorem countRecord_mem (s : State) (d n : Nat) :
    (countRecord s d n).mem = s.mem := by
  simp [countRecord]

@[simp] theorem countPeriod_mem (s : State) (d : Nat) :
    (countPeriod s d).mem = s.mem := by
  simp [countPeriod]

@[simp] theorem execCountPeriod_inv (d : Nat) (s : State) (h : Memory.wf s.mem = true) :
    Always State.Inv (execCountPeriod d s) := by
  simp [execCountPeriod, h]

@[simp] theorem execObsPrbCfgWrite_inv (d n : Nat) (v : Word) (s : State) (h : Memory.wf s.mem = true) :
    Always State.Inv (execObsPrbCfgWrite d n v s) := by
  simp [execObsPrbCfgWrite, h]

@[simp] theorem statCfgWrite_mem (s : State) (d : Nat) (v : Word) :
    (statCfgWrite s d v).mem = s.mem := by
  simp [statCfgWrite]

@[simp] theorem execObsStatClear_inv (d : Nat) (v : Word) (s : State) (h : Memory.wf s.mem = true) :
    Always State.Inv (execObsStatClear d v s) := by
  simp [execObsStatClear, h]

end Sys2Proof.Machine
end

section
/-! SUPPORT. Memory under the operations of Machine/Commit.lean: `_mem` where it is left alone, `_memwf` and `_inv` where it stays canonical. -/

namespace Sys2Proof.Machine

@[simp] theorem stageAck_mem (s : State) (d n result : Nat) (h : Hdr) :
    (stageAck s d n result h).mem = s.mem :=
  (rfl)

@[simp] theorem stageCheck_mem (s : State) (d n : Nat) (h : Hdr) :
    (stageCheck s d n h).mem = s.mem := by
  unfold stageCheck
  dsimp only
  repeat' split
  all_goals simp

@[simp] theorem stageFill_memwf (s : State) (d n : Nat) (p : Packet) (h : Memory.wf s.mem = true) :
    Memory.wf (stageFill s d n p).mem = true := by
  unfold stageFill
  simp +contextual [h]

@[simp] theorem stageArrive_memwf (s : State) (d : Nat) (p : Packet) (h : Memory.wf s.mem = true) :
    Memory.wf (stageArrive s d p).mem = true := by
  unfold stageArrive
  dsimp only
  split
  · split
    all_goals simp [h]
  · split
    · simp [h]
    · split
      all_goals simp [h]

@[simp] theorem commitArrive_inv {s : State} (d cmd : Nat) (p : Packet) {act : State → State} (h : Memory.wf s.mem = true)
    (hact : ∀ t, Memory.wf t.mem = true → Memory.wf (act t).mem = true) : Always State.Inv (commitArrive s d cmd p act) := by
  unfold commitArrive
  refine arrive_inv d _ cmd p h fun t ht => ?_
  dsimp only
  split
  · exact hact _ (by simp [ht])
  · simp [ht]

@[simp] theorem execCommitStage_inv (d : Nat) (p : Packet) (s : State) (h : Memory.wf s.mem = true) :
    Always State.Inv (execCommitStage d p s) := by
  unfold execCommitStage
  simp +contextual [h]

@[simp] theorem confirmArrive_mem (s : State) (d : Nat) (h : Hdr) :
    (confirmArrive s d h).mem = s.mem := by
  unfold confirmArrive
  dsimp only
  split
  all_goals simp

@[simp] theorem execConfirm_inv (d : Nat) (hd : Hdr) (s : State) (h : Memory.wf s.mem = true) :
    Always State.Inv (execConfirm d hd s) := by
  simp [execConfirm, h]

@[simp] theorem applyCsr_mem (s : State) (d addr : Nat) (ws : List Word) (pl : Bool) :
    (applyCsr s d addr ws pl).1.mem = s.mem := by
  unfold applyCsr
  extract_lets offs
  split
  all_goals simp

@[simp] theorem applySync_mem (s : State) (d o : Nat) (v : Word) :
    (applySync s d o v).mem = s.mem := by
  simp [applySync]

@[simp] theorem applyRecs_mem (s : State) (d : Nat) (pl : Bool) (rs : List (Nat × Nat × List Word)) :
    (applyRecs s d pl rs).1.mem = s.mem := by
  induction rs generalizing s with
  | nil => rfl
  | cons r rs ih =>
    simp only [applyRecs, ih]
    split
    · simp
    · split
      all_goals simp

@[simp] theorem targetReport_mem (s : State) (d n result : Nat) :
    (targetReport s d n result).mem = s.mem := by
  simp [targetReport]

@[simp] theorem closeWin_mem (s : State) (d n : Nat) :
    (closeWin s d n).mem = s.mem :=
  (rfl)

@[simp] theorem winDone_mem (s : State) (d n : Nat) :
    (winDone s d n).mem = s.mem := by
  simp [winDone]

@[simp] theorem fabricAck_mem (s : State) (d n status : Nat) :
    (fabricAck s d n status).mem = s.mem := by
  simp [fabricAck]

@[simp] theorem clearPermits_mem (s : State) (d t40 : Nat) :
    (clearPermits s d t40).mem = s.mem := by
  simp [clearPermits]

@[simp] theorem applyWin_mem (s : State) (d : Nat) (pl : Bool) (n : Nat) :
    (applyWin s d pl n).mem = s.mem := by
  simp [applyWin]

@[simp] theorem leaveOne_mem (s0 s : State) (d off : Nat) : (leaveOne s0 s d off).mem = s.mem := by
  unfold leaveOne
  dsimp only
  split
  · simp
  · split
    all_goals simp

@[simp] theorem applyWins_mem (s0 s : State) (d : Nat) (ns : List Nat) (seen : List (Nat × Nat)) :
    (applyWins s0 d ns seen s).mem = s.mem := by
  induction ns generalizing s seen with
  | nil => rfl
  | cons n ns ih => simp [applyWins, ih]

@[simp] theorem fabricOrder_mem (s : State) (d : Nat) (ns : List Nat) :
    (fabricOrder s d ns).2.mem = s.mem := by
  unfold fabricOrder
  dsimp only
  split
  all_goals simp

@[simp] theorem sendFabric_mem (s : State) (d n : Nat) :
    (sendFabric s d n).mem = s.mem := by
  simp [sendFabric]

@[simp] theorem settleObjs_mem (s0 s : State) (d : Nat) (os : List Nat) : (settleObjs s0 s d os).mem = s.mem := by
  unfold settleObjs
  exact foldl_mem _ (fun s o => by simp) _ _

@[simp] theorem discardWin_mem (s : State) (d n : Nat) :
    (discardWin s d n).mem = s.mem := by
  simp [discardWin]

@[simp] theorem commitApply_mem (s : State) (d : Nat) :
    (commitApply s d).mem = s.mem := by
  simp [commitApply]

@[simp] theorem commitMend_mem (s : State) (d : Nat) :
    (commitMend s d).mem = s.mem := by
  simp [commitMend]

@[simp] theorem reportAtRecorder_mem (s : State) (d : Nat) (h : Hdr) :
    (reportAtRecorder s d h).mem = s.mem := by
  unfold reportAtRecorder
  split
  all_goals simp

@[simp] theorem execTargetReport_inv (d att : Nat) (hd : Hdr) (s : State) (h : Memory.wf s.mem = true) :
    Always State.Inv (execTargetReport d att hd s) := by
  unfold execTargetReport
  refine headerChecked_inv d att _ h ?_
  split
  · trivial
  · split
    · exact commitArrive_inv d _ _ h fun t ht => by rwa [reportAtRecorder_mem]
    · split
      · refine arrive_inv d att _ _ h fun t ht => ?_
        split
        · next t1 ht1 => rwa [ceIngress_mem _ ht1]
        · rwa [meterDrop_mem]
      · trivial

@[simp] theorem sendOutcome_mem (s : State) (d : Nat) (w : Win) (x : Decision) :
    (sendOutcome s d w x).mem = s.mem :=
  (rfl)

@[simp] theorem recorderDecide_mem (s : State) (d n : Nat) :
    (recorderDecide s d n).mem = s.mem := by
  simp [recorderDecide]

@[simp] theorem recorderDecision_mem (s : State) (d : Nat) :
    (recorderDecision s d).mem = s.mem := by
  simp [recorderDecision]

@[simp] theorem execRecorderDecision_inv (d : Nat) (s : State) (h : Memory.wf s.mem = true) :
    Always State.Inv (execRecorderDecision d s) := by
  simp [execRecorderDecision, h]

end Sys2Proof.Machine
end

section
/-! SUPPORT. Memory under the operations of Machine/Coord.lean: `_mem` where it is left alone, `_memwf` and `_inv` where it stays canonical. -/

namespace Sys2Proof.Machine

@[simp] theorem setCoSlot_mem (s : State) (d k n : Nat) (x : Option CoSlot) :
    (setCoSlot s d k n x).mem = s.mem :=
  (rfl)

@[simp] theorem coordEnable_mem (s : State) (d k : Nat) :
    (coordEnable s d k).mem = s.mem :=
  (rfl)

@[simp] theorem requestFetch_mem (s : State) (d k : Nat) :
    (requestFetch s d k).mem = s.mem := by
  simp [requestFetch]

@[simp] theorem execCommitRequestFetch_inv (d k : Nat) (s : State) (h : Memory.wf s.mem = true) :
    Always State.Inv (execCommitRequestFetch d k s) := by
  simp [execCommitRequestFetch, h]

@[simp] theorem pumpCoRecs_mem (s : State) (d k : Nat) :
    (pumpCoRecs s d k).mem = s.mem := by
  unfold pumpCoRecs
  dsimp only
  split
  all_goals simp

@[simp] theorem addCoRec_mem (s : State) (d k : Nat) (r : CoRec) :
    (addCoRec s d k r).mem = s.mem := by
  simp [addCoRec]

@[simp] theorem coRecAcked_mem (s : State) (d k status : Nat) :
    (coRecAcked s d k status).mem = s.mem := by
  unfold coRecAcked
  split
  · dsimp only
    split
    · simp
    · split
      all_goals simp
  · dsimp only
    split
    · simp
    · split
      all_goals simp

@[simp] theorem stepAbort_inv (s : State) (d k group reason : Nat) (h : Memory.wf s.mem = true) :
    Always State.Inv (stepAbort s d k group reason) := by
  unfold stepAbort
  split
  · simp
  · simp +contextual [h]

@[simp] theorem sendStream_mem (s : State) (d k : Nat) (x : CoSlot) (t : Nat) (us : List DataUnit) :
    (sendStream s d k x t us).mem = s.mem := by
  simp [sendStream]

@[simp] theorem issueSlotRead_mem (s : State) (d k n : Nat) (x : CoSlot) :
    (issueSlotRead s d k n x).mem = s.mem :=
  (rfl)

@[simp] theorem slotNext_mem (n : Nat) (s : State) (n1 n2 n3 : Nat) :
    (slotNext n s n1 n2 n3).mem = s.mem := by
  fun_induction slotNext n s n1 n2 n3
  all_goals simp_all

@[simp] theorem slotData_mem (s : State) (d k n : Nat) (us : List DataUnit) :
    (slotData s d k n us).mem = s.mem := by
  unfold slotData
  split
  all_goals simp

@[simp] theorem dropUnsent_mem (s : State) (d k v cmd group : Nat) :
    (dropUnsent s d k v cmd group).mem = s.mem :=
  (rfl)

@[simp] theorem abandon_mem (s : State) (d k n : Nat) (x : CoSlot) :
    (abandon s d k n x).mem = s.mem :=
  (rfl)

@[simp] theorem slotReadFailed_mem (s : State) (d k n : Nat) :
    (slotReadFailed s d k n).mem = s.mem := by
  unfold slotReadFailed
  split
  all_goals simp

theorem startRequest_inv {s : State} {d k : Nat} {req : BitVec 512} {rest : List (BitVec 512)} (h : Memory.wf s.mem = true) :
    ∀ o ∈ startRequest s d k req rest, Always State.Inv o := by
  unfold startRequest
  dsimp only
  split
  · simp [h]
  · split
    · simp
    · split
      all_goals simp [h]

/-- One turn of a coordinator's queue, over the operation that starts a request. -/
theorem runMatch_inv {q : List (BitVec 512)} {start : BitVec 512 → List (BitVec 512) → Option Out} {f : State → Out} {s : State}
    (h : Memory.wf s.mem = true) (hstart : ∀ req rest, ∀ o ∈ start req rest, Always State.Inv o)
    (ih : ∀ s : State, Memory.wf s.mem = true → Always State.Inv (f s)) :
    Always State.Inv (match q with
      | [] => Host.Outcome.next s
      | req :: rest =>
        match start req rest with
        | none => Host.Outcome.next s
        | some (Host.Outcome.next s1) => f s1
        | some r => r) := by
  cases q with
  | nil => exact h
  | cons req rest =>
    specialize hstart req rest
    dsimp only
    generalize start req rest = o at hstart ⊢
    rcases o with _ | (t | r | r)
    · exact h
    · exact ih t (hstart _ rfl)
    · trivial
    · trivial

/-- The kernel must not evaluate `startRequest` on a symbolic state: the turn is proved over a variable in its place. -/
theorem runRequests_succ_inv (n : Nat) {s : State} (d k : Nat) (h : Memory.wf s.mem = true)
    (ih : ∀ {s : State}, Memory.wf s.mem = true → Always State.Inv (runRequests n s d k)) :
    Always State.Inv (runRequests (n + 1) s d k) := by
  have hstart : ∀ req rest, ∀ o ∈ startRequest s d k req rest, Always State.Inv o := fun req rest => startRequest_inv h
  delta runRequests runRequests._f
  delta runRequests runRequests._f at ih
  generalize startRequest = start at hstart ih ⊢
  revert start
  refine id ?_
  intro start hstart ih
  exact runMatch_inv (q := (s.coord d k).queue) (start := start s d k) h hstart (fun s h => ih h)

@[simp] theorem runRequests_inv (n : Nat) {s : State} (d k : Nat) (h : Memory.wf s.mem = true) : Always State.Inv (runRequests n s d k) := by
  induction n generalizing s with
  | zero => exact h
  | succ n ih => exact runRequests_succ_inv n d k h ih

@[simp] theorem requestData_inv (s : State) (d k : Nat) (us : List DataUnit) (h : Memory.wf s.mem = true) :
    Always State.Inv (requestData s d k us) := by
  unfold requestData
  extract_lets c
  split
  · simp [h]
  · split
    all_goals simp [h]

@[simp] theorem coordData_inv (s : State) (d k tag : Nat) (us : List DataUnit) (h : Memory.wf s.mem = true) :
    Always State.Inv (coordData s d k tag us) := by
  unfold coordData
  split
  · simp [h]
  · dsimp only
    split
    all_goals simp [h]

@[simp] theorem slotDone_inv (s : State) (d k n : Nat) (x : CoSlot) (outcome na nd nm : Nat) (h : Memory.wf s.mem = true) :
    Always State.Inv (slotDone s d k n x outcome na nd nm) := by
  unfold slotDone
  extract_lets s1 r
  have hs1 : Memory.wf s1.mem = true := by simp [s1, h]
  have hr : Always State.Inv r := by
    unfold r
    split
    · exact stepAbort_inv _ _ _ _ _ hs1
    · exact hs1
  generalize r = o at hr
  split
  · exact runRequests_inv _ _ _ hr
  · exact hr

@[simp] theorem coordAck_mem (s : State) (d k : Nat) (h : Hdr) :
    (coordAck s d k h).mem = s.mem := by
  simp [coordAck]

@[simp] theorem stageAnswer_mem (s : State) (d k : Nat) (h : Hdr) :
    (stageAnswer s d k h).mem = s.mem := by
  unfold stageAnswer
  dsimp only
  split
  all_goals simp

@[simp] theorem coordArrive_inv {s : State} (d k cmd : Nat) (p : Hdr) {act : State → Out} (h : Memory.wf s.mem = true)
    (hact : ∀ t, Memory.wf t.mem = true → Always State.Inv (act t)) : Always State.Inv (coordArrive s d k cmd p act) := by
  unfold coordArrive
  split
  · trivial
  · refine arriveAt_inv d _ cmd _ h fun t ht => ?_
    split
    · next u hu => exact hact u (by rw [ceIngress_mem _ hu, ht])
    · simp [ht]

@[simp] theorem execCommitAck_inv (d k : Nat) (hd : Hdr) (s : State) (h : Memory.wf s.mem = true) :
    Always State.Inv (execCommitAck d k hd s) := by
  simp [execCommitAck, h]

@[simp] theorem outcomeArrive_inv (s : State) (d k : Nat) (hd : Hdr) (h : Memory.wf s.mem = true) :
    Always State.Inv (outcomeArrive s d k hd) := by
  unfold outcomeArrive
  extract_lets n
  split
  · simp [h]
  · split
    all_goals simp [h]

@[simp] theorem execCommitOutcome_inv (d k : Nat) (hd : Hdr) (s : State) (h : Memory.wf s.mem = true) :
    Always State.Inv (execCommitOutcome d k hd s) := by
  unfold execCommitOutcome
  split
  · simp [h]
  · simp +contextual [h]

@[simp] theorem execConfirmDeadline_inv (d k n : Nat) (s : State) (h : Memory.wf s.mem = true) :
    Always State.Inv (execConfirmDeadline d k n s) := by
  unfold execConfirmDeadline
  split
  all_goals simp [h]

@[simp] theorem execOutcomeWaitExpiry_inv (d k n : Nat) (s : State) (h : Memory.wf s.mem = true) :
    Always State.Inv (execOutcomeWaitExpiry d k n s) := by
  unfold execOutcomeWaitExpiry
  split
  · simp
  · split
    · simp [h]
    · split
      all_goals simp [h]

@[simp] theorem coordMend_mem (s : State) (d : Nat) :
    (coordMend s d).mem = s.mem :=
  (rfl)

end Sys2Proof.Machine
end

section
/-! SUPPORT. Memory under the operations of Machine/Image.lean: `_mem` where it is left alone, `_memwf` and `_inv` where it stays canonical. -/

namespace Sys2Proof.Machine

@[simp] theorem setLoadState_mem (s : State) (st : Nat) :
    (setLoadState s st).mem = s.mem := by
  simp [setLoadState]

@[simp] theorem coldTables_mem (s : State) :
    (coldTables s).mem = s.mem :=
  (rfl)

@[simp] theorem loadFail_mem (s : State) (result sec : Nat) :
    (loadFail s result sec).mem = s.mem := by
  simp [loadFail]

@[simp] theorem ignoreWords_mem (s : State) (d n : Nat) :
    (ignoreWords s d n).mem = s.mem := by
  simp [ignoreWords]

@[simp] theorem loadCsr_mem (s : State) (d off : Nat) (v : Word) :
    (loadCsr s d off v).mem = s.mem := by
  unfold loadCsr
  split
  all_goals simp

@[simp] theorem loadCsrRec_mem (s : State) (d off stride reps : Nat) (ws : List Word) :
    (loadCsrRec s d off stride reps ws).mem = s.mem := by
  simp [loadCsrRec]

@[simp] theorem loadObject_mem (s : State) (d o : Nat) (hi lo : Word) :
    (loadObject s d o hi lo).mem = s.mem := by
  unfold loadObject
  dsimp only
  split
  all_goals simp

@[simp] theorem writeEntry_mem (s : State) (d t sub ix : Nat) (w : List Word) :
    (writeEntry s d t sub ix w).mem = s.mem := by
  unfold writeEntry
  split
  all_goals simp

@[simp] theorem loadEntries_mem (s : State) (d t sub ix n : Nat) (ws : List Word) (fill : Bool) :
    (loadEntries s d t sub ix n ws fill).mem = s.mem := by
  simp [loadEntries]

@[simp] theorem loadTable_mem (s : State) (d t sub ix n : Nat) (ws : List Word) (fill : Bool) :
    (loadTable s d t sub ix n ws fill).mem = s.mem := by
  simp [loadTable]

@[simp] theorem loadRecord_mem (s : State) (h : Word) (ws : List Word) (d : Nat) :
    (loadRecord s h ws d).mem = s.mem := by
  simp [loadRecord]

@[simp] theorem placeDie_mem (s : State) (off d : Nat) :
    (placeDie s off d).mem = s.mem := by
  simp [placeDie]

@[simp] theorem applyFloor_inv (s : State) (off : Nat) (h : Memory.wf s.mem = true) :
    Always State.Inv (applyFloor s off) := by
  unfold applyFloor
  split
  · simp
  · dsimp only
    split
    · split
      all_goals simp [h]
    · simp

@[simp] theorem nextSection_mem (s : State) :
    (nextSection s).mem = s.mem :=
  (rfl)

@[simp] theorem loadRun_inv (n : Nat) {s : State} (h : Memory.wf s.mem = true) : Always State.Inv (loadRun n s) := by
  induction n generalizing s with
  | zero => exact h
  | succ n ih =>
    have hnext {t : State} (ht : Memory.wf t.mem = true) : Always State.Inv (loadRun n (nextSection t)) := ih (by rwa [nextSection_mem])
    have hrest (t : State) (ht : Memory.wf t.mem = true) (l : List Nat) (n : Nat) :
        Memory.wf (l.foldl (fun s d => ignoreWords s d n) t).mem = true :=
      foldl_memwf _ (fun s d h => by rwa [ignoreWords_mem]) l t ht
    have hrecs (l : List Nat) (x : Word) (ws : List Word) : Memory.wf (l.foldl (fun s d => loadRecord s x ws d) s).mem = true :=
      foldl_memwf _ (fun s d h => by rwa [loadRecord_mem]) l s h
    unfold loadRun
    extract_lets l e fin pos result word rest
    have hskip (t : State) (ht : Memory.wf t.mem = true) : Memory.wf (rest t).mem = true := hrest t ht _ _
    split
    · exact h
    · split
      · split
        · exact h
        · split
          · exact (always_next _ _).mpr (by rw [State.inv_iff, loadFail_mem]; exact h)
          · have hfloor := applyFloor_inv s e.off h
            split
            · next t ht => exact hnext (Always.of_eq hfloor ht)
            · exact hfloor
      · split
        · split
          · exact h
          · exact hnext h
        · split
          · exact hnext h
          · split
            · exact h
            · split
              · exact hnext h
              · split
                · exact hnext (hskip s h)
                · split
                  · exact hnext (hskip s h)
                  · split
                    · exact h
                    · exact ih (hrecs _ _ _)

@[simp] theorem loadProgress_inv (s : State) (h : Memory.wf s.mem = true) : Always State.Inv (loadProgress s) := by
  have hfail (r sec : Nat) : Memory.wf (loadFail s r sec).mem = true := by rwa [loadFail_mem]
  unfold loadProgress
  extract_lets l hr dirEnd ran
  have hran : Always State.Inv ran := by
    unfold ran
    split
    · exact loadRun_inv _ h
    · exact h
  split
  · exact hfail _ _
  · split
    · exact hfail _ _
    · generalize ran = o at hran
      split
      · next t =>
        have ht : Memory.wf t.mem = true := hran
        split
        · rw [always_next, State.inv_iff, setLoadState_mem]
          exact ht
        · exact ht
      · exact hran

@[simp] theorem loadWrite_inv (s : State) (v : Word) (h : Memory.wf s.mem = true) : Always State.Inv (loadWrite s v) := by
  unfold loadWrite
  split
  · exact h
  · split
    · rw [always_next, State.inv_iff, loadFail_mem]
      exact h
    · exact loadProgress_inv _ (writeWord_wf _ _ h)

@[simp] theorem execLoadPortWrite_inv (v : Word) (s : State) (h : Memory.wf s.mem = true) :
    Always State.Inv (execLoadPortWrite v s) := by
  simp [execLoadPortWrite, h]

@[simp] theorem clearImage_memwf (s : State) (h : Memory.wf s.mem = true) :
    Memory.wf (clearImage s).mem = true := by
  simp [clearImage, h]

@[simp] theorem loadStart_memwf (s : State) (mode : Nat) (allowed : Bool) (h : Memory.wf s.mem = true) :
    Memory.wf (loadStart s mode allowed).mem = true := by
  have hclear : Memory.wf (clearImage s).mem = true := clearImage_memwf s h
  unfold loadStart
  extract_lets d s0 s1 step l s2
  split
  · simp [h]
  · split
    · simp [h]
    · simp [s2, s1, s0, hclear]

@[simp] theorem execPatLoadStartCold_inv (s : State) (h : Memory.wf s.mem = true) :
    Always State.Inv (execPatLoadStartCold s) := by
  simp [execPatLoadStartCold, h]

@[simp] theorem execPatLoadStartPatch_inv (s : State) (h : Memory.wf s.mem = true) :
    Always State.Inv (execPatLoadStartPatch s) := by
  simp [execPatLoadStartPatch, h]

@[simp] theorem execPatLoadStartArea_inv (s : State) (h : Memory.wf s.mem = true) :
    Always State.Inv (execPatLoadStartArea s) := by
  simp [execPatLoadStartArea, h]

end Sys2Proof.Machine
end

section
/-! SUPPORT. Memory under the operations of Machine/Pattern.lean: `_mem` where it is left alone, `_memwf` and `_inv` where it stays canonical. -/

namespace Sys2Proof.Machine

@[simp] theorem startTailor_memwf (s : State) (d : Nat) (h : Memory.wf s.mem = true) :
    Memory.wf (startTailor s d).mem = true := by
  unfold startTailor
  split
  all_goals simp [h]

@[simp] theorem bootRecords_mem (s : State) :
    (bootRecords s).mem = s.mem := by
  simp [bootRecords]

@[simp] theorem showPattern_mem (s : State) (d : Nat) :
    (showPattern s d).mem = s.mem := by
  simp [showPattern]

@[simp] theorem loadVerified_memwf (s : State) (ok : Bool) (h : Memory.wf s.mem = true) :
    Memory.wf (loadVerified s ok).mem = true := by
  unfold loadVerified
  split
  · simp [h]
  · dsimp only
    split
    · simp [h]
    · split
      · simp [h]
      · simp +contextual [h]

@[simp] theorem execLoadVerifyDone_inv (ok : Bool) (s : State) (h : Memory.wf s.mem = true) :
    Always State.Inv (execLoadVerifyDone ok s) := by
  simp [execLoadVerifyDone, h]

@[simp] theorem areaWrite_memwf (s : State) (off : Nat) (bs : List Byte) (h : Memory.wf s.mem = true) :
    Memory.wf (areaWrite s off bs).mem = true := by
  simp [areaWrite, h]

@[simp] theorem areaCopied_memwf (s : State) (ok0 ok1 : Bool) (h : Memory.wf s.mem = true) :
    Memory.wf (areaCopied s ok0 ok1).mem = true := by
  unfold areaCopied
  split
  · simp [h]
  · split
    · simp [h]
    · split
      · dsimp only
        split
        all_goals simp [h]
      · dsimp only
        split
        all_goals simp [h]

@[simp] theorem execAreaCopyDone_inv (ok0 ok1 : Bool) (s : State) (h : Memory.wf s.mem = true) :
    Always State.Inv (execAreaCopyDone ok0 ok1 s) := by
  simp [execAreaCopyDone, h]

@[simp] theorem permitWrite_mem (s : State) (d off : Nat) (src : BitVec 32) (v : Word) :
    (permitWrite s d off src v).mem = s.mem := by
  simp [permitWrite]

@[simp] theorem execPermitWrite_inv (d off : Nat) (src : BitVec 32) (v : Word) (s : State) (h : Memory.wf s.mem = true) :
    Always State.Inv (execPermitWrite d off src v s) := by
  simp [execPermitWrite, h]

@[simp] theorem headCsrWrite_mem (s : State) (d off : Nat) (v : Word) :
    (headCsrWrite s d off v).mem = s.mem :=
  (rfl)

@[simp] theorem headWrite_mem (s : State) (d off : Nat) (v : Word) :
    (headWrite s d off v).mem = s.mem := by
  simp [headWrite]

@[simp] theorem setPatch_mem (s : State) (p : Patch) :
    (setPatch s p).mem = s.mem :=
  (rfl)

@[simp] theorem sendPermit_mem (s : State) (x : PStream) (n t : Nat) :
    (sendPermit s x n t).mem = s.mem := by
  simp [sendPermit]

@[simp] theorem sendPermits_mem (s : State) (num : Nat) :
    (sendPermits s num).mem = s.mem := by
  unfold sendPermits
  split
  · simp
  · refine foldl_mem _ (fun s b => ?_) _ _
    split
    · simp
    · split
      · simp
      · split
        all_goals simp

@[simp] theorem clearPatchPermits_mem (s : State) (p : Patch) :
    (clearPatchPermits s p).mem = s.mem := by
  simp [clearPatchPermits]

@[simp] theorem patchRecord_mem (s : State) (p : Patch) (logged : Nat) :
    (patchRecord s p logged).mem = s.mem := by
  simp [patchRecord]

@[simp] theorem hostState_mem (s : State) (p : Patch) (st : Nat) :
    (hostState s p st).mem = s.mem := by
  simp [hostState]

@[simp] theorem acceptPatch_mem (s : State) (p : Patch) :
    (acceptPatch s p).mem = s.mem := by
  simp [acceptPatch]

@[simp] theorem patchVerified_mem (s : State) :
    (patchVerified s).mem = s.mem := by
  simp [patchVerified]

@[simp] theorem execPatchVerifyDone_inv (s : State) (h : Memory.wf s.mem = true) :
    Always State.Inv (execPatchVerifyDone s) := by
  simp [execPatchVerifyDone, h]

@[simp] theorem kerexPatch_mem (s : State) (kind arg t : Nat) (ss : List PStream) (logged : Nat) :
    (kerexPatch s kind arg t ss logged).mem = s.mem := by
  simp [kerexPatch]

@[simp] theorem execKerexPatch_inv (t : Nat) (ss : List PStream) (s : State) (h : Memory.wf s.mem = true) :
    Always State.Inv (execKerexPatch t ss s) := by
  simp [execKerexPatch, h]

@[simp] theorem postPatch_memwf (s : State) (p : Patch) (h : Memory.wf s.mem = true) : Memory.wf (postPatch s p).mem = true := by
  unfold postPatch
  extract_lets c bs base at' tab fin s1 s2 o ix a s3 hdr s4
  split
  · split
    · simp [s1, h]
    · simp [s1, h]
  · have hs2 : Memory.wf s2.mem = true := areaWrite_memwf _ _ _ (areaWrite_memwf _ _ _ h)
    have hs3 : Memory.wf s3.mem = true := spaceWrite_memwf _ _ _ _ hs2
    simp [s4, hs3]

@[simp] theorem permitsWritten_memwf (s : State) (num : Nat) (h : Memory.wf s.mem = true) :
    Memory.wf (permitsWritten s num).mem = true := by
  unfold permitsWritten
  dsimp only
  split
  all_goals simp [h]

@[simp] theorem execPermitsWritten_inv (num : Nat) (s : State) (h : Memory.wf s.mem = true) :
    Always State.Inv (execPermitsWritten num s) := by
  simp [execPermitsWritten, h]

@[simp] theorem logPatch_mem (s : State) (p : Patch) :
    (logPatch s p).mem = s.mem := by
  simp [logPatch]

@[simp] theorem patchEnd_mem (s : State) (p : Patch) (outcome : Nat) (log : Bool) :
    (patchEnd s p outcome log).mem = s.mem := by
  simp [patchEnd]

@[simp] theorem patchTPassed_mem (s : State) (num : Nat) :
    (patchTPassed s num).mem = s.mem := by
  unfold patchTPassed
  split
  all_goals simp

@[simp] theorem execPatchTPassed_inv (num : Nat) (s : State) (h : Memory.wf s.mem = true) :
    Always State.Inv (execPatchTPassed num s) := by
  simp [execPatchTPassed, h]

@[simp] theorem loadAbort_mem (s : State) :
    (loadAbort s).mem = s.mem := by
  unfold loadAbort
  extract_lets st
  split
  · simp
  · split
    · split
      all_goals simp
    · simp

@[simp] theorem execPatLoadAbort_inv (s : State) (h : Memory.wf s.mem = true) :
    Always State.Inv (execPatLoadAbort s) := by
  simp [execPatLoadAbort, h]

end Sys2Proof.Machine
end

section
/-! SUPPORT. Memory under the operations of Machine/Fec.lean: `_mem` where it is left alone, `_memwf` and `_inv` where it stays canonical. -/

namespace Sys2Proof.Machine

@[simp] theorem fillGroup_mem (s : State) (x : Stl) :
    (fillGroup s x).2.mem = s.mem := by
  unfold fillGroup
  split
  all_goals simp

@[simp] theorem encodeFrame_mem (s : State) (x : Stl) (f : StFrame) :
    (encodeFrame s x f).2.mem = s.mem := by
  unfold encodeFrame
  split
  all_goals simp

end Sys2Proof.Machine
end

section
/-! SUPPORT. Memory under the operations of Machine/Stitch.lean: `_mem` where it is left alone, `_memwf` and `_inv` where it stays canonical. -/

namespace Sys2Proof.Machine

@[simp] theorem onPort_inv (s : State) (d : Nat) {t : State} (ht : Memory.wf t.mem = true) : Always State.Inv (onPort s d t) := by
  simp [onPort, ht]

@[simp] theorem suspectNotice_mem (s : State) (d : Nat) :
    (suspectNotice s d).mem = s.mem :=
  (rfl)

@[simp] theorem discardPort_mem (s : State) (d : Nat) :
    (discardPort s d).mem = s.mem := by
  simp [discardPort]

@[simp] theorem portFence_mem (s : State) (d reason : Nat) (announce : Bool) :
    (portFence s d reason announce).mem = s.mem := by
  simp [portFence]

@[simp] theorem portFail_mem (s : State) (d : Nat) :
    (portFail s d).mem = s.mem := by
  simp [portFail]

@[simp] theorem portRetrain_mem (s : State) (d : Nat) :
    (portRetrain s d).mem = s.mem := by
  simp [portRetrain]

@[simp] theorem portDetect_mem (s : State) (d : Nat) :
    (portDetect s d).mem = s.mem := by
  simp [portDetect]

@[simp] theorem portStart_mem (s : State) (d : Nat) :
    (portStart s d).mem = s.mem := by
  simp [portStart]

@[simp] theorem execStlCtlFence_inv (d : Nat) (s : State) (h : Memory.wf s.mem = true) :
    Always State.Inv (execStlCtlFence d s) := by
  simp [execStlCtlFence, h]

@[simp] theorem portRetrainCtl_mem (s : State) (d : Nat) :
    (portRetrainCtl s d).mem = s.mem := by
  simp [portRetrainCtl]

@[simp] theorem execStlCtlRetrain_inv (d : Nat) (s : State) (h : Memory.wf s.mem = true) :
    Always State.Inv (execStlCtlRetrain d s) := by
  simp [execStlCtlRetrain, h]

@[simp] theorem execPortRetrainRetry_inv (d : Nat) (s : State) (h : Memory.wf s.mem = true) :
    Always State.Inv (execPortRetrainRetry d s) := by
  simp [execPortRetrainRetry, h]

@[simp] theorem execPmaSignalDetect_inv (d lanes : Nat) (s : State) (h : Memory.wf s.mem = true) :
    Always State.Inv (execPmaSignalDetect d lanes s) := by
  simp [execPmaSignalDetect, h]

@[simp] theorem spareLane_mem (s : State) (d logical : Nat) :
    (spareLane s d logical).mem = s.mem := by
  unfold spareLane
  split
  all_goals simp

@[simp] theorem pmaLock_mem (s : State) (d lanes : Nat) :
    (pmaLock s d lanes).mem = s.mem := by
  simp [pmaLock]

@[simp] theorem execPmaLock_inv (d lanes : Nat) (s : State) (h : Memory.wf s.mem = true) :
    Always State.Inv (execPmaLock d lanes s) := by
  simp [execPmaLock, h]

@[simp] theorem execAlignmentLock_inv (d group : Nat) (s : State) (h : Memory.wf s.mem = true) :
    Always State.Inv (execAlignmentLock d group s) := by
  simp [execAlignmentLock, h]

@[simp] theorem execDetectTimeout_inv (d : Nat) (s : State) (h : Memory.wf s.mem = true) :
    Always State.Inv (execDetectTimeout d s) := by
  simp [execDetectTimeout, h]

@[simp] theorem execEqualiseTimeout_inv (d : Nat) (s : State) (h : Memory.wf s.mem = true) :
    Always State.Inv (execEqualiseTimeout d s) := by
  simp [execEqualiseTimeout, h]

@[simp] theorem execAlignTimeout_inv (d : Nat) (s : State) (h : Memory.wf s.mem = true) :
    Always State.Inv (execAlignTimeout d s) := by
  simp [execAlignTimeout, h]

@[simp] theorem execRetrainTimeout_inv (d : Nat) (s : State) (h : Memory.wf s.mem = true) :
    Always State.Inv (execRetrainTimeout d s) := by
  simp [execRetrainTimeout, h]

@[simp] theorem execFecLockLoss_inv (d : Nat) (s : State) (h : Memory.wf s.mem = true) :
    Always State.Inv (execFecLockLoss d s) := by
  simp [execFecLockLoss, h]

@[simp] theorem execNoFrameTimeout_inv (d : Nat) (s : State) (h : Memory.wf s.mem = true) :
    Always State.Inv (execNoFrameTimeout d s) := by
  simp [execNoFrameTimeout, h]

@[simp] theorem takeNak_mem (s : State) (d : Nat) :
    (takeNak s d).mem = s.mem := by
  simp [takeNak]

@[simp] theorem frameTake_mem (s : State) (d : Nat) (r : StRx) :
    (frameTake s d r).1.mem = s.mem := by
  unfold frameTake
  dsimp only
  split
  all_goals simp

@[simp] theorem frameAt_inv {s : State} (d : Nat) (r : StRx) {act : State → State} (h : Memory.wf s.mem = true)
    (hact : ∀ t, Memory.wf t.mem = true → Memory.wf (act t).mem = true) : Always State.Inv (frameAt s d r act) := by
  unfold frameAt
  refine onPort_inv s d ?_
  split
  · exact h
  · dsimp only
    split
    · exact hact _ (by simp [h])
    · simp [h]

@[simp] theorem execIdleFrame_inv (d : Nat) (f : StRx) (s : State) (h : Memory.wf s.mem = true) :
    Always State.Inv (execIdleFrame d f s) := by
  simp [execIdleFrame, h]

@[simp] theorem dataFrame_mem (s : State) (d : Nat) (r : StRx) :
    (dataFrame s d r).mem = s.mem := by
  simp [dataFrame]

@[simp] theorem execDataFrame_inv (d : Nat) (f : StRx) (s : State) (h : Memory.wf s.mem = true) :
    Always State.Inv (execDataFrame d f s) := by
  simp [execDataFrame, h]

@[simp] theorem execFenceFrame_inv (d : Nat) (f : StRx) (s : State) (h : Memory.wf s.mem = true) :
    Always State.Inv (execFenceFrame d f s) := by
  simp [execFenceFrame, h]

@[simp] theorem execLaneRequest_inv (d : Nat) (f : StRx) (s : State) (h : Memory.wf s.mem = true) :
    Always State.Inv (execLaneRequest d f s) := by
  simp [execLaneRequest, h]

@[simp] theorem execLaneAck_inv (d : Nat) (f : StRx) (s : State) (h : Memory.wf s.mem = true) :
    Always State.Inv (execLaneAck d f s) := by
  simp [execLaneAck, h]

@[simp] theorem moveLane_mem (s : State) (d : Nat) (m : LaneMove) :
    (moveLane s d m).mem = s.mem := by
  simp [moveLane]

@[simp] theorem switchGroup_mem (s : State) (d group : Nat) :
    (switchGroup s d group).mem = s.mem := by
  simp [switchGroup]

@[simp] theorem execSwitchGroupReached_inv (d group : Nat) (s : State) (h : Memory.wf s.mem = true) :
    Always State.Inv (execSwitchGroupReached d group s) := by
  simp [execSwitchGroupReached, h]

@[simp] theorem laneWindow_mem (s : State) (d : Nat) :
    (laneWindow s d).mem = s.mem := by
  simp [laneWindow]

@[simp] theorem execLaneErrorWindow_inv (d : Nat) (s : State) (h : Memory.wf s.mem = true) :
    Always State.Inv (execLaneErrorWindow d s) := by
  simp [execLaneErrorWindow, h]

@[simp] theorem setPeer_mem (s : State) (d : Nat) (v : BitVec 512) :
    (setPeer s d v).mem = s.mem := by
  simp [setPeer]

@[simp] theorem portUp_mem (s : State) (d : Nat) (v : BitVec 512) :
    (portUp s d v).mem = s.mem :=
  (rfl)

@[simp] theorem initFrame_mem (s : State) (d : Nat) (r : StRx) :
    (initFrame s d r).mem = s.mem := by
  simp [initFrame]

@[simp] theorem execInitFrame_inv (d : Nat) (f : StRx) (s : State) (h : Memory.wf s.mem = true) :
    Always State.Inv (execInitFrame d f s) := by
  unfold execInitFrame
  split
  all_goals simp [h]

@[simp] theorem execStitchTimeRequest_inv (d : Nat) (f : StRx) (s : State) (h : Memory.wf s.mem = true) :
    Always State.Inv (execStitchTimeRequest d f s) := by
  simp [execStitchTimeRequest, h]

@[simp] theorem execStitchTimeResponse_inv (d : Nat) (f : StRx) (s : State) (h : Memory.wf s.mem = true) :
    Always State.Inv (execStitchTimeResponse d f s) := by
  unfold execStitchTimeResponse
  refine frameAt_inv d f h fun t ht => ?_
  extract_lets v t1 t2 t3 r x s1
  have hs1 : Memory.wf s1.mem = true := by simp [s1, ht]
  split
  · exact ht
  · split
    · split
      · rwa [applyExchange_mem]
      · exact hs1
    · exact hs1

@[simp] theorem egressStep_mem (s : State) (d : Nat) (h : Hdr) (f : Flit) :
    (egressStep s d h f).2.mem = s.mem := by
  unfold egressStep
  dsimp only
  repeat' split
  all_goals simp

@[simp] theorem egressTake_inv (s : State) (d : Nat) (hd : Hdr) (f : Flit) (data : List DataUnit) (h : Memory.wf s.mem = true) :
    Always State.Inv (egressTake s d hd f data) := by
  unfold egressTake
  split
  · simp [h]
  · dsimp only
    split
    · simp [h]
    · split
      all_goals simp [h]

@[simp] theorem foldOut_inv {α : Type} {f : State → α → Out} {s : State} (hf : ∀ t a, Memory.wf t.mem = true → Always State.Inv (f t a))
    (l : List α) (h : Memory.wf s.mem = true) : Always State.Inv (foldOut f s l) := by
  induction l generalizing s with
  | nil => exact h
  | cons a l ih =>
    have ha := hf s a h
    unfold foldOut
    split
    · next t ht => exact ih (Always.of_eq ha ht)
    · exact ha

@[simp] theorem egressFill_inv (s : State) (d : Nat) (h : Memory.wf s.mem = true) :
    Always State.Inv (egressFill s d) := by
  unfold egressFill
  simp +contextual [h]

@[simp] theorem egressStart_mem (s : State) (d : Nat) :
    (egressStart s d).mem = s.mem := by
  unfold egressStart
  split
  all_goals simp

@[simp] theorem egressUnits_mem (n : Nat) (s : State) (d : Nat) : (egressUnits n s d).2.mem = s.mem := by
  induction n generalizing s with
  | zero => rfl
  | succ n ih =>
    have hstart : (if (s.stl d).cur.isSome then s else egressStart s d).mem = s.mem := by simp
    simp only [egressUnits]
    split
    · simp [ih, hstart]
    · exact hstart

@[simp] theorem putFrame_mem (s : State) (d : Nat) (f : StFrame) :
    (putFrame s d f).mem = s.mem := by
  simp [putFrame]

theorem ctlFrame_mem {s : State} {d : Nat} :
    ∀ t ∈ ctlFrame s d, t.mem = s.mem := by
  unfold ctlFrame
  extract_lets x
  split
  · simp
  · split
    all_goals simp

@[simp] theorem dataFrameOut_mem (s : State) (d : Nat) :
    (dataFrameOut s d).mem = s.mem := by
  simp [dataFrameOut]

@[simp] theorem frameOut_mem (s : State) (d : Nat) :
    (frameOut s d).mem = s.mem := by
  unfold frameOut
  extract_lets x st v
  split
  · simp
  · split
    · simp
    · split
      · simp
      · split
        · rename_i h3
          simp [ctlFrame_mem _ h3]
        · split
          all_goals simp

@[simp] theorem execFrameTransmit_inv (d : Nat) (s : State) (h : Memory.wf s.mem = true) : Always State.Inv (execFrameTransmit d s) := by
  have hfill := egressFill_inv s d h
  unfold execFrameTransmit
  split
  · trivial
  · generalize egressFill s d = o at hfill
    split
    · rw [always_next, State.inv_iff, frameOut_mem]
      exact hfill
    · exact hfill

@[simp] theorem ingressQueue_mem (s : State) (d : Nat) (p : Packet) (phase : Nat) (transit : BitVec 48) :
    (ingressQueue s d p phase transit).mem = s.mem :=
  (rfl)

@[simp] theorem cePath_mem (s : State) (d k : Nat) (p : Packet) :
    (cePath s d k p).mem = s.mem :=
  (rfl)

@[simp] theorem transitTo_mem (s : State) (d q : Nat) (p : Packet) (pos : PkgStep) :
    (transitTo s d q p pos).mem = s.mem := by
  simp [transitTo]

@[simp] theorem ingressArrive_inv (s : State) (d : Nat) (p : Packet) (h : Memory.wf s.mem = true) :
    Always State.Inv (ingressArrive s d p) := by
  unfold ingressArrive
  split
  · dsimp only
    split
    · simp
    · split
      · simp [h]
      · split
        all_goals simp [h]
  · dsimp only
    split
    · simp
    · split
      all_goals simp [h]

@[simp] theorem ingressRoute_inv (s : State) (d : Nat) (x : StPk) (h : Memory.wf s.mem = true) :
    Always State.Inv (ingressRoute s d x) := by
  unfold ingressRoute
  split
  · dsimp only
    split
    all_goals simp [h]
  · dsimp only
    split
    · simp [h]
    · split
      all_goals simp [h]

@[simp] theorem ingressForward_inv (s : State) (d : Nat) (h : Memory.wf s.mem = true) :
    Always State.Inv (ingressForward s d) := by
  unfold ingressForward
  extract_lets x
  split
  · simp [h]
  · dsimp only
    split
    · simp [h]
    · split
      all_goals simp [h]

@[simp] theorem execIngressForward_inv (d : Nat) (s : State) (h : Memory.wf s.mem = true) :
    Always State.Inv (execIngressForward d s) := by
  unfold execIngressForward
  split
  · simp
  · split
    all_goals simp [h]

@[simp] theorem spareTakeover_mem (s : State) (d : Nat) :
    (spareTakeover s d).mem = s.mem := by
  simp [spareTakeover]

end Sys2Proof.Machine
end

section
/-! SUPPORT. Memory under the operations of Machine/Verdict.lean: `_mem` where it is left alone, `_memwf` and `_inv` where it stays canonical. -/

namespace Sys2Proof.Machine

@[simp] theorem abortPart_memwf (s : State) (q : Nat) (h : Memory.wf s.mem = true) :
    Memory.wf (abortPart s q).mem = true := by
  unfold abortPart
  refine foldl_memwf _ (fun s b h => ?_) _ _ ?_
  · refine foldl_memwf _ (fun s b h => ?_) _ _ ?_
    · split
      all_goals simp [h]
    · simp [h]
  · simp [h]

@[simp] theorem mendEnter_memwf (s : State) (q cause : Nat) (h : Memory.wf s.mem = true) :
    Memory.wf (mendEnter s q cause).mem = true := by
  unfold mendEnter
  split
  all_goals simp [h]

@[simp] theorem mendCause_memwf (s : State) (d cause : Nat) (h : Memory.wf s.mem = true) :
    Memory.wf (mendCause s d cause).mem = true := by
  unfold mendCause
  split
  · split
    all_goals simp [h]
  · simp [h]

@[simp] theorem packageMend_memwf (s : State) (h : Memory.wf s.mem = true) :
    Memory.wf (packageMend s).mem = true := by
  unfold packageMend
  split
  · simp [h]
  · refine foldl_memwf _ (fun s b h => ?_) _ _ ?_
    · simp [h]
    · refine foldl_memwf _ (fun s b h => ?_) _ _ ?_
      · split
        all_goals simp [h]
      · simp [h]

@[simp] theorem tellCes_mem (s : State) (h : Hdr) :
    (tellCes s h).mem = s.mem := by
  simp [tellCes]

@[simp] theorem floodPorts_mem (s : State) (h : Hdr) :
    (floodPorts s h).mem = s.mem := by
  simp [floodPorts]

@[simp] theorem countVerdict_mem (s : State) :
    (countVerdict s).mem = s.mem := by
  simp [countVerdict]

@[simp] theorem nextVseq_mem (s : State) :
    (nextVseq s).mem = s.mem :=
  (rfl)

@[simp] theorem setDead_mem (s : State) (d : Nat) (v : Bool) :
    (setDead s d v).mem = s.mem := by
  simp [setDead]

@[simp] theorem mirrorLost_mem (s : State) :
    (mirrorLost s).mem = s.mem :=
  (rfl)

@[simp] theorem breakDie_mem (s : State) (d : Nat) :
    (breakDie s d).mem = s.mem := by
  simp [breakDie]

@[simp] theorem dieActions_memwf (s : State) (d : Nat) (h : Memory.wf s.mem = true) :
    Memory.wf (dieActions s d).mem = true := by
  unfold dieActions
  split
  all_goals simp [h]

@[simp] theorem unitActions_mem (s : State) (scope d unit : Nat) :
    (unitActions s scope d unit).mem = s.mem := by
  simp [unitActions]

@[simp] theorem verdict_memwf (s : State) (scope die unit : Nat) (h : Memory.wf s.mem = true) :
    Memory.wf (verdict s scope die unit).mem = true := by
  unfold verdict
  split
  · simp [h]
  · split
    all_goals simp [h]

@[simp] theorem moveHeadRegs_mem (s : State) (old new : Nat) :
    (moveHeadRegs s old new).mem = s.mem := by
  simp [moveHeadRegs]

@[simp] theorem moveWindows_memwf (s : State) (old new : Nat) (h : Memory.wf s.mem = true) :
    Memory.wf (moveWindows s old new).mem = true := by
  unfold moveWindows
  refine foldl_memwf _ (fun s b h => ?_) _ _ ?_
  · split
    · simp [h]
    · simp +contextual [h]
  · simp [h]

@[simp] theorem ledgerTakeover_mem (s : State) (old : Nat) :
    (ledgerTakeover s old).mem = s.mem := by
  unfold ledgerTakeover
  dsimp only
  split
  all_goals simp

@[simp] theorem timeTakeover_mem (s : State) (old new : Nat) :
    (timeTakeover s old new).mem = s.mem := by
  simp [timeTakeover]

@[simp] theorem rerunMends_mem (s : State) :
    (rerunMends s).mem = s.mem := by
  simp [rerunMends]

@[simp] theorem takeover_memwf (s : State) (h : Memory.wf s.mem = true) : Memory.wf (takeover s).mem = true := by
  have hw (d e : Nat) : Memory.wf (moveWindows (timeTakeover (moveHeadRegs s d e) d e) d e).mem = true := by simp [h]
  unfold takeover
  extract_lets old new cause s1 s2 s3 s4
  have hs1 : Memory.wf s1.mem = true := hw old new
  have hs2 : Memory.wf s2.mem = true := copySpace_wf _ _ hs1
  have hs3 : Memory.wf s3.mem = true := by simp [s3, hs2]
  have hs4 : Memory.wf s4.mem = true := by simp [s4, hs3]
  simp [hs4]

@[simp] theorem declareDie_memwf (s : State) (d : Nat) (h : Memory.wf s.mem = true) :
    Memory.wf (declareDie s d).mem = true := by
  simp [declareDie, h]

@[simp] theorem pkgActions_memwf (s : State) (q : Nat) (alive : Bool) (h : Memory.wf s.mem = true) :
    Memory.wf (pkgActions s q alive).mem = true := by
  unfold pkgActions
  split
  · simp [h]
  · split
    · split
      · dsimp only
        split
        all_goals simp [h]
      · dsimp only
        split
        all_goals simp [h]
    · split
      · dsimp only
        split
        all_goals simp [h]
      · dsimp only
        split
        all_goals simp [h]

@[simp] theorem pkgVerdict_memwf (s : State) (hd : Hdr) (h : Memory.wf s.mem = true) :
    Memory.wf (pkgVerdict s hd).mem = true := by
  simp [pkgVerdict, h]

@[simp] theorem declarePkg_memwf (s : State) (q : Nat) (alive : Bool) (h : Memory.wf s.mem = true) :
    Memory.wf (declarePkg s q alive).mem = true := by
  simp [declarePkg, h]

@[simp] theorem pkgVerdictTake_memwf (s : State) (hd : Hdr) (h : Memory.wf s.mem = true) :
    Memory.wf (pkgVerdictTake s hd).mem = true := by
  unfold pkgVerdictTake
  extract_lets key
  split
  all_goals simp [h]

@[simp] theorem toHead_mem (s : State) (d : Nat) (h : Hdr) :
    (toHead s d h).mem = s.mem :=
  (rfl)

@[simp] theorem ceVerdict_memwf (s : State) (d k : Nat) (hd : Hdr) (h : Memory.wf s.mem = true) :
    Memory.wf (ceVerdict s d k hd).mem = true := by
  unfold ceVerdict
  split
  all_goals simp [h]

@[simp] theorem execVerdict_inv (d att : Nat) (hd : Hdr) (s : State) (h : Memory.wf s.mem = true) :
    Always State.Inv (execVerdict d att hd s) := by
  unfold execVerdict
  refine headerChecked_inv d att _ h ?_
  split
  · trivial
  · split
    · refine arrive_inv d att _ _ h fun t ht => ?_
      split
      · next t1 ht1 => exact ceVerdict_memwf _ _ _ _ (by rwa [ceIngress_mem _ ht1])
      · rwa [meterDrop_mem]
    · split
      · refine arrive_inv d att _ _ h fun t ht => ?_
        split
        · split
          · exact pkgVerdictTake_memwf _ _ ht
          · exact ht
        · split
          · rwa [toHead_mem]
          · exact ht
      · trivial

@[simp] theorem suspectTake_memwf (s : State) (hd : Hdr) (h : Memory.wf s.mem = true) :
    Memory.wf (suspectTake s hd).mem = true := by
  unfold suspectTake
  dsimp only
  split
  · simp [h]
  · split
    all_goals simp [h]

@[simp] theorem execSuspect_inv (d att : Nat) (hd : Hdr) (s : State) (h : Memory.wf s.mem = true) :
    Always State.Inv (execSuspect d att hd s) := by
  unfold execSuspect
  refine headerChecked_inv d att _ h ?_
  split
  · trivial
  · split
    · trivial
    · refine arrive_inv d att _ _ h fun t ht => ?_
      split
      · exact suspectTake_memwf _ _ ht
      · exact ht

end Sys2Proof.Machine
end

section
/-! SUPPORT. Memory under the operations of Machine/Darn.lean: `_mem` where it is left alone, `_memwf` and `_inv` where it stays canonical. -/

namespace Sys2Proof.Machine

@[simp] theorem moveTile_mem (s : State) (d a b : Nat) :
    (moveTile s d a b).mem = s.mem := by
  simp [moveTile]

@[simp] theorem clearTile_mem (s : State) (d b : Nat) :
    (clearTile s d b).mem = s.mem := by
  simp [clearTile]

@[simp] theorem setLogical_mem (s : State) (d p : Nat) :
    (setLogical s d p).mem = s.mem := by
  unfold setLogical
  split
  all_goals simp

@[simp] theorem shiftTables_mem (s : State) (d row panel c : Nat) :
    (shiftTables s d row panel c).mem = s.mem := by
  simp [shiftTables]

@[simp] theorem freeScratch_memwf (s : State) (d p : Nat) (h : Memory.wf s.mem = true) :
    Memory.wf (freeScratch s d p).mem = true := by
  unfold freeScratch
  simp +contextual [h]

@[simp] theorem shiftScratch_memwf (s : State) (d row panel c : Nat) (h : Memory.wf s.mem = true) :
    Memory.wf (shiftScratch s d row panel c).mem = true :=
  freeScratch_memwf _ _ _ (foldl_wf _ (fun _ _ h => moveScratch_wf _ _ _ h) _ h)

@[simp] theorem withImage_mem (s : State) (im : PlImage) :
    (withImage s im).mem = s.mem :=
  (rfl)

@[simp] theorem replayStream_mem (s : State) (x : PStream) :
    (replayStream s x).mem = s.mem := by
  simp [replayStream]

@[simp] theorem replayLog_mem (s : State) :
    (replayLog s).mem = s.mem := by
  simp [replayLog]

@[simp] theorem liftHem_mem (s : State) (d : Nat) (seg keep : List Nat) :
    (liftHem s d seg keep).mem = s.mem := by
  simp [liftHem]

@[simp] theorem setDarnState_mem (s : State) (d st : Nat) :
    (setDarnState s d st).mem = s.mem :=
  (rfl)

@[simp] theorem segRevive_mem (s : State) (d : Nat) (j : DarnJob) (keep : List Nat) :
    (segRevive s d j keep).mem = s.mem :=
  (rfl)

@[simp] theorem darnEnd_mem (s : State) (d result : Nat) :
    (darnEnd s d result).mem = s.mem := by
  simp [darnEnd]

@[simp] theorem darnGiveUp_mem (s : State) (d : Nat) (j : DarnJob) (keep : List Nat) (result : Nat) :
    (darnGiveUp s d j keep result).mem = s.mem := by
  simp [darnGiveUp]

@[simp] theorem darnPost_mem (s : State) (d : Nat) (j : DarnJob) :
    (darnPost s d j).mem = s.mem := by
  simp [darnPost]

@[simp] theorem darnGo_mem (s : State) (d : Nat) (j : DarnJob) :
    (darnGo s d j).mem = s.mem := by
  unfold darnGo
  extract_lets __src
  split
  · simp
  · split
    all_goals simp

@[simp] theorem darnHold_memwf (s : State) (d p : Nat) (h : Memory.wf s.mem = true) : Memory.wf (darnHold s d p).mem = true := by
  unfold darnHold
  rw [darnGo_mem]
  refine foldl_memwf _ (fun s r h => ?_) _ _ ?_
  · split
    · exact verdict_memwf _ _ _ _ h
    · exact h
  · simp [h]

@[simp] theorem darnTake_memwf (s : State) (d p : Nat) (h : Memory.wf s.mem = true) :
    Memory.wf (darnTake s d p).mem = true := by
  simp [darnTake, h]

@[simp] theorem darnNext_memwf (n : Nat) (s : State) (d : Nat) (h : Memory.wf s.mem = true) : Memory.wf (darnNext n s d).mem = true := by
  induction n generalizing s with
  | zero => exact h
  | succ n ih =>
    unfold darnNext
    dsimp only
    split
    · split
      · exact h
      · exact ih _ (by simp [h])
    · exact h

@[simp] theorem darnRun_memwf (s : State) (d : Nat) (h : Memory.wf s.mem = true) :
    Memory.wf (darnRun s d).mem = true := by
  simp [darnRun, h]

@[simp] theorem darnMeets_memwf (s : State) (d p : Nat) (h : Memory.wf s.mem = true) :
    Memory.wf (darnMeets s d p).mem = true := by
  unfold darnMeets
  extract_lets st
  split
  · simp [h]
  · split
    · split
      all_goals simp [h]
    · simp [h]

@[simp] theorem tileFail_memwf (s : State) (d p : Nat) (h : Memory.wf s.mem = true) :
    Memory.wf (tileFail s d p).mem = true := by
  unfold tileFail
  dsimp only
  split
  all_goals simp [h]

@[simp] theorem twinCopy_memwf (s : State) (d k q : Nat) (w : Word) (h : Memory.wf s.mem = true) :
    Memory.wf (twinCopy s d k q w).mem = true := by
  unfold twinCopy
  simp +contextual [h]

@[simp] theorem twinReadComplete_memwf (s : State) (d : Nat) (ok : Bool) (h : Memory.wf s.mem = true) :
    Memory.wf (twinReadComplete s d ok).mem = true := by
  unfold twinReadComplete
  split
  · simp [h]
  · split
    · simp [h]
    · split
      all_goals simp [h]

@[simp] theorem execTwinReadComplete_inv (d : Nat) (ok : Bool) (s : State) (h : Memory.wf s.mem = true) :
    Always State.Inv (execTwinReadComplete d ok s) := by
  simp [execTwinReadComplete, h]

@[simp] theorem shiftStart_mem (s : State) (d : Nat) (j : DarnJob) :
    (shiftStart s d j).mem = s.mem := by
  simp [shiftStart]

@[simp] theorem twinWrite_memwf (s : State) (d : Nat) (j : DarnJob) (h : Memory.wf s.mem = true) :
    Memory.wf (twinWrite s d j).mem = true := by
  unfold twinWrite
  split
  all_goals simp [h]

@[simp] theorem shiftComplete_memwf (s : State) (d : Nat) (h : Memory.wf s.mem = true) :
    Memory.wf (shiftComplete s d).mem = true := by
  unfold shiftComplete
  split
  all_goals simp [h]

@[simp] theorem execShiftComplete_inv (d : Nat) (s : State) (h : Memory.wf s.mem = true) :
    Always State.Inv (execShiftComplete d s) := by
  simp [execShiftComplete, h]

@[simp] theorem darnApplied_memwf (s0 s : State) (d : Nat) (h : Memory.wf s.mem = true) : Memory.wf (darnApplied s0 s d).mem = true := by
  unfold darnApplied
  split
  · exact h
  · extract_lets st
    split
    · rwa [shiftStart_mem]
    · split
      · exact darnRun_memwf _ _ (by simp [h])
      · exact h

@[simp] theorem applyDue_memwf (s : State) (d : Nat) (h : Memory.wf s.mem = true) :
    Memory.wf (applyDue s d).mem = true := by
  simp [applyDue, h]

@[simp] theorem execCommitApply_inv (d : Nat) (s : State) (h : Memory.wf s.mem = true) :
    Always State.Inv (execCommitApply d s) := by
  unfold execCommitApply
  split
  all_goals simp [h]

@[simp] theorem darnPatchEnded_memwf (s : State) (num outcome : Nat) (h : Memory.wf s.mem = true) :
    Memory.wf (darnPatchEnded s num outcome).mem = true := by
  unfold darnPatchEnded
  refine foldl_memwf _ (fun s b h => ?_) _ _ ?_
  · split
    all_goals simp [h]
  · simp [h]

@[simp] theorem darnDiscard_mem (s : State) (d : Nat) :
    (darnDiscard s d).mem = s.mem :=
  (rfl)

@[simp] theorem darnResume_memwf (s : State) (h : Memory.wf s.mem = true) :
    Memory.wf (darnResume s).mem = true := by
  unfold darnResume
  refine foldl_memwf _ (fun s b h => ?_) _ _ ?_
  · split
    all_goals simp [h]
  · simp [h]

end Sys2Proof.Machine
end

section
/-! SUPPORT. Memory under the operations of Machine/Health.lean: `_mem` where it is left alone, `_memwf` and `_inv` where it stays canonical. -/

namespace Sys2Proof.Machine

@[simp] theorem secWindowEnd_mem (s : State) (d p i : Nat) :
    (secWindowEnd s d p i).mem = s.mem := by
  simp [secWindowEnd]

@[simp] theorem execLinkSecWindowEnd_inv (d p i : Nat) (s : State) (h : Memory.wf s.mem = true) :
    Always State.Inv (execLinkSecWindowEnd d p i s) := by
  simp [execLinkSecWindowEnd, h]

@[simp] theorem probePacket_mem (s : State) (d o n : Nat) (seed : Word) :
    (probePacket s d o n seed).2.mem = s.mem :=
  (rfl)

@[simp] theorem putProbe_mem (s : State) (k : Nat) (pk : Packet) :
    (putProbe s k pk).mem = s.mem :=
  (rfl)

@[simp] theorem probeSend_mem (s : State) (d p len : Nat) (seed : Word) :
    (probeSend s d p len seed).mem = s.mem := by
  unfold probeSend
  split
  all_goals simp

@[simp] theorem execProbeSend_inv (d p len : Nat) (seed : Word) (s : State) (h : Memory.wf s.mem = true) :
    Always State.Inv (execProbeSend d p len seed s) := by
  simp [execProbeSend, h]

@[simp] theorem probeSecond_memwf (s : State) (d p o : Nat) (h : Memory.wf s.mem = true) :
    Memory.wf (probeSecond s d p o).mem = true := by
  simp [probeSecond, h]

@[simp] theorem probeFail_memwf (s : State) (d p : Nat) (h : Memory.wf s.mem = true) :
    Memory.wf (probeFail s d p).mem = true := by
  unfold probeFail
  dsimp only
  split
  all_goals simp [h]

@[simp] theorem probeBack_mem (s : State) (k : Nat) (pk : Packet) :
    (probeBack s k pk).mem = s.mem :=
  (rfl)

@[simp] theorem probeReturn_memwf (s : State) (d p i : Nat) (pk : Packet) (h : Memory.wf s.mem = true) :
    Memory.wf (probeReturn s d p i pk).mem = true := by
  unfold probeReturn
  extract_lets x
  split
  all_goals simp [h]

@[simp] theorem execProbe_inv (d p i : Nat) (pk : Packet) (s : State) (h : Memory.wf s.mem = true) :
    Always State.Inv (execProbe d p i pk s) := by
  unfold execProbe
  split
  · simp
  · split
    · simp
    · split
      · split
        · dsimp only
          split
          · simp [h]
          · split
            all_goals simp [h]
        · dsimp only
          split
          · simp [h]
          · split
            · simp [h]
            · split
              all_goals simp [h]
      · split
        · dsimp only
          split
          · split
            all_goals simp [h]
          · split
            all_goals simp [h]
        · dsimp only
          split
          · split
            all_goals simp [h]
          · split
            all_goals simp [h]

@[simp] theorem execProbeTimeout_inv (d p : Nat) (s : State) (h : Memory.wf s.mem = true) :
    Always State.Inv (execProbeTimeout d p s) := by
  unfold execProbeTimeout
  split
  all_goals simp [h]

@[simp] theorem execProbeRepeat_inv (d p : Nat) (s : State) (h : Memory.wf s.mem = true) :
    Always State.Inv (execProbeRepeat d p s) := by
  unfold execProbeRepeat
  extract_lets x
  split
  all_goals simp [h]

@[simp] theorem restoreEntry_mem (s : State) (d : Nat) (ws : List Word) :
    (restoreEntry s d ws).mem = s.mem := by
  simp [restoreEntry]

@[simp] theorem scrubDouble_memwf (s : State) (d : Nat) (x : ScrubAt) (h : Memory.wf s.mem = true) :
    Memory.wf (scrubDouble s d x).mem = true := by
  unfold scrubDouble
  split
  · simp [h]
  · simp [h]
  · simp [h]
  · extract_lets g
    split
    · simp [h]
    · split
      all_goals simp [h]
  · simp [h]

@[simp] theorem execScrubWord_inv (d : Nat) (at' : ScrubAt) (err : WordErr) (s : State) (h : Memory.wf s.mem = true) :
    Always State.Inv (execScrubWord d at' err s) := by
  unfold execScrubWord
  split
  · simp [h]
  · split
    all_goals simp [h]

@[simp] theorem execWearRotation_inv (d : Nat) (s : State) (h : Memory.wf s.mem = true) :
    Always State.Inv (execWearRotation d s) := by
  simp [execWearRotation, h]

@[simp] theorem lostRec_mem (s : State) (d e : Nat) :
    (lostRec s d e).mem = s.mem := by
  simp [lostRec]

@[simp] theorem execInterimRoutePatch_inv (d : Nat) (s : State) (h : Memory.wf s.mem = true) :
    Always State.Inv (execInterimRoutePatch d s) := by
  simp [execInterimRoutePatch, h]

@[simp] theorem execTelemetrySend_inv (d temp : Nat) (s : State) (h : Memory.wf s.mem = true) :
    Always State.Inv (execTelemetrySend d temp s) := by
  simp [execTelemetrySend, h]

@[simp] theorem execHeartbeatSend_inv (d : Nat) (s : State) (h : Memory.wf s.mem = true) :
    Always State.Inv (execHeartbeatSend d s) := by
  simp [execHeartbeatSend, h]

@[simp] theorem hbTake_mem (s : State) (d x now seq : Nat) :
    (hbTake s d x now seq).mem = s.mem :=
  (rfl)

@[simp] theorem execDieHeartbeat_inv (d att : Nat) (hd : Hdr) (s : State) (h : Memory.wf s.mem = true) :
    Always State.Inv (execDieHeartbeat d att hd s) := by
  unfold execDieHeartbeat
  split
  · simp [h]
  · split
    all_goals simp [h]

@[simp] theorem hbMissed_memwf (s : State) (d x miss : Nat) (h : Memory.wf s.mem = true) : Memory.wf (hbMissed s d x miss).mem = true := by
  unfold hbMissed
  extract_lets s1 s2
  have hs1 : Memory.wf s1.mem = true := by simp [s1, h]
  split
  · exact hs1
  · have hs2 : Memory.wf s2.mem = true := declareDie_memwf _ _ (by simp [hs1])
    split
    · exact hs2
    · exact darnResume_memwf _ hs2

@[simp] theorem execHeartbeatMiss_inv (d x : Nat) (s : State) (h : Memory.wf s.mem = true) :
    Always State.Inv (execHeartbeatMiss d x s) := by
  simp [execHeartbeatMiss, h]

@[simp] theorem execPackageHeartbeatSend_inv (s : State) (h : Memory.wf s.mem = true) :
    Always State.Inv (execPackageHeartbeatSend s) := by
  simp [execPackageHeartbeatSend, h]

@[simp] theorem toRoot_mem (s : State) (d : Nat) (h : Hdr) :
    (toRoot s d h).mem = s.mem :=
  (rfl)

@[simp] theorem execPackageHeartbeat_inv (d att : Nat) (hd : Hdr) (s : State) (h : Memory.wf s.mem = true) :
    Always State.Inv (execPackageHeartbeat d att hd s) := by
  unfold execPackageHeartbeat
  refine headerChecked_inv d att _ h ?_
  split
  · trivial
  · split
    · trivial
    · refine arrive_inv d att _ _ h fun t ht => ?_
      extract_lets dead s1
      have hs1 : s1.mem = t.mem := by simp [s1]
      split
      · split
        · rwa [toRoot_mem, hs1]
        · rwa [hs1]
      · split
        · exact declarePkg_memwf _ _ _ ht
        · exact ht

@[simp] theorem execPackageHeartbeatMiss_inv (d : Nat) (s : State) (h : Memory.wf s.mem = true) :
    Always State.Inv (execPackageHeartbeatMiss d s) := by
  simp [execPackageHeartbeatMiss, h]

@[simp] theorem fencePanel_mem (s : State) (d panel : Nat) :
    (fencePanel s d panel).mem = s.mem := by
  simp [fencePanel]

@[simp] theorem execClkFault_inv (d panel : Nat) (s : State) (h : Memory.wf s.mem = true) :
    Always State.Inv (execClkFault d panel s) := by
  simp [execClkFault, h]

end Sys2Proof.Machine
end

section
/-! SUPPORT. Memory under the operations of Machine/Mend.lean: `_mem` where it is left alone, `_memwf` and `_inv` where it stays canonical. -/

namespace Sys2Proof.Machine

@[simp] theorem stallThreshold_mem (s : State) (d kind unit port : Nat) :
    (stallThreshold s d kind unit port).mem = s.mem := by
  simp [stallThreshold]

@[simp] theorem execStallThreshold_inv (d kind unit port : Nat) (s : State) (h : Memory.wf s.mem = true) :
    Always State.Inv (execStallThreshold d kind unit port s) := by
  simp [execStallThreshold, h]

@[simp] theorem stallEscalate_memwf (s : State) (d : Nat) (x : Stall) (h : Memory.wf s.mem = true) :
    Memory.wf (stallEscalate s d x).mem = true := by
  unfold stallEscalate
  split
  all_goals simp [h]

@[simp] theorem execStallEscalate_inv (d kind unit port : Nat) (s : State) (h : Memory.wf s.mem = true) :
    Always State.Inv (execStallEscalate d kind unit port s) := by
  unfold execStallEscalate
  split
  · simp [h]
  · split
    · simp [h]
    · split
      · simp [h]
      · split
        all_goals simp [h]

@[simp] theorem execTailorWatchdog_inv (d : Nat) (s : State) (h : Memory.wf s.mem = true) :
    Always State.Inv (execTailorWatchdog d s) := by
  simp [execTailorWatchdog, h]

@[simp] theorem execMndTailorKick_inv (d : Nat) (s : State) (h : Memory.wf s.mem = true) :
    Always State.Inv (execMndTailorKick d s) := by
  simp [execMndTailorKick, h]

@[simp] theorem partMend_memwf (s : State) (q : Nat) (h : Memory.wf s.mem = true) :
    Memory.wf (partMend s q).mem = true := by
  unfold partMend
  split
  · simp [h]
  · split
    · simp [h]
    · split
      all_goals simp [h]

@[simp] theorem execMndPartCtlMend_inv (q : Nat) (s : State) (h : Memory.wf s.mem = true) :
    Always State.Inv (execMndPartCtlMend q s) := by
  simp [execMndPartCtlMend, h]

@[simp] theorem execMndPartCtlAll_inv (s : State) (h : Memory.wf s.mem = true) :
    Always State.Inv (execMndPartCtlAll s) := by
  simp [execMndPartCtlAll, h]

@[simp] theorem setStep_mem (s : State) (q n : Nat) :
    (setStep s q n).mem = s.mem :=
  (rfl)

@[simp] theorem isolateDie_mem (s : State) (q d : Nat) :
    (isolateDie s q d).mem = s.mem := by
  simp [isolateDie]

@[simp] theorem breakPart_mem (s : State) (q : Nat) :
    (breakPart s q).mem = s.mem := by
  simp [breakPart]

@[simp] theorem execMendIsolate_inv (q : Nat) (s : State) (h : Memory.wf s.mem = true) :
    Always State.Inv (execMendIsolate q s) := by
  simp [execMendIsolate, h]

@[simp] theorem emptyDie_mem (s : State) (d : Nat) :
    (emptyDie s d).mem = s.mem :=
  (rfl)

@[simp] theorem flushDie_mem (s : State) (d : Nat) :
    (flushDie s d).mem = s.mem := by
  simp [flushDie]

@[simp] theorem dumpHeader_memwf (s : State) (q : Nat) (complete : Bool) (h : Memory.wf s.mem = true) :
    Memory.wf (dumpHeader s q complete).mem = true := by
  simp [dumpHeader, h]

@[simp] theorem dumpStatus_memwf (s : State) (q : Nat) (h : Memory.wf s.mem = true) :
    Memory.wf (dumpStatus s q).mem = true := by
  simp [dumpStatus, h]

@[simp] theorem dumpFinish_memwf (s : State) (q : Nat) (h : Memory.wf s.mem = true) :
    Memory.wf (dumpFinish s q).mem = true := by
  unfold dumpFinish
  extract_lets x
  split
  all_goals simp [h]

@[simp] theorem setStatus_memwf (s : State) (q e n : Nat) (h : Memory.wf s.mem = true) :
    Memory.wf (setStatus s q e n).mem = true := by
  simp [setStatus, h]

theorem dumpStart_fresh {s : State} {q : Nat} (hnew : ¬ dumpHeld s q = true) :
    ∃ x, dumpStart s q = dumpFinish (dumpHeader (dumpStatus (s.setDump q x) q) q false) q := ⟨_, if_neg hnew⟩
@[simp] theorem dumpStart_memwf (s : State) (q : Nat) (h : Memory.wf s.mem = true) : Memory.wf (dumpStart s q).mem = true := by
  by_cases hheld : dumpHeld s q = true
  · rw [dumpStart, if_pos hheld]
    exact h
  · obtain ⟨x, hx⟩ := dumpStart_fresh hheld
    rw [hx]
    exact dumpFinish_memwf _ _ (dumpHeader_memwf _ _ _ (dumpStatus_memwf _ _ h))

@[simp] theorem execMendFlush_inv (q : Nat) (s : State) (h : Memory.wf s.mem = true) :
    Always State.Inv (execMendFlush q s) := by
  simp [execMendFlush, h]

@[simp] theorem setJob_mem (s : State) (q d : Nat) (j : Option DumpJob) :
    (setJob s q d j).mem = s.mem :=
  (rfl)

@[simp] theorem dumpWrite_mem (s : State) (q d : Nat) (j : DumpJob) (i : Nat) (again : Bool) :
    (dumpWrite s q d j i again).mem = s.mem :=
  (rfl)

@[simp] theorem dumpStep_memwf (s : State) (q d : Nat) (h : Memory.wf s.mem = true) :
    Memory.wf (dumpStep s q d).mem = true := by
  unfold dumpStep
  split
  · simp [h]
  · split
    · simp [h]
    · extract_lets x
      split
      · simp [h]
      · split
        all_goals simp [h]

@[simp] theorem onDump_inv {s : State} (d : Nat) {f : Nat → State} (h : Memory.wf s.mem = true) (hf : ∀ q, Memory.wf (f q).mem = true) :
    Always State.Inv (onDump s d f) := by
  unfold onDump
  split
  · simp [hf]
  · simp [h]

@[simp] theorem execDumpEntry_inv (d : Nat) (s : State) (h : Memory.wf s.mem = true) :
    Always State.Inv (execDumpEntry d s) := by
  simp [execDumpEntry, h]

@[simp] theorem execDumpReadTimeout_inv (d : Nat) (s : State) (h : Memory.wf s.mem = true) :
    Always State.Inv (execDumpReadTimeout d s) := by
  unfold execDumpReadTimeout
  refine onDump_inv d h fun q => ?_
  split
  · split
    · split
      · exact h
      · refine memwf_of_eq (u := setStatus ((setJob s q d none).setDump q _) q _ 1) rfl (setStatus_memwf _ _ _ _ ?_)
        rwa [State.setDump_mem, setJob_mem]
    · exact h
  · exact h

@[simp] theorem dumpFailed_memwf (s : State) (q d : Nat) (j : DumpJob) (h : Memory.wf s.mem = true) :
    Memory.wf (dumpFailed s q d j).mem = true := by
  unfold dumpFailed
  split
  · simp [h]
  · split
    all_goals simp [h]

@[simp] theorem execDumpWriteTimeout_inv (d : Nat) (s : State) (h : Memory.wf s.mem = true) :
    Always State.Inv (execDumpWriteTimeout d s) := by
  unfold execDumpWriteTimeout
  refine onDump_inv d h fun q => ?_
  split
  · split
    · exact dumpFailed_memwf _ _ _ _ h
    · exact h
  · exact h

@[simp] theorem dumpAck_memwf (s : State) (d : Nat) (hd : Hdr) (h : Memory.wf s.mem = true) :
    Memory.wf (dumpAck s d hd).mem = true := by
  unfold dumpAck
  split
  · simp [h]
  · split
    · simp [h]
    · split
      · simp [h]
      · split
        · simp [h]
        · split
          all_goals simp [h]

@[simp] theorem execDumpEngineTimeout_inv (q : Nat) (s : State) (h : Memory.wf s.mem = true) :
    Always State.Inv (execDumpEngineTimeout q s) := by
  unfold execDumpEngineTimeout
  extract_lets x y
  split
  all_goals simp [h]

@[simp] theorem execMendDump_inv (q : Nat) (s : State) (h : Memory.wf s.mem = true) :
    Always State.Inv (execMendDump q s) := by
  simp [execMendDump, h]

@[simp] theorem resetReg_mem (s : State) (d off : Nat) :
    (resetReg s d off).mem = s.mem := by
  unfold resetReg
  split
  · simp
  · split
    all_goals simp

@[simp] theorem resetRegs_mem (s : State) (d : Nat) :
    (resetRegs s d).mem = s.mem := by
  simp [resetRegs]

@[simp] theorem resetSeams_mem (s : State) (d : Nat) :
    (resetSeams s d).mem = s.mem := by
  unfold resetSeams
  refine foldl_mem _ (fun s b => ?_) _ _
  split
  all_goals simp

@[simp] theorem resetDie_memwf (s : State) (d : Nat) (h : Memory.wf s.mem = true) :
    Memory.wf (resetDie s d).mem = true := by
  simp [resetDie, h]

@[simp] theorem restartPort_mem (s : State) (d : Nat) :
    (restartPort s d).mem = s.mem := by
  simp [restartPort]

@[simp] theorem execMendReset_inv (q : Nat) (s : State) (h : Memory.wf s.mem = true) : Always State.Inv (execMendReset q s) := by
  have hdies (l : List Nat) (t : State) (ht : Memory.wf t.mem = true) :
      Memory.wf (l.foldl (fun s d => resetDie s d) t).mem = true := foldl_memwf _ (fun s d h => resetDie_memwf s d h) l t ht
  unfold execMendReset
  refine onUnit_inv _ ?_
  split
  · exact h
  · extract_lets s1 s2
    have hs1 : Memory.wf s1.mem = true := hdies _ _ h
    have hs2 : Memory.wf s2.mem = true := by
      unfold s2
      split
      · exact foldl_memwf _ (fun s d h => by simp [h]) _ _ hs1
      · exact hs1
    exact hs2

@[simp] theorem execMendRetrain_inv (q : Nat) (s : State) (h : Memory.wf s.mem = true) :
    Always State.Inv (execMendRetrain q s) := by
  simp [execMendRetrain, h]

@[simp] theorem fenceFail_mem (s : State) (x : TestFail) :
    (fenceFail s x).mem = s.mem := by
  unfold fenceFail
  split
  all_goals simp

@[simp] theorem execMendTest_inv (q : Nat) (fails : List TestFail) (s : State) (h : Memory.wf s.mem = true) :
    Always State.Inv (execMendTest q fails s) := by
  simp [execMendTest, h]

@[simp] theorem darnStill_mem (r : State) (d p : Nat) :
    (darnStill r d p).mem = r.mem := by
  simp [darnStill]

@[simp] theorem restoreWant_mem (s : State) (q : Nat) : (restoreWant s q).mem = s.mem := by
  unfold restoreWant
  dsimp only
  rw [foldl_mem]
  · exact replayLog_mem s
  · intro s f
    split
    all_goals simp

@[simp] theorem buildRestore_mem (s : State) (q : Nat) :
    (buildRestore s q).mem = s.mem := by
  simp [buildRestore]

@[simp] theorem execMendRelock_inv (q : Nat) (s : State) (h : Memory.wf s.mem = true) :
    Always State.Inv (execMendRelock q s) := by
  simp [execMendRelock, h]

@[simp] theorem clearVerdicts_mem (s : State) (q : Nat) :
    (clearVerdicts s q).mem = s.mem := by
  simp [clearVerdicts]

@[simp] theorem restoreDone_mem (s : State) (q : Nat) :
    (restoreDone s q).mem = s.mem := by
  simp [restoreDone]

@[simp] theorem mendRestore_mem (s : State) (q : Nat) :
    (mendRestore s q).mem = s.mem := by
  unfold mendRestore
  split
  · simp
  · split
    · simp
    · split
      all_goals simp

@[simp] theorem execMendRestore_inv (q : Nat) (s : State) (h : Memory.wf s.mem = true) :
    Always State.Inv (execMendRestore q s) := by
  simp [execMendRestore, h]

@[simp] theorem patchCompletion_memwf (s : State) (num : Nat) (h : Memory.wf s.mem = true) :
    Memory.wf (patchCompletion s num).mem = true := by
  unfold patchCompletion
  split
  · simp [h]
  · split
    all_goals simp [h]

@[simp] theorem execPatchCompletionRead_inv (num : Nat) (s : State) (h : Memory.wf s.mem = true) :
    Always State.Inv (execPatchCompletionRead num s) := by
  simp [execPatchCompletionRead, h]

@[simp] theorem liftDie_mem (s : State) (d : Nat) : (liftDie s d).mem = s.mem := by
  unfold liftDie
  extract_lets s1 s2
  have hs2 : s2.mem = s.mem := by
    refine foldl_mem _ (fun s i => ?_) _ _
    split
    all_goals simp
  split
  · simp [hs2]
  · exact hs2

@[simp] theorem rejoinDie_mem (s : State) (d : Nat) :
    (rejoinDie s d).mem = s.mem := by
  simp [rejoinDie]

@[simp] theorem rejoin_mem (s : State) (q : Nat) :
    (rejoin s q).mem = s.mem := by
  simp [rejoin]

@[simp] theorem execMendRejoin_inv (q : Nat) (s : State) (h : Memory.wf s.mem = true) :
    Always State.Inv (execMendRejoin q s) := by
  simp [execMendRejoin, h]

end Sys2Proof.Machine
end

section
/-! SUPPORT. Memory under the operations of Machine/Stop.lean: `_mem` where it is left alone, `_memwf` and `_inv` where it stays canonical. -/

namespace Sys2Proof.Machine

@[simp] theorem haltRegion_mem (s : State) (d panel : Nat) :
    (haltRegion s d panel).mem = s.mem := by
  simp [haltRegion]

@[simp] theorem packageStopped_mem (s : State) :
    (packageStopped s).mem = s.mem := by
  simp [packageStopped]

@[simp] theorem armSlice_mem (s : State) (d : Nat) (t : Word) :
    (armSlice s d t).mem = s.mem := by
  simp [armSlice]

@[simp] theorem armAll_mem (s : State) (t : Word) :
    (armAll s t).mem = s.mem := by
  simp [armAll]

@[simp] theorem stopArm_mem (s : State) (d : Nat) :
    (stopArm s d).mem = s.mem := by
  simp [stopArm]

@[simp] theorem armBack_mem (s : State) (h : Hdr) :
    (armBack s h).mem = s.mem := by
  simp [armBack]

@[simp] theorem execMndStopArm_inv (d : Nat) (s : State) (h : Memory.wf s.mem = true) :
    Always State.Inv (execMndStopArm d s) := by
  simp [execMndStopArm, h]

@[simp] theorem disarm_mem (s : State) (d : Nat) :
    (disarm s d).mem = s.mem :=
  (rfl)

@[simp] theorem cancelAll_mem (s : State) :
    (cancelAll s).mem = s.mem := by
  simp [cancelAll]

@[simp] theorem stopCancel_mem (s : State) (d : Nat) :
    (stopCancel s d).mem = s.mem := by
  simp [stopCancel]

@[simp] theorem execMndStopCancel_inv (d : Nat) (s : State) (h : Memory.wf s.mem = true) :
    Always State.Inv (execMndStopCancel d s) := by
  simp [execMndStopCancel, h]

@[simp] theorem dueBefore_memwf (s : State) (d : Nat) (h : Memory.wf s.mem = true) :
    Memory.wf (dueBefore s d).mem = true := by
  simp [dueBefore, h]

@[simp] theorem execStopHalt_inv (d panel : Nat) (s : State) (h : Memory.wf s.mem = true) :
    Always State.Inv (execStopHalt d panel s) := by
  simp [execStopHalt, h]

@[simp] theorem execCatchWindowEnd_inv (d panel : Nat) (s : State) (h : Memory.wf s.mem = true) :
    Always State.Inv (execCatchWindowEnd d panel s) := by
  unfold execCatchWindowEnd
  split
  all_goals simp [h]

@[simp] theorem resumePort_mem (s : State) (d : Nat) :
    (resumePort s d).mem = s.mem := by
  simp [resumePort]

@[simp] theorem releaseSlice_mem (s : State) (d : Nat) :
    (releaseSlice s d).mem = s.mem := by
  simp [releaseSlice]

@[simp] theorem stopRelease_memwf (s : State) (h : Memory.wf s.mem = true) :
    Memory.wf (stopRelease s).mem = true := by
  unfold stopRelease
  split
  · simp [h]
  · simp +contextual [h]

@[simp] theorem execMndStopRelease_inv (s : State) (h : Memory.wf s.mem = true) :
    Always State.Inv (execMndStopRelease s) := by
  simp [execMndStopRelease, h]

end Sys2Proof.Machine
end

section
/-! SUPPORT. Memory under the operations of Machine/Boot.lean: `_mem` where it is left alone, `_memwf` and `_inv` where it stays canonical. -/

namespace Sys2Proof.Machine

@[simp] theorem onService_inv (s : State) (d : Nat) {t : State} (ht : Memory.wf t.mem = true) : Always State.Inv (onService s d t) := by
  simp [onService, ht]

@[simp] theorem setBoot_mem (s : State) (d n : Nat) :
    (setBoot s d n).mem = s.mem :=
  (rfl)

@[simp] theorem showOwner_mem (s : State) (d : Nat) :
    (showOwner s d).mem = s.mem := by
  simp [showOwner]

@[simp] theorem coldReset_memwf (s : State) (h : Memory.wf s.mem = true) :
    Memory.wf (coldReset s).mem = true := by
  simp [coldReset, h]

@[simp] theorem execColdReset_inv (d : Nat) (s : State) (h : Memory.wf s.mem = true) :
    Always State.Inv (execColdReset d s) := by
  simp [execColdReset, h]

@[simp] theorem zeroise_mem (s : State) (d : Nat) :
    (zeroise s d).mem = s.mem := by
  simp [zeroise]

@[simp] theorem clearWindow_memwf (s : State) (d : Nat) (h : Memory.wf s.mem = true) :
    Memory.wf (clearWindow s d).mem = true := by
  simp [clearWindow, h]

@[simp] theorem execBootResetRelease_inv (d : Nat) (primary : Bool) (s : State) (h : Memory.wf s.mem = true) :
    Always State.Inv (execBootResetRelease d primary s) := by
  unfold execBootResetRelease
  split
  all_goals simp [h]

@[simp] theorem execPcieLinkUp_inv (d : Nat) (s : State) (h : Memory.wf s.mem = true) :
    Always State.Inv (execPcieLinkUp d s) := by
  simp [execPcieLinkUp, h]

@[simp] theorem bootGo_mem (s : State) (d : Nat) :
    (bootGo s d).mem = s.mem := by
  simp [bootGo]

@[simp] theorem execBootGo_inv (d : Nat) (s : State) (h : Memory.wf s.mem = true) :
    Always State.Inv (execBootGo d s) := by
  simp [execBootGo, h]

@[simp] theorem loadHead_memwf (s : State) (d : Nat) (h : Memory.wf s.mem = true) :
    Memory.wf (loadHead s d).mem = true := by
  simp [loadHead, h]

@[simp] theorem bootVerified_memwf (s : State) (d : Nat) (h : Memory.wf s.mem = true) :
    Memory.wf (bootVerified s d).mem = true := by
  unfold bootVerified
  dsimp only
  split
  all_goals simp [h]

@[simp] theorem execBootVerifyDone_inv (d : Nat) (s : State) (h : Memory.wf s.mem = true) :
    Always State.Inv (execBootVerifyDone d s) := by
  unfold execBootVerifyDone
  split
  all_goals simp [h]

@[simp] theorem svnAdvance_mem (s : State) (d : Nat) :
    (svnAdvance s d).mem = s.mem := by
  simp [svnAdvance]

@[simp] theorem execSvnAdvance_inv (d : Nat) (s : State) (h : Memory.wf s.mem = true) :
    Always State.Inv (execSvnAdvance d s) := by
  simp [execSvnAdvance, h]

@[simp] theorem coverFail_mem (s : State) (f : TestFail) :
    (coverFail s f).mem = s.mem := by
  unfold coverFail
  split
  all_goals simp

@[simp] theorem startSeams_mem (s : State) :
    (startSeams s).mem = s.mem := by
  simp [startSeams]

@[simp] theorem testFailed_memwf (s : State) (h : Memory.wf s.mem = true) :
    Memory.wf (testFailed s).mem = true := by
  simp [testFailed, h]

@[simp] theorem testsDone_memwf (s0 : State) (fails : List TestFail) (h : Memory.wf s0.mem = true) :
    Memory.wf (testsDone s0 fails).mem = true := by
  unfold testsDone
  split
  · simp [h]
  · dsimp only
    split
    all_goals simp [h]

@[simp] theorem execBuiltinTestComplete_inv (fails : TestFails) (s : State) (h : Memory.wf s.mem = true) :
    Always State.Inv (execBuiltinTestComplete fails s) := by
  simp [execBuiltinTestComplete, h]

@[simp] theorem execMpTrainDone_inv (d : Nat) (s : State) (h : Memory.wf s.mem = true) :
    Always State.Inv (execMpTrainDone d s) := by
  simp [execMpTrainDone, h]

@[simp] theorem trainSpare_mem (s : State) (d : Nat) :
    (trainSpare s d).mem = s.mem := by
  unfold trainSpare
  split
  all_goals simp

@[simp] theorem trainDone_mem (s : State) :
    (trainDone s).mem = s.mem := by
  simp [trainDone]

@[simp] theorem execTrainComplete_inv (s : State) (h : Memory.wf s.mem = true) :
    Always State.Inv (execTrainComplete s) := by
  simp [execTrainComplete, h]

@[simp] theorem svcRequest_mem (s : State) :
    (svcRequest s).mem = s.mem := by
  simp [svcRequest]

@[simp] theorem execSvcRequest_inv (s : State) (h : Memory.wf s.mem = true) :
    Always State.Inv (execSvcRequest s) := by
  simp [execSvcRequest, h]

@[simp] theorem setSecState_mem (s : State) (d n : Nat) :
    (setSecState s d n).mem = s.mem := by
  simp [setSecState]

@[simp] theorem secResult_mem (s : State) (d n : Nat) :
    (secResult s d n).mem = s.mem :=
  (rfl)

@[simp] theorem provision_mem (s : State) (d : Nat) :
    (provision s d).mem = s.mem := by
  simp [provision]

@[simp] theorem execProvision_inv (d : Nat) (s : State) (h : Memory.wf s.mem = true) :
    Always State.Inv (execProvision d s) := by
  simp [execProvision, h]

@[simp] theorem takeStore_mem (s : State) (p : Store) (d : Nat) :
    (takeStore s p d).mem = s.mem := by
  simp [takeStore]

@[simp] theorem setDebugStep_mem (s : State) (n : Nat) :
    (setDebugStep s n).mem = s.mem := by
  simp [setDebugStep]

@[simp] theorem openRequest_mem (s0 : State) (src : Nat) :
    (openRequest s0 src).mem = s0.mem := by
  simp [openRequest]

@[simp] theorem execDebugOpen_inv (d : Nat) (s : State) (h : Memory.wf s.mem = true) :
    Always State.Inv (execDebugOpen d s) := by
  simp [execDebugOpen, h]

@[simp] theorem execDbgOpenReq_inv (d : Nat) (s : State) (h : Memory.wf s.mem = true) :
    Always State.Inv (execDbgOpenReq d s) := by
  simp [execDbgOpenReq, h]

@[simp] theorem provisionDone_mem (s : State) (d : Nat) (ok : Bool) :
    (provisionDone s d ok).mem = s.mem := by
  unfold provisionDone
  repeat' split
  all_goals simp

@[simp] theorem execProvisionDone_inv (d : Nat) (ok : Bool) (s : State) (h : Memory.wf s.mem = true) :
    Always State.Inv (execProvisionDone d ok s) := by
  simp [execProvisionDone, h]

@[simp] theorem erasing_mem (s : State) :
    (erasing s).mem = s.mem := by
  simp [erasing]

@[simp] theorem erase_mem (s : State) :
    (erase s).mem = s.mem := by
  simp [erase]

@[simp] theorem execErase_inv (d : Nat) (s : State) (h : Memory.wf s.mem = true) :
    Always State.Inv (execErase d s) := by
  simp [execErase, h]

@[simp] theorem toZeroise_mem (s : State) :
    (toZeroise s).mem = s.mem := by
  simp [toZeroise]

@[simp] theorem execLedgerDone_inv (d : Nat) (s : State) (h : Memory.wf s.mem = true) :
    Always State.Inv (execLedgerDone d s) := by
  simp [execLedgerDone, h]

@[simp] theorem execDebugLedgerTimeout_inv (s : State) (h : Memory.wf s.mem = true) :
    Always State.Inv (execDebugLedgerTimeout s) := by
  simp [execDebugLedgerTimeout, h]

@[simp] theorem zeroiseDone_mem (s : State) :
    (zeroiseDone s).mem = s.mem := by
  simp [zeroiseDone]

@[simp] theorem execZeroiseDone_inv (s : State) (h : Memory.wf s.mem = true) :
    Always State.Inv (execZeroiseDone s) := by
  simp [execZeroiseDone, h]

@[simp] theorem execZeroiseRetry_inv (s : State) (h : Memory.wf s.mem = true) :
    Always State.Inv (execZeroiseRetry s) := by
  simp [execZeroiseRetry, h]

@[simp] theorem execLockstepMismatch_inv (d : Nat) (pairB : Bool) (s : State) (h : Memory.wf s.mem = true) :
    Always State.Inv (execLockstepMismatch d pairB s) := by
  simp [execLockstepMismatch, h]

@[simp] theorem mirrorFence_mem (s : State) (d : Nat) :
    (mirrorFence s d).mem = s.mem := by
  simp [mirrorFence]

@[simp] theorem execTlrMirrorFence_inv (d : Nat) (s : State) (h : Memory.wf s.mem = true) :
    Always State.Inv (execTlrMirrorFence d s) := by
  simp [execTlrMirrorFence, h]

@[simp] theorem execMirrorFenceComplete_inv (s : State) (h : Memory.wf s.mem = true) :
    Always State.Inv (execMirrorFenceComplete s) := by
  simp [execMirrorFenceComplete, h]

end Sys2Proof.Machine
end

section
/-! SUPPORT. Memory under the operations of Machine/Flags.lean: `_mem` where it is left alone, `_memwf` and `_inv` where it stays canonical. -/

namespace Sys2Proof.Machine

@[simp] theorem csrRead_mem (s : State) (d off : Nat) :
    (csrRead s d off).2.mem = s.mem := by
  unfold csrRead
  split
  · simp
  · split
    · simp
    · split
      · split
        all_goals simp
      · split
        · simp
        · split
          · simp
          · split
            all_goals simp
      · split
        · simp
        · split
          all_goals simp

end Sys2Proof.Machine
end

section
/-! SUPPORT. Memory under the operations of Machine/Csr.lean: `_mem` where it is left alone, `_memwf` and `_inv` where it stays canonical. -/

namespace Sys2Proof.Machine

@[simp] theorem tlrSend_inv (s : State) (d : Nat) (h : Memory.wf s.mem = true) :
    Always State.Inv (tlrSend s d) := by
  unfold tlrSend
  split
  all_goals simp [h]

@[simp] theorem fillSend_memwf (s : State) (d : Nat) (p : Packet) (h : Memory.wf s.mem = true) :
    Memory.wf (fillSend s d p).mem = true := by
  unfold fillSend
  simp +contextual [h]

@[simp] theorem execTlrSend_inv (d : Nat) (p : Packet) (s : State) (h : Memory.wf s.mem = true) :
    Always State.Inv (execTlrSend d p s) := by
  unfold execTlrSend
  split
  all_goals simp [h]

@[simp] theorem andThen_inv {o : Out} {f : State → Out} (ho : Always State.Inv o)
    (hf : ∀ t, Memory.wf t.mem = true → Always State.Inv (f t)) : Always State.Inv (andThen o f) := by
  unfold andThen
  split
  · exact hf _ ho
  · exact ho

@[simp] theorem onBit_mem (v : Word) (b : Nat) {f : State → State} (hf : ∀ s, (f s).mem = s.mem) (s : State) : (onBit v b f s).mem = s.mem := by
  unfold onBit
  split
  · exact hf s
  · rfl

@[simp] theorem onBit_memwf (v : Word) (b : Nat) {f : State → State} (hf : ∀ s, Memory.wf s.mem = true → Memory.wf (f s).mem = true)
    (s : State) (h : Memory.wf s.mem = true) : Memory.wf (onBit v b f s).mem = true := by
  unfold onBit
  split
  · exact hf s h
  · exact h

@[simp] theorem loadCtlWrite_inv (s : State) (v : Word) (h : Memory.wf s.mem = true) :
    Always State.Inv (loadCtlWrite s v) := by
  unfold loadCtlWrite
  split
  · simp [h]
  · split
    all_goals simp [h]

@[simp] theorem stlCtlWrite_mem (s : State) (d : Nat) (v : Word) :
    (stlCtlWrite s d v).mem = s.mem := by
  simp [stlCtlWrite]

@[simp] theorem stopCtlWrite_memwf (s : State) (d : Nat) (v : Word) (h : Memory.wf s.mem = true) :
    Memory.wf (stopCtlWrite s d v).mem = true := by
  unfold stopCtlWrite
  simp +contextual [h]

@[simp] theorem partCtlWrite_memwf (s : State) (v : Word) (h : Memory.wf s.mem = true) :
    Memory.wf (partCtlWrite s v).mem = true := by
  unfold partCtlWrite
  split
  · simp [h]
  · split
    all_goals simp [h]

@[simp] theorem secCtlWrite_mem (s : State) (d : Nat) (v : Word) (src : BitVec 32) :
    (secCtlWrite s d v src).mem = s.mem := by
  simp [secCtlWrite]

@[simp] theorem queueCfgWrite_mem (s : State) (d k : Nat) (v : Word) :
    (queueCfgWrite s d k v).mem = s.mem := by
  simp [queueCfgWrite]

theorem actFabric_inv (s : State) (d off : Nat) (v : Word) (h : Memory.wf s.mem = true) :
    ∀ o ∈ actFabric s d off v, Always State.Inv o := by
  have hgt (k e w : Nat) := gtWrite_inv s d k e w v h
  unfold actFabric
  split
  · rintro _ ⟨rfl⟩
    exact onBit_memwf _ _ (fun s h => by simp [h]) _ h
  · split
    · simp [h]
    · split
      · simp
      · split
        · simp [h]
        · split
          · simp [h]
          · split
            · split
              · simp [h]
              · split
                · rintro _ ⟨rfl⟩
                  exact hgt _ _ _
                · simp
            · simp

theorem actHealth_inv (s : State) (d off : Nat) (v : Word) (h : Memory.wf s.mem = true) :
    ∀ o ∈ actHealth s d off v, Always State.Inv o := by
  unfold actHealth
  split
  · simp [h]
  · split
    · simp [h]
    · split
      · simp [h]
      · split
        · simp [h]
        · split
          · simp [h]
          · split
            · simp [h]
            · split
              · simp [h]
              · split
                all_goals simp [h]

theorem actTailor_inv (s : State) (d off : Nat) (v : Word) (src : BitVec 32) (h : Memory.wf s.mem = true) :
    ∀ o ∈ actTailor s d off v src, Always State.Inv o := by
  unfold actTailor
  split
  · split
    all_goals simp [h]
  · split
    · simp [h]
    · split
      · simp [h]
      · split
        · simp [h]
        · split
          all_goals simp [h]

@[simp] theorem regWrite_inv (s : State) (d off : Nat) (v : Word) (src : BitVec 32) (h : Memory.wf s.mem = true) :
    Always State.Inv (regWrite s d off v src) := by
  unfold regWrite
  split
  · trivial
  · split
    · rw [always_next, State.inv_iff, permitWrite_mem]
      exact h
    · split
      · next o ho => exact actFabric_inv s d off v h o ho
      · split
        · next o ho => exact actHealth_inv s d off v h o ho
        · split
          · next o ho => exact actTailor_inv s d off v src h o ho
          · rw [always_next, State.inv_iff, csrStore_mem]
            exact h

@[simp] theorem windowWrite_inv (s : State) (d off : Nat) (v : Word) (h : Memory.wf s.mem = true) :
    Always State.Inv (windowWrite s d off v) := by
  unfold windowWrite
  split
  · simp [h]
  · split
    all_goals simp [h]

@[simp] theorem plainWrite_inv (s : State) (d off : Nat) (v : Word) (src : BitVec 32) (h : Memory.wf s.mem = true) :
    Always State.Inv (plainWrite s d off v src) := by
  unfold plainWrite
  split
  · simp [h]
  · split
    · simp [h]
    · split
      · simp [h]
      · split
        all_goals simp [h]

@[simp] theorem rcsrEnd_mem (s : State) (d status : Nat) (v : Option Word) : (rcsrEnd s d status v).mem = s.mem := by
  cases v
  all_goals simp [rcsrEnd]

@[simp] theorem rcsrPacket_mem (s : State) (d : Nat) (write : Bool) :
    (rcsrPacket s d write).mem = s.mem := by
  simp [rcsrPacket]

@[simp] theorem rcsrSetup_inv {wr : State → Nat → Nat → Word → BitVec 32 → Out} {s : State} (d : Nat) (write : Bool)
    (hwr : ∀ t d off v src, Memory.wf t.mem = true → Always State.Inv (wr t d off v src)) (h : Memory.wf s.mem = true) :
    Always State.Inv (rcsrSetup wr s d write) := by
  unfold rcsrSetup
  dsimp only
  split
  · exact h
  · split
    · exact andThen_inv (hwr _ _ _ _ _ h) fun t ht => by simp [ht]
    · simp [h]

@[simp] theorem rcsrGo_inv {wr : State → Nat → Nat → Word → BitVec 32 → Out} {s : State} (d : Nat) (write : Bool)
    (hwr : ∀ t d off v src, Memory.wf t.mem = true → Always State.Inv (wr t d off v src)) (h : Memory.wf s.mem = true) :
    Always State.Inv (rcsrGo wr s d write) := by
  unfold rcsrGo
  dsimp only
  split
  · exact h
  · split
    · exact rcsrSetup_inv d write hwr (by simp [h])
    · simp [h]

@[simp] theorem csrWriteN_inv (n : Nat) {s : State} (d off : Nat) (v : Word) (src : BitVec 32) (h : Memory.wf s.mem = true) :
    Always State.Inv (csrWriteN n s d off v src) := by
  induction n generalizing s d off v src with
  | zero => exact plainWrite_inv s d off v src h
  | succ n ih =>
    unfold csrWriteN
    split
    · split
      · exact rcsrGo_inv d _ (fun _ _ _ _ _ ht => ih _ _ _ _ ht) h
      · exact h
    · exact plainWrite_inv s d off v src h

@[simp] theorem csrWrite_inv (s : State) (d off : Nat) (v : Word) (src : BitVec 32) (h : Memory.wf s.mem = true) :
    Always State.Inv (csrWrite s d off v src) := by
  simp [csrWrite, h]

@[simp] theorem execCsrRegisterWrite_inv (d off : Nat) (a : RegAccess) (v : Word) (s : State) (h : Memory.wf s.mem = true) :
    Always State.Inv (execCsrRegisterWrite d off a v s) := by
  unfold execCsrRegisterWrite
  split
  · simp
  · split
    all_goals simp [h]

@[simp] theorem execRcsrRead_inv (d : Nat) (s : State) (h : Memory.wf s.mem = true) :
    Always State.Inv (execRcsrRead d s) := by
  unfold execRcsrRead
  split
  · simp +contextual [h]
  · simp

@[simp] theorem execRcsrWrite_inv (d : Nat) (s : State) (h : Memory.wf s.mem = true) :
    Always State.Inv (execRcsrWrite d s) := by
  unfold execRcsrWrite
  split
  · simp +contextual [h]
  · simp

@[simp] theorem execRcsrTimeout_inv (d : Nat) (s : State) (h : Memory.wf s.mem = true) :
    Always State.Inv (execRcsrTimeout d s) := by
  unfold execRcsrTimeout
  split
  all_goals simp [h]

@[simp] theorem rcsrData_mem (s : State) (d : Nat) (h : Hdr) :
    (rcsrData s d h).mem = s.mem := by
  unfold rcsrData
  split
  all_goals simp

end Sys2Proof.Machine
end

section
/-! SUPPORT. Memory under the operations of Machine/Host.lean: `_mem` where it is left alone, `_memwf` and `_inv` where it stays canonical. -/

namespace Sys2Proof.Machine

@[simp] theorem execBar2Write_inv (d off : Nat) (bs : Bytes) (s : State) (h : Memory.wf s.mem = true) :
    Always State.Inv (execBar2Write d off bs s) := by
  simp [execBar2Write, h]

@[simp] theorem hostGets_mem (s : State) (off : Nat) (bs : List Byte) :
    (hostGets s off bs).mem = s.mem :=
  (rfl)

@[simp] theorem hostRead_mem (s : State) (d off n : Nat) :
    (hostRead s d off n).mem = s.mem :=
  (rfl)

@[simp] theorem hostReads_mem (d n n1 n2 : Nat) (s : State) :
    (hostReads d n n1 n2 s).mem = s.mem := by
  fun_induction hostReads d n n1 n2 s
  all_goals simp_all

@[simp] theorem execBar2Read_inv (d off n : Nat) (s : State) (h : Memory.wf s.mem = true) :
    Always State.Inv (execBar2Read d off n s) := by
  simp [execBar2Read, h]

@[simp] theorem hostFail_mem (s : State) (d : Nat) (j : HostJob) :
    (hostFail s d j).mem = s.mem := by
  simp [hostFail]

@[simp] theorem execBar2ReadTimeout_inv (d slot : Nat) (s : State) (h : Memory.wf s.mem = true) :
    Always State.Inv (execBar2ReadTimeout d slot s) := by
  unfold execBar2ReadTimeout
  split
  all_goals simp [h]

@[simp] theorem hostAnswer_mem (s : State) (d tag : Nat) (us : Option (List DataUnit)) :
    (hostAnswer s d tag us).mem = s.mem := by
  unfold hostAnswer
  dsimp only
  repeat' split
  all_goals simp

end Sys2Proof.Machine
end

section
/-! SUPPORT. Memory under the operations of Machine/Packets.lean: `_mem` where it is left alone, `_memwf` and `_inv` where it stays canonical. -/

namespace Sys2Proof.Machine

@[simp] theorem notTaken_inv (s : State) (d : Nat) : Always State.Inv (notTaken s d) := by
  unfold notTaken
  split
  all_goals trivial

@[simp] theorem nodeArrive_inv {s : State} (d att cmd : Nat) (p : Packet) {other : Out} (h : Memory.wf s.mem = true)
    (hother : Always State.Inv other) : Always State.Inv (nodeArrive s d att cmd p other) := by
  unfold nodeArrive
  refine headerChecked_inv d att p h ?_
  split
  · exact arrive_inv d att cmd p h fun t ht => tileArrive_memwf t d att p ht
  · split
    · split
      · exact arrive_inv d att cmd p h fun t ht => mpArrive_memwf t d p ht
      · trivial
    · exact hother

@[simp] theorem stageAccess_memwf (s : State) (d k : Nat) (p : Packet) (h : Memory.wf s.mem = true) :
    Memory.wf (stageAccess s d k p).mem = true := by
  unfold stageAccess
  dsimp only
  split
  all_goals simp [h]

@[simp] theorem stageIngress_memwf (s : State) (d k : Nat) (p : Packet) (h : Memory.wf s.mem = true) :
    Memory.wf (stageIngress s d k p).mem = true := by
  unfold stageIngress
  split
  · rename_i h7
    simp [ceIngress_mem _ h7, h]
  · simp [h]

@[simp] theorem headRamWrite_memwf (s : State) (d att : Nat) (p : Packet) (h : Memory.wf s.mem = true) :
    Memory.wf (headRamWrite s d att p).mem = true := by
  unfold headRamWrite
  dsimp only
  split
  all_goals simp [h]

@[simp] theorem accessArrive_inv (s : State) (d att cmd : Nat) (p : Packet) (h : Memory.wf s.mem = true) :
    Always State.Inv (accessArrive s d att cmd p) := by
  unfold accessArrive
  refine nodeArrive_inv d att cmd p h ?_
  split
  · refine arriveAt_inv d att cmd p h fun t ht => ?_
    split
    · trivial
    · exact stageIngress_memwf t d _ p ht
  · split
    · exact arrive_inv d att cmd p h fun t ht => headRamWrite_memwf t d att p ht
    · exact notTaken_inv s d

@[simp] theorem execWrite_inv (d att : Nat) (p : Packet) (s : State) (h : Memory.wf s.mem = true) :
    Always State.Inv (execWrite d att p s) := by
  simp [execWrite, h]

@[simp] theorem execWriteAck_inv (d att : Nat) (p : Packet) (s : State) (h : Memory.wf s.mem = true) :
    Always State.Inv (execWriteAck d att p s) := by
  simp [execWriteAck, h]

@[simp] theorem execWrite8_inv (d att : Nat) (p : Packet) (s : State) (h : Memory.wf s.mem = true) :
    Always State.Inv (execWrite8 d att p s) := by
  simp [execWrite8, h]

@[simp] theorem execRead_inv (d att : Nat) (p : Packet) (s : State) (h : Memory.wf s.mem = true) :
    Always State.Inv (execRead d att p s) := by
  simp [execRead, h]

@[simp] theorem collArrive_inv (s : State) (d att cmd : Nat) (p : Packet) (residue : Bool) (h : Memory.wf s.mem = true) :
    Always State.Inv (collArrive s d att cmd p residue) := by
  unfold collArrive
  refine nodeArrive_inv d att cmd p h ?_
  split
  · exact arrive_inv d att cmd p h fun t ht => ceData_memwf t d _ p residue ht
  · exact notTaken_inv s d

@[simp] theorem execCollData_inv (d att : Nat) (p : Packet) (s : State) (h : Memory.wf s.mem = true) :
    Always State.Inv (execCollData d att p s) := by
  simp [execCollData, h]

@[simp] theorem execA2aData_inv (d att : Nat) (p : Packet) (s : State) (h : Memory.wf s.mem = true) :
    Always State.Inv (execA2aData d att p s) := by
  simp [execA2aData, h]

@[simp] theorem execA2aCount_inv (d att : Nat) (p : Packet) (s : State) (h : Memory.wf s.mem = true) :
    Always State.Inv (execA2aCount d att p s) := by
  simp [execA2aCount, h]

@[simp] theorem execPour_inv (d att : Nat) (p : Packet) (s : State) (h : Memory.wf s.mem = true) :
    Always State.Inv (execPour d att p s) := by
  simp [execPour, h]

@[simp] theorem execRedSum_inv (d att : Nat) (p : Packet) (residue : Bool) (s : State) (h : Memory.wf s.mem = true) :
    Always State.Inv (execRedSum d att p residue s) := by
  simp [execRedSum, h]

@[simp] theorem execRedMax_inv (d att : Nat) (p : Packet) (residue : Bool) (s : State) (h : Memory.wf s.mem = true) :
    Always State.Inv (execRedMax d att p residue s) := by
  simp [execRedMax, h]

@[simp] theorem execRedMin_inv (d att : Nat) (p : Packet) (residue : Bool) (s : State) (h : Memory.wf s.mem = true) :
    Always State.Inv (execRedMin d att p residue s) := by
  simp [execRedMin, h]

@[simp] theorem execRedProd_inv (d att : Nat) (p : Packet) (residue : Bool) (s : State) (h : Memory.wf s.mem = true) :
    Always State.Inv (execRedProd d att p residue s) := by
  simp [execRedProd, h]

@[simp] theorem execRedAnd_inv (d att : Nat) (p : Packet) (residue : Bool) (s : State) (h : Memory.wf s.mem = true) :
    Always State.Inv (execRedAnd d att p residue s) := by
  simp [execRedAnd, h]

@[simp] theorem execRedOr_inv (d att : Nat) (p : Packet) (residue : Bool) (s : State) (h : Memory.wf s.mem = true) :
    Always State.Inv (execRedOr d att p residue s) := by
  simp [execRedOr, h]

@[simp] theorem execRedXor_inv (d att : Nat) (p : Packet) (residue : Bool) (s : State) (h : Memory.wf s.mem = true) :
    Always State.Inv (execRedXor d att p residue s) := by
  simp [execRedXor, h]

@[simp] theorem ringTake_memwf (s : State) (d : Nat) (p : Packet) (h : Memory.wf s.mem = true) :
    Memory.wf (ringTake s d p).mem = true := by
  unfold ringTake
  extract_lets us i
  split
  all_goals simp [h]

@[simp] theorem ceResponse_inv (s : State) (d k : Nat) (p : Packet) (h : Memory.wf s.mem = true) :
    Always State.Inv (ceResponse s d k p) := by
  unfold ceResponse
  dsimp only
  split
  · simp [h]
  · rename_i h6
    split
    · split
      all_goals simp [ceIngress_mem _ h6, h]
    · simp [ceIngress_mem _ h6, h]

@[simp] theorem ctlResponse_memwf (s : State) (d : Nat) (p : Packet) (h : Memory.wf s.mem = true) :
    Memory.wf (ctlResponse s d p).mem = true := by
  unfold ctlResponse
  dsimp only
  split
  · simp [h]
  · split
    · simp [h]
    · split
      · simp [h]
      · split
        · simp [h]
        · split
          all_goals simp [h]

@[simp] theorem portResponse_mem (s : State) (d att : Nat) (p : Packet) :
    (portResponse s d att p).mem = s.mem := by
  simp [portResponse]

@[simp] theorem respond_inv (s : State) (d att : Nat) (p : Packet) (h : Memory.wf s.mem = true) :
    Always State.Inv (respond s d att p) := by
  unfold respond
  split
  all_goals simp [h]

@[simp] theorem respArrive_inv (s : State) (d att cmd : Nat) (p : Packet) (h : Memory.wf s.mem = true) :
    Always State.Inv (respArrive s d att cmd p) := by
  unfold respArrive
  refine headerChecked_inv d att p h ?_
  split
  · trivial
  · split
    · trivial
    · split
      · trivial
      · exact arriveAt_inv d att cmd p h fun t ht => respond_inv t d att p ht

@[simp] theorem execReadData_inv (d att : Nat) (p : Packet) (s : State) (h : Memory.wf s.mem = true) :
    Always State.Inv (execReadData d att p s) := by
  simp [execReadData, h]

@[simp] theorem execAck_inv (d att : Nat) (p : Packet) (s : State) (h : Memory.wf s.mem = true) :
    Always State.Inv (execAck d att p s) := by
  simp [execAck, h]

@[simp] theorem execCsrData_inv (d att : Nat) (p : Packet) (s : State) (h : Memory.wf s.mem = true) :
    Always State.Inv (execCsrData d att p s) := by
  simp [execCsrData, h]

@[simp] theorem ctlArrive_inv {s : State} (d att cmd : Nat) (p : Packet) {act : State → Out} (h : Memory.wf s.mem = true)
    (hact : ∀ t, Memory.wf t.mem = true → Always State.Inv (act t)) : Always State.Inv (ctlArrive s d att cmd p act) := by
  unfold ctlArrive
  split
  · exact arriveAt_inv d att cmd p h hact
  · trivial

@[simp] theorem execTimeXferRequest_inv (d att : Nat) (p : Packet) (s : State) (h : Memory.wf s.mem = true) :
    Always State.Inv (execTimeXferRequest d att p s) := by
  unfold execTimeXferRequest
  split
  all_goals simp [h]

@[simp] theorem execTimeXferResponse_inv (d att : Nat) (p : Packet) (s : State) (h : Memory.wf s.mem = true) :
    Always State.Inv (execTimeXferResponse d att p s) := by
  unfold execTimeXferResponse
  split
  all_goals simp [h]

@[simp] theorem execCsrRead_inv (d att : Nat) (p : Packet) (s : State) (h : Memory.wf s.mem = true) :
    Always State.Inv (execCsrRead d att p s) := by
  simp [execCsrRead, h]

@[simp] theorem execCsrWrite_inv (d att : Nat) (p : Packet) (s : State) (h : Memory.wf s.mem = true) :
    Always State.Inv (execCsrWrite d att p s) := by
  unfold execCsrWrite
  simp +contextual [h]

@[simp] theorem ledgerTake_mem (s : State) (d : Nat) (p : Packet) :
    (ledgerTake s d p).mem = s.mem := by
  simp [ledgerTake]

@[simp] theorem execTrace_inv (d att : Nat) (p : Packet) (s : State) (h : Memory.wf s.mem = true) :
    Always State.Inv (execTrace d att p s) := by
  unfold execTrace
  split
  all_goals simp [h]

end Sys2Proof.Machine
end

section
/-! SUPPORT. Every command, and so every step, keeps memory canonical. -/

namespace Sys2Proof.Machine

/-- Whatever a command does, memory stays in its canonical form. -/
theorem exec_inv (i : Instr) (s : State) (hwf : Memory.wf s.mem = true) : Always State.Inv (exec i s) := by
  cases i with
  | coldReset d => exact execColdReset_inv d s hwf
  | timeKeeperTick d w e => exact execTimeKeeperTick_inv d w e s hwf
  | roundBoundary d => exact execRoundBoundary_inv d s hwf
  | reservedSlotStart d p o => exact execReservedSlotStart_inv d p o s hwf
  | outputArbitration d p o => exact execOutputArbitration_inv d p o s hwf
  | routerHeaderArrival d p j => exact execRouterHeaderArrival_inv d p j s hwf
  | linkUnitArrival d p j u => exact execLinkUnitArrival_inv d p j u s hwf
  | contextCeiling d p c => exact execContextCeiling_inv d p c s hwf
  | tpInjectUnit d p v last u => exact execTpInjectUnit_inv d p v last u s hwf
  | niInject d att v => exact execNiInject_inv d att v s hwf
  | orderedDrainEnd d att => exact execOrderedDrainEnd_inv d att s hwf
  | tpDeliver d p v => exact execTpDeliver_inv d p v s hwf
  | tpGenLoaded d p gen => exact execTpGenLoaded_inv d p gen s hwf
  | tpReadData d p tag => exact execTpReadData_inv d p tag s hwf
  | twinNotice d p addr be u => exact execTwinNotice_inv d p addr be u s hwf
  | write d att p => exact execWrite_inv d att p s hwf
  | writeAck d att p => exact execWriteAck_inv d att p s hwf
  | write8 d att p => exact execWrite8_inv d att p s hwf
  | read d att p => exact execRead_inv d att p s hwf
  | readData d att p => exact execReadData_inv d att p s hwf
  | ack d att p => exact execAck_inv d att p s hwf
  | syncRead d h => exact execSyncRead_inv d h s hwf
  | syncInit d h => exact execSyncInit_inv d h s hwf
  | syncAdd d h => exact execSyncAdd_inv d h s hwf
  | syncArrive d h => exact execSyncArrive_inv d h s hwf
  | syncTake d h => exact execSyncTake_inv d h s hwf
  | syncAcquire d h => exact execSyncAcquire_inv d h s hwf
  | syncUnlock d h => exact execSyncUnlock_inv d h s hwf
  | syncSet d h => exact execSyncSet_inv d h s hwf
  | syncSetMax d h => exact execSyncSetMax_inv d h s hwf
  | syncWait d h => exact execSyncWait_inv d h s hwf
  | syncCancel d h => exact execSyncCancel_inv d h s hwf
  | syncRelease d k h => exact execSyncRelease_inv d k h s hwf
  | commitStage d p => exact execCommitStage_inv d p s hwf
  | commitAck d k h => exact execCommitAck_inv d k h s hwf
  | confirm d h => exact execConfirm_inv d h s hwf
  | targetReport d att h => exact execTargetReport_inv d att h s hwf
  | commitOutcome d k h => exact execCommitOutcome_inv d k h s hwf
  | collData d att p => exact execCollData_inv d att p s hwf
  | a2aData d att p => exact execA2aData_inv d att p s hwf
  | a2aCount d att p => exact execA2aCount_inv d att p s hwf
  | pour d att p => exact execPour_inv d att p s hwf
  | chunkNack d k h => exact execChunkNack_inv d k h s hwf
  | abort d k h => exact execAbort_inv d k h s hwf
  | redSum d att p residue => exact execRedSum_inv d att p residue s hwf
  | redMax d att p residue => exact execRedMax_inv d att p residue s hwf
  | redMin d att p residue => exact execRedMin_inv d att p residue s hwf
  | redProd d att p residue => exact execRedProd_inv d att p residue s hwf
  | redAnd d att p residue => exact execRedAnd_inv d att p residue s hwf
  | redOr d att p residue => exact execRedOr_inv d att p residue s hwf
  | redXor d att p residue => exact execRedXor_inv d att p residue s hwf
  | dieHeartbeat d att h => exact execDieHeartbeat_inv d att h s hwf
  | packageHeartbeat d att h => exact execPackageHeartbeat_inv d att h s hwf
  | verdict d att h => exact execVerdict_inv d att h s hwf
  | suspect d att h => exact execSuspect_inv d att h s hwf
  | timeXferRequest d att p => exact execTimeXferRequest_inv d att p s hwf
  | timeXferResponse d att p => exact execTimeXferResponse_inv d att p s hwf
  | probe d p j pk => exact execProbe_inv d p j pk s hwf
  | genToken d p h => exact execGenToken_inv d p h s hwf
  | csrRead d att p => exact execCsrRead_inv d att p s hwf
  | csrWrite d att p => exact execCsrWrite_inv d att p s hwf
  | csrData d att p => exact execCsrData_inv d att p s hwf
  | trace d att p => exact execTrace_inv d att p s hwf
  | descriptorFetch d k e => exact execDescriptorFetch_inv d k e s hwf
  | descriptorFetchRetry d k e => exact execDescriptorFetchRetry_inv d k e s hwf
  | nop d k e => exact execNop_inv d k e s hwf
  | allReduce d k e => exact execAllReduce_inv d k e s hwf
  | reduce d k e => exact execReduce_inv d k e s hwf
  | reduceScatter d k e => exact execReduceScatter_inv d k e s hwf
  | allGather d k e => exact execAllGather_inv d k e s hwf
  | broadcast d k e => exact execBroadcast_inv d k e s hwf
  | allToAll d k e => exact execAllToAll_inv d k e s hwf
  | allToAllV d k e => exact execAllToAllV_inv d k e s hwf
  | barrier d k e => exact execBarrier_inv d k e s hwf
  | chunkStart d k e tag => exact execChunkStart_inv d k e tag s hwf
  | stagingWaitEnd d k => exact execStagingWaitEnd_inv d k s hwf
  | orderSend d p => exact execOrderSend_inv d p s hwf
  | orderClear d p => exact execOrderClear_inv d p s hwf
  | orderCancel d p => exact execOrderCancel_inv d p s hwf
  | orderReport d p => exact execOrderReport_inv d p s hwf
  | chunkTimeout d att n => exact execChunkTimeout_inv d att n s hwf
  | chunkResend d k e tag => exact execChunkResend_inv d k e tag s hwf
  | ceHang d k e tag => exact execCeHang_inv d k e tag s hwf
  | operationEnd d k e tag => exact execOperationEnd_inv d k e tag s hwf
  | ceGroupCtlSkip d k e => exact execCeGroupCtlSkip_inv d k e s hwf
  | ceGroupCtlResume d k e => exact execCeGroupCtlResume_inv d k e s hwf
  | ceGtDataWrite d k v => exact execCeGtDataWrite_inv d k v s hwf
  | lockCeilingExamine d => exact execLockCeilingExamine_inv d s hwf
  | synBreak d v => exact execSynBreak_inv d v s hwf
  | synObjLoWrite d o v => exact execSynObjLoWrite_inv d o v s hwf
  | commitRequestFetch d k => exact execCommitRequestFetch_inv d k s hwf
  | confirmDeadline d k n => exact execConfirmDeadline_inv d k n s hwf
  | outcomeWaitExpiry d k n => exact execOutcomeWaitExpiry_inv d k n s hwf
  | commitApply d => exact execCommitApply_inv d s hwf
  | recorderDecision d => exact execRecorderDecision_inv d s hwf
  | frameTransmit d => exact execFrameTransmit_inv d s hwf
  | idleFrame d f => exact execIdleFrame_inv d f s hwf
  | dataFrame d f => exact execDataFrame_inv d f s hwf
  | ingressForward d => exact execIngressForward_inv d s hwf
  | stitchTimeRequest d f => exact execStitchTimeRequest_inv d f s hwf
  | stitchTimeResponse d f => exact execStitchTimeResponse_inv d f s hwf
  | fenceFrame d f => exact execFenceFrame_inv d f s hwf
  | laneRequest d f => exact execLaneRequest_inv d f s hwf
  | laneAck d f => exact execLaneAck_inv d f s hwf
  | initFrame d f => exact execInitFrame_inv d f s hwf
  | fecLockLoss d => exact execFecLockLoss_inv d s hwf
  | noFrameTimeout d => exact execNoFrameTimeout_inv d s hwf
  | pmaSignalDetect d lanes => exact execPmaSignalDetect_inv d lanes s hwf
  | pmaLock d lanes => exact execPmaLock_inv d lanes s hwf
  | alignmentLock d group => exact execAlignmentLock_inv d group s hwf
  | detectTimeout d => exact execDetectTimeout_inv d s hwf
  | equaliseTimeout d => exact execEqualiseTimeout_inv d s hwf
  | alignTimeout d => exact execAlignTimeout_inv d s hwf
  | retrainTimeout d => exact execRetrainTimeout_inv d s hwf
  | laneErrorWindow d => exact execLaneErrorWindow_inv d s hwf
  | switchGroupReached d group => exact execSwitchGroupReached_inv d group s hwf
  | stlCtlFence d => exact execStlCtlFence_inv d s hwf
  | stlCtlRetrain d => exact execStlCtlRetrain_inv d s hwf
  | portRetrainRetry d => exact execPortRetrainRetry_inv d s hwf
  | seamFrame d j f => exact execSeamFrame_inv d j f s hwf
  | ucieStateChange d j active fullRate extra => exact execUcieStateChange_inv d j active fullRate extra s hwf
  | seamPanelWrite d v => exact execSeamPanelWrite_inv d v s hwf
  | gateEntryEnd d g => exact execGateEntryEnd_inv d g s hwf
  | gateTakeover d g => exact execGateTakeover_inv d g s hwf
  | shaperRefill d g v => exact execShaperRefill_inv d g v s hwf
  | meterRefill d g v => exact execMeterRefill_inv d g v s hwf
  | queueSample d pt => exact execQueueSample_inv d pt s hwf
  | qsampleClear d pt v => exact execQsampleClear_inv d pt v s hwf
  | ppsEdge d => exact execPpsEdge_inv d s hwf
  | ppsMissing d => exact execPpsMissing_inv d s hwf
  | ptpSubmit d => exact execPtpSubmit_inv d s hwf
  | timeXferPeriod d => exact execTimeXferPeriod_inv d s hwf
  | parentLost d => exact execParentLost_inv d s hwf
  | timFtRead d => exact execTimFtRead_inv d s hwf
  | niGovCapWrite d v => exact execNiGovCapWrite_inv d v s hwf
  | linkSecWindowEnd d p j => exact execLinkSecWindowEnd_inv d p j s hwf
  | probeSend d p len seed => exact execProbeSend_inv d p len seed s hwf
  | probeTimeout d p => exact execProbeTimeout_inv d p s hwf
  | probeRepeat d p => exact execProbeRepeat_inv d p s hwf
  | scrubWord d w err => exact execScrubWord_inv d w err s hwf
  | wearRotation d => exact execWearRotation_inv d s hwf
  | telemetrySend d temp => exact execTelemetrySend_inv d temp s hwf
  | heartbeatSend d => exact execHeartbeatSend_inv d s hwf
  | heartbeatMiss d x => exact execHeartbeatMiss_inv d x s hwf
  | packageHeartbeatSend => exact execPackageHeartbeatSend_inv s hwf
  | packageHeartbeatMiss d => exact execPackageHeartbeatMiss_inv d s hwf
  | interimRoutePatch d => exact execInterimRoutePatch_inv d s hwf
  | kerexPatch t ss => exact execKerexPatch_inv t ss s hwf
  | twinReadComplete d ok => exact execTwinReadComplete_inv d ok s hwf
  | shiftComplete d => exact execShiftComplete_inv d s hwf
  | clkFault d panel => exact execClkFault_inv d panel s hwf
  | pnlDownAck d panel => exact execPnlDownAck_inv d panel s hwf
  | pnlAckTimeout d panel => exact execPnlAckTimeout_inv d panel s hwf
  | stallThreshold d kind unit port => exact execStallThreshold_inv d kind unit port s hwf
  | stallEscalate d kind unit port => exact execStallEscalate_inv d kind unit port s hwf
  | tailorWatchdog d => exact execTailorWatchdog_inv d s hwf
  | mndTailorKick d => exact execMndTailorKick_inv d s hwf
  | mndPartCtlMend q => exact execMndPartCtlMend_inv q s hwf
  | mndPartCtlAll => exact execMndPartCtlAll_inv s hwf
  | mendIsolate q => exact execMendIsolate_inv q s hwf
  | mendFlush q => exact execMendFlush_inv q s hwf
  | mendDump q => exact execMendDump_inv q s hwf
  | mendReset q => exact execMendReset_inv q s hwf
  | mendRetrain q => exact execMendRetrain_inv q s hwf
  | mendTest q fails => exact execMendTest_inv q fails s hwf
  | mendRelock q => exact execMendRelock_inv q s hwf
  | mendRestore q => exact execMendRestore_inv q s hwf
  | mendRejoin q => exact execMendRejoin_inv q s hwf
  | dumpEntry d => exact execDumpEntry_inv d s hwf
  | dumpReadTimeout d => exact execDumpReadTimeout_inv d s hwf
  | dumpWriteTimeout d => exact execDumpWriteTimeout_inv d s hwf
  | dumpEngineTimeout q => exact execDumpEngineTimeout_inv q s hwf
  | mndStopArm d => exact execMndStopArm_inv d s hwf
  | stopHalt d panel => exact execStopHalt_inv d panel s hwf
  | catchWindowEnd d panel => exact execCatchWindowEnd_inv d panel s hwf
  | mndStopRelease => exact execMndStopRelease_inv s hwf
  | mndStopCancel d => exact execMndStopCancel_inv d s hwf
  | patLoadStartCold => exact execPatLoadStartCold_inv s hwf
  | patLoadStartPatch => exact execPatLoadStartPatch_inv s hwf
  | patLoadStartArea => exact execPatLoadStartArea_inv s hwf
  | patLoadAbort => exact execPatLoadAbort_inv s hwf
  | loadPortWrite v => exact execLoadPortWrite_inv v s hwf
  | loadVerifyDone ok => exact execLoadVerifyDone_inv ok s hwf
  | areaCopyDone ok0 ok1 => exact execAreaCopyDone_inv ok0 ok1 s hwf
  | patchVerifyDone => exact execPatchVerifyDone_inv s hwf
  | permitsWritten num => exact execPermitsWritten_inv num s hwf
  | permitWrite d off src v => exact execPermitWrite_inv d off src v s hwf
  | patchCompletionRead num => exact execPatchCompletionRead_inv num s hwf
  | patchTPassed num => exact execPatchTPassed_inv num s hwf
  | builtinTestComplete fails => exact execBuiltinTestComplete_inv fails s hwf
  | trainComplete => exact execTrainComplete_inv s hwf
  | ledgerChain => exact execLedgerChain_inv s hwf
  | mirrorAck => exact execMirrorAck_inv s hwf
  | sealDue => exact execSealDue_inv s hwf
  | sealNow => exact execSealNow_inv s hwf
  | sealSigned => exact execSealSigned_inv s hwf
  | traceFlush d => exact execTraceFlush_inv d s hwf
  | countPeriod d => exact execCountPeriod_inv d s hwf
  | obsPrbCfgWrite d n v => exact execObsPrbCfgWrite_inv d n v s hwf
  | obsStatClear d v => exact execObsStatClear_inv d v s hwf
  | bootResetRelease d primary => exact execBootResetRelease_inv d primary s hwf
  | pcieLinkUp d => exact execPcieLinkUp_inv d s hwf
  | bootGo d => exact execBootGo_inv d s hwf
  | bootVerifyDone d => exact execBootVerifyDone_inv d s hwf
  | svnAdvance d => exact execSvnAdvance_inv d s hwf
  | provision d => exact execProvision_inv d s hwf
  | provisionDone d ok => exact execProvisionDone_inv d ok s hwf
  | erase d => exact execErase_inv d s hwf
  | debugOpen d => exact execDebugOpen_inv d s hwf
  | dbgOpenReq d => exact execDbgOpenReq_inv d s hwf
  | ledgerDone d => exact execLedgerDone_inv d s hwf
  | debugLedgerTimeout => exact execDebugLedgerTimeout_inv s hwf
  | zeroiseDone => exact execZeroiseDone_inv s hwf
  | zeroiseRetry => exact execZeroiseRetry_inv s hwf
  | lockstepMismatch d pairB => exact execLockstepMismatch_inv d pairB s hwf
  | tlrMirrorFence d => exact execTlrMirrorFence_inv d s hwf
  | mirrorFenceComplete => exact execMirrorFenceComplete_inv s hwf
  | tlrSend d p => exact execTlrSend_inv d p s hwf
  | bar2Write d off bs => exact execBar2Write_inv d off bs s hwf
  | bar2Read d off n => exact execBar2Read_inv d off n s hwf
  | bar2ReadTimeout d slot => exact execBar2ReadTimeout_inv d slot s hwf
  | rcsrRead d => exact execRcsrRead_inv d s hwf
  | rcsrWrite d => exact execRcsrWrite_inv d s hwf
  | rcsrTimeout d => exact execRcsrTimeout_inv d s hwf
  | svcRequest => exact execSvcRequest_inv s hwf
  | mpResponse d tag err => exact execMpResponse_inv d tag err s hwf
  | mpTimeout d tag => exact execMpTimeout_inv d tag s hwf
  | mpTrainDone d => exact execMpTrainDone_inv d s hwf
  | csrRegisterWrite d off a v => exact execCsrRegisterWrite_inv d off a v s hwf
  | synBreakExamine d => exact execSynBreakExamine_inv d s hwf
  | seamRecalibration d j temp => exact execSeamRecalibration_inv d j temp s hwf

/-- A step leaves memory canonical: the queue's rest is not part of it. -/
theorem step_inv (s : State) (h : Memory.wf s.mem = true) : Always State.Inv (step s) := by
  unfold step
  split
  · exact h
  · exact exec_inv _ _ h

/-- Settles O10: a command writes memory only by the operations that keep its form. -/
theorem stepKeepsMemoryCanonical : Obligations.StepKeepsMemoryCanonical :=
  fun s _ h hstep => Always.of_eq (step_inv s h) hstep

end Sys2Proof.Machine
end
